-- ==== Sys2Proof/Word.lean ====
section
/-! DEFINITION. The word types of the Trigar 2480: 64-bit words and scalar registers (R33, R57), bytes (R3),
1,024-bit vector registers (R35), and the 256-bit payload of a link word (R140). -/

namespace Sys2Proof

/-- A 64-bit word: an instruction word (R57), a g register (R33) or an address (R27). -/
abbrev Word := BitVec 64

/-- A byte; every multi-byte value is little-endian (R3). -/
abbrev Byte := BitVec 8

/-- A vector register: 32 lanes of 32 bits, lane 0 in the low bits (R35). -/
abbrev VWord := BitVec 1024

/-- A lane mask: bit j stands for lane j (R33). -/
abbrev Mask := BitVec 32

/-- The payload of a link word (R20, R140). -/
abbrev Payload := BitVec 256

end Sys2Proof
end

