-- ==== Sys2Proof/Config.lean ====
section
/-! DEFINITION. What the manual leaves to each part, and the free values: constants without a body, of which nothing can be proved but what
holds for every value of them. -/

namespace Sys2Proof.Config

/-- The n-th free bit pattern of 64 bits: a value that the manual does not state (see the assumption log). -/
opaque freeWord : Nat → Word

/-- The n-th free choice between two outcomes that the manual allows. -/
opaque freeChoice : Nat → Bool

/-- Cycles that a performance event has counted, event by event, since a counter was last brought up to date (R108). -/
opaque freeCycles : Nat → Nat → Nat

/-- The payload of a signalling NaN that a stream read has decoded into another type: the manual says that its payload is lost and not what
stands there (R314). -/
opaque signalPayload : Nat

/-- FUSE of %mxcad: the lowest cadence code of a cluster, fixed at test and different between parts (R198). -/
opaque fuse : Nat → BitVec 4

/-- The value of %modtab for an ASID: the manual gives the register no layout (R34). -/
opaque modtab : Nat → Word

/-- SHAKE256 with a 64-byte result (R372, R373, R378): the function of FIPS 202, which the manual does not print. -/
opaque shake256 : List Byte → BitVec 512

/-- The Falcon-1024 signature of the identity key over bytes, 1,280 bytes with padding (R372, R378). -/
opaque falconSign : List Byte → List Byte

/-- The digest that the boot ROM holds of the root public key (R372). -/
opaque romDigest : BitVec 512

/-- The root public key in the header of a firmware image, whose place in the image the manual does not give (R372). -/
opaque rootKey : List Byte → List Byte

/-- Whether the Falcon-1024 signature of a firmware image verifies under a public key (R372). -/
opaque falconVerify : List Byte → List Byte → Bool

/-- The bytes of the public key of the device's identity, derived from a fuse secret (R372). -/
opaque publicKey : Nat → Byte

/-- The number of the block of 8 bytes at which the boot ROM loads firmware, and that of its entry in the image: the manual states neither, and code
lies at multiples of 8 (R57). -/
opaque firmwareBlock : Nat
opaque firmwareStart : Nat

/-- The physical address to which the boot ROM loads firmware, and the offset of its entry in the image. -/
def firmwareBase : Nat := 8 * firmwareBlock
def firmwareEntry : Nat := 8 * firmwareStart

/-- The bytes of the firmware image at a host address, by offset: host memory lies outside the device. -/
opaque firmwareByte : Nat → Nat → Byte

/-- Whether the safe tier at a host address can be reached (R415). -/
opaque safeTierReached : Nat → Bool

/-- Bytes of the map of retired units that the host hands over through MW_RETMAP: whether a unit is in it (R409). -/
opaque retiredInMap : Nat → Nat → Bool

/-- The number of the graph (its handle in the state) whose spill ring a 64 KiB page marked RING carries, by the number of the page (R148, R247, R363).
Free. -/
opaque ringOf : Nat → Nat

end Sys2Proof.Config
end

