-- ==== Sys2Proof/Syntax.lean ====
section
/-! DEFINITION. The instruction set of the Trigar 2480 as syntax: the fields of the seven formats (R61 to R69) and
one constructor of `Instr` for every row of the table of operations and events. The rows that are instruction words carry the
fields of their format; the rows that are events of the device (they have no word) carry what names the event. -/

namespace Sys2Proof

/-- The fields of an R-format word below MAJ and MIN (R58, R61). [DESIGN CHOICE, safe, log 112] -/
structure RForm where
  kg : BitVec 4
  d : BitVec 6
  a : BitVec 6
  b : BitVec 6
  c : BitVec 6
  ty : BitVec 5
  rm : BitVec 3
  sm : BitVec 2
  fe : BitVec 3
  mod : BitVec 9
  deriving DecidableEq, Repr

/-- The fields of an I-format word (R62). -/
structure IForm where
  kg : BitVec 4
  d : BitVec 6
  a : BitVec 6
  ty : BitVec 5
  fea : BitVec 1
  mod : BitVec 4
  imm : BitVec 24
  deriving DecidableEq, Repr

/-- The fields of a J-format word (R63). -/
structure JForm where
  kg : BitVec 4
  a : BitVec 6
  mod : BitVec 8
  off : BitVec 32
  deriving DecidableEq, Repr

/-- The fields of an M-format word (R64, R65). -/
structure MForm where
  kg : BitVec 4
  ds : BitVec 6
  base : BitVec 6
  idx : BitVec 6
  ty : BitVec 5
  sc : BitVec 3
  ord : BitVec 2
  fe : BitVec 2
  disp : BitVec 16
  deriving DecidableEq, Repr

/-- The fields of an S-format word (R66). -/
structure SForm where
  kg : BitVec 4
  d : BitVec 6
  a : BitVec 6
  b : BitVec 6
  p : BitVec 4
  cnd : BitVec 4
  sc : BitVec 3
  ord : BitVec 2
  fe : BitVec 3
  imm : BitVec 12
  deriving DecidableEq, Repr

/-- The fields of an X-format word (R67). -/
structure XForm where
  kg : BitVec 4
  xt : BitVec 3
  xu : BitVec 3
  a : BitVec 6
  b : BitVec 6
  c : BitVec 6
  ty : BitVec 5
  tyb : BitVec 5
  mod : BitVec 12
  deriving DecidableEq, Repr

/-- The used fields of an L pair (R69, R100): the guard, D and TY of the first word (both 0 in BR.L and CALL.L, which
reserve them) and the literal of the second word. -/
structure LForm where
  kg : BitVec 4
  d : BitVec 6
  ty : BitVec 5
  lit : Word
  deriving DecidableEq, Repr

/-- The instructions and events of the device, one constructor for every row of spec/opcode_table.json, in its order. [DESIGN CHOICE, safe, log 112] -/
inductive Instr where
  /-- `NOP`, R86. Does nothing; used as padding in code. -/
  | nop (f : RForm)
  /-- `BR`, R88. Branches to PC + 8 × OFF32. -/
  | br (f : JForm)
  /-- `BRANY`, R88. Branches when any lane of kA under mask kM is set. -/
  | brany (f : JForm)
  /-- `BRALL`, R88. Branches when every lane of mask kM is set in kA. -/
  | brall (f : JForm)
  /-- `CALL`, R88. Branches relative to PC and writes the return code pointer to g63. -/
  | call (f : JForm)
  /-- `RET`, R88. Transfers control to the code pointer in gA, g63 by default. -/
  | ret (f : RForm)
  /-- `BRX`, R88. Transfers control to the code pointer in gA, in any slot. -/
  | brx (f : RForm)
  /-- `CALLX`, R88. Transfers control to the code pointer in gA and links through g63. -/
  | callx (f : RForm)
  /-- `LOOP`, R88. Decrements counter gA and branches while it was above 1. -/
  | loop (f : JForm)
  /-- `END`, R89. Ends the firing, applies the SET and CLR flag update and releases its binding references. -/
  | endFiring (f : RForm)
  /-- `IPF`, R91. Requests that instruction lines be filled into IL2 or IL3. -/
  | ipf (f : JForm)
  /-- `BR_L`, R92. Long-form branch by a 64-bit byte-offset literal. -/
  | brL (f : LForm)
  /-- `CALL_L`, R92. Long-form call by a 64-bit literal offset; links PC + 16 into g63. -/
  | callL (f : LForm)
  /-- `MOVI_L`, R100. Writes a 64-bit literal to gD at the width of the type. -/
  | moviL (f : LForm)
  /-- `LEA_L`, R100. Writes the address of the first word plus a 64-bit literal to gD. -/
  | leaL (f : LForm)
  /-- `MODBIND`, R93. Binds a module image to a slot and returns the new generation. -/
  | modbind (f : RForm)
  /-- `MODFREE`, R93. Unbinds a slot and returns the released generation once it has drained. -/
  | modfree (f : RForm)
  /-- `MODQ`, R93. Writes the BOUND, DRAINING and GEN state of a slot to gD. -/
  | modq (f : RForm)
  /-- `ADD`, R97. Adds two g registers, wrapping or saturating. -/
  | add (f : RForm)
  /-- `SUB`, R97. Subtracts two g registers, wrapping or saturating. -/
  | sub (f : RForm)
  /-- `MUL`, R97. Multiplies two g registers, wrapping or saturating. -/
  | mul (f : RForm)
  /-- `MULH`, R97. Writes the high half of the product. -/
  | mulh (f : RForm)
  /-- `DIV`, R97. Divides with truncation; a divisor of zero raises ARITH. -/
  | div (f : RForm)
  /-- `REM`, R97. Writes the truncated remainder; a divisor of zero raises ARITH. -/
  | rem (f : RForm)
  /-- `AND`, R97. Bitwise AND of two g registers. -/
  | and (f : RForm)
  /-- `OR`, R97. Bitwise OR of two g registers. -/
  | or (f : RForm)
  /-- `XOR`, R97. Bitwise XOR of two g registers. -/
  | xor (f : RForm)
  /-- `ANDN`, R97. Bitwise a AND NOT b. -/
  | andn (f : RForm)
  /-- `SHL`, R97. Shifts left, wrapping or saturating. -/
  | shl (f : RForm)
  /-- `SHR`, R97. Logical shift right. -/
  | shr (f : RForm)
  /-- `SRA`, R97. Arithmetic shift right. -/
  | sra (f : RForm)
  /-- `ROT`, R97. Rotates left by n mod w. -/
  | rot (f : RForm)
  /-- `CLZ`, R97. Counts leading zeros. -/
  | clz (f : RForm)
  /-- `CTZ`, R97. Counts trailing zeros. -/
  | ctz (f : RForm)
  /-- `POPC`, R97. Counts the ones in the operand. -/
  | popc (f : RForm)
  /-- `MIN`, R97. Writes the lesser operand, signed or unsigned by type. -/
  | min (f : RForm)
  /-- `MAX`, R97. Writes the greater operand, signed or unsigned by type. -/
  | max (f : RForm)
  /-- `ABSD`, R97. Writes the absolute difference, zero-extended. -/
  | absd (f : RForm)
  /-- `CMP`, R97. Writes 1 when the condition holds between the registers, and 0 otherwise. -/
  | cmp (f : RForm)
  /-- `SEL`, R97. Selects a or b by whether gC is nonzero. -/
  | sel (f : RForm)
  /-- `MOV`, R97. Copies a at the width of the type. -/
  | mov (f : RForm)
  /-- `EXT`, R97. Extracts a bit field from gA. -/
  | ext (f : RForm)
  /-- `INS`, R97. Inserts a bit field into gD. -/
  | ins (f : RForm)
  /-- `LEA`, R97. Writes gA + gB × 2^MOD. -/
  | lea (f : RForm)
  /-- `ADD_IMM`, R99. Adds a sign-extended 24-bit immediate. -/
  | addImm (f : IForm)
  /-- `AND_IMM`, R99. ANDs with an immediate. -/
  | andImm (f : IForm)
  /-- `OR_IMM`, R99. ORs with an immediate. -/
  | orImm (f : IForm)
  /-- `XOR_IMM`, R99. XORs with an immediate. -/
  | xorImm (f : IForm)
  /-- `SHL_IMM`, R99. Shifts left by an immediate count. -/
  | shlImm (f : IForm)
  /-- `SHR_IMM`, R99. Shifts right logically by an immediate count. -/
  | shrImm (f : IForm)
  /-- `SRA_IMM`, R99. Shifts right arithmetically by an immediate count. -/
  | sraImm (f : IForm)
  /-- `CMP_IMM`, R99. Compares with an immediate. -/
  | cmpImm (f : IForm)
  /-- `MOVI`, R99. Writes an immediate at the width of the type. -/
  | movi (f : IForm)
  /-- `LEA_IMM`, R99. Writes gA + immediate. -/
  | leaImm (f : IForm)
  /-- `LEA_PC`, R99. Writes the address of this word plus an immediate. -/
  | leaPc (f : IForm)
  /-- `KSET`, R101. Sets a mask register from gA[31:0]. -/
  | kset (f : RForm)
  /-- `KLOG`, R101. Applies a logic operation to mask registers. -/
  | klog (f : RForm)
  /-- `KMOV`, R101. Copies a mask register to a mask or g register. -/
  | kmov (f : RForm)
  /-- `KCNT`, R101. Writes the popcount of kA AND kB. -/
  | kcnt (f : RForm)
  /-- `FLAG`, R101. Updates the actor flags, optionally returning the old flags. -/
  | flag (f : RForm)
  /-- `EMPTY`, R102. Marks a g or v register empty. -/
  | empty (f : RForm)
  /-- `FULL`, R102. Marks a g or v register full. -/
  | full (f : RForm)
  /-- `GETS`, R104. Reads a system register into gD. -/
  | gets (f : SForm)
  /-- `SETS`, R104. Writes a system register under its access code; this is the row for registers that have no row of their own. -/
  | sets (f : SForm)
  /-- `GETT_TICKS`, R105. Reads %ticks. -/
  | gettTicks (f : SForm)
  /-- `GETT_PTP`, R105. Reads %ptp. -/
  | gettPtp (f : SForm)
  /-- `GETT_BOTH`, R105. Reads %ticks and %ptp, both sampled in one tick. -/
  | gettBoth (f : SForm)
  /-- `PERF`, R106. Reads a performance counter, optionally clearing it. -/
  | perf (f : SForm)
  /-- `GUARD_ENTRY`, R136. Writes one live guard table entry. -/
  | guardEntry (f : SForm)
  /-- `GUARD_TABLE`, R136. Loads all 16 guard entries from memory and sets %guardtab. -/
  | guardTable (f : SForm)
  /-- `UNGUARD_ONE`, R137. Clears V of one live entry. -/
  | unguardOne (f : SForm)
  /-- `UNGUARD_MASK`, R137. Clears V of the live entries named in a mask. -/
  | unguardMask (f : SForm)
  /-- `GQRY_ENTRY`, R138. Reads both words of a live guard entry. -/
  | gqryEntry (f : SForm)
  /-- `GQRY_ELIG`, R138. Reads the committed eligible entries and flags. -/
  | gqryElig (f : SForm)
  /-- `CTXQ`, R139. Reads the state of a context slot on this strand. -/
  | ctxq (f : SForm)
  /-- `QPUSH`, R156. Pushes a token to an output port under reservation and credits. -/
  | qpush (f : SForm)
  /-- `QPOP`, R157. Pops the head token of an input port into gD and vB. -/
  | qpop (f : SForm)
  /-- `QPEEK`, R157. Reads a queued or held token without popping it. -/
  | qpeek (f : SForm)
  /-- `QRES`, R158. Takes credits as a reservation, waiting or trying. -/
  | qres (f : SForm)
  /-- `QREL`, R158. Returns reserved slots as credits. -/
  | qrel (f : SForm)
  /-- `QEOS`, R156. Pushes an end-of-stream token and releases the remaining reservation. -/
  | qeos (f : SForm)
  /-- `QCRED`, R158. Returns the credits of the oldest held tokens of a manual-credit queue. -/
  | qcred (f : SForm)
  /-- `QBIND_PORT`, R159. Binds a stream register to a port of the actor. -/
  | qbindPort (f : SForm)
  /-- `QBIND_HOME`, R159. Binds a stream register as output to a device-fed submission queue. -/
  | qbindHome (f : SForm)
  /-- `QBIND_TMPL`, R159. Sets the header template of a bound output. -/
  | qbindTmpl (f : SForm)
  /-- `QUNBIND`, R159. Returns reservations and unbinds a stream register. -/
  | qunbind (f : SForm)
  /-- `QSTAT`, R160. Reads the committed state of a bound port. -/
  | qstat (f : SForm)
  /-- `QFWD`, R161. Pops an input token and pushes it to an output in one step. -/
  | qfwd (f : SForm)
  /-- `MCADD`, R162. Adds to a monotonic counter and returns its old value. -/
  | mcadd (f : SForm)
  /-- `MCREAD`, R162. Reads a monotonic counter. -/
  | mcread (f : SForm)
  /-- `WCOND`, R166. Writes a wait-condition slot. -/
  | wcond (f : SForm)
  /-- `WAIT`, R167. Stops the firing until the selected conditions hold or the time-out passes. -/
  | wait (f : SForm)
  /-- `EREAD`, R168. Reads an event counter. -/
  | eread (f : SForm)
  /-- `ECLR`, R168. Reads and clears an event counter in one step. -/
  | eclr (f : SForm)
  /-- `LEASE`, R188. Requests an engine lease; returns a handle or a refusal. -/
  | lease (f : SForm)
  /-- `LRENEW`, R189. Extends the hold of a lease. -/
  | lrenew (f : SForm)
  /-- `LFREE_HELD`, R190. Closes a lease to new work and releases it when issued work completes. -/
  | lfreeHeld (f : SForm)
  /-- `LFREE_PEND`, R190. Withdraws a waiting lease request. -/
  | lfreePend (f : SForm)
  /-- `LQRY_LEASE`, R191. Reads the state of a lease. -/
  | lqryLease (f : SForm)
  /-- `LQRY_CLS`, R191. Reads class and power figures for the issuing cluster. -/
  | lqryCls (f : SForm)
  /-- `EVACK_NOW`, R192. Acknowledges a notice and releases the lease at once. -/
  | evackNow (f : SForm)
  /-- `EVACK_DRAIN`, R192. Acknowledges a notice and releases the lease when issued work completes. -/
  | evackDrain (f : SForm)
  /-- `RAST`, R194. Submits raster records to a leased raster engine. -/
  | rast (f : SForm)
  /-- `TRACE`, R195. Submits ray records to a leased ray engine. -/
  | trace (f : SForm)
  /-- `SAMPLE`, R196. Submits texture requests to a leased sampler. -/
  | sample (f : SForm)
  /-- `CODEC`, R197. Submits compression records to a leased codec engine. -/
  | codec (f : SForm)
  /-- `SPAWN`, R231. Appends a launch record to a device-fed submission queue. -/
  | spawn (f : SForm)
  /-- `GLOAD`, R227. Loads a graph descriptor and checks every edge. -/
  | gload (f : SForm)
  /-- `GARM`, R229. Places the initial instances of a loaded graph and arms it. -/
  | garm (f : SForm)
  /-- `GDRAIN_GRAPH`, R230. Drains a graph, aborting its running launch after the limit. -/
  | gdrainGraph (f : SForm)
  /-- `GDRAIN_QDRAIN`, R219. Tears down a submission queue, letting dispatched launches finish. -/
  | gdrainQdrain (f : SForm)
  /-- `GDRAIN_QABORT`, R219. Tears down a submission queue, aborting dispatched launches. -/
  | gdrainQabort (f : SForm)
  /-- `GSTART`, R229. Places the initial instances of a drained graph and arms it. -/
  | gstart (f : SForm)
  /-- `PLACE_PIN`, R232. Pins an actor's new instances to one tile. -/
  | placePin (f : SForm)
  /-- `PLACE_HINT`, R232. Sets the preferred tile of an actor. -/
  | placeHint (f : SForm)
  /-- `PLACE_FREE`, R232. Removes an actor's pin and hint. -/
  | placeFree (f : SForm)
  /-- `PLACE_OWN`, R232. Makes an instance the owner of a partition id. -/
  | placeOwn (f : SForm)
  /-- `LSTAT_LAUNCH`, R233. Reads a launch status word with acquire. -/
  | lstatLaunch (f : SForm)
  /-- `LSTAT_GRAPH`, R233. Reads word 0 of a graph control block. -/
  | lstatGraph (f : SForm)
  /-- `VADD`, R316. Adds integer elements. -/
  | vadd (f : RForm)
  /-- `VSUB`, R316. Subtracts integer elements. -/
  | vsub (f : RForm)
  /-- `VMUL`, R316. Multiplies integer elements. -/
  | vmul (f : RForm)
  /-- `VMULH`, R316. Writes the high half of each element product. -/
  | vmulh (f : RForm)
  /-- `VMAD`, R316. Writes a × b + c for each element. -/
  | vmad (f : RForm)
  /-- `VAND`, R316. Bitwise AND of elements. -/
  | vand (f : RForm)
  /-- `VOR`, R316. Bitwise OR of elements. -/
  | vor (f : RForm)
  /-- `VXOR`, R316. Bitwise XOR of elements. -/
  | vxor (f : RForm)
  /-- `VSHL`, R316. Shifts elements left. -/
  | vshl (f : RForm)
  /-- `VSHR`, R316. Shifts elements right logically. -/
  | vshr (f : RForm)
  /-- `VSRA`, R316. Shifts elements right arithmetically. -/
  | vsra (f : RForm)
  /-- `VMIN`, R316. Writes the lesser element. -/
  | vmin (f : RForm)
  /-- `VMAX`, R316. Writes the greater element. -/
  | vmax (f : RForm)
  /-- `VABS`, R316. Writes the absolute value of each element. -/
  | vabs (f : RForm)
  /-- `VCMP`, R317. Compares integer elements into a vector or a mask register. -/
  | vcmp (f : RForm)
  /-- `VSEL`, R316. Selects each element by whether c is nonzero. -/
  | vsel (f : RForm)
  /-- `VMOV`, R316. Copies elements, or broadcasts a g register. -/
  | vmov (f : RForm)
  /-- `VPOPC`, R316. Counts the ones in each element. -/
  | vpopc (f : RForm)
  /-- `FADD`, R319. Floating-point addition with one rounding. -/
  | fadd (f : RForm)
  /-- `FSUB`, R319. Floating-point subtraction. -/
  | fsub (f : RForm)
  /-- `FMUL`, R319. Floating-point multiplication. -/
  | fmul (f : RForm)
  /-- `FFMA`, R319. Fused multiply-add with one rounding. -/
  | ffma (f : RForm)
  /-- `FMIN`, R320. Floating-point minimum, ignoring one NaN. -/
  | fmin (f : RForm)
  /-- `FMAX`, R320. Floating-point maximum, ignoring one NaN. -/
  | fmax (f : RForm)
  /-- `FSGN`, R320. Sets the sign of a by copy, negation or XOR. -/
  | fsgn (f : RForm)
  /-- `FCMP`, R320. Compares floating-point elements into a vector or a mask register. -/
  | fcmp (f : RForm)
  /-- `FCLASS`, R320. Classifies each element with a one-hot code. -/
  | fclass (f : RForm)
  /-- `FRCPS`, R321. Reciprocal seed on the 12-bit grid. -/
  | frcps (f : RForm)
  /-- `FRSQS`, R321. Reciprocal square-root seed on the 12-bit grid. -/
  | frsqs (f : RForm)
  /-- `FEXP2`, R323. 2^a on the grid of the type. -/
  | fexp2 (f : RForm)
  /-- `FLOG2`, R323. log2 a on the grid of the type. -/
  | flog2 (f : RForm)
  /-- `FSINP`, R323. sin(π × a) on the grid of the type. -/
  | fsinp (f : RForm)
  /-- `FCOSP`, R323. cos(π × a) on the grid of the type. -/
  | fcosp (f : RForm)
  /-- `FRND`, R324. Rounds each element to an integral value. -/
  | frnd (f : RForm)
  /-- `VBCAST`, R325. Broadcasts one element to every active element. -/
  | vbcast (f : RForm)
  /-- `VPERM`, R325. Permutes elements by index vector. -/
  | vperm (f : RForm)
  /-- `VROT`, R325. Rotates elements across the register. -/
  | vrot (f : RForm)
  /-- `VRED`, R326. Reduces elements over a fixed pairwise tree. -/
  | vred (f : RForm)
  /-- `VSCAN`, R327. Scans elements in a fixed order, inclusive or exclusive. -/
  | vscan (f : RForm)
  /-- `VEXTL`, R325. Extracts one element into a g register. -/
  | vextl (f : RForm)
  /-- `VINSL`, R325. Inserts a g register value into one element. -/
  | vinsl (f : RForm)
  /-- `CVT`, R329. Converts part of a register from STY to TY with one rounding. -/
  | cvt (f : RForm)
  /-- `CVTQ`, R330. Quantises by dividing by an e8m0 scale and converting. -/
  | cvtq (f : RForm)
  /-- `CVTD`, R330. Dequantises by multiplying by an e8m0 scale and converting. -/
  | cvtd (f : RForm)
  /-- `PACK`, R331. Converts two registers into one of half the width. -/
  | pack (f : RForm)
  /-- `UNPACK`, R331. Converts one register into a pair of double width. -/
  | unpack (f : RForm)
  /-- `AMAX`, R332. Finds the largest magnitude, or the e8m0 scale for a target type. -/
  | amax (f : RForm)
  /-- `SCALE`, R330. Scales by an exact power of two and converts. -/
  | scale (f : RForm)
  /-- `MXLDS`, R347. Loads the shadow plane and computes its column bound. -/
  | mxlds (f : XForm)
  /-- `MXSWAP`, R347. Exchanges the active and shadow planes. -/
  | mxswap (f : XForm)
  /-- `MXSTRM`, R349. Runs the engine on control and operand tokens from two ports. -/
  | mxstrm (f : XForm)
  /-- `MXTILE`, R348. Accumulates operand rows from memory into a tile with bounds, checking and possibly escalating. -/
  | mxtile (f : XForm)
  /-- `MXZERO`, R347. Zeroes a tile or pair and its bounds. -/
  | mxzero (f : XForm)
  /-- `MXRD`, R347. Reads part of a tile row into a v register. -/
  | mxrd (f : XForm)
  /-- `MXWR`, R347. Writes part of a tile row from a v register. -/
  | mxwr (f : XForm)
  /-- `MXTRN`, R347. Transposes a tile. -/
  | mxtrn (f : XForm)
  /-- `MXPERM`, R347. Permutes the rows of a tile. -/
  | mxperm (f : XForm)
  /-- `MXRRED`, R347. Sums segments of source rows into a tile and checks their bounds. -/
  | mxrred (f : XForm)
  /-- `MXESC_WIDEN`, R347. Turns an F32 tile into an FP64 pair. -/
  | mxescWiden (f : XForm)
  /-- `MXESC_NARROW`, R347. Rounds a pair to f32, updates the bounds and frees the odd tile. -/
  | mxescNarrow (f : XForm)
  /-- `MXTOK`, R349. Builds and pushes an MXSTRM control token. -/
  | mxtok (f : XForm)
  /-- `BDRD_BND`, R347. Reads half a bound register into a v register. -/
  | bdrdBnd (f : XForm)
  /-- `BDRD_STAT`, R347. Reads a tile's mode, escalation mark and threshold kind. -/
  | bdrdStat (f : XForm)
  /-- `BDWR`, R347. Writes half a bound register. -/
  | bdwr (f : XForm)
  /-- `BDTHR`, R347. Sets a tile's threshold word. -/
  | bdthr (f : XForm)
  /-- `BDST`, R345. Stores bound entries to a bound plane. -/
  | bdst (f : XForm)
  /-- `BDLD`, R345. Loads bound entries from a bound plane. -/
  | bdld (f : XForm)
  /-- `BDPROP_CVT`, R344. Propagates the bounds through a conversion. -/
  | bdpropCvt (f : XForm)
  /-- `BDPROP_SCALE`, R344. Propagates the bounds through a scaling. -/
  | bdpropScale (f : XForm)
  /-- `BDPROP_SUM`, R344. Propagates the bounds through a sum of two tiles. -/
  | bdpropSum (f : XForm)
  /-- `LD`, R254. Loads a scalar into a g register. -/
  | ld (f : MForm)
  /-- `VLD`, R254. Loads 128 bytes into a v register. -/
  | vld (f : MForm)
  /-- `VLDX`, R254. Gathers 32-bit lanes by a vector index. -/
  | vldx (f : MForm)
  /-- `ST`, R254. Stores the low bytes of a g register. -/
  | st (f : MForm)
  /-- `VST`, R254. Stores the active elements of a v register. -/
  | vst (f : MForm)
  /-- `VSTX`, R254. Scatters 32-bit lanes by a vector index. -/
  | vstx (f : MForm)
  /-- `ATOM`, R256. Applies an atomic operation at the serialisation point, returning nothing. -/
  | atom (f : MForm)
  /-- `ATOMR`, R256. Applies an atomic operation and returns the old value. -/
  | atomr (f : MForm)
  /-- `CAS`, R256. Compares and swaps, returning the old value. -/
  | cas (f : MForm)
  /-- `COPY`, R265. Hands a stream pattern record to a copy engine. -/
  | copy (f : MForm)
  /-- `CHAIN`, R266. Hands linked records to a copy engine. -/
  | chain (f : MForm)
  /-- `AWARM`, R267. Arms an arrival word with a new target. -/
  | awarm (f : MForm)
  /-- `AWCRED`, R267. Credits bytes to an arrival word. -/
  | awcred (f : MForm)
  /-- `FENCE`, R268. Orders the context's accesses at a scope. -/
  | fence (f : MForm)
  /-- `PREF`, R269. Requests a data line fill. -/
  | pref (f : MForm)
  /-- `CWB`, R270. Writes dirty sectors of the tile cache ways back. -/
  | cwb (f : MForm)
  /-- `CINV`, R270. Invalidates clean sectors of the tile cache ways. -/
  | cinv (f : MForm)
  /-- `CFLUSH`, R270. Writes back and invalidates lines of the tile cache ways. -/
  | cflush (f : MForm)
  /-- `BANKCFG`, R271. Switches the mode of a tile SRAM bank. -/
  | bankcfg (f : MForm)
  /-- `BLEND`, R273. Posts a fragment to a screen-tile buffer. -/
  | blend (f : MForm)
  /-- `SEQRET`, R274. Posts an INIT, retire or close of a sequence tag to a screen-tile buffer. -/
  | seqret (f : MForm)
  /-- `ASSET_MAKE`, R375. Makes an ASID live with a stage-1 root. -/
  | assetMake (f : SForm)
  /-- `ASSET_ROOT`, R375. Changes the stage-1 root of an ASID. -/
  | assetRoot (f : SForm)
  /-- `ASSET_KILL`, R375. Unbinds, invalidates and frees an ASID. -/
  | assetKill (f : SForm)
  /-- `ASSET_SELF`, R375. Sets the issuer's own ASID. -/
  | assetSelf (f : SForm)
  /-- `TLBINV_VA`, R376. Shoots down translations of a VA range of an ASID. -/
  | tlbinvVa (f : SForm)
  /-- `TLBINV_ASID`, R376. Shoots down every translation of an ASID. -/
  | tlbinvAsid (f : SForm)
  /-- `TLBINV_IPA`, R376. Shoots down translations of an IPA range of the partition. -/
  | tlbinvIpa (f : SForm)
  /-- `TLBINV_PART`, R376. Shoots down every translation of the partition. -/
  | tlbinvPart (f : SForm)
  /-- `PARTCFG_OPEN`, R377. Opens a partition with its stage-2 root and quota. -/
  | partcfgOpen (f : SForm)
  /-- `PARTCFG_SHUT`, R377. Closes an empty partition. -/
  | partcfgShut (f : SForm)
  /-- `PARTCFG_ASSIGN`, R377. Clears a tile and gives it to, or takes it from, a partition. -/
  | partcfgAssign (f : SForm)
  /-- `PARTCFG_WAYS`, R377. Moves cluster cache ways between owners. -/
  | partcfgWays (f : SForm)
  /-- `PARTCFG_SHARE`, R377. Sets the bandwidth share and scheduler weight. -/
  | partcfgShare (f : SForm)
  /-- `PARTCFG_GANG`, R377. Sets or ends the gang time slice. -/
  | partcfgGang (f : SForm)
  /-- `PARTCFG_QBANK`, R377. Marks queue banks of a tile. -/
  | partcfgQbank (f : SForm)
  /-- `PARTCFG_QSB`, R377. Adopts a queue state block. -/
  | partcfgQsb (f : SForm)
  /-- `PARTCFG_QDEL`, R377. Removes an idle, non-resident submission queue. -/
  | partcfgQdel (f : SForm)
  /-- `PARTCFG_HOSTWIN`, R377. Enables or disables the host window and removes its translations. -/
  | partcfgHostwin (f : SForm)
  /-- `QUOTE`, R378. Writes a signed attestation of firmware, configuration and modules. -/
  | quote (f : SForm)
  /-- `SVC`, R379. Parks the context and calls its supervisor with cause SOFTWARE. -/
  | svc (f : SForm)
  /-- `TRAP`, R391. Raises SOFTWARE with a code after completing. -/
  | trap (f : SForm)
  /-- `RESUME_SELF`, R392. Ends the handler and resumes the interrupted firing from its frame. -/
  | resumeSelf (f : SForm)
  /-- `RESUME_CTX`, R392. Resumes a parked context from its innermost frame. -/
  | resumeCtx (f : SForm)
  /-- `RQRD`, R393. Reads a field of a trap frame or replay entry. -/
  | rqrd (f : SForm)
  /-- `RQWR`, R393. Writes a writable field of a trap frame or replay entry. -/
  | rqwr (f : SForm)
  /-- `CKPT`, R394. Sets the checkpoint table and stops here when a full switch waits. -/
  | ckpt (f : SForm)
  /-- `SWAP_NOW`, R396. Pre-empts a strand and exchanges its active and shadow slots. -/
  | swapNow (f : SForm)
  /-- `SWAP_FULL`, R400. Switches a whole tile, including its scratchpad. -/
  | swapFull (f : SForm)
  /-- `SWAP_STAGE`, R396. Gives the Archivist descriptors for a later exchange. -/
  | swapStage (f : SForm)
  /-- `SPILLQ_SAVE`, R402. Saves every queue of a quiet graph to an image. -/
  | spillqSave (f : SForm)
  /-- `SPILLQ_RESTORE`, R402. Refills a graph's queues from an image. -/
  | spillqRestore (f : SForm)
  /-- `OPERAND_WAIT_RELEASE`, R38. An instruction blocked on an empty source issues once the register becomes full. -/
  | operandWaitRelease (ctx : Nat)
  /-- `LONG_LATENCY_RESULT`, R37. A long-latency producer writes its destination and marks it full. -/
  | longLatencyResult (id : Nat)
  /-- `FIRING_DISPATCH`, R120. The trigger unit dispatches one firing, possibly speculative, from the oldest eligible context. -/
  | firingDispatch (strand : Nat)
  /-- `TOKEN_ARRIVAL`, R112. A token reaches a strand and enters the port of the slot named by its context tag. -/
  | tokenArrival (queue : Nat)
  /-- `CREDIT_RETURN`, R146. Credits of popped tokens arrive back at the producer. -/
  | creditReturn (queue : Nat)
  /-- `PUSH_CREDIT_WAIT_RELEASE`, R149. A push waiting for credits or reservation performs once enough are free. -/
  | pushCreditWaitRelease (ctx : Nat)
  /-- `POP_TOKEN_WAIT_RELEASE`, R157. A waiting pop or stream read takes its token once it arrives. -/
  | popTokenWaitRelease (ctx : Nat)
  /-- `SPILL_RING_DRAIN`, R148. Tokens move from the spill ring into the FIFO as credits free up. -/
  | spillRingDrain (queue : Nat)
  /-- `PROXY_FORWARD_BATCH`, R150. The forwarding engine moves shadow entries to the true queue in a fabric write. -/
  | proxyForwardBatch (queue : Nat)
  /-- `PROXY_BATCH_TIMEOUT`, R150. After 256 cycles a partial batch is sent. -/
  | proxyBatchTimeout (queue : Nat)
  /-- `MONOTONIC_COUNTER_ADD`, R22. The home slice applies an add to a monotonic counter. -/
  | monotonicCounterAdd (id : Nat)
  /-- `ARRIVAL_WORD_CREDIT`, R163. A credit is applied to an arrival word at its bank, possibly advancing the generation. -/
  | arrivalWordCredit (id : Nat)
  /-- `ASYNC_COMPLETION`, R55. An asynchronous instruction completes and sets its warnings in the issuer's %warn. -/
  | asyncCompletion (id : Nat)
  /-- `WAIT_COMPLETION`, R167. A WAIT sample finds its conditions satisfied, or an invalid address, and the WAIT completes. -/
  | waitCompletion (ctx : Nat)
  /-- `WAIT_TIMEOUT`, R167. A WAIT's deadline passes and it returns TIMEOUT. -/
  | waitTimeout (ctx : Nat)
  /-- `DEADLOCK_DETECTION`, R170. The stillness timer passes the threshold with a blocked queue; a report is written and DEADLOCK raised. -/
  | deadlockDetection (graph : Nat)
  /-- `LEASE_GRANT`, R178. A waiting lease request fits and is granted; the engine is cleared and starts waking. -/
  | leaseGrant (request : Nat)
  /-- `ENGINE_WAKE_END`, R174. An engine's wake ends and the lease handle becomes full. -/
  | engineWakeEnd (engine : Nat)
  /-- `EVICTION_NOTICE`, R182. A forced eviction sends a notice: f7 is set, ECTR advances and the grace period starts. -/
  | evictionNotice (engine : Nat)
  /-- `HOLD_END`, R181. A lease's hold expires, making it evictable. -/
  | holdEnd (engine : Nat)
  /-- `GRACE_PERIOD_EXPIRY`, R183. The grace period ends and the lease is released by loss, abandoning incomplete work. -/
  | gracePeriodExpiry (engine : Nat)
  /-- `DOZE_EXPIRY`, R174. A dozing MX is gated after 20 µs. -/
  | dozeExpiry (engine : Nat)
  /-- `ENGINE_RESULT_PUSH`, R193. An engine pushes a result token for a record, waiting for reservation or credits. -/
  | engineResultPush (engine : Nat)
  /-- `ENGINE_COMMAND_COMPLETION`, R193. An engine command completes after its last token and writes, and adds to its event counter. -/
  | engineCommandCompletion (engine : Nat)
  /-- `MX_ROW_GROUP_STEP`, R337. The matrix engine completes one row-group step, updating tiles, bounds and flags at once. -/
  | mxRowGroupStep (engine : Nat)
  /-- `MXSTRM_CONTROL_TOKEN`, R349. The engine pops and acts on one MXSTRM control token. -/
  | mxstrmControlToken (engine : Nat)
  /-- `MX_MACRO_OP_COMPLETION`, R336. An asynchronous matrix or bound instruction completes and adds to its event counter. -/
  | mxMacroOpCompletion (engine : Nat)
  /-- `COPY_TOKEN_PUSH`, R261. A copy engine pushes the elements of a DKIND 1 record as tokens, waiting for credits. -/
  | copyTokenPush (id : Nat)
  /-- `COPY_RECORD_COMPLETION`, R262. A copy record completes and adds, credits or counts under CKIND with release. -/
  | copyRecordCompletion (id : Nat)
  /-- `ATOMIC_APPLY`, R257. An atomic executes in one step at its home ALU or bank. -/
  | atomicApply (id : Nat)
  /-- `ATOMIC_DIVERSION`, R258. An atomic that faults after leaving its strand is diverted to a repair queue entry. -/
  | atomicDiversion (id : Nat)
  /-- `REPAIR_RETRY`, R259. A %rprctl write with ACTION 1 puts the atomic back at the head of its arc. -/
  | repairRetry (die entry : Nat)
  /-- `REPAIR_ABANDON`, R259. A %rprctl write with ACTION 2 makes the entry unrepairable. -/
  | repairAbandon (die entry : Nat)
  /-- `REPAIR_TIMEOUT`, R258. An entry unresolved for 1,000,000 ticks becomes unrepairable. -/
  | repairTimeout (die entry : Nat)
  /-- `POSTED_WRITE_ARRIVAL`, R253. A store or other posted write reaches its bank or home and is performed or faults asynchronously. -/
  | postedWriteArrival (id : Nat)
  /-- `BLEND_AT_BANK`, R273. A BLEND reaches its bank and is applied or held by tag. -/
  | blendAtBank (id : Nat)
  /-- `SEQRET_AT_BANK`, R274. A SEQRET reaches its bank and initialises, advances or holds a retire marker. -/
  | seqretAtBank (id : Nat)
  /-- `PAGE_WALK_COMPLETION`, R364. A page walk completes and installs a translation or reports a fault; the first number is
  8192 × tile + ASID. -/
  | pageWalkCompletion (tlb va : Nat)
  /-- `TLBINV_COMPLETION`, R365. Once removal and in-flight accesses are done, the TLBINV counter add is made. -/
  | tlbinvCompletion (id : Nat)
  /-- `BINDING_TAKES_EFFECT`, R93. A MODBIND binding takes effect and gD becomes full with the generation. -/
  | bindingTakesEffect (id : Nat)
  /-- `MODFREE_DRAIN_COMPLETE`, R93. An old binding is unreferenced and its lines have left the caches. -/
  | modfreeDrainComplete (id : Nat)
  /-- `NOTIFY`, R208. A host write to NOTIFY advances TAIL or sets ERROR. -/
  | notify (doorbell tail : Nat)
  /-- `QUEUE_MAP`, R210. The scheduler maps a pending queue into a slot. -/
  | queueMap (qsb : Nat)
  /-- `QUEUE_UNMAP`, R211. The scheduler unmaps the longest-idle empty queue. -/
  | queueUnmap (qsb : Nat)
  /-- `RECORD_FETCH`, R214. The scheduler fetches a launch record into the window and advances HEAD. -/
  | recordFetch (qsb : Nat)
  /-- `LAUNCH_DISPATCH`, R217. A dispatchable launch is chosen, its graph marked running and start tokens pushed. -/
  | launchDispatch
  /-- `LAUNCH_END`, R218. A launch ends, its status is written and DONECTR advanced with release. -/
  | launchEnd (graph : Nat)
  /-- `CURATOR_INTERVAL`, R220. Every 10 µs the Curator adjusts the instance counts of each actor. -/
  | curatorInterval
  /-- `TEMPLATE_REWRITE`, R221. The Curator rewrites a producer's output template once it has no firing in flight. -/
  | templateRewrite (ctx : Nat)
  /-- `GANG_SLICE_INSTANT`, R222. At each gang instant every strand of the gang's tiles executes a SWAP. -/
  | gangSliceInstant (part : Nat)
  /-- `PTP_LOCK_LOSS`, R222. A chip loses %ptp lock, interrupts its host and keeps switching on its own time. -/
  | ptpLockLoss
  /-- `PTPSET_WRITE`, R423. A write of %ptpset makes %ptp take the value at the next tick. -/
  | ptpsetWrite (value : BitVec 64)
  /-- `ASYNC_FAULT_DELIVERY`, R384. A pending fault of an asynchronous instruction is delivered to its context. -/
  | asyncFaultDelivery (ctx : Nat)
  /-- `TRAP_HANDLER_DISPATCH`, R382. The user trap handler firing dispatches at %trapvec. -/
  | trapHandlerDispatch (ctx : Nat)
  /-- `FAULT_RECORD_DELIVERY`, R388. A fault record token enters the supervisor's q15, waiting while it is full. -/
  | faultRecordDelivery (target : Nat)
  /-- `ARCHIVIST_WRITE_OUT`, R397. The Archivist writes an outgoing context to its image and advances the descriptor counter. -/
  | archivistWriteOut (strand : Nat)
  /-- `ARCHIVIST_LOAD`, R398. The Archivist loads and checks an incoming context image into the shadow bank. -/
  | archivistLoad (strand : Nat)
  /-- `FULL_SWITCH_DEADLINE`, R401. The checkpoint deadline of a full switch passes and remaining firings are pre-empted. -/
  | fullSwitchDeadline (tile : Nat)
  /-- `QUIESCE`, R200. CLPM_REQ OP 1 stops placement and leases, withdraws requests and evicts the cluster's leases. -/
  | quiesce (cluster : Nat)
  /-- `QUIESCE_END`, R200. No instance, lease or copy remains and the cluster becomes QUIESCED. -/
  | quiesceEnd (cluster : Nat)
  /-- `HANDOFF`, R200. CLPM_REQ OP 2 refuses remote scratchpad, writes back and hands the home role to the backstop. -/
  | handoff (cluster : Nat)
  /-- `HANDOFF_END`, R245. Write-back and recall finish, the home role moves and the cluster becomes AWAY. -/
  | handoffEnd (cluster : Nat)
  /-- `CLKGATE`, R200. CLPM_REQ OP 3 stops the cluster clock. -/
  | clkgate (cluster : Nat)
  /-- `CLKUNGATE`, R200. CLPM_REQ OP 4 starts the FLL at 400 MHz towards TARGET. -/
  | clkungate (cluster : Nat)
  /-- `CLPM_RESUME`, R200. CLPM_REQ OP 5 takes the home role back, reopens placement and leases and clears VALID. -/
  | clpmResume (cluster : Nat)
  /-- `CLPM_OPERATION_END`, R419. A CLPM operation reaches its state, clears BUSY and sets DONE or ERR. -/
  | clpmOperationEnd (cluster : Nat)
  /-- `RAIL_OFF`, R200. Writing CLPM_RAIL EN 0 in CLKOFF turns the LDO off. -/
  | railOff (cluster : Nat)
  /-- `RAIL_ON`, R200. Writing CLPM_RAIL EN 1 in RAILOFF turns the LDO on at VSET. -/
  | railOn (cluster : Nat)
  /-- `RAIL_PGOOD`, R419. The rail reaches good and the cluster enters CLKOFF. -/
  | railPgood (cluster : Nat)
  /-- `RAIL_PGOOD_TIMEOUT`, R419. The rail is not good within 50 µs and ERRCODE 5 is set. -/
  | railPgoodTimeout (cluster : Nat)
  /-- `VSET_WRITE`, R199. A write of VSET sets a new rail set-point. -/
  | vsetWrite (cluster : Nat) (value : BitVec 64)
  /-- `RAIL_SLEW_STEP`, R199. The rail moves one code every 10 ticks towards VSET. -/
  | railSlewStep (cluster : Nat)
  /-- `FLL_TARGET_WRITE`, R426. A write of TARGET starts or redirects the FLL stepping. -/
  | fllTargetWrite (cluster : Nat) (value : BitVec 64)
  /-- `FLL_STEP`, R426. Every 50 ticks the FLL moves CURRENT one step towards TARGET and sets LOCK on arrival. -/
  | fllStep (cluster : Nat)
  /-- `FLL_LOCK_TIMEOUT`, R199. The FLL does not lock within 100 µs and ERRCODE 4 is set. -/
  | fllLockTimeout (cluster : Nat)
  /-- `RETENTION_SAVE`, R425. A write of SAVE in AWAY saves the retention state, or is refused. -/
  | retentionSave (cluster : Nat)
  /-- `RETENTION_SAVE_END`, R199. The save completes, clearing BUSY and setting VALID. -/
  | retentionSaveEnd (cluster : Nat)
  /-- `RETENTION_RESTORE`, R418. A write of RESTORE after a rail cycle zero-fills and restores the cluster from retention state. -/
  | retentionRestore (cluster : Nat)
  /-- `RETENTION_RESTORE_END`, R418. The restore completes and RAILCYC clears. -/
  | retentionRestoreEnd (cluster : Nat)
  /-- `WAKE_RING`, R200. A RING starts the hardware wake sequence of rail on, ungate, restore and resume. -/
  | wakeRing (cluster source : Nat)
  /-- `PMBUDGET_WRITE`, R198. A write of %pmbudget sets the package budget while the Puppeteer runs. -/
  | pmbudgetWrite (value : BitVec 64)
  /-- `PMCOMMIT`, R198. COMMIT latches every TARGET, VSET, CAD and BUDGET as the committed set. -/
  | pmcommit
  /-- `WATCHDOG_KICK`, R203. KICK restarts the 10 ms watchdog and sets RUNNING. -/
  | watchdogKick
  /-- `WATCHDOG_EXPIRY`, R203. 10 ms without a KICK: RUNNING clears, the Puppeteer resets and the committed set is restored. -/
  | watchdogExpiry
  /-- `MXCAD_WRITE`, R204. A cadence write takes effect at the MX's next row-group boundary. -/
  | mxcadWrite (cluster : Nat) (value : BitVec 64)
  /-- `DROOP_SAG`, R204. A rail sag of more than 30 mV stretches the clock and steps the FLL down. -/
  | droopSag (cluster : Nat)
  /-- `DROOP_STEP_DOWN`, R204. Each further 1 µs of sag steps the FLL down once more, to four steps. -/
  | droopStepDown (cluster : Nat)
  /-- `DROOP_RECOVERY_STEP`, R204. After 10 µs without sag the FLL steps back up every 50 ticks. -/
  | droopRecoveryStep (cluster : Nat)
  /-- `WAY_GATE`, R198. After 100 µs of low misses one way is written back and gated. -/
  | wayGate (cluster : Nat)
  /-- `WAY_REOPEN`, R198. High misses over 10 µs reopen one way. -/
  | wayReopen (cluster : Nat)
  /-- `THERMAL_TRIP`, R205. A die at 105 °C drops to 400 MHz, evicts its leases and interrupts the host. -/
  | thermalTrip (die : Nat)
  /-- `THERMAL_RECOVERY`, R205. The junction falls below 95 °C and grants resume on the die. -/
  | thermalRecovery (die : Nat)
  /-- `HOST_READ`, R371. A host read through a partition window is translated and served at scope system. -/
  | hostRead (addr len : Nat)
  /-- `HOST_WRITE`, R371. A host write through a partition window is translated and served at scope system. -/
  | hostWrite (addr : Nat) (bytes : List (BitVec 8))
  /-- `ERROR_LOG_RECORD`, R406. A detected error is reported as a KIND 4 record to the die's firmware context. -/
  | errorLogRecord (die cls unit addr : Nat)
  /-- `LINK_FLIT_RETRY`, R403. A flit that fails CRC is sent again, up to 8 times. -/
  | linkFlitRetry (link : Nat)
  /-- `SELF_TEST`, R407. A unit that reported an error is tested alone. -/
  | selfTest (unit : Nat)
  /-- `DEVICE_RESET`, R201. Device reset writes reset retention states and runs the boot ROM. -/
  | deviceReset
  /-- `FIRMWARE_PUSH`, R372. MW_FWCTL PUSH starts verification of the image at MW_FWADDR. -/
  | firmwarePush (addr len : Nat) (live : Bool)
  /-- `FIRMWARE_VERIFY_END`, R416. Verification ends: the image starts or restarts firmware, or FAIL is set. -/
  | firmwareVerifyEnd (digest : BitVec 512)
  /-- `WARM_RESET`, R417. MW_FWCTL WARM resets the compute dies and closes every partition. -/
  | warmReset
  /-- `CHECKPOINT_SAVE`, R413. MW_CKPT SAVE checkpoints the named partitions into the safe tier. -/
  | checkpointSave (mask base : Nat)
  /-- `CHECKPOINT_RESTORE`, R414. MW_CKPT RESTORE writes a safe-tier image back and resumes dispatch. -/
  | checkpointRestore (mask base : Nat)
  /-- `CHECKPOINT_END`, R413. A checkpoint or restore ends, setting DONE or ERR. -/
  | checkpointEnd
  /-- `REFERENCE_CLOCK_TICK`, R423. Each 100 MHz reference tick advances %ticks by 1 and %ptp by 10, or sets %ptp to a value written through %ptpset. -/
  | referenceClockTick
  /-- `DROOP_SAG_END`, R204. The rail sag ends, the clock stretch stops and STRETCH clears. -/
  | droopSagEnd (cluster : Nat)
  /-- `GRAPH_DRAIN_LIMIT_EXPIRY`, R230. The gB-tick limit of GDRAIN .graph passes and the running launch is aborted, the instances retired and the graph set DRAINED. -/
  | graphDrainLimitExpiry (graph : Nat)
  /-- `SELF_TEST_END`, R408. A unit's self-test finishes and the unit is judged transient or lasting, retired where lasting. -/
  | selfTestEnd (unit : Nat) (passed : Bool)
  deriving DecidableEq, Repr

end Sys2Proof
end

