-- ==== Sys2Proof/Machine/Fields.lean ====
section
/-! DEFINITION. The bits of the formats (R57 to R69) and, for every assigned MAJ and MIN of R73, the fields an instruction
uses with the values each may hold; every other field is reserved (R60). The decoder and well-formedness both read these lists. -/

namespace Sys2Proof.Machine

/-- Bits hi down to lo of a number, as an unsigned integer (R53). -/
def bits (w hi lo : Nat) : Nat := (w >>> lo) % 2 ^ (hi - lo + 1)

/-- What a field of an instruction may hold. -/
inductive Chk where
  /-- Every value. -/
  | any
  /-- A reserved field, which holds 0 in every valid word (R60). -/
  | zero
  /-- The KG field of an instruction that takes no guard (R59). -/
  | noGuard
  /-- One of these values; every other is a reserved value. -/
  | oneOf (l : List Nat)
  /-- 0 up to n; a larger value is a reserved value (R72). -/
  | upTo (n : Nat)
  /-- lo up to hi. -/
  | range (lo hi : Nat)
  /-- A mask register that is written: k1 to k15 (R36, R72). -/
  | kDest
  /-- An even value (R68, R256, R331). -/
  | even
  /-- A register that may not stand in the field here (R105, R138). -/
  | notPermitted
  /-- The low bits of the literal of BR.L and CALL.L (R69). -/
  | literalLow
  deriving DecidableEq, Repr

/-- The WHY code of R77 when the value v offends, or none. -/
def Chk.why (c : Chk) (v : Nat) : Option Nat :=
  match c with
  | .any => none
  | .zero => if v = 0 then none else some 1
  | .noGuard => if v = 0 then none else some 4
  | .oneOf l => if l.contains v then none else some 2
  | .upTo n => if v ≤ n then none else some 2
  | .range lo hi => if lo ≤ v ∧ v ≤ hi then none else some 2
  | .kDest => if v = 0 then some 3 else if v ≤ 15 then none else some 2
  | .even => if v % 2 = 0 then none else some 2
  | .notPermitted => some 3
  | .literalLow => if v = 0 then none else some 5

/-- A field of the word, by its high and low bit, and what it may hold. -/
structure Field where
  hi : Nat
  lo : Nat
  chk : Chk
  deriving DecidableEq, Repr

/-- `z` is a reserved field and `u` a field that may hold every value. -/
abbrev Chk.z : Chk := .zero
abbrev Chk.u : Chk := .any

/-- A field that is used when b holds and reserved otherwise. -/
def useIf (b : Bool) : Chk := if b then .any else .zero

open Chk (z u)

/-- Integer types i8 to w64 (R96). -/
def tyInt : Chk := .upTo 7
/-- The types of the floating-point group (R318). -/
def tyFloat : Chk := .range 8 11
/-- Every assigned type code (R70). -/
def tyAll : Chk := .upTo 19
/-- The scalar memory types of LD and ST (R251). -/
def tyScalarMem : Chk := .oneOf [0, 1, 2, 3, 4, 5, 6, 7, 8, 9, 10, 11, 12, 13, 15, 18, 19]
/-- The types of the gather and scatter forms (R251). -/
def tyLane : Chk := .oneOf [2, 6, 10]
/-- Every type but the 4-bit ones (R325). -/
def tyMove : Chk := .oneOf [0, 1, 2, 3, 4, 5, 6, 7, 8, 9, 10, 11, 12, 13, 15, 16, 18, 19]
/-- The operand formats of the matrix array (R338). -/
def tyMx : Chk := .oneOf [0, 8, 9, 12, 13, 14, 15, 16, 17]
/-- Assigned rounding, saturation and scope values (R71). -/
def rmAny : Chk := .upTo 4
def smAny : Chk := .upTo 2
def scAny : Chk := .upTo 5
/-- The order values rlx and rel alone (R225, R251). -/
def ordRel : Chk := .oneOf [0, 2]

/-- The fields of an R word below KG, with the trap-on-empty bits of A, B and C, each a field of its own where it is reserved (R61, R77).
[DESIGN CHOICE, unsafe, log 122] -/
def rF (d a b c ty rm sm : Chk) (fa fb fc : Bool) (mod : List Field) : List Field :=
  [⟨45, 40, d⟩, ⟨39, 34, a⟩, ⟨33, 28, b⟩, ⟨27, 22, c⟩, ⟨21, 17, ty⟩, ⟨16, 14, rm⟩, ⟨13, 12, sm⟩,
   ⟨11, 11, useIf fa⟩, ⟨10, 10, useIf fb⟩, ⟨9, 9, useIf fc⟩] ++ mod

/-- SM and the trap-on-empty bits of an R word where they are reserved and its bits [21:14] and [7:0] are not TY, RM and MOD (R87, R101).
[DESIGN CHOICE, unsafe, log 122] -/
def smFe0 : List Field := [⟨13, 12, z⟩, ⟨11, 11, z⟩, ⟨10, 10, z⟩, ⟨9, 9, z⟩]

/-- A wholly reserved MOD field of an R word. -/
def rMod0 : List Field := [⟨8, 0, z⟩]

/-- The fields of an I word (R62). -/
def iF (a ty : Chk) (fea : Bool) (mod : List Field) : List Field :=
  [⟨39, 34, a⟩, ⟨33, 29, ty⟩, ⟨28, 28, useIf fea⟩] ++ mod

/-- The fields of an M word (R64), with the trap-on-empty bits of DS and BASE. -/
def mF (ds base idx ty sc ord : Chk) (fds fbase : Bool) (disp : List Field) : List Field :=
  [⟨45, 40, ds⟩, ⟨39, 34, base⟩, ⟨33, 28, idx⟩, ⟨27, 23, ty⟩, ⟨22, 20, sc⟩, ⟨19, 18, ord⟩,
   ⟨17, 17, useIf fds⟩, ⟨16, 16, useIf fbase⟩] ++ disp

/-- The fields of an S word (R66), with the trap-on-empty bits of A, B and D. -/
def sF (d a b p cnd sc ord : Chk) (fa fb fd : Bool) (imm : List Field) : List Field :=
  [⟨45, 40, d⟩, ⟨39, 34, a⟩, ⟨33, 28, b⟩, ⟨27, 24, p⟩, ⟨23, 20, cnd⟩, ⟨19, 17, sc⟩, ⟨16, 15, ord⟩,
   ⟨14, 14, useIf fa⟩, ⟨13, 13, useIf fb⟩, ⟨12, 12, useIf fd⟩] ++ imm

/-- A wholly reserved IMM12. -/
def sImm0 : List Field := [⟨11, 0, z⟩]

/-- The fields of an X word (R67). -/
def xF (xt xu a b c ty tyb : Chk) (mod : List Field) : List Field :=
  [⟨45, 43, xt⟩, ⟨42, 40, xu⟩, ⟨39, 34, a⟩, ⟨33, 28, b⟩, ⟨27, 22, c⟩, ⟨21, 17, ty⟩, ⟨16, 12, tyb⟩] ++ mod

/-- MOD of an X word that holds the completion counter in [1:0] and nothing else (R346). -/
def xEc : List Field := [⟨11, 2, z⟩]

/-- The bits of a type code, with t6 counted as 8 (R70, R328). -/
def tyBits (c : Nat) : Nat :=
  match c with
  | 0 | 4 | 12 | 13 | 15 | 16 | 18 => 8
  | 1 | 5 | 8 | 9 | 19 => 16
  | 2 | 6 | 10 => 32
  | 3 | 7 | 11 => 64
  | _ => 4

/-- Whether a system register exists once per cluster (R104). -/
def perClusterReg (n : Nat) : Bool := (0x100 ≤ n && n ≤ 0x105) || n == 0x200 || n == 0x201

/-- Whether a system register number is assigned (R103, R198, R259, R401, R423). -/
def sysRegExists (n : Nat) : Bool :=
  [0x000, 0x001, 0x002, 0x003, 0x004, 0x005, 0x006, 0x010, 0x011, 0x020, 0x021, 0x030, 0x031, 0x032, 0x040, 0x041].contains n ||
  (0x080 ≤ n && n ≤ 0x08F) || (0x100 ≤ n && n ≤ 0x105) ||
  [0x200, 0x201, 0x208, 0x209, 0x20A, 0x210, 0x211, 0x220, 0x230, 0x240].contains n

/-- Groups 0x01 to 0x03 (R86, R87, R93). -/
def fields01 (_w : Nat) : List (List Field) := [rF z z z z z z z false false false rMod0]

def fields02 (_w : Nat) : List (List Field) :=
  let j (a : Chk) (mod : List Field) : List Field := [⟨45, 40, a⟩] ++ mod
  let mask : List Field := [⟨39, 36, z⟩]
  let r (fa : Bool) (a : Chk) := rF z a z z z z z fa false false rMod0
  [ j z [⟨39, 32, z⟩], j (.upTo 15) mask, j (.upTo 15) mask, j z [⟨39, 32, z⟩], r true u, r true u, r true u,
    j u [⟨39, 32, z⟩],
    [⟨49, 46, .noGuard⟩, ⟨45, 40, z⟩, ⟨39, 34, z⟩, ⟨33, 28, z⟩, ⟨27, 22, z⟩] ++ smFe0 ++ [⟨8, 8, z⟩],
    j z [] ]

def fields03 (_w : Nat) : List (List Field) :=
  [ rF u u u u z z z true true true rMod0, rF u u z z z z z true false false rMod0, rF u u z z z z z true false false rMod0 ]

/-- The register forms of the integer group (R97). -/
def fields10 (_w : Nat) : List (List Field) :=
  let two (sm : Chk) := rF u u u z tyInt z sm true true false rMod0
  let noSm : Chk := .oneOf [0]
  let one := rF u u z z tyInt z noSm true false false rMod0
  let three (ty : Chk) := rF u u u u ty z noSm true true true rMod0
  [ two smAny, two smAny, two smAny, two noSm, two smAny, two noSm, two noSm, two noSm, two noSm, two noSm,
    two smAny, two noSm, two noSm, two noSm, one, one, one, two noSm, two noSm, two noSm,
    rF u u u z tyInt z noSm true true false [⟨8, 3, z⟩, ⟨2, 0, .upTo 5⟩],
    three tyInt, one, three (.oneOf [3, 7]), three (.oneOf [3, 7]),
    rF u u u z (.oneOf [7]) z noSm true true false [⟨8, 3, z⟩] ]

/-- The immediate forms of the integer group (R99). -/
def fields11 (w : Nat) : List (List Field) :=
  let op := iF u tyInt true [⟨27, 24, z⟩]
  let pc := bits w 24 24 == 1
  [ op, op, op, op, op, op, op, iF u tyInt true [⟨27, 27, z⟩, ⟨26, 24, .upTo 5⟩], iF z tyInt false [⟨27, 24, z⟩],
    iF (useIf (!pc)) (.oneOf [7]) (!pc) [⟨27, 25, z⟩] ]

/-- Masks, flags and register state (R101). -/
def fields12 (w : Nat) : List (List Field) :=
  let k : Chk := .upTo 15
  let m0 := bits w 0 0 == 1
  [ rF .kDest u z z z z z true false false rMod0,
    rF .kDest k (if bits w 2 0 = 7 then z else k) z z z z false false false [⟨8, 3, z⟩],
    rF (if m0 then u else .kDest) k z z z z z false false false [⟨8, 1, z⟩],
    rF u k k z z z z false false false rMod0,
    [⟨45, 40, useIf (bits w 8 8 == 1)⟩, ⟨39, 34, z⟩, ⟨33, 28, z⟩, ⟨27, 22, z⟩] ++ smFe0,
    rF u z z z z z z false false false [⟨8, 1, z⟩], rF u z z z z z z false false false [⟨8, 1, z⟩] ]

/-- System registers, time and counters (R104 to R106). [DESIGN CHOICE, unsafe, log 122] -/
def fields13 (w : Nat) : List (List Field) :=
  let n := bits w 11 0
  let cl := perClusterReg n
  let imm : List Field := [⟨11, 0, if sysRegExists n then u else .oneOf []⟩]
  let both := bits w 23 20 == 2
  [ sF u (useIf cl) z z z z z cl false false imm,
    sF z u (useIf cl) z z z z true cl false imm,
    sF u z (if both then (if bits w 45 40 = bits w 33 28 then .notPermitted else u) else z) z (.upTo 2) z z false false false sImm0,
    sF u z z (.upTo 7) (.upTo 1) z z false false false sImm0 ]

/-- The guard group (R135 to R139). [DESIGN CHOICE, unsafe, log 122] -/
def fields40 (w : Nat) : List (List Field) :=
  let one := bits w 23 20 == 1
  let entry : List Field := [⟨11, 4, z⟩]
  [ (if one then sF u u z z (.upTo 1) z z true false false sImm0 else sF z u u z (.upTo 1) z z true true false entry),
    (if one then sF z u z z (.upTo 1) z z true false false sImm0 else sF z z z z (.upTo 1) z z false false false entry),
    (if one then sF u z z z (.upTo 1) z z false false false sImm0
     else sF u z (if bits w 45 40 = bits w 33 28 then .notPermitted else u) z (.upTo 1) z z false false false entry),
    sF u z z z z z z false false false [⟨11, 3, z⟩] ]

/-- The queue group (R155). -/
def fields50 (w : Nat) : List (List Field) :=
  let c := bits w 23 20
  [ sF z u u u (.upTo 1) scAny u true true false sImm0,
    sF u z u u (.upTo 1) scAny u false false false sImm0,
    sF u z u u (.upTo 1) scAny u false false false [],
    sF (useIf (c == 1)) z z u (.upTo 1) z z false false false [⟨11, 0, .range 1 2048⟩],
    sF z z z u z z z false false false [⟨11, 0, .upTo 2048⟩],
    sF z u z u z scAny u true false false sImm0,
    sF z z z u z z z false false false [⟨11, 0, .range 1 2048⟩],
    sF z (useIf (c != 2)) (useIf (c != 1)) u (.upTo 2) z z (c != 2) (c != 1) false sImm0,
    sF z z z u z z z false false false sImm0,
    sF u z z u z z z false false false sImm0,
    sF z z z u (.upTo 1) z z false false false [⟨11, 4, z⟩] ]

/-- Counters and waiting (R162, R166 to R168). -/
def fields60 (w : Nat) : List (List Field) :=
  let c := bits w 23 20
  let slot : List Field := [⟨11, 2, z⟩]
  [ sF u u (useIf (c != 1)) z (.upTo 1) scAny u true (c != 1) false (if c = 1 then [] else sImm0),
    sF u u z z z scAny u true false false sImm0,
    (match c with
     | 0 => sF z u u z (.upTo 7) scAny z true true false slot
     | 1 => sF z u u z (.upTo 7) z z true true false slot
     | 2 => [⟨45, 40, z⟩, ⟨39, 34, z⟩, ⟨27, 26, z⟩, ⟨23, 20, .upTo 7⟩, ⟨19, 17, z⟩, ⟨16, 15, z⟩, ⟨14, 14, z⟩, ⟨12, 12, z⟩] ++ slot
     | 3 | 4 => sF z z u u (.upTo 7) z z false true false slot
     | _ => sF z u z z (.upTo 7) z z false false false slot),
    sF u u z z (.upTo 1) scAny (.upTo 1) true false false [⟨11, 4, z⟩],
    sF u z z z z z z false false false slot,
    sF u z z z z z z false false false slot ]

/-- The lease group (R187). -/
def fields68 (w : Nat) : List (List Field) :=
  let c := bits w 23 20
  let eng (modes : Nat) : List Field :=
    [⟨45, 40, z⟩, ⟨23, 22, .upTo modes⟩, ⟨19, 17, z⟩, ⟨16, 15, z⟩, ⟨12, 12, z⟩]
  [ sF u u z z (.upTo 1) z z true false false [⟨11, 2, z⟩],
    sF z u u z z z z true true false sImm0,
    sF z u z z (.upTo 1) z z (c == 0) false false sImm0,
    (if c = 1 then sF u z z z (.upTo 1) z z false false false [⟨11, 3, z⟩, ⟨2, 0, .upTo 4⟩]
     else sF u u z z (.upTo 1) z z true false false sImm0),
    sF u u z z (.upTo 1) z z true false false sImm0,
    eng 1, eng 0, eng 1, eng 1 ]

/-- The graph group (R225). -/
def fields70 (w : Nat) : List (List Field) :=
  let c := bits w 23 20
  let three := sF u u u z z z z true true false sImm0
  let actor : List Field := [⟨11, 8, z⟩]
  [ sF u u u z z scAny ordRel true true false sImm0, three, three,
    sF u u (useIf (c == 0)) z (.upTo 2) z z true (c == 0) false sImm0, three,
    (match c with
     | 2 => sF z z z z (.upTo 3) z z false false false actor
     | 3 => sF z u u z (.upTo 3) z z true true false sImm0
     | _ => sF z z u z (.upTo 3) z z false true false actor),
    sF u u z z (.upTo 1) z z true false false sImm0 ]

/-- The stream bits QD and QA of the vector groups, the D and A fields they govern and the trap bit of A (R312, R314). -/
def vD (w : Nat) : Chk := if bits w 7 7 = 1 then .upTo 15 else u
def vA (w : Nat) : Chk := if bits w 8 8 = 1 then .upTo 15 else u
def vFa (w : Nat) : Bool := bits w 8 8 == 0

/-- Integer lanes (R312, R316, R317). -/
def fields80 (w : Nat) : List (List Field) :=
  let noSm : Chk := .oneOf [0]
  let mod (cond : Chk) (bg k : Chk) (qd qa : Chk) : List Field :=
    [⟨8, 8, qa⟩, ⟨7, 7, qd⟩, ⟨6, 6, z⟩, ⟨5, 5, k⟩, ⟨4, 2, cond⟩, ⟨1, 1, bg⟩, ⟨0, 0, z⟩]
  let two (sm : Chk) := rF (vD w) (vA w) u z tyInt z sm (vFa w) true false (mod z u z u u)
  let three (sm : Chk) := rF (vD w) (vA w) u u tyInt z sm (vFa w) true true (mod z u z u u)
  let one (sm : Chk) := rF (vD w) (vA w) z z tyInt z sm (vFa w) false false (mod z z z u u)
  let bg := bits w 1 1 == 1
  let k := bits w 5 5 == 1
  [ two smAny, two smAny, two smAny, two noSm, three smAny, two noSm, two noSm, two noSm, two smAny, two noSm, two noSm,
    two noSm, two noSm, one smAny,
    rF (if k then .kDest else vD w) (vA w) u z (if k then .oneOf [2, 3, 6, 7] else tyInt) z noSm (vFa w) true false
      (mod (.upTo 5) u u (if k then .oneOf [0] else u) u),
    three noSm,
    (if bg then rF (vD w) z u z tyInt z noSm false true false (mod z u z u z)
     else rF (vD w) (vA w) z z tyInt z noSm (vFa w) false false (mod z u z u u)),
    one noSm ]

/-- Floating-point lanes (R312, R319, R320). -/
def fields81 (w : Nat) : List (List Field) :=
  let mod (cond bg k qd : Chk) : List Field :=
    [⟨7, 7, qd⟩, ⟨6, 6, z⟩, ⟨5, 5, k⟩, ⟨4, 2, cond⟩, ⟨1, 1, bg⟩]
  let two (rm sm cond : Chk) := rF (vD w) (vA w) u z tyFloat rm sm (vFa w) true false (mod cond u z u)
  let one (ty rm sm : Chk) := rF (vD w) (vA w) z z ty rm sm (vFa w) false false (mod z z z u)
  let rm0 : Chk := .oneOf [0]
  let k := bits w 5 5 == 1
  [ two rmAny smAny z, two rmAny smAny z, two rmAny smAny z,
    rF (vD w) (vA w) u u tyFloat rmAny smAny (vFa w) true true (mod z u z u),
    two z z z, two z z z, two z z (.upTo 2),
    rF (if k then .kDest else vD w) (vA w) u z (if k then .oneOf [10, 11] else tyFloat) z z (vFa w) true false
      (mod (.upTo 6) u u (if k then .oneOf [0] else u)),
    one tyFloat z z, one tyFloat rm0 smAny, one tyFloat rm0 smAny,
    one (.range 8 10) rm0 smAny, one (.range 8 10) rm0 smAny, one (.range 8 10) rm0 smAny, one (.range 8 10) rm0 smAny,
    one tyFloat rmAny smAny ]

/-- Across lanes (R312, R325 to R327). -/
def fields82 (w : Nat) : List (List Field) :=
  let mod (op excl qd qa : Chk) : List Field :=
    [⟨8, 8, qa⟩, ⟨7, 7, qd⟩, ⟨6, 6, z⟩, ⟨5, 5, z⟩, ⟨4, 4, excl⟩, ⟨3, 1, op⟩, ⟨0, 0, z⟩]
  let two := rF (vD w) (vA w) u z tyMove z z (vFa w) true false (mod z z u u)
  let logic := 3 ≤ bits w 3 1 && bits w 3 1 ≤ 5
  let fold (excl : Chk) :=
    rF (vD w) (vA w) z z (if logic then tyInt else .upTo 11) (if bits w 21 17 < 8 then z else rmAny) smAny
      (vFa w) false false (mod (.upTo 5) excl u u)
  let no : Chk := .oneOf [0]
  let elem := rF u u u z tyMove z z true true false (mod z z no no)
  [ two, two, two, fold z, fold u, elem, elem ]

/-- Whether a pair of conversion types joins a 4-bit and a 64-bit type (R328). -/
def pairRefused (ws wd : Nat) : Bool := (ws == 4 && wd == 64) || (ws == 64 && wd == 4)

/-- Conversions (R312, R328 to R332). -/
def fields83 (w : Nat) : List (List Field) :=
  let ws := tyBits (bits w 5 1)
  let wd := tyBits (bits w 21 17)
  let known := bits w 5 1 ≤ 19 && bits w 21 17 ≤ 19
  let r := Nat.max ws wd / Nat.min ws wd
  let no : Chk := .oneOf [0]
  let mod (qd qa : Chk) : List Field := [⟨8, 8, qa⟩, ⟨7, 7, qd⟩, ⟨6, 6, z⟩, ⟨5, 1, tyAll⟩]
  let ty : Chk := if known && pairRefused ws wd then .oneOf [] else tyAll
  let conv (b : Chk) (fb : Bool) :=
    rF (vD w) (vA w) b (if known then .upTo (r - 1) else u) ty rmAny smAny (vFa w) fb false
      (mod (if known && wd < ws then no else u) (if known && ws < wd then no else u))
  let pairTy (ok : Bool) : Chk := if ok || !known then tyAll else .oneOf []
  let scl := bits w 2 2 == 1
  let acc := bits w 1 1 == 1
  [ conv z false, conv u true, conv u true,
    rF (vD w) (vA w) u z (pairTy (ws == 2 * wd)) rmAny smAny (vFa w) true false (mod u u),
    rF .even (vA w) z z (pairTy (wd == 2 * ws)) rmAny smAny (vFa w) false false (mod no u),
    rF u (vA w) z (useIf acc) tyFloat (if scl then rmAny else z) (if scl then smAny else z) (vFa w) false acc
      [⟨7, 3, if scl then .oneOf [0, 12, 13, 14, 15, 16, 17] else z⟩],
    conv u true ]

/-- The matrix group (R346). -/
def fieldsC0 (w : Nat) : List (List Field) :=
  let q : Chk := .upTo 15
  [ xF z z u u u z tyMx xEc, xF z z u z z z z [⟨11, 0, z⟩], xF z z u q q tyMx tyMx xEc,
    xF u z u u u tyMx tyMx [⟨11, 5, z⟩], xF u z u z z z z [⟨11, 1, z⟩],
    xF u z u u u (.oneOf [10, 11]) z [⟨11, 0, z⟩], xF u z u u u (.oneOf [10, 11]) z [⟨11, 0, z⟩],
    xF u u u z z z z xEc, xF u u u u z z z xEc, xF u u u z z z z [⟨11, 6, z⟩],
    xF (if bits w 0 0 = 1 then .even else u) z u z z z z [⟨11, 1, z⟩],
    xF u z z q u z z [⟨11, 3, z⟩, ⟨1, 0, .upTo 2⟩] ]

/-- The bound group (R346). -/
def fieldsC1 (w : Nat) : List (List Field) :=
  let eb : Chk := .oneOf [19]
  [ (if bits w 0 0 = 1 then xF u z u u z z z [⟨11, 1, z⟩] else xF u z u u u eb z [⟨11, 1, z⟩]),
    xF u z u u u eb z [⟨11, 0, z⟩], xF u z u u z z z [⟨11, 0, z⟩], xF u z u u u z z xEc, xF u z u u u z z xEc,
    (match bits w 1 0 with
     | 0 => xF u z u u z (.upTo 17) z [⟨11, 7, z⟩, ⟨6, 5, smAny⟩, ⟨4, 2, rmAny⟩]
     | 1 => xF u z u u z z z [⟨11, 7, z⟩, ⟨6, 5, z⟩, ⟨4, 2, z⟩]
     | 2 => xF u u u z z z z [⟨11, 7, z⟩, ⟨6, 5, z⟩, ⟨4, 2, z⟩]
     | _ => xF u z u z z z z [⟨11, 7, z⟩, ⟨6, 5, z⟩, ⟨4, 2, z⟩, ⟨1, 0, .upTo 2⟩]) ]

/-- Loads (R251). -/
def fieldsD0 (_w : Nat) : List (List Field) :=
  [ mF u u u tyScalarMem scAny u false true [], mF u u u tyAll scAny u false true [], mF u u u tyLane scAny u false true [] ]

/-- Stores (R251). -/
def fieldsD1 (_w : Nat) : List (List Field) :=
  [ mF u u u tyScalarMem scAny u true true [], mF u u u tyAll scAny u true true [], mF u u u tyLane scAny u true true [] ]

/-- Whether an atomic operation takes the type (R256). -/
def atomOpTakes (op ty : Nat) : Bool :=
  if op ≤ 5 then [2, 3, 6, 7].contains ty
  else if op = 6 then [2, 3, 6, 7, 10, 11].contains ty
  else op == 7 && (ty == 10 || ty == 11)

/-- Atomics (R251, R256). -/
def fieldsD2 (w : Nat) : List (List Field) :=
  let op : List Field := [⟨15, 12, if atomOpTakes (bits w 15 12) (bits w 27 23) then u else .oneOf []⟩]
  let atom := mF u u u (.oneOf [2, 3, 6, 7, 10, 11]) scAny u true true op
  [ atom, atom, mF .even u u (.oneOf [2, 3, 6, 7]) scAny u true true [] ]

/-- Copies and arrival words (R251). -/
def fieldsD3 (_w : Nat) : List (List Field) :=
  let aw := mF u u u (.oneOf [7]) scAny ordRel true true []
  [ mF z u z z scAny ordRel false true [⟨15, 0, z⟩],
    [⟨45, 42, z⟩, ⟨33, 28, z⟩, ⟨27, 23, z⟩, ⟨22, 20, scAny⟩, ⟨19, 18, ordRel⟩, ⟨17, 17, z⟩, ⟨15, 0, z⟩], aw, aw ]

/-- Fences, cache controls, bank switches and blending (R251). -/
def fieldsD4 (_w : Nat) : List (List Field) :=
  let cache := mF u u u tyAll z z true true []
  [ mF z z z z scAny u false false [⟨15, 0, z⟩], mF z u u tyAll (.range 1 2) z false true [], cache, cache, cache,
    mF u u u (.oneOf [7]) z z true true [], mF u u u (.oneOf [8]) z ordRel true true [],
    mF u u u (.oneOf [7]) z ordRel true true [] ]

/-- The system group (R374). -/
def fieldsE0 (w : Nat) : List (List Field) :=
  let c := bits w 23 20
  let part : List Field := [⟨11, 6, z⟩]
  let self := c == 3
  [ sF (useIf (!self)) u u z (.upTo 3) z z true true false part,
    sF u u u z (.upTo 3) (.range 4 5) z true true true part,
    sF u u u z (.upTo 9) z z true true false part,
    sF u u u z z z z true true false part,
    sF u u u z z z z true true false [] ]

/-- The recovery group (R390, R393). -/
def fieldsE8 (w : Nat) : List (List Field) :=
  let c := bits w 23 20
  let other := bits w 4 4 == 1
  let entry : List Field := [⟨11, 5, z⟩] ++ (if c < 5 then [⟨3, 0, z⟩] else [])
  [ sF z z z z z z z false false false [],
    [⟨49, 46, .noGuard⟩] ++ sF z (useIf (c == 1)) z z (.upTo 1) z z (c == 1) false false sImm0,
    sF u (useIf other) z z u z z other false false entry,
    sF z (useIf other) u z (.oneOf [4, 7, 8, 9, 10, 11, 12, 13, 14, 15]) z z other true false entry,
    sF z u z z z z z true false false sImm0,
    [⟨49, 46, .noGuard⟩] ++ sF u u u z (.upTo 2) z z true true true sImm0,
    sF u u u z (.upTo 1) z z true true false sImm0 ]

/-- The first words of the L pairs (R69, R87, R100). -/
def fieldsF0 (_w : Nat) : List (List Field) :=
  let j : List Field := [⟨45, 40, z⟩, ⟨39, 32, z⟩, ⟨31, 0, z⟩]
  [ j, j, rF u z z z tyInt z z false false false rMod0, rF u z z z (.oneOf [7]) z z false false false rMod0 ]

/-- The rows of a MAJ in the order of their MIN, each the fields that can offend, or none where the MAJ is
unassigned (R73, R74). -/
def fieldRows (maj w : Nat) : Option (List (List Field)) :=
  match maj with
  | 0x01 => some (fields01 w)
  | 0x02 => some (fields02 w)
  | 0x03 => some (fields03 w)
  | 0x10 => some (fields10 w)
  | 0x11 => some (fields11 w)
  | 0x12 => some (fields12 w)
  | 0x13 => some (fields13 w)
  | 0x40 => some (fields40 w)
  | 0x50 => some (fields50 w)
  | 0x60 => some (fields60 w)
  | 0x68 => some (fields68 w)
  | 0x70 => some (fields70 w)
  | 0x80 => some (fields80 w)
  | 0x81 => some (fields81 w)
  | 0x82 => some (fields82 w)
  | 0x83 => some (fields83 w)
  | 0xC0 => some (fieldsC0 w)
  | 0xC1 => some (fieldsC1 w)
  | 0xD0 => some (fieldsD0 w)
  | 0xD1 => some (fieldsD1 w)
  | 0xD2 => some (fieldsD2 w)
  | 0xD3 => some (fieldsD3 w)
  | 0xD4 => some (fieldsD4 w)
  | 0xE0 => some (fieldsE0 w)
  | 0xE8 => some (fieldsE8 w)
  | 0xF0 => some (fieldsF0 w)
  | _ => none

/-- Of two offences the one whose field stands higher (R77). -/
def higher (a b : Option (Nat × Nat)) : Option (Nat × Nat) :=
  match a, b with
  | some x, some y => if x.1 < y.1 then some y else some x
  | none, y => y
  | x, none => x

/-- The offending field of a word that stands highest (R77). -/
def worstOffence (w : Nat) : List Field → Option (Nat × Nat)
  | [] => none
  | f :: rest => higher ((f.chk.why (bits w f.hi f.lo)).map fun why => (f.hi, why)) (worstOffence w rest)

/-- Whether the instruction is an L pair: MAJ 0xF0 (R69). -/
def isLong (w : Nat) : Bool := bits w 63 56 == 0xF0

/-- The offence of checks 2 and 3 of R76 as (FIELDHI, WHY, SECOND) of R77, or none for a valid word; lit is the second
word of an L pair. -/
def encodingOffence (w lit : Nat) : Option (Nat × Nat × Bool) :=
  match fieldRows (bits w 63 56) w with
  | none => some (63, 0, false)
  | some rows =>
    match rows[bits w 55 50]? with
    | none => some (55, 0, false)
    | some fs =>
      if isLong w && bits w 55 50 < 2 && bits lit 2 0 != 0 then some (2, 5, true)
      else (worstOffence w fs).map fun o => (o.1, o.2, false)

end Sys2Proof.Machine
end

