-- ==== Sys2Proof/Machine/Words.lean ====
section
/-! DEFINITION. The places of the fields in a word (R58, R61 to R69) written and read, and the MAJ, MIN and sub-operation code of
every instruction (R73). -/

namespace Sys2Proof

/-- The R format: the bits below MIN that hold these fields (R61). -/
def RForm.low (f : RForm) : Nat :=
  f.kg.toNat * 2 ^ 46 + f.d.toNat * 2 ^ 40 + f.a.toNat * 2 ^ 34 + f.b.toNat * 2 ^ 28 + f.c.toNat * 2 ^ 22 + f.ty.toNat * 2 ^ 17 + f.rm.toNat * 2 ^ 14 + f.sm.toNat * 2 ^ 12 + f.fe.toNat * 2 ^ 9 + f.mod.toNat

/-- The fields of a word of the R format (R61). -/
def RForm.ofWord (w : Nat) : RForm :=
  { kg := BitVec.ofNat 4 (w >>> 46), d := BitVec.ofNat 6 (w >>> 40), a := BitVec.ofNat 6 (w >>> 34), b := BitVec.ofNat 6 (w >>> 28), c := BitVec.ofNat 6 (w >>> 22), ty := BitVec.ofNat 5 (w >>> 17), rm := BitVec.ofNat 3 (w >>> 14), sm := BitVec.ofNat 2 (w >>> 12), fe := BitVec.ofNat 3 (w >>> 9), mod := BitVec.ofNat 9 w }

/-- The I format: the bits below MIN that hold these fields (R62). -/
def IForm.low (f : IForm) : Nat :=
  f.kg.toNat * 2 ^ 46 + f.d.toNat * 2 ^ 40 + f.a.toNat * 2 ^ 34 + f.ty.toNat * 2 ^ 29 + f.fea.toNat * 2 ^ 28 + f.mod.toNat * 2 ^ 24 + f.imm.toNat

/-- The fields of a word of the I format (R62). -/
def IForm.ofWord (w : Nat) : IForm :=
  { kg := BitVec.ofNat 4 (w >>> 46), d := BitVec.ofNat 6 (w >>> 40), a := BitVec.ofNat 6 (w >>> 34), ty := BitVec.ofNat 5 (w >>> 29), fea := BitVec.ofNat 1 (w >>> 28), mod := BitVec.ofNat 4 (w >>> 24), imm := BitVec.ofNat 24 w }

/-- The J format: the bits below MIN that hold these fields (R63). -/
def JForm.low (f : JForm) : Nat :=
  f.kg.toNat * 2 ^ 46 + f.a.toNat * 2 ^ 40 + f.mod.toNat * 2 ^ 32 + f.off.toNat

/-- The fields of a word of the J format (R63). -/
def JForm.ofWord (w : Nat) : JForm :=
  { kg := BitVec.ofNat 4 (w >>> 46), a := BitVec.ofNat 6 (w >>> 40), mod := BitVec.ofNat 8 (w >>> 32), off := BitVec.ofNat 32 w }

/-- The M format: the bits below MIN that hold these fields (R64). -/
def MForm.low (f : MForm) : Nat :=
  f.kg.toNat * 2 ^ 46 + f.ds.toNat * 2 ^ 40 + f.base.toNat * 2 ^ 34 + f.idx.toNat * 2 ^ 28 + f.ty.toNat * 2 ^ 23 + f.sc.toNat * 2 ^ 20 + f.ord.toNat * 2 ^ 18 + f.fe.toNat * 2 ^ 16 + f.disp.toNat

/-- The fields of a word of the M format (R64). -/
def MForm.ofWord (w : Nat) : MForm :=
  { kg := BitVec.ofNat 4 (w >>> 46), ds := BitVec.ofNat 6 (w >>> 40), base := BitVec.ofNat 6 (w >>> 34), idx := BitVec.ofNat 6 (w >>> 28), ty := BitVec.ofNat 5 (w >>> 23), sc := BitVec.ofNat 3 (w >>> 20), ord := BitVec.ofNat 2 (w >>> 18), fe := BitVec.ofNat 2 (w >>> 16), disp := BitVec.ofNat 16 w }

/-- The S format: the bits below MIN that hold these fields (R66). -/
def SForm.low (f : SForm) : Nat :=
  f.kg.toNat * 2 ^ 46 + f.d.toNat * 2 ^ 40 + f.a.toNat * 2 ^ 34 + f.b.toNat * 2 ^ 28 + f.p.toNat * 2 ^ 24 + f.cnd.toNat * 2 ^ 20 + f.sc.toNat * 2 ^ 17 + f.ord.toNat * 2 ^ 15 + f.fe.toNat * 2 ^ 12 + f.imm.toNat

/-- The fields of a word of the S format (R66). -/
def SForm.ofWord (w : Nat) : SForm :=
  { kg := BitVec.ofNat 4 (w >>> 46), d := BitVec.ofNat 6 (w >>> 40), a := BitVec.ofNat 6 (w >>> 34), b := BitVec.ofNat 6 (w >>> 28), p := BitVec.ofNat 4 (w >>> 24), cnd := BitVec.ofNat 4 (w >>> 20), sc := BitVec.ofNat 3 (w >>> 17), ord := BitVec.ofNat 2 (w >>> 15), fe := BitVec.ofNat 3 (w >>> 12), imm := BitVec.ofNat 12 w }

/-- The X format: the bits below MIN that hold these fields (R67). -/
def XForm.low (f : XForm) : Nat :=
  f.kg.toNat * 2 ^ 46 + f.xt.toNat * 2 ^ 43 + f.xu.toNat * 2 ^ 40 + f.a.toNat * 2 ^ 34 + f.b.toNat * 2 ^ 28 + f.c.toNat * 2 ^ 22 + f.ty.toNat * 2 ^ 17 + f.tyb.toNat * 2 ^ 12 + f.mod.toNat

/-- The fields of a word of the X format (R67). -/
def XForm.ofWord (w : Nat) : XForm :=
  { kg := BitVec.ofNat 4 (w >>> 46), xt := BitVec.ofNat 3 (w >>> 43), xu := BitVec.ofNat 3 (w >>> 40), a := BitVec.ofNat 6 (w >>> 34), b := BitVec.ofNat 6 (w >>> 28), c := BitVec.ofNat 6 (w >>> 22), ty := BitVec.ofNat 5 (w >>> 17), tyb := BitVec.ofNat 5 (w >>> 12), mod := BitVec.ofNat 12 w }

/-- The fields of the first word of an L pair that are not reserved (R69, R100). -/
def LForm.low (f : LForm) : Nat := f.kg.toNat * 2 ^ 46 + f.d.toNat * 2 ^ 40 + f.ty.toNat * 2 ^ 17

/-- The fields of an L pair: its first word w and its literal (R69). -/
def LForm.ofWords (w lit : Nat) : LForm :=
  { kg := BitVec.ofNat 4 (w >>> 46), d := BitVec.ofNat 6 (w >>> 40), ty := BitVec.ofNat 5 (w >>> 17), lit := BitVec.ofNat 64 lit }

/-- The fields of an instruction word in one of the seven formats. -/
inductive Form where
  /-- An R-format word (R61). -/
  | r (f : RForm)
  /-- An I-format word (R62). -/
  | i (f : IForm)
  /-- A J-format word (R63). -/
  | j (f : JForm)
  /-- An M-format word (R64). -/
  | m (f : MForm)
  /-- An S-format word (R66). -/
  | s (f : SForm)
  /-- An X-format word (R67). -/
  | x (f : XForm)
  /-- An L pair (R69). -/
  | l (f : LForm)
  deriving DecidableEq, Repr

/-- The bits below MIN. -/
def Form.low : Form → Nat
  | .r f => f.low
  | .i f => f.low
  | .j f => f.low
  | .m f => f.low
  | .s f => f.low
  | .x f => f.low
  | .l f => f.low

/-- The second word, present in an L pair alone. -/
def Form.literal : Form → Option Word
  | .r _ => none
  | .i _ => none
  | .j _ => none
  | .m _ => none
  | .s _ => none
  | .x _ => none
  | .l f => some f.lit

/-- The guard field KG (R58). -/
def Form.kg : Form → Nat
  | .r f => f.kg.toNat
  | .i f => f.kg.toNat
  | .j f => f.kg.toNat
  | .m f => f.kg.toNat
  | .s f => f.kg.toNat
  | .x f => f.kg.toNat
  | .l f => f.kg.toNat

/-- What the encoding of an instruction word says of it: MAJ, MIN, whether the fields hold the sub-operation code of this
very instruction, and the fields. -/
structure View where
  maj : Nat
  min : Nat
  sub : Bool
  form : Form
  deriving DecidableEq, Repr

/-- The first word of an instruction. -/
def View.word (v : View) : Nat := v.maj * 2 ^ 56 + v.min * 2 ^ 50 + v.form.low

/-- The view of an instruction, or none for the event rows, which have no word (R73). -/
def Instr.view (i : Instr) : Option View :=
  match i with
  | .nop f => some ⟨0x01, 0, true, .r f⟩
  | .br f => some ⟨0x02, 0, true, .j f⟩
  | .brany f => some ⟨0x02, 1, true, .j f⟩
  | .brall f => some ⟨0x02, 2, true, .j f⟩
  | .call f => some ⟨0x02, 3, true, .j f⟩
  | .ret f => some ⟨0x02, 4, true, .r f⟩
  | .brx f => some ⟨0x02, 5, true, .r f⟩
  | .callx f => some ⟨0x02, 6, true, .r f⟩
  | .loop f => some ⟨0x02, 7, true, .j f⟩
  | .endFiring f => some ⟨0x02, 8, true, .r f⟩
  | .ipf f => some ⟨0x02, 9, true, .j f⟩
  | .brL f => some ⟨0xF0, 0, true, .l f⟩
  | .callL f => some ⟨0xF0, 1, true, .l f⟩
  | .moviL f => some ⟨0xF0, 2, true, .l f⟩
  | .leaL f => some ⟨0xF0, 3, true, .l f⟩
  | .modbind f => some ⟨0x03, 0, true, .r f⟩
  | .modfree f => some ⟨0x03, 1, true, .r f⟩
  | .modq f => some ⟨0x03, 2, true, .r f⟩
  | .add f => some ⟨0x10, 0, true, .r f⟩
  | .sub f => some ⟨0x10, 1, true, .r f⟩
  | .mul f => some ⟨0x10, 2, true, .r f⟩
  | .mulh f => some ⟨0x10, 3, true, .r f⟩
  | .div f => some ⟨0x10, 4, true, .r f⟩
  | .rem f => some ⟨0x10, 5, true, .r f⟩
  | .and f => some ⟨0x10, 6, true, .r f⟩
  | .or f => some ⟨0x10, 7, true, .r f⟩
  | .xor f => some ⟨0x10, 8, true, .r f⟩
  | .andn f => some ⟨0x10, 9, true, .r f⟩
  | .shl f => some ⟨0x10, 10, true, .r f⟩
  | .shr f => some ⟨0x10, 11, true, .r f⟩
  | .sra f => some ⟨0x10, 12, true, .r f⟩
  | .rot f => some ⟨0x10, 13, true, .r f⟩
  | .clz f => some ⟨0x10, 14, true, .r f⟩
  | .ctz f => some ⟨0x10, 15, true, .r f⟩
  | .popc f => some ⟨0x10, 16, true, .r f⟩
  | .min f => some ⟨0x10, 17, true, .r f⟩
  | .max f => some ⟨0x10, 18, true, .r f⟩
  | .absd f => some ⟨0x10, 19, true, .r f⟩
  | .cmp f => some ⟨0x10, 20, true, .r f⟩
  | .sel f => some ⟨0x10, 21, true, .r f⟩
  | .mov f => some ⟨0x10, 22, true, .r f⟩
  | .ext f => some ⟨0x10, 23, true, .r f⟩
  | .ins f => some ⟨0x10, 24, true, .r f⟩
  | .lea f => some ⟨0x10, 25, true, .r f⟩
  | .addImm f => some ⟨0x11, 0, true, .i f⟩
  | .andImm f => some ⟨0x11, 1, true, .i f⟩
  | .orImm f => some ⟨0x11, 2, true, .i f⟩
  | .xorImm f => some ⟨0x11, 3, true, .i f⟩
  | .shlImm f => some ⟨0x11, 4, true, .i f⟩
  | .shrImm f => some ⟨0x11, 5, true, .i f⟩
  | .sraImm f => some ⟨0x11, 6, true, .i f⟩
  | .cmpImm f => some ⟨0x11, 7, true, .i f⟩
  | .movi f => some ⟨0x11, 8, true, .i f⟩
  | .leaImm f => some ⟨0x11, 9, f.mod.getLsbD 0 == false, .i f⟩
  | .leaPc f => some ⟨0x11, 9, f.mod.getLsbD 0 == true, .i f⟩
  | .kset f => some ⟨0x12, 0, true, .r f⟩
  | .klog f => some ⟨0x12, 1, true, .r f⟩
  | .kmov f => some ⟨0x12, 2, true, .r f⟩
  | .kcnt f => some ⟨0x12, 3, true, .r f⟩
  | .flag f => some ⟨0x12, 4, true, .r f⟩
  | .empty f => some ⟨0x12, 5, true, .r f⟩
  | .full f => some ⟨0x12, 6, true, .r f⟩
  | .gets f => some ⟨0x13, 0, true, .s f⟩
  | .sets f => some ⟨0x13, 1, true, .s f⟩
  | .gettTicks f => some ⟨0x13, 2, f.cnd == 0, .s f⟩
  | .gettPtp f => some ⟨0x13, 2, f.cnd == 1, .s f⟩
  | .gettBoth f => some ⟨0x13, 2, f.cnd == 2, .s f⟩
  | .perf f => some ⟨0x13, 3, true, .s f⟩
  | .guardEntry f => some ⟨0x40, 0, f.cnd == 0, .s f⟩
  | .guardTable f => some ⟨0x40, 0, f.cnd == 1, .s f⟩
  | .unguardOne f => some ⟨0x40, 1, f.cnd == 0, .s f⟩
  | .unguardMask f => some ⟨0x40, 1, f.cnd == 1, .s f⟩
  | .gqryEntry f => some ⟨0x40, 2, f.cnd == 0, .s f⟩
  | .gqryElig f => some ⟨0x40, 2, f.cnd == 1, .s f⟩
  | .ctxq f => some ⟨0x40, 3, true, .s f⟩
  | .qpush f => some ⟨0x50, 0, true, .s f⟩
  | .qpop f => some ⟨0x50, 1, true, .s f⟩
  | .qpeek f => some ⟨0x50, 2, true, .s f⟩
  | .qres f => some ⟨0x50, 3, true, .s f⟩
  | .qrel f => some ⟨0x50, 4, true, .s f⟩
  | .qeos f => some ⟨0x50, 5, true, .s f⟩
  | .qcred f => some ⟨0x50, 6, true, .s f⟩
  | .qbindPort f => some ⟨0x50, 7, f.cnd == 0, .s f⟩
  | .qbindHome f => some ⟨0x50, 7, f.cnd == 1, .s f⟩
  | .qbindTmpl f => some ⟨0x50, 7, f.cnd == 2, .s f⟩
  | .qunbind f => some ⟨0x50, 8, true, .s f⟩
  | .qstat f => some ⟨0x50, 9, true, .s f⟩
  | .qfwd f => some ⟨0x50, 10, true, .s f⟩
  | .mcadd f => some ⟨0x60, 0, true, .s f⟩
  | .mcread f => some ⟨0x60, 1, true, .s f⟩
  | .wcond f => some ⟨0x60, 2, true, .s f⟩
  | .wait f => some ⟨0x60, 3, true, .s f⟩
  | .eread f => some ⟨0x60, 4, true, .s f⟩
  | .eclr f => some ⟨0x60, 5, true, .s f⟩
  | .lease f => some ⟨0x68, 0, true, .s f⟩
  | .lrenew f => some ⟨0x68, 1, true, .s f⟩
  | .lfreeHeld f => some ⟨0x68, 2, f.cnd == 0, .s f⟩
  | .lfreePend f => some ⟨0x68, 2, f.cnd == 1, .s f⟩
  | .lqryLease f => some ⟨0x68, 3, f.cnd == 0, .s f⟩
  | .lqryCls f => some ⟨0x68, 3, f.cnd == 1, .s f⟩
  | .evackNow f => some ⟨0x68, 4, f.cnd == 0, .s f⟩
  | .evackDrain f => some ⟨0x68, 4, f.cnd == 1, .s f⟩
  | .rast f => some ⟨0x68, 5, true, .s f⟩
  | .trace f => some ⟨0x68, 6, true, .s f⟩
  | .sample f => some ⟨0x68, 7, true, .s f⟩
  | .codec f => some ⟨0x68, 8, true, .s f⟩
  | .spawn f => some ⟨0x70, 0, true, .s f⟩
  | .gload f => some ⟨0x70, 1, true, .s f⟩
  | .garm f => some ⟨0x70, 2, true, .s f⟩
  | .gdrainGraph f => some ⟨0x70, 3, f.cnd == 0, .s f⟩
  | .gdrainQdrain f => some ⟨0x70, 3, f.cnd == 1, .s f⟩
  | .gdrainQabort f => some ⟨0x70, 3, f.cnd == 2, .s f⟩
  | .gstart f => some ⟨0x70, 4, true, .s f⟩
  | .placePin f => some ⟨0x70, 5, f.cnd == 0, .s f⟩
  | .placeHint f => some ⟨0x70, 5, f.cnd == 1, .s f⟩
  | .placeFree f => some ⟨0x70, 5, f.cnd == 2, .s f⟩
  | .placeOwn f => some ⟨0x70, 5, f.cnd == 3, .s f⟩
  | .lstatLaunch f => some ⟨0x70, 6, f.cnd == 0, .s f⟩
  | .lstatGraph f => some ⟨0x70, 6, f.cnd == 1, .s f⟩
  | .vadd f => some ⟨0x80, 0, true, .r f⟩
  | .vsub f => some ⟨0x80, 1, true, .r f⟩
  | .vmul f => some ⟨0x80, 2, true, .r f⟩
  | .vmulh f => some ⟨0x80, 3, true, .r f⟩
  | .vmad f => some ⟨0x80, 4, true, .r f⟩
  | .vand f => some ⟨0x80, 5, true, .r f⟩
  | .vor f => some ⟨0x80, 6, true, .r f⟩
  | .vxor f => some ⟨0x80, 7, true, .r f⟩
  | .vshl f => some ⟨0x80, 8, true, .r f⟩
  | .vshr f => some ⟨0x80, 9, true, .r f⟩
  | .vsra f => some ⟨0x80, 10, true, .r f⟩
  | .vmin f => some ⟨0x80, 11, true, .r f⟩
  | .vmax f => some ⟨0x80, 12, true, .r f⟩
  | .vabs f => some ⟨0x80, 13, true, .r f⟩
  | .vcmp f => some ⟨0x80, 14, true, .r f⟩
  | .vsel f => some ⟨0x80, 15, true, .r f⟩
  | .vmov f => some ⟨0x80, 16, true, .r f⟩
  | .vpopc f => some ⟨0x80, 17, true, .r f⟩
  | .fadd f => some ⟨0x81, 0, true, .r f⟩
  | .fsub f => some ⟨0x81, 1, true, .r f⟩
  | .fmul f => some ⟨0x81, 2, true, .r f⟩
  | .ffma f => some ⟨0x81, 3, true, .r f⟩
  | .fmin f => some ⟨0x81, 4, true, .r f⟩
  | .fmax f => some ⟨0x81, 5, true, .r f⟩
  | .fsgn f => some ⟨0x81, 6, true, .r f⟩
  | .fcmp f => some ⟨0x81, 7, true, .r f⟩
  | .fclass f => some ⟨0x81, 8, true, .r f⟩
  | .frcps f => some ⟨0x81, 9, true, .r f⟩
  | .frsqs f => some ⟨0x81, 10, true, .r f⟩
  | .fexp2 f => some ⟨0x81, 11, true, .r f⟩
  | .flog2 f => some ⟨0x81, 12, true, .r f⟩
  | .fsinp f => some ⟨0x81, 13, true, .r f⟩
  | .fcosp f => some ⟨0x81, 14, true, .r f⟩
  | .frnd f => some ⟨0x81, 15, true, .r f⟩
  | .vbcast f => some ⟨0x82, 0, true, .r f⟩
  | .vperm f => some ⟨0x82, 1, true, .r f⟩
  | .vrot f => some ⟨0x82, 2, true, .r f⟩
  | .vred f => some ⟨0x82, 3, true, .r f⟩
  | .vscan f => some ⟨0x82, 4, true, .r f⟩
  | .vextl f => some ⟨0x82, 5, true, .r f⟩
  | .vinsl f => some ⟨0x82, 6, true, .r f⟩
  | .cvt f => some ⟨0x83, 0, true, .r f⟩
  | .cvtq f => some ⟨0x83, 1, true, .r f⟩
  | .cvtd f => some ⟨0x83, 2, true, .r f⟩
  | .pack f => some ⟨0x83, 3, true, .r f⟩
  | .unpack f => some ⟨0x83, 4, true, .r f⟩
  | .amax f => some ⟨0x83, 5, true, .r f⟩
  | .scale f => some ⟨0x83, 6, true, .r f⟩
  | .mxlds f => some ⟨0xC0, 0, true, .x f⟩
  | .mxswap f => some ⟨0xC0, 1, true, .x f⟩
  | .mxstrm f => some ⟨0xC0, 2, true, .x f⟩
  | .mxtile f => some ⟨0xC0, 3, true, .x f⟩
  | .mxzero f => some ⟨0xC0, 4, true, .x f⟩
  | .mxrd f => some ⟨0xC0, 5, true, .x f⟩
  | .mxwr f => some ⟨0xC0, 6, true, .x f⟩
  | .mxtrn f => some ⟨0xC0, 7, true, .x f⟩
  | .mxperm f => some ⟨0xC0, 8, true, .x f⟩
  | .mxrred f => some ⟨0xC0, 9, true, .x f⟩
  | .mxescWiden f => some ⟨0xC0, 10, f.mod.getLsbD 0 == false, .x f⟩
  | .mxescNarrow f => some ⟨0xC0, 10, f.mod.getLsbD 0 == true, .x f⟩
  | .mxtok f => some ⟨0xC0, 11, true, .x f⟩
  | .bdrdBnd f => some ⟨0xC1, 0, f.mod.getLsbD 0 == false, .x f⟩
  | .bdrdStat f => some ⟨0xC1, 0, f.mod.getLsbD 0 == true, .x f⟩
  | .bdwr f => some ⟨0xC1, 1, true, .x f⟩
  | .bdthr f => some ⟨0xC1, 2, true, .x f⟩
  | .bdst f => some ⟨0xC1, 3, true, .x f⟩
  | .bdld f => some ⟨0xC1, 4, true, .x f⟩
  | .bdpropCvt f => some ⟨0xC1, 5, f.mod.extractLsb' 0 2 == 0, .x f⟩
  | .bdpropScale f => some ⟨0xC1, 5, f.mod.extractLsb' 0 2 == 1, .x f⟩
  | .bdpropSum f => some ⟨0xC1, 5, f.mod.extractLsb' 0 2 == 2, .x f⟩
  | .ld f => some ⟨0xD0, 0, true, .m f⟩
  | .vld f => some ⟨0xD0, 1, true, .m f⟩
  | .vldx f => some ⟨0xD0, 2, true, .m f⟩
  | .st f => some ⟨0xD1, 0, true, .m f⟩
  | .vst f => some ⟨0xD1, 1, true, .m f⟩
  | .vstx f => some ⟨0xD1, 2, true, .m f⟩
  | .atom f => some ⟨0xD2, 0, true, .m f⟩
  | .atomr f => some ⟨0xD2, 1, true, .m f⟩
  | .cas f => some ⟨0xD2, 2, true, .m f⟩
  | .copy f => some ⟨0xD3, 0, true, .m f⟩
  | .chain f => some ⟨0xD3, 1, true, .m f⟩
  | .awarm f => some ⟨0xD3, 2, true, .m f⟩
  | .awcred f => some ⟨0xD3, 3, true, .m f⟩
  | .fence f => some ⟨0xD4, 0, true, .m f⟩
  | .pref f => some ⟨0xD4, 1, true, .m f⟩
  | .cwb f => some ⟨0xD4, 2, true, .m f⟩
  | .cinv f => some ⟨0xD4, 3, true, .m f⟩
  | .cflush f => some ⟨0xD4, 4, true, .m f⟩
  | .bankcfg f => some ⟨0xD4, 5, true, .m f⟩
  | .blend f => some ⟨0xD4, 6, true, .m f⟩
  | .seqret f => some ⟨0xD4, 7, true, .m f⟩
  | .assetMake f => some ⟨0xE0, 0, f.cnd == 0, .s f⟩
  | .assetRoot f => some ⟨0xE0, 0, f.cnd == 1, .s f⟩
  | .assetKill f => some ⟨0xE0, 0, f.cnd == 2, .s f⟩
  | .assetSelf f => some ⟨0xE0, 0, f.cnd == 3, .s f⟩
  | .tlbinvVa f => some ⟨0xE0, 1, f.cnd == 0, .s f⟩
  | .tlbinvAsid f => some ⟨0xE0, 1, f.cnd == 1, .s f⟩
  | .tlbinvIpa f => some ⟨0xE0, 1, f.cnd == 2, .s f⟩
  | .tlbinvPart f => some ⟨0xE0, 1, f.cnd == 3, .s f⟩
  | .partcfgOpen f => some ⟨0xE0, 2, f.cnd == 0, .s f⟩
  | .partcfgShut f => some ⟨0xE0, 2, f.cnd == 1, .s f⟩
  | .partcfgAssign f => some ⟨0xE0, 2, f.cnd == 2, .s f⟩
  | .partcfgWays f => some ⟨0xE0, 2, f.cnd == 3, .s f⟩
  | .partcfgShare f => some ⟨0xE0, 2, f.cnd == 4, .s f⟩
  | .partcfgGang f => some ⟨0xE0, 2, f.cnd == 5, .s f⟩
  | .partcfgQbank f => some ⟨0xE0, 2, f.cnd == 6, .s f⟩
  | .partcfgQsb f => some ⟨0xE0, 2, f.cnd == 7, .s f⟩
  | .partcfgQdel f => some ⟨0xE0, 2, f.cnd == 8, .s f⟩
  | .partcfgHostwin f => some ⟨0xE0, 2, f.cnd == 9, .s f⟩
  | .quote f => some ⟨0xE0, 3, true, .s f⟩
  | .svc f => some ⟨0xE0, 4, true, .s f⟩
  | .trap f => some ⟨0xE8, 0, true, .s f⟩
  | .resumeSelf f => some ⟨0xE8, 1, f.cnd == 0, .s f⟩
  | .resumeCtx f => some ⟨0xE8, 1, f.cnd == 1, .s f⟩
  | .rqrd f => some ⟨0xE8, 2, true, .s f⟩
  | .rqwr f => some ⟨0xE8, 3, true, .s f⟩
  | .ckpt f => some ⟨0xE8, 4, true, .s f⟩
  | .swapNow f => some ⟨0xE8, 5, f.cnd == 0, .s f⟩
  | .swapFull f => some ⟨0xE8, 5, f.cnd == 1, .s f⟩
  | .swapStage f => some ⟨0xE8, 5, f.cnd == 2, .s f⟩
  | .spillqSave f => some ⟨0xE8, 6, f.cnd == 0, .s f⟩
  | .spillqRestore f => some ⟨0xE8, 6, f.cnd == 1, .s f⟩
  | .operandWaitRelease _ => none
  | .longLatencyResult _ => none
  | .firingDispatch _ => none
  | .tokenArrival _ => none
  | .creditReturn _ => none
  | .pushCreditWaitRelease _ => none
  | .popTokenWaitRelease _ => none
  | .spillRingDrain _ => none
  | .proxyForwardBatch _ => none
  | .proxyBatchTimeout _ => none
  | .monotonicCounterAdd _ => none
  | .arrivalWordCredit _ => none
  | .asyncCompletion _ => none
  | .waitCompletion _ => none
  | .waitTimeout _ => none
  | .deadlockDetection _ => none
  | .leaseGrant _ => none
  | .engineWakeEnd _ => none
  | .evictionNotice _ => none
  | .holdEnd _ => none
  | .gracePeriodExpiry _ => none
  | .dozeExpiry _ => none
  | .engineResultPush _ => none
  | .engineCommandCompletion _ => none
  | .mxRowGroupStep _ => none
  | .mxstrmControlToken _ => none
  | .mxMacroOpCompletion _ => none
  | .copyTokenPush _ => none
  | .copyRecordCompletion _ => none
  | .atomicApply _ => none
  | .atomicDiversion _ => none
  | .repairRetry _ _ => none
  | .repairAbandon _ _ => none
  | .repairTimeout _ _ => none
  | .postedWriteArrival _ => none
  | .blendAtBank _ => none
  | .seqretAtBank _ => none
  | .pageWalkCompletion _ _ => none
  | .tlbinvCompletion _ => none
  | .bindingTakesEffect _ => none
  | .modfreeDrainComplete _ => none
  | .notify _ _ => none
  | .queueMap _ => none
  | .queueUnmap _ => none
  | .recordFetch _ => none
  | .launchDispatch => none
  | .launchEnd _ => none
  | .curatorInterval => none
  | .templateRewrite _ => none
  | .gangSliceInstant _ => none
  | .ptpLockLoss => none
  | .ptpsetWrite _ => none
  | .asyncFaultDelivery _ => none
  | .trapHandlerDispatch _ => none
  | .faultRecordDelivery _ => none
  | .archivistWriteOut _ => none
  | .archivistLoad _ => none
  | .fullSwitchDeadline _ => none
  | .quiesce _ => none
  | .quiesceEnd _ => none
  | .handoff _ => none
  | .handoffEnd _ => none
  | .clkgate _ => none
  | .clkungate _ => none
  | .clpmResume _ => none
  | .clpmOperationEnd _ => none
  | .railOff _ => none
  | .railOn _ => none
  | .railPgood _ => none
  | .railPgoodTimeout _ => none
  | .vsetWrite _ _ => none
  | .railSlewStep _ => none
  | .fllTargetWrite _ _ => none
  | .fllStep _ => none
  | .fllLockTimeout _ => none
  | .retentionSave _ => none
  | .retentionSaveEnd _ => none
  | .retentionRestore _ => none
  | .retentionRestoreEnd _ => none
  | .wakeRing _ _ => none
  | .pmbudgetWrite _ => none
  | .pmcommit => none
  | .watchdogKick => none
  | .watchdogExpiry => none
  | .mxcadWrite _ _ => none
  | .droopSag _ => none
  | .droopStepDown _ => none
  | .droopRecoveryStep _ => none
  | .wayGate _ => none
  | .wayReopen _ => none
  | .thermalTrip _ => none
  | .thermalRecovery _ => none
  | .hostRead _ _ => none
  | .hostWrite _ _ => none
  | .errorLogRecord _ _ _ _ => none
  | .linkFlitRetry _ => none
  | .selfTest _ => none
  | .deviceReset => none
  | .firmwarePush _ _ _ => none
  | .firmwareVerifyEnd _ => none
  | .warmReset => none
  | .checkpointSave _ _ => none
  | .checkpointRestore _ _ => none
  | .checkpointEnd => none
  | .referenceClockTick => none
  | .droopSagEnd _ => none
  | .graphDrainLimitExpiry _ => none
  | .selfTestEnd _ _ => none

end Sys2Proof
end

