-- ==== Sys2Proof/WellFormed.lean ====
section
/-! DEFINITION. Which instructions are well formed: no reserved field or value (R59, R60, R65, R68 to R72), the sub-operation code
of the instruction itself, and, for the event rows, parameters that name a unit the package has (R9). -/

namespace Sys2Proof
open Sys2Proof.Machine

/-- Why an instruction is not well formed. -/
inductive FormError where
  /-- The word has an unassigned opcode, a reserved field that is nonzero or a reserved value; FIELDHI, WHY and SECOND as in R77. -/
  | encoding (fieldHi why : Nat) (second : Bool)
  /-- The fields hold the sub-operation code of another instruction. -/
  | otherForm
  /-- An event row names a unit that the package does not have (R9, R10, R29). -/
  | noSuchUnit
  deriving DecidableEq, Repr

/-- Whether an event row names units of the package: clusters 0 to 47, dies 0 to 3, links 0 to 15, contexts by the low 15 bits of their
handle (R385). -/
def Instr.unitOk (i : Instr) : Bool :=
  match i with
  | .nop _ => true
  | .br _ => true
  | .brany _ => true
  | .brall _ => true
  | .call _ => true
  | .ret _ => true
  | .brx _ => true
  | .callx _ => true
  | .loop _ => true
  | .endFiring _ => true
  | .ipf _ => true
  | .brL _ => true
  | .callL _ => true
  | .moviL _ => true
  | .leaL _ => true
  | .modbind _ => true
  | .modfree _ => true
  | .modq _ => true
  | .add _ => true
  | .sub _ => true
  | .mul _ => true
  | .mulh _ => true
  | .div _ => true
  | .rem _ => true
  | .and _ => true
  | .or _ => true
  | .xor _ => true
  | .andn _ => true
  | .shl _ => true
  | .shr _ => true
  | .sra _ => true
  | .rot _ => true
  | .clz _ => true
  | .ctz _ => true
  | .popc _ => true
  | .min _ => true
  | .max _ => true
  | .absd _ => true
  | .cmp _ => true
  | .sel _ => true
  | .mov _ => true
  | .ext _ => true
  | .ins _ => true
  | .lea _ => true
  | .addImm _ => true
  | .andImm _ => true
  | .orImm _ => true
  | .xorImm _ => true
  | .shlImm _ => true
  | .shrImm _ => true
  | .sraImm _ => true
  | .cmpImm _ => true
  | .movi _ => true
  | .leaImm _ => true
  | .leaPc _ => true
  | .kset _ => true
  | .klog _ => true
  | .kmov _ => true
  | .kcnt _ => true
  | .flag _ => true
  | .empty _ => true
  | .full _ => true
  | .gets _ => true
  | .sets _ => true
  | .gettTicks _ => true
  | .gettPtp _ => true
  | .gettBoth _ => true
  | .perf _ => true
  | .guardEntry _ => true
  | .guardTable _ => true
  | .unguardOne _ => true
  | .unguardMask _ => true
  | .gqryEntry _ => true
  | .gqryElig _ => true
  | .ctxq _ => true
  | .qpush _ => true
  | .qpop _ => true
  | .qpeek _ => true
  | .qres _ => true
  | .qrel _ => true
  | .qeos _ => true
  | .qcred _ => true
  | .qbindPort _ => true
  | .qbindHome _ => true
  | .qbindTmpl _ => true
  | .qunbind _ => true
  | .qstat _ => true
  | .qfwd _ => true
  | .mcadd _ => true
  | .mcread _ => true
  | .wcond _ => true
  | .wait _ => true
  | .eread _ => true
  | .eclr _ => true
  | .lease _ => true
  | .lrenew _ => true
  | .lfreeHeld _ => true
  | .lfreePend _ => true
  | .lqryLease _ => true
  | .lqryCls _ => true
  | .evackNow _ => true
  | .evackDrain _ => true
  | .rast _ => true
  | .trace _ => true
  | .sample _ => true
  | .codec _ => true
  | .spawn _ => true
  | .gload _ => true
  | .garm _ => true
  | .gdrainGraph _ => true
  | .gdrainQdrain _ => true
  | .gdrainQabort _ => true
  | .gstart _ => true
  | .placePin _ => true
  | .placeHint _ => true
  | .placeFree _ => true
  | .placeOwn _ => true
  | .lstatLaunch _ => true
  | .lstatGraph _ => true
  | .vadd _ => true
  | .vsub _ => true
  | .vmul _ => true
  | .vmulh _ => true
  | .vmad _ => true
  | .vand _ => true
  | .vor _ => true
  | .vxor _ => true
  | .vshl _ => true
  | .vshr _ => true
  | .vsra _ => true
  | .vmin _ => true
  | .vmax _ => true
  | .vabs _ => true
  | .vcmp _ => true
  | .vsel _ => true
  | .vmov _ => true
  | .vpopc _ => true
  | .fadd _ => true
  | .fsub _ => true
  | .fmul _ => true
  | .ffma _ => true
  | .fmin _ => true
  | .fmax _ => true
  | .fsgn _ => true
  | .fcmp _ => true
  | .fclass _ => true
  | .frcps _ => true
  | .frsqs _ => true
  | .fexp2 _ => true
  | .flog2 _ => true
  | .fsinp _ => true
  | .fcosp _ => true
  | .frnd _ => true
  | .vbcast _ => true
  | .vperm _ => true
  | .vrot _ => true
  | .vred _ => true
  | .vscan _ => true
  | .vextl _ => true
  | .vinsl _ => true
  | .cvt _ => true
  | .cvtq _ => true
  | .cvtd _ => true
  | .pack _ => true
  | .unpack _ => true
  | .amax _ => true
  | .scale _ => true
  | .mxlds _ => true
  | .mxswap _ => true
  | .mxstrm _ => true
  | .mxtile _ => true
  | .mxzero _ => true
  | .mxrd _ => true
  | .mxwr _ => true
  | .mxtrn _ => true
  | .mxperm _ => true
  | .mxrred _ => true
  | .mxescWiden _ => true
  | .mxescNarrow _ => true
  | .mxtok _ => true
  | .bdrdBnd _ => true
  | .bdrdStat _ => true
  | .bdwr _ => true
  | .bdthr _ => true
  | .bdst _ => true
  | .bdld _ => true
  | .bdpropCvt _ => true
  | .bdpropScale _ => true
  | .bdpropSum _ => true
  | .ld _ => true
  | .vld _ => true
  | .vldx _ => true
  | .st _ => true
  | .vst _ => true
  | .vstx _ => true
  | .atom _ => true
  | .atomr _ => true
  | .cas _ => true
  | .copy _ => true
  | .chain _ => true
  | .awarm _ => true
  | .awcred _ => true
  | .fence _ => true
  | .pref _ => true
  | .cwb _ => true
  | .cinv _ => true
  | .cflush _ => true
  | .bankcfg _ => true
  | .blend _ => true
  | .seqret _ => true
  | .assetMake _ => true
  | .assetRoot _ => true
  | .assetKill _ => true
  | .assetSelf _ => true
  | .tlbinvVa _ => true
  | .tlbinvAsid _ => true
  | .tlbinvIpa _ => true
  | .tlbinvPart _ => true
  | .partcfgOpen _ => true
  | .partcfgShut _ => true
  | .partcfgAssign _ => true
  | .partcfgWays _ => true
  | .partcfgShare _ => true
  | .partcfgGang _ => true
  | .partcfgQbank _ => true
  | .partcfgQsb _ => true
  | .partcfgQdel _ => true
  | .partcfgHostwin _ => true
  | .quote _ => true
  | .svc _ => true
  | .trap _ => true
  | .resumeSelf _ => true
  | .resumeCtx _ => true
  | .rqrd _ => true
  | .rqwr _ => true
  | .ckpt _ => true
  | .swapNow _ => true
  | .swapFull _ => true
  | .swapStage _ => true
  | .spillqSave _ => true
  | .spillqRestore _ => true
  | .operandWaitRelease ctx => decide (ctx < 32768)
  | .longLatencyResult _ => true
  | .firingDispatch strand => decide (strand < 1548)
  | .tokenArrival _ => true
  | .creditReturn _ => true
  | .pushCreditWaitRelease ctx => decide (ctx < 32768)
  | .popTokenWaitRelease ctx => decide (ctx < 32768)
  | .spillRingDrain _ => true
  | .proxyForwardBatch _ => true
  | .proxyBatchTimeout _ => true
  | .monotonicCounterAdd _ => true
  | .arrivalWordCredit _ => true
  | .asyncCompletion _ => true
  | .waitCompletion ctx => decide (ctx < 32768)
  | .waitTimeout ctx => decide (ctx < 32768)
  | .deadlockDetection _ => true
  | .leaseGrant _ => true
  | .engineWakeEnd _ => true
  | .evictionNotice _ => true
  | .holdEnd _ => true
  | .gracePeriodExpiry _ => true
  | .dozeExpiry _ => true
  | .engineResultPush _ => true
  | .engineCommandCompletion _ => true
  | .mxRowGroupStep _ => true
  | .mxstrmControlToken _ => true
  | .mxMacroOpCompletion _ => true
  | .copyTokenPush _ => true
  | .copyRecordCompletion _ => true
  | .atomicApply _ => true
  | .atomicDiversion _ => true
  | .repairRetry die _ => decide (die < 4)
  | .repairAbandon die _ => decide (die < 4)
  | .repairTimeout die _ => decide (die < 4)
  | .postedWriteArrival _ => true
  | .blendAtBank _ => true
  | .seqretAtBank _ => true
  | .pageWalkCompletion _ _ => true
  | .tlbinvCompletion _ => true
  | .bindingTakesEffect _ => true
  | .modfreeDrainComplete _ => true
  | .notify _ _ => true
  | .queueMap _ => true
  | .queueUnmap _ => true
  | .recordFetch _ => true
  | .launchDispatch => true
  | .launchEnd _ => true
  | .curatorInterval => true
  | .templateRewrite ctx => decide (ctx < 32768)
  | .gangSliceInstant part => decide (part < 64)
  | .ptpLockLoss => true
  | .ptpsetWrite _ => true
  | .asyncFaultDelivery ctx => decide (ctx < 32768)
  | .trapHandlerDispatch ctx => decide (ctx < 32768)
  | .faultRecordDelivery _ => true
  | .archivistWriteOut strand => decide (strand < 1548)
  | .archivistLoad strand => decide (strand < 1548)
  | .fullSwitchDeadline tile => decide (tile < 388)
  | .quiesce cluster => decide (cluster < 48)
  | .quiesceEnd cluster => decide (cluster < 48)
  | .handoff cluster => decide (cluster < 48)
  | .handoffEnd cluster => decide (cluster < 48)
  | .clkgate cluster => decide (cluster < 48)
  | .clkungate cluster => decide (cluster < 48)
  | .clpmResume cluster => decide (cluster < 48)
  | .clpmOperationEnd cluster => decide (cluster < 48)
  | .railOff cluster => decide (cluster < 48)
  | .railOn cluster => decide (cluster < 48)
  | .railPgood cluster => decide (cluster < 48)
  | .railPgoodTimeout cluster => decide (cluster < 48)
  | .vsetWrite cluster _ => decide (cluster < 48)
  | .railSlewStep cluster => decide (cluster < 48)
  | .fllTargetWrite cluster _ => decide (cluster < 48)
  | .fllStep cluster => decide (cluster < 48)
  | .fllLockTimeout cluster => decide (cluster < 48)
  | .retentionSave cluster => decide (cluster < 48)
  | .retentionSaveEnd cluster => decide (cluster < 48)
  | .retentionRestore cluster => decide (cluster < 48)
  | .retentionRestoreEnd cluster => decide (cluster < 48)
  | .wakeRing cluster _ => decide (cluster < 48)
  | .pmbudgetWrite _ => true
  | .pmcommit => true
  | .watchdogKick => true
  | .watchdogExpiry => true
  | .mxcadWrite cluster _ => decide (cluster < 48)
  | .droopSag cluster => decide (cluster < 48)
  | .droopStepDown cluster => decide (cluster < 48)
  | .droopRecoveryStep cluster => decide (cluster < 48)
  | .wayGate cluster => decide (cluster < 48)
  | .wayReopen cluster => decide (cluster < 48)
  | .thermalTrip die => decide (die < 4)
  | .thermalRecovery die => decide (die < 4)
  | .hostRead _ _ => true
  | .hostWrite _ _ => true
  | .errorLogRecord die _ _ _ => decide (die < 4)
  | .linkFlitRetry link => decide (link < 16)
  | .selfTest _ => true
  | .deviceReset => true
  | .firmwarePush _ _ _ => true
  | .firmwareVerifyEnd _ => true
  | .warmReset => true
  | .checkpointSave _ _ => true
  | .checkpointRestore _ _ => true
  | .checkpointEnd => true
  | .referenceClockTick => true
  | .droopSagEnd cluster => decide (cluster < 48)
  | .graphDrainLimitExpiry _ => true
  | .selfTestEnd _ _ => true

/-- Why the instruction is not well formed, or none. -/
def Instr.formError (i : Instr) : Option FormError :=
  match i.view with
  | none => if i.unitOk then none else some .noSuchUnit
  | some v =>
    match encodingOffence v.word (v.form.literal.getD 0).toNat with
    | some (hi, why, second) => some (.encoding hi why second)
    | none => if v.sub then none else some .otherForm

/-- A well-formed instruction. -/
def Instr.wellFormed (i : Instr) : Bool := i.formError.isNone

end Sys2Proof
end

