-- ==== Sys2Proof/Decode.lean ====
section
/-! DEFINITION. Decoding: the meaning of the bits of an instruction word (R57 to R74, R76 checks 2 and 3), from the bytes of memory to an
instruction or a refusal by name; then the encoder of the same tables. -/

namespace Sys2Proof
open Sys2Proof.Machine

/-- Why bytes are not an instruction. -/
inductive DecodeError where
  /-- Fewer than 8 bytes, or fewer than 16 for an L pair. -/
  | truncated
  /-- MAJ or MIN is unassigned: ILLEGAL_OPCODE with this FIELDHI (R76, R77). -/
  | illegalOpcode (fieldHi : Nat)
  /-- A reserved field or value: ILLEGAL_ENCODING with these %trapinfo fields (R76, R77). -/
  | illegalEncoding (fieldHi why : Nat) (second : Bool)
  deriving DecidableEq, Repr

/-- The instructions of a MAJ in the order of their MIN (R73), each row with the code that selects among its forms. -/
def opcodeRows (maj w lit : Nat) : List (Nat × List Instr) :=
  let r := RForm.ofWord w
  let i := IForm.ofWord w
  let j := JForm.ofWord w
  let m := MForm.ofWord w
  let s := SForm.ofWord w
  let x := XForm.ofWord w
  let l := LForm.ofWords w lit
  let cnd := bits w 23 20
  match maj with
  | 0x01 => [ (0, [.nop r]) ]
  | 0x02 => [ (0, [.br j]), (0, [.brany j]), (0, [.brall j]), (0, [.call j]), (0, [.ret r]), (0, [.brx r]), (0, [.callx r]),
      (0, [.loop j]), (0, [.endFiring r]), (0, [.ipf j]) ]
  | 0x03 => [ (0, [.modbind r]), (0, [.modfree r]), (0, [.modq r]) ]
  | 0x10 => [ (0, [.add r]), (0, [.sub r]), (0, [.mul r]), (0, [.mulh r]), (0, [.div r]), (0, [.rem r]), (0, [.and r]), (0, [.or r]),
      (0, [.xor r]), (0, [.andn r]), (0, [.shl r]), (0, [.shr r]), (0, [.sra r]), (0, [.rot r]), (0, [.clz r]), (0, [.ctz r]),
      (0, [.popc r]), (0, [.min r]), (0, [.max r]), (0, [.absd r]), (0, [.cmp r]), (0, [.sel r]), (0, [.mov r]), (0, [.ext r]),
      (0, [.ins r]), (0, [.lea r]) ]
  | 0x11 => [ (0, [.addImm i]), (0, [.andImm i]), (0, [.orImm i]), (0, [.xorImm i]), (0, [.shlImm i]), (0, [.shrImm i]),
      (0, [.sraImm i]), (0, [.cmpImm i]), (0, [.movi i]), (bits w 24 24, [.leaImm i, .leaPc i]) ]
  | 0x12 => [ (0, [.kset r]), (0, [.klog r]), (0, [.kmov r]), (0, [.kcnt r]), (0, [.flag r]), (0, [.empty r]), (0, [.full r]) ]
  | 0x13 => [ (0, [.gets s]), (0, [.sets s]), (cnd, [.gettTicks s, .gettPtp s, .gettBoth s]), (0, [.perf s]) ]
  | 0x40 => [ (cnd, [.guardEntry s, .guardTable s]), (cnd, [.unguardOne s, .unguardMask s]), (cnd, [.gqryEntry s, .gqryElig s]),
      (0, [.ctxq s]) ]
  | 0x50 => [ (0, [.qpush s]), (0, [.qpop s]), (0, [.qpeek s]), (0, [.qres s]), (0, [.qrel s]), (0, [.qeos s]), (0, [.qcred s]),
      (cnd, [.qbindPort s, .qbindHome s, .qbindTmpl s]), (0, [.qunbind s]), (0, [.qstat s]), (0, [.qfwd s]) ]
  | 0x60 => [ (0, [.mcadd s]), (0, [.mcread s]), (0, [.wcond s]), (0, [.wait s]), (0, [.eread s]), (0, [.eclr s]) ]
  | 0x68 => [ (0, [.lease s]), (0, [.lrenew s]), (cnd, [.lfreeHeld s, .lfreePend s]), (cnd, [.lqryLease s, .lqryCls s]),
      (cnd, [.evackNow s, .evackDrain s]), (0, [.rast s]), (0, [.trace s]), (0, [.sample s]), (0, [.codec s]) ]
  | 0x70 => [ (0, [.spawn s]), (0, [.gload s]), (0, [.garm s]), (cnd, [.gdrainGraph s, .gdrainQdrain s, .gdrainQabort s]),
      (0, [.gstart s]), (cnd, [.placePin s, .placeHint s, .placeFree s, .placeOwn s]), (cnd, [.lstatLaunch s, .lstatGraph s]) ]
  | 0x80 => [ (0, [.vadd r]), (0, [.vsub r]), (0, [.vmul r]), (0, [.vmulh r]), (0, [.vmad r]), (0, [.vand r]), (0, [.vor r]),
      (0, [.vxor r]), (0, [.vshl r]), (0, [.vshr r]), (0, [.vsra r]), (0, [.vmin r]), (0, [.vmax r]), (0, [.vabs r]),
      (0, [.vcmp r]), (0, [.vsel r]), (0, [.vmov r]), (0, [.vpopc r]) ]
  | 0x81 => [ (0, [.fadd r]), (0, [.fsub r]), (0, [.fmul r]), (0, [.ffma r]), (0, [.fmin r]), (0, [.fmax r]), (0, [.fsgn r]),
      (0, [.fcmp r]), (0, [.fclass r]), (0, [.frcps r]), (0, [.frsqs r]), (0, [.fexp2 r]), (0, [.flog2 r]), (0, [.fsinp r]),
      (0, [.fcosp r]), (0, [.frnd r]) ]
  | 0x82 => [ (0, [.vbcast r]), (0, [.vperm r]), (0, [.vrot r]), (0, [.vred r]), (0, [.vscan r]), (0, [.vextl r]), (0, [.vinsl r]) ]
  | 0x83 => [ (0, [.cvt r]), (0, [.cvtq r]), (0, [.cvtd r]), (0, [.pack r]), (0, [.unpack r]), (0, [.amax r]), (0, [.scale r]) ]
  | 0xC0 => [ (0, [.mxlds x]), (0, [.mxswap x]), (0, [.mxstrm x]), (0, [.mxtile x]), (0, [.mxzero x]), (0, [.mxrd x]), (0, [.mxwr x]),
      (0, [.mxtrn x]), (0, [.mxperm x]), (0, [.mxrred x]), (bits w 0 0, [.mxescWiden x, .mxescNarrow x]), (0, [.mxtok x]) ]
  | 0xC1 => [ (bits w 0 0, [.bdrdBnd x, .bdrdStat x]), (0, [.bdwr x]), (0, [.bdthr x]), (0, [.bdst x]), (0, [.bdld x]),
      (bits w 1 0, [.bdpropCvt x, .bdpropScale x, .bdpropSum x]) ]
  | 0xD0 => [ (0, [.ld m]), (0, [.vld m]), (0, [.vldx m]) ]
  | 0xD1 => [ (0, [.st m]), (0, [.vst m]), (0, [.vstx m]) ]
  | 0xD2 => [ (0, [.atom m]), (0, [.atomr m]), (0, [.cas m]) ]
  | 0xD3 => [ (0, [.copy m]), (0, [.chain m]), (0, [.awarm m]), (0, [.awcred m]) ]
  | 0xD4 => [ (0, [.fence m]), (0, [.pref m]), (0, [.cwb m]), (0, [.cinv m]), (0, [.cflush m]), (0, [.bankcfg m]), (0, [.blend m]),
      (0, [.seqret m]) ]
  | 0xE0 => [ (cnd, [.assetMake s, .assetRoot s, .assetKill s, .assetSelf s]),
      (cnd, [.tlbinvVa s, .tlbinvAsid s, .tlbinvIpa s, .tlbinvPart s]),
      (cnd, [.partcfgOpen s, .partcfgShut s, .partcfgAssign s, .partcfgWays s, .partcfgShare s, .partcfgGang s, .partcfgQbank s, .partcfgQsb s, .partcfgQdel s, .partcfgHostwin s]),
      (0, [.quote s]), (0, [.svc s]) ]
  | 0xE8 => [ (0, [.trap s]), (cnd, [.resumeSelf s, .resumeCtx s]), (0, [.rqrd s]), (0, [.rqwr s]), (0, [.ckpt s]),
      (cnd, [.swapNow s, .swapFull s, .swapStage s]), (cnd, [.spillqSave s, .spillqRestore s]) ]
  | 0xF0 => [ (0, [.brL l]), (0, [.callL l]), (0, [.moviL l]), (0, [.leaL l]) ]
  | _ => []

/-- The instruction whose first word is w and whose second word, in an L pair, is lit (checks 2 and 3 of R76). -/
def decodeWords (w lit : Nat) : Except DecodeError Instr :=
  match encodingOffence w lit with
  | some (hi, why, second) => if why = 0 then .error (.illegalOpcode hi) else .error (.illegalEncoding hi why second)
  | none =>
    match (opcodeRows (bits w 63 56) w lit)[bits w 55 50]? with
    | none => .error (.illegalOpcode 55)
    | some (sub, forms) =>
      match forms[sub]? with
      | none => .error (.illegalEncoding 23 2 false)
      | some i => .ok i

/-- The unsigned number that little-endian bytes hold (R3). -/
def leNat : List Byte → Nat
  | [] => 0
  | b :: rest => b.toNat + 256 * leNat rest

/-- The n bytes of a number, little-endian (R3). -/
def leBytes : Nat → Nat → List Byte
  | 0, _ => []
  | n + 1, w => BitVec.ofNat 8 w :: leBytes n (w / 256)

/-- Whether a first word is followed by a literal. -/
def takesLiteral (w : Nat) : Bool := isLong w

/-- Decoding of bytes: the instruction and the bytes after it, or a refusal by name. -/
def decode (bs : List Byte) : Except DecodeError (Instr × List Byte) :=
  if bs.length < 8 then .error .truncated
  else
    let w := leNat (bs.take 8)
    let rest := bs.drop 8
    if takesLiteral w then
      if rest.length < 8 then .error .truncated
      else
        match decodeWords w (leNat (rest.take 8)) with
        | .ok i => .ok (i, rest.drop 8)
        | .error e => .error e
    else
      match decodeWords w 0 with
      | .ok i => .ok (i, rest)
      | .error e => .error e

/-- The words of an instruction in the order of their addresses; an event row has none (R57, R69). [DESIGN CHOICE, safe, log 112] -/
def encode (i : Instr) : List Word :=
  match i.view with
  | none => []
  | some v => BitVec.ofNat 64 v.word :: v.form.literal.toList

/-- The bytes of words, each little-endian (R57). -/
def wordBytes : List Word → List Byte
  | [] => []
  | w :: rest => leBytes 8 w.toNat ++ wordBytes rest

/-- The instruction whose words, laid out in memory order, are the 128 bits of w; nbits is the length the table gives, and every bit above
it is 0. -/
def decodeTableWord (nbits w : Nat) : Option Instr :=
  let v := if nbits = 0 then w else w % 2 ^ nbits
  match decode (leBytes 16 v) with
  | .ok (i, _) => some i
  | .error _ => none

end Sys2Proof
end

