-- ==== Sys2Proof/Machine/State.lean ====
section
/-! DEFINITION. Everything the manual gives the machine, as plain data: contexts with their registers, firings and frames;
queues, graphs and submission queues; leases, engines and the matrix arrays; memory, scratchpad, caches and translations;
clusters, partitions, power and the host's windows; and the state right after device reset. Every field's docstring names its rule; the
value after `:=` is the field's value at reset or at the creation of the thing that holds it. -/

namespace Sys2Proof.Machine

/-- A sparse table with numbers as keys: keys strictly rise, and an absent key reads as the table's default. -/
abbrev Map (α : Type) := List (Nat × α)

/-! ## Tokens -/

/-- A link word with its sideband; LAST is implied by its place (R140). -/
structure LinkWord where
  data : Payload
  adj : Bool := false
  count : Nat := 0
  /-- Its slot fails the check code (R403, R405). -/
  bad : Bool := false
  deriving DecidableEq, Repr

/-- A token: its header, its link words and the slots it occupies (R20, R145). -/
structure Token where
  header : Word
  words : List LinkWord := []
  slots : Nat := 1
  deriving DecidableEq, Repr

/-! ## Contexts -/

/-- The privilege of a context (R6, R10). -/
inductive Priv where
  /-- A context on a compute tile. -/
  | u
  /-- A partition supervisor. -/
  | s
  /-- Firmware. -/
  | f
  deriving DecidableEq, Repr

/-- What a stream register is bound to (R33, R159). -/
inductive PortBind where
  | unbound
  /-- An input port of the actor, by its number. -/
  | input (port : Nat)
  /-- An output port of the actor with its header template. -/
  | output (port : Nat) (template : Word)
  /-- An output to the device-fed submission queue whose QSB is at the address. -/
  | home (qsb : Nat) (template : Word)
  /-- The fault-record queue of a supervisor or firmware context (R388, R406). -/
  | records
  deriving DecidableEq, Repr

/-- The condition a wait slot holds (R166). [DESIGN CHOICE, unsafe, log 4] -/
inductive WaitCond where
  | never
  | ctr (addr value : Word) (scope : Nat)
  | gen (addr : Word) (value : Byte)
  | ev (n : Nat) (value : Word)
  | tok (q : Nat) (n : Word)
  | free (q : Nat) (n : Word)
  | lease (g : Nat)
  | gfull (g : Nat)
  | vfull (v : Nat)
  deriving DecidableEq, Repr

/-- A WAIT in progress: its word, its deadline and the conditions seen (R167). -/
structure WaitRun where
  word : Word
  deadline : Nat
  seen : BitVec 4
  deriving DecidableEq, Repr

/-- Why a firing's next instruction does not issue, for the stall events of R108 and the detector of R169. [DEDUCED, safe, log 53] -/
inductive Stall where
  /-- The instruction is ready. -/
  | none
  /-- A register it reads is empty, or an earlier producer has still to write its destination: g, or v when the flag is set (R38, R39). -/
  | operand (vec : Bool) (n : Nat) (dst : Bool)
  /-- The port of the stream register holds too little; the second number is what it held (R153, R157). -/
  | tokens (q have_ : Nat)
  /-- A push or a reservation lacks slots; the second number is what was free (R149, R158). -/
  | space (q have_ : Nat)
  /-- The engine holds 16 instructions, earlier ones must finish, or both copy engines are full (R265, R335). -/
  | engine
  /-- A lease is awaited. -/
  | lease
  /-- Memory: an older access, a repair arc, a home queue that is full, or the sixteen-entry limit (R152, R258, R385). -/
  | memory
  /-- A WAIT is in progress (R167). -/
  | waiting
  deriving DecidableEq, Repr

/-- A reference that a firing holds to a binding (R83). -/
structure BindRef where
  asid : Nat
  slot : Nat
  gen : Nat
  deriving DecidableEq, Repr

/-- A firing: the unit that owns a program counter (R19, R122). -/
structure Firing where
  /-- The code pointer of the next instruction (R81). -/
  pc : Word
  /-- The number that ties in-flight instructions to this firing. -/
  serial : Nat
  /-- The guard entry that dispatched it; 16 for a trap handler. -/
  entry : Nat
  /-- A trap handler firing (R382). -/
  handler : Bool := false
  /-- Binding references held (R83). -/
  refs : List BindRef := []
  /-- The WAIT it is executing (R167). -/
  wait : Option WaitRun := none
  /-- Why it does not issue. -/
  stall : Stall := .none
  /-- How many of its instructions it executed while it was speculative: they take effect, in program order, before it issues anything else (R128). -/
  ahead : Nat := 0
  deriving DecidableEq, Repr

/-- An entry of a replay queue (R385, R387, R428). -/
structure ReplayEntry where
  /-- The word of the instruction and its code pointer. -/
  word : Word
  pc : Word
  /-- MODE: 0 REPLAY, 1 SKIP, 2 SUPPLY. -/
  mode : BitVec 2 := 0
  /-- The entry raised the frame's cause. -/
  faulted : Bool := false
  /-- The captured operands A, B and C; a g value stands in the low 64 bits. -/
  opA : VWord := 0
  opB : VWord := 0
  opC : VWord := 0
  /-- A captured source that no RQRD field names (R428). -/
  opX : VWord := 0
  /-- Which of the operands A, B and C the instruction reads: bits 0 to 2 as g or k values, bits 3 to 5 as v values (R428). -/
  reads : BitVec 6 := 0
  /-- The guard mask as read at issue. -/
  mask : Mask := 0
  /-- The destinations it leaves empty. -/
  dstG : List Nat := []
  dstV : List Nat := []
  /-- Supplied results, g and v (with v + 1 for a token of more than four words). -/
  supplyG : Word := 0
  supplyV : VWord := 0
  supplyW : VWord := 0
  deriving DecidableEq, Repr

/-- A trap frame (R383, R386). -/
structure Frame where
  cause : BitVec 8
  delayed : Bool := false
  /-- USER: delivered to the context's own handler. -/
  user : Bool := false
  /-- ASYNC: the fault of an asynchronous instruction. -/
  async : Bool := false
  info : Word := 0
  fpc : Word := 0
  fword : Word := 0
  rpc : Word := 0
  /-- The tick at which it was formed (R410). -/
  since : Nat := 0
  entries : List ReplayEntry := []
  /-- The interrupted firing, or none when the context was idle (R384). -/
  firing : Option Firing := none
  deriving DecidableEq, Repr

/-- A fault of an asynchronous instruction waiting for delivery (R384). -/
structure PendingFault where
  cause : BitVec 8
  info : Word
  fpc : Word
  fword : Word
  /-- The address of the record or block concerned. -/
  addr : Word := 0
  syndrome : Word := 0
  deriving DecidableEq, Repr

/-- A lease record of a context (R172). -/
structure LeaseRecord where
  handle : Word
  grantSerial : BitVec 16
  deriving DecidableEq, Repr

/-- The committed state of a context while a firing of it is in flight, as the firings that have ended left it (R126): its flags and reservations, and
by edge number the tokens that the firing in flight has popped and the credits that it has taken. -/
structure Committed where
  flags : Byte
  resv : Map Nat := []
  popped : Map (List Token) := []
  taken : Map Int := []
  deriving DecidableEq, Repr

/-- A context: one actor instance, supervisor or firmware program in a slot (R18, R33, R34, R110). [DESIGN CHOICE, unsafe, log 4] -/
structure Ctx where
  priv : Priv
  /-- %asid; a firmware context carries none and uses a number above 8191 for its module slots (R357, R389). -/
  asid : Nat
  /-- %part. -/
  part : Nat
  /-- Parked by a trap that went to the supervisor (R110). -/
  parked : Bool := false
  /-- The graph and the actor of which it is an instance; graph 0 for System Tile contexts. -/
  graph : Nat := 0
  actor : Nat := 0
  /-- The code pointer at which a firmware context starts and restarts (R203, R381, R416). -/
  entry : Word := 0
  /-- Order of creation, for retirement newest first (R220). -/
  born : Nat := 0
  /-- g0 to g63: 0 and full at creation (R33). -/
  g : Map Word := []
  /-- Bit n: gn is empty. -/
  gEmpty : BitVec 64 := 0
  /-- v0 to v63: 0 and full at creation. -/
  v : Map VWord := []
  vEmpty : BitVec 64 := 0
  /-- Bit n: the parity of gn or of vn fails for good, until the register is written (R403, R405). -/
  gBad : BitVec 64 := 0
  vBad : BitVec 64 := 0
  /-- k1 to k15, zeros at creation; k0 is all ones and is not held (R33). -/
  k : Map Mask := []
  /-- Actor flags f7 to f0. -/
  flags : Byte := 0
  /-- Flags set from outside during a firing, applied at its END (R132). -/
  flagsHeld : Byte := 0
  /-- q0 to q15. -/
  q : Map PortBind := []
  /-- Unused reserved slots by stream register (R149). -/
  resv : Map Nat := []
  /-- e0 to e3. -/
  e : Map Word := []
  fpflags : Word := 0
  warn : Word := 0
  trapcause : Word := 0
  trapinfo : Word := 0
  trapvec : Word := 0
  guardtab : Word := 0
  modtab : Word := 0
  pmsel : Map Word := []
  pmcnt : Map Word := []
  /-- Free counts of cycles that its performance counters have taken. -/
  idled : Nat := 0
  /-- The live guard table: words 0 and 1 of entries 0 to 15 (R114). -/
  guards : Map (Word × Word) := []
  /-- The table as GUARD and UNGUARD of the present firing leave it, in force from its END (R136). -/
  guardsHeld : Option (Map (Word × Word)) := none
  /-- The committed state that a firing in flight has not yet changed (R126). -/
  past : Option Committed := none
  /-- The age stamp (R120). -/
  stamp : Nat := 0
  /-- Dispatch opportunities let pass (R139). -/
  waited : Nat := 0
  /-- Wait slots c0 to c3 (R166). -/
  slots : Map WaitCond := []
  firing : Option Firing := none
  /-- Trap frames, the innermost first; at most two (R383). -/
  frames : List Frame := []
  /-- Replay entries that RESUME has still to issue (R392). -/
  replay : List ReplayEntry := []
  pending : List PendingFault := []
  /-- The checkpoint table of CKPT, 0 for none (R394). -/
  ckpt : Word := 0
  /-- Where CKPT or END last stopped it for a full switch (R400). -/
  stoppedAt : Option Word := none
  leases : List LeaseRecord := []
  /-- MXSAVE address of the context image (R398). -/
  mxsave : Word := 0
  /-- The copy of a redundant launch it runs in (R223). -/
  copy : Nat := 0
  /-- Its launch was aborted: it dispatches nothing more (R219). -/
  aborted : Bool := false
  deriving DecidableEq, Repr

/-! ## Instructions in flight -/

/-- What an issued instruction has still to do. -/
inductive OpKind where
  /-- A load that reads memory when its result is written (R254). -/
  | load
  /-- A result that is already known: the g value, and v values where the instruction writes v registers. -/
  | value (g : Word) (v : List VWord)
  /-- A fault found after issue, delivered under R39, with the syndrome and address of its record. -/
  | fault (cause : BitVec 8) (info : Word) (syndrome : Word)
  /-- A posted store (R253). -/
  | store
  /-- ATOM, ATOMR or CAS on its way to its home (R257). -/
  | atomic
  /-- MCADD on its way (R162). -/
  | counterAdd
  /-- MCREAD (R162). -/
  | counterRead
  | awarm
  | awcred
  | blend
  | seqret
  /-- TLBINV: the counter add that ends it (R365). -/
  | tlbinv
  /-- MODBIND whose binding has not yet taken effect, with the ASID, the slot and the tag under which the binding is put aside (R93). -/
  | modbind (asid slot tag : Nat)
  /-- MODFREE waiting for its old binding to drain (R93). -/
  | modfree (asid slot gen : Nat)
  /-- LEASE with the request it waits for (R188). -/
  | lease (request : Nat)
  /-- LEASE whose request is granted: its handle, to be delivered when the wake of the engine ends (R174). -/
  | handle (h : Word) (engine : Nat)
  /-- EVACK .drain waiting for the lease's work (R192). -/
  | evack (engine : Nat)
  /-- GDRAIN .graph waiting for the running launch (R230). -/
  | gdrain (graph : Nat)
  /-- MXRD or BDRD queued on an engine (R336). -/
  | engine (engine : Nat)
  deriving DecidableEq, Repr

/-- An instruction that has issued and has not completed. [DEDUCED, unsafe, log 14] -/
structure Op where
  id : Nat
  ctx : Nat
  /-- The firing that issued it. -/
  serial : Nat
  word : Word
  pc : Word
  kind : OpKind
  /-- The destination registers it fills: g and v numbers (R37). -/
  dstG : List Nat := []
  dstV : List Nat := []
  opA : VWord := 0
  opB : VWord := 0
  opC : VWord := 0
  opX : VWord := 0
  reads : BitVec 6 := 0
  mask : Mask := 0
  /-- The effective address of a memory instruction. -/
  addr : Nat := 0
  /-- The physical addresses that a store found at issue, element by element; 2^60 for an element in the aperture (R253). -/
  pas : List Nat := []
  /-- The scope and order it asked for, after R80. -/
  scope : Nat := 0
  ord : Nat := 0
  /-- The tick of issue. -/
  tick : Nat := 0
  deriving DecidableEq, Repr

/-- A copy that COPY or CHAIN started (R260 to R266). -/
structure CopyRun where
  id : Nat
  ctx : Nat
  /-- The ASID of the context at issue (R357, R375). -/
  asid : Nat
  pc : Word
  word : Word
  /-- The record in progress and whether it belongs to a chain. -/
  record : Nat
  chain : Bool
  /-- The event counter of the instruction. -/
  ev : Nat
  scope : Nat := 0
  ord : Nat := 0
  /-- Records of the chain done, tokens of a DKIND 1 record pushed, and elements of another record moved. -/
  done : Nat := 0
  pushed : Nat := 0
  moved : Nat := 0
  /-- The banks, numbered 24 × tile + bank, of a record in progress, each with an address in it, and the address of one whose mode has changed since
  (R242). -/
  banks : List (Nat × Nat) := []
  cut : Option Nat := none
  /-- Warnings gathered (R55). -/
  warn : Word := 0
  deriving DecidableEq, Repr

/-- The completion of an asynchronous instruction on its way to its context (R55, R164). -/
structure AsyncDone where
  id : Nat
  ctx : Nat
  /-- The event counter that counts it, or none. -/
  ev : Option Nat
  warn : Word := 0
  fpflags : Word := 0
  deriving DecidableEq, Repr

/-- An entry of a die's repair queue (R258). -/
structure RepairEntry where
  op : Op
  cause : BitVec 8
  info : Word
  syndrome : Word
  faults : Nat
  since : Nat
  deriving DecidableEq, Repr

/-! ## Queues, graphs and submission queues -/

/-- The queue of one edge towards one consumer context (R145 to R151). -/
structure Queue where
  graph : Nat
  edge : Nat
  consumer : Nat
  depth : Nat
  proxy : Bool := false
  manual : Bool := false
  spill : Bool := false
  /-- Ring capacity in slots (R148). -/
  ringCap : Nat := 0
  outFmt : Nat := 7
  inFmt : Nat := 7
  /-- Credits: free slots of the FIFO. The producers hold them, or the forwarding engine where the queue is a proxy queue (R145, R150). -/
  credits : Nat
  /-- Tokens pushed and not yet arrived. -/
  transit : List Token := []
  fifo : List Token := []
  /-- Elements of the head link word already taken by stream reads (R153). -/
  taken : Nat := 0
  /-- Popped tokens of a manual-credit queue (R146). -/
  held : List Token := []
  ring : List Token := []
  /-- Credits freed and on their way back to the producer. -/
  returning : Nat := 0
  /-- The context that pushed last (R170). -/
  producer : Option Nat := none
  deriving DecidableEq, Repr

/-- An entry of a shadow: the token, the consumer it is for, and whether its push routed it by owner (R150, R151). -/
structure ShadowEntry where
  consumer : Nat
  owner : Bool := false
  token : Token
  deriving DecidableEq, Repr

/-- The local shadow of a proxy queue, in the tile of a producer (R150): free slots, and its entries, oldest first. -/
structure Shadow where
  graph : Nat
  edge : Nat
  producer : Nat
  credits : Nat
  entries : List ShadowEntry := []
  deriving DecidableEq, Repr

/-- A speculative firing (R126 to R131): what it has done so far stays in its own view of its context and of the context's ports.
[DEDUCED, unsafe, log 13] -/
structure Spec where
  key : Nat
  /-- Where it begins, and the reference it took at its dispatch (R83, R122). -/
  start : Word
  ref : BindRef
  /-- Its private state: the context as this firing sees it and changes it, with the firing itself. -/
  view : Ctx
  /-- The queues and shadows of its context's graph, as it sees them (R129, R130). -/
  queues : List Queue
  shadows : List Shadow
  /-- Stores that are held (R128). -/
  stores : List Op := []
  /-- Instructions issued, which event 0x01 counts when the firing is squashed (R108). -/
  issued : Nat := 0
  /-- Tokens popped, by edge number. -/
  pops : Map Nat := []
  /-- A fault is held (R131), or its next instruction waits until the firing is non-speculative (R128). -/
  stopped : Bool := false
  /-- It has executed END. -/
  ended : Bool := false
  deriving DecidableEq, Repr

/-- An actor record of a graph descriptor (R228). -/
structure ActorDesc where
  slot : Nat
  growth : Nat
  min : Nat
  initial : Nat
  max : Nat
  /-- Ports 0 to 15: type code, OUT and DECL. -/
  ports : List (Nat × Bool × Bool)
  guards : List (Word × Word)
  /-- The address of the guard table image (R111). -/
  guardAddr : Nat
  deriving DecidableEq, Repr

/-- A queue record of a graph descriptor (R228). -/
structure QueueDesc where
  proxy : Bool
  depth : Nat
  manual : Bool
  spill : Bool
  ring : Nat
  deriving DecidableEq, Repr

/-- An edge record of a graph descriptor; producer 255 is the launch (R228). -/
structure EdgeDesc where
  pact : Nat
  pq : Nat
  cact : Nat
  cq : Nat
  queue : Nat
  owner : Bool
  deriving DecidableEq, Repr

/-- A launch that has been fetched (R212, R214). [DESIGN CHOICE, unsafe, log 91] -/
structure Launch where
  /-- The sixteen words of the record. -/
  words : List Word
  /-- The submission queue, and the index of the record in it. -/
  qsb : Nat
  index : Nat := 0
  part : Nat
  asid : Nat
  prio : Nat
  /-- Order of fetch. -/
  order : Nat
  /-- Irrevocable effects: atomics, counter adds, pushes, stores outside the regions (R411). -/
  atomics : Nat := 0
  adds : Nat := 0
  pushes : Nat := 0
  stores : Nat := 0
  /-- Replays made, and the graph's load count at the first dispatch (R410, R412). -/
  replays : Nat := 0
  loadedAt : Nat := 0
  /-- Withheld adds of the copies of a redundant launch: copy, address, addend (R223). -/
  withheld : List (Nat × Word × Word) := []
  /-- Copy 2 of a redundant launch has been started (R224). -/
  third : Bool := false
  /-- A fault that no handler resumed (R218), with the verdict of R410: to be replayed, or ended REPLAY_UNSAFE. -/
  failed : Option (BitVec 8) := none
  replayDue : Bool := false
  unsafeEnd : Bool := false
  /-- Aborted by a teardown (R219). -/
  aborted : Bool := false
  /-- The tiles on which it has run (R283). -/
  tiles : List Nat := []
  /-- Records that SPAWN or a home-queue push of this launch appended: QSB and index (R411). -/
  spawned : List (Nat × Nat) := []
  deriving DecidableEq, Repr

/-- STATE of a graph (R226). -/
inductive GraphState where
  | empty | loaded | unarmed | armed | draining | drained
  deriving DecidableEq, Repr

/-- The spill ring of an edge after GDRAIN has retired the instances that its tokens were for (R230). [DEDUCED, unsafe, log 84] -/
structure EdgeRing where
  edge : Nat
  tokens : List Token
  deriving DecidableEq, Repr

/-- A graph (R226 to R232). -/
structure Graph where
  /-- One more than the physical address of the GCB: the number that names the graph in this state. -/
  handle : Nat
  /-- The handle: the virtual address of the GCB in the graph's ASID (R226). -/
  va : Nat
  asid : Nat
  part : Nat
  state : GraphState := .empty
  running : Option Launch := none
  thresh : Nat := 0
  actors : List ActorDesc := []
  queues : List QueueDesc := []
  edges : List EdgeDesc := []
  /-- The report buffer, 0 for none. -/
  report : Nat := 0
  /-- The stillness timer and whether it has fired since the last progress event (R169). -/
  timer : Nat := 0
  fired : Bool := false
  /-- The owner table: actor, partition id, context (R151). -/
  owners : List (Nat × Nat × Nat) := []
  /-- Pinned and hinted tile of an actor (R232). -/
  pins : Map Nat := []
  hints : Map Nat := []
  /-- The consumer context paired with a producer context on an edge (R221). -/
  pairs : List (Nat × Nat × Nat) := []
  /-- Times it was loaded or drained, for R412. -/
  loads : Nat := 0
  /-- The tick at which the limit of a GDRAIN in progress ends. -/
  drainBy : Option Nat := none
  /-- Spill rings that a drain has left. -/
  rings : List EdgeRing := []
  deriving DecidableEq, Repr

/-- A submission queue with the words of its QSB (R206 to R211). -/
structure Subq where
  /-- The physical address of the QSB. -/
  addr : Nat
  base : Nat
  logsize : Nat
  maxprio : Nat
  part : Nat
  asid : Nat
  deviceFed : Bool
  doorbell : Nat
  tail : Nat := 0
  head : Nat := 0
  slot : Option Nat := none
  pending : Bool := false
  /-- The number of the moment at which PENDING was set, for the order of mapping (R211). -/
  pendingAt : Nat := 0
  /-- The number of the moment at which the queue fell idle, for the order of unmapping (R211). -/
  idleSince : Nat := 0
  tear : Nat := 0
  error : Bool := false
  /-- Fetched and undispatched launches (R214). -/
  window : List Launch := []
  /-- Records in slots that a replay has withdrawn, by index (R411). -/
  withdrawn : List Nat := []
  /-- The PROGRESS snapshot: HEAD, RESIDENT and PENDING of the last commit (R209). -/
  snapHead : Nat := 0
  snapResident : Bool := false
  snapPending : Bool := false
  deriving DecidableEq, Repr

/-! ## Leases and engines -/

/-- The state of a leasable engine (R174). -/
inductive Power where
  | gated
  /-- Waking, with the tick at which the wake ends. -/
  | waking (until_ : Nat)
  | lit
  /-- Dozing since the tick. -/
  | dozing (since : Nat)
  deriving DecidableEq, Repr

/-- A plane of a matrix engine (R333): codes of its elements at 128 k + j, format, β̂ and β_B. -/
structure Plane where
  elems : Map (BitVec 16) := []
  fmt : Option Nat := none
  betaHat : BitVec 16 := 0
  betaB : BitVec 16 := 0
  deriving DecidableEq, Repr

/-- MODE of an accumulator tile (R333). -/
inductive TileMode where
  | free | f32 | f64h | f64l
  deriving DecidableEq, Repr

/-- An accumulator tile: elements at 128 row + column, bounds by row, threshold and the flags of R341. -/
structure MxTile where
  mode : TileMode := .free
  elems : Map (BitVec 32) := []
  bounds : Map (BitVec 16) := []
  thr : Word := 0
  /-- ESCD: escalated since it was last zeroed (R347). -/
  escd : Bool := false
  deriving DecidableEq, Repr

/-- An X-format instruction that has issued and not taken effect, with the values it read (R335, R337). -/
structure MacroOp where
  id : Nat
  ctx : Nat
  /-- The ASID of the context at issue (R357, R375). -/
  asid : Nat := 0
  serial : Nat
  word : Word
  pc : Word
  opA : VWord := 0
  opB : VWord := 0
  opC : VWord := 0
  /-- Steps done. -/
  step : Nat := 0
  /-- The input ports of an MXSTRM at issue: control tokens and operand rows (R349). -/
  control : PortBind := .unbound
  stream : PortBind := .unbound
  /-- The macro-op runs again at FP64 (R342). -/
  escalated : Bool := false
  /-- Flags and warnings gathered. -/
  fpflags : Word := 0
  warn : Word := 0
  deriving DecidableEq, Repr

/-- A command of RAST, TRACE, SAMPLE or CODEC (R193). -/
structure EngineCmd where
  id : Nat
  ctx : Nat
  /-- The ASID of the context at issue (R357, R375). -/
  asid : Nat
  serial : Nat
  word : Word
  pc : Word
  /-- The output stream register with its binding at issue, and the address of the block. -/
  q : Nat
  bind : PortBind
  block : Nat
  count : Nat
  ev : Nat
  mode : Nat
  /-- Records done, and result tokens of the present record still to push. -/
  done : Nat := 0
  tokens : Option (List Token) := none
  /-- The warnings that its pushes have raised, which it sets when it completes (R55). -/
  warn : Word := 0
  deriving DecidableEq, Repr

/-- A leasable engine (R172 to R185, R333). -/
structure Engine where
  power : Power := .gated
  serial : BitVec 16 := 0
  /-- The context that holds it. -/
  holder : Option Nat := none
  ectr : Nat := 0
  prio : Nat := 0
  /-- HOLD of the request, the tick at which the hold ends and the tick of the grant. -/
  hold : Nat := 0
  holdEnd : Nat := 0
  grantedAt : Nat := 0
  /-- The hold has not ended. -/
  holding : Bool := false
  /-- The request whose wake is in progress. -/
  request : Nat := 0
  /-- Under notice, with the tick at which the grace period ends (R182). -/
  notice : Option Nat := none
  /-- Closed to new work by LFREE .held or EVACK .drain (R185). -/
  closed : Bool := false
  /-- Closed by an LFREE .held before the grace period ended: the lease is not lost (R183, R190). -/
  freed : Bool := false
  cmds : List EngineCmd := []
  /-- The matrix state of an MX. -/
  active : Plane := {}
  shadow : Plane := {}
  tiles : Map MxTile := []
  /-- The rollback buffer: tile number, elements and bounds, of the tile or of both tiles of a pair (R341). -/
  rollback : Option (Nat × MxTile × MxTile) := none
  ops : List MacroOp := []
  deriving DecidableEq, Repr

/-- A lease request in a queue (R171, R176). -/
structure LeaseReq where
  id : Nat
  ctx : Nat
  cls : Nat
  cluster : Nat
  /-- Effective priority. -/
  prio : Nat
  hold : Nat
  ectr : Nat
  /-- The tick of issue. -/
  tick : Nat
  /-- The one engine a restored lease waits for, with the saved handle and the saved state (R399). -/
  only : Option (Nat × Word × Engine) := none
  deriving DecidableEq, Repr

/-! ## Memory -/

/-- A translation that the TLBs of a tile cache, with the rights and levels of its two leaves (R364). [DESIGN CHOICE, safe, log 18] -/
structure TlbEntry where
  /-- The tile by whose TLBs it is found. -/
  tile : Nat := 0
  asid : Nat
  part : Nat
  va : Nat
  /-- log2 of the page size. -/
  log : Nat
  ipa : Nat
  pa : Nat
  rights1 : BitVec 3
  level1 : Nat
  rights2 : BitVec 3
  level2 : Nat
  ring : Bool := false
  deriving DecidableEq, Repr

/-- A binding of a module image to a slot (R82, R373). -/
structure Binding where
  asid : Nat
  slot : Nat
  /-- The generation; a tag above 2^48 until the MODBIND takes effect. -/
  gen : Nat
  base : Nat
  len : Nat
  digest : BitVec 512
  /-- The image bytes as bound, by offset; an absent offset is 0 (R79, R248). -/
  image : Map Byte := []
  /-- Replaced or freed, and not yet drained (R93). -/
  released : Bool := false
  deriving DecidableEq, Repr

/-- An ASID (R357, R358, R82). -/
structure Asid where
  live : Bool := false
  part : Nat := 0
  root : Nat := 0
  /-- The generation counter of each module slot. -/
  gens : Map Nat := []
  /-- The slots that have a binding, which is the one of the slot's present generation. -/
  bound : BitVec 16 := 0
  deriving DecidableEq, Repr

/-- A partition (R358, R367, R370, R377, and the registers of R198 and R401). -/
structure Part where
  isOpen : Bool := false
  root : Nat := 0
  quota : Nat := 0
  hostwin : Bool := false
  share : Nat := 0
  weight : Nat := 1
  /-- Epoch and slice of a gang, and the number of instants taken (R222). -/
  gang : Option (Nat × Nat) := none
  gangDone : Nat := 0
  grace : Nat := 8
  holdcap : Nat := 100000
  ckptdl : Nat := 20
  /-- Dispatch of launches is stopped by a device checkpoint, since the tick (R413). -/
  paused : Bool := false
  pausedSince : Nat := 0
  deriving DecidableEq, Repr

/-! ## Clusters and power -/

/-- The operations and states of the cluster handshake (R199, R200). -/
inductive Clpm where
  | on | quiesced | away | clkoff | railoff
  deriving DecidableEq, Repr

/-- What runs on the handshake block while BUSY is 1. -/
inductive ClpmOp where
  | quiesce | handoff | clkgate | clkungate | resume | railOff | railOn
  deriving DecidableEq, Repr

/-- The retention state of a cluster (R200, R201). -/
structure Retention where
  banks : Map Nat := []
  wgEn : Bool := true
  minWays : Nat := 4
  missHi : Nat := 32
  missLo : Nat := 4
  mxcad : BitVec 32 := 0
  target : Nat := 42
  retired : List Nat := []
  tileOwners : Map Nat := []
  wayOwners : Map Nat := []
  waysOn : Nat := 16
  deriving DecidableEq, Repr

/-- A cluster's power state (R198 to R204). -/
structure Cluster where
  /-- CLPM_REQ: the last operation started. -/
  req : Nat := 0
  state : Clpm := .railoff
  /-- The operation that holds BUSY, and the tick at which it began. -/
  op : Option ClpmOp := none
  opSince : Nat := 0
  done : Bool := false
  err : Bool := false
  errcode : Nat := 0
  homeaway : Bool := true
  railcyc : Bool := true
  /-- CLPM_RET. -/
  retValid : Bool := true
  retBusy : Option Bool := none
  retRefused : Bool := false
  retention : Retention := {}
  /-- CLPM_RAIL: VSET, EN, PGOOD, and the present code of the rail. -/
  vset : Nat := 60
  en : Bool := false
  pgood : Bool := false
  railCode : Nat := 0
  railStep : Nat := 0
  /-- CLPM_FLL: TARGET, CURRENT, LOCK, DROOPSTEPS, STRETCH, and the tick of the last step. -/
  target : Nat := 42
  current : Nat := 0
  lock : Bool := false
  droopSteps : Nat := 0
  stretch : Bool := false
  fllStep : Nat := 0
  droopSince : Nat := 0
  /-- CLPM_WAKE: a ring awaits or runs, the wake sequence has begun, SOURCE and SENABLE. -/
  ringPending : Bool := false
  waking : Bool := false
  source : Nat := 0
  senable : Bool := false
  /-- %mxcad CAD0 to CAD7, the codes in force at the engines, and %wgcfg with WAYSON. -/
  mxcad : BitVec 32 := 0
  cadence : BitVec 32 := 0
  wgEn : Bool := true
  minWays : Nat := 4
  missHi : Nat := 32
  missLo : Nat := 4
  waysOn : Nat := 16
  /-- The estimator of way gating: the window of 1,000 ticks last counted in, its accesses and misses, and the tick since which the misses have been
  below MISSLO (R198). -/
  missWin : Nat := 0
  missAcc : Nat := 0
  misses : Nat := 0
  lowSince : Nat := 0
  /-- The committed set of the cluster (R198). -/
  comTarget : Nat := 42
  comVset : Nat := 60
  comCad : BitVec 32 := 0
  deriving DecidableEq, Repr

/-- A line of 128 bytes in a cluster cache: its way, and which of its four sectors are held and are dirty (R243). [DESIGN CHOICE, unsafe, log 119] -/
structure SliceLine where
  way : Nat
  held : BitVec 4 := 0
  dirty : BitVec 4 := 0
  deriving DecidableEq, Repr

/-- A sector of 32 bytes in the cache ways of a tile (R25, R240, R243): its bytes, which of them the ways hold, and which of them the tile has stored
since the sector was last written back. The sector is dirty when one of them is. The mark of each byte is what lets a write-back send none but what the
tile has stored, so that it undoes no write of another agent (R237). [DESIGN CHOICE, unsafe, log 17] -/
structure Sector where
  bytes : BitVec 256 := 0
  held : BitVec 32 := 0
  stored : BitVec 32 := 0
  deriving DecidableEq, Repr

/-- The units of self-test, of the error log and of the map of retired units (R406 to R409): the unit word of R406. -/
structure UnitFault where
  unit : Nat
  tick : Nat
  deriving DecidableEq, Repr

/-- A record waiting to enter a record queue: the context it is for and its eight words (R388). -/
structure PendingRecord where
  target : Nat
  words : List Word
  deriving DecidableEq, Repr

/-- What the Archivist has to do for a swap of a strand: the issuing context and the descriptor addresses (R396, R397). -/
structure SwapJob where
  issuer : Nat
  strand : Nat
  incoming : Nat
  outgoing : Nat
  /-- Slots still to write out and to load. -/
  writing : List Nat := []
  loading : List Nat := []
  /-- Its loads go into the active bank, because an exchange came before their end (R222, R396). -/
  live : Bool := false
  /-- GMASK and VMASK by slot, from the checkpoint tables of a full switch (R400). -/
  masks : List (Nat × Word × Word) := []
  deriving DecidableEq, Repr

/-- A tile that stops for a full switch, or for a device checkpoint (R400, R413). -/
structure FullSwitch where
  issuer : Nat
  tile : Nat
  incoming : Nat
  outgoing : Nat
  deadline : Nat
  checkpoint : Bool := false
  deriving DecidableEq, Repr

/-- The registers of the management window (R415). -/
structure MgmtWindow where
  /-- LIVE, MW_FWADDR, MW_FWLEN, MW_CKPTMASK and MW_CKPTBASE as the host has written them. -/
  regLive : Bool := false
  regAddr : BitVec 64 := 0
  regLen : BitVec 32 := 0
  regMask : BitVec 64 := 0
  regBase : BitVec 64 := 0
  /-- LIVE, the address and the length of the last PUSH that was taken. -/
  live : Bool := false
  busy : Bool := false
  fail : Bool := false
  why : Nat := 0
  inrom : Bool := true
  fwaddr : Nat := 0
  fwlen : Nat := 0
  retmap : Nat := 0
  ckptBusy : Bool := false
  /-- What runs while it is busy is a RESTORE. -/
  ckptRestore : Bool := false
  ckptDone : Bool := false
  ckptErr : Bool := false
  ckptErrcode : Nat := 0
  /-- The mask and the base with which the last checkpoint or restore began. -/
  ckptMask : BitVec 64 := 0
  ckptBase : Nat := 0
  /-- Bytes copied so far, and those that there are to copy. -/
  ckptProg : Nat := 0
  ckptTotal : Nat := 0
  /-- A live PUSH that waits for the end of a checkpoint: address and length (R416). -/
  pushWaits : Option (Nat × Nat) := none
  deriving DecidableEq, Repr

/-- A context image as the Archivist wrote it (R398). -/
structure CtxImage where
  addr : Nat
  /-- The number of the context while it is written out: the slot it was written out from, plus 2^15 × (1 + address ÷ 32768). -/
  key : Nat
  part : Nat
  ctx : Ctx
  /-- Saved leases: handle, effective priority, time left of the hold, and the engine's state (R399). -/
  leases : List (Word × Nat × Nat × Engine) := []
  deriving DecidableEq, Repr

/-- A scratchpad image of a full switch: the modes of the banks, their bytes and the order of their hold slots, by offset in the tile (R400).
[DESIGN CHOICE, unsafe, log 101] -/
structure ScratchImage where
  modes : Map Nat
  bytes : Map Byte
  holds : Map (List Nat)
  /-- The uncorrectable sectors, which stay so (R404). -/
  bad : List Nat := []
  deriving DecidableEq, Repr

/-- A SPILLQ image (R402): its bytes as they were written, and what they stand for. [DESIGN CHOICE, unsafe, log 52] -/
structure QueueImage where
  image : List Byte
  graph : Nat
  queues : List Queue
  shadows : List Shadow
  /-- Reservations by context. -/
  resv : List (Nat × Map Nat) := []
  deriving DecidableEq, Repr

/-- An image in the safe tier (R414): the header's version, mask and FWDIGEST, the ranges of physical pages with their bytes, the sectors listed as bad, and
what the device holds for the partitions: contexts by their slots, contexts written out before, queues, graphs, submission queues, ASIDs, bindings and
the scratchpad of their tiles with its bad sectors. [DEDUCED, unsafe, log 110] -/
structure SafeImage where
  base : Nat
  version : Nat := 1
  mask : BitVec 64
  digest : BitVec 512
  ranges : List (Nat × Nat)
  pages : List Host.Cell
  bad : List Nat
  badBanks : List Nat := []
  written : List CtxImage := []
  queueBanks : Map (BitVec 24) := []
  parts : List (Nat × Part)
  asids : List (Nat × Asid)
  bindings : List Binding
  graphs : List Graph
  subqs : List Subq
  queues : List Queue
  shadows : List Shadow
  contexts : List CtxImage
  tileOwner : Map Nat
  bankModes : Map Nat
  scratch : Map Byte
  holds : Map (List Nat)
  deriving DecidableEq, Repr

/-- What the device tells the host by an interrupt (R205, R208, R222, R406, R410). [DEDUCED, unsafe, log 103] -/
inductive HostIrq where
  | notifyRange (doorbell : Nat)
  | lockLoss
  | thermal (die : Nat)
  | errorLog (cls unit : Nat)
  | replayUnsafe (graph : Nat)
  | firmware
  deriving DecidableEq, Repr

/-- The answer to the last host read (R371). -/
inductive HostResp where
  | none
  | data (bytes : List Byte)
  | written
  | error
  deriving DecidableEq, Repr

/-- What the outside world or a test asks the next step to do. [DESIGN CHOICE, unsafe, log 12] -/
inductive Input where
  /-- One of the event rows of the table happens. -/
  | event (i : Instr)
  /-- The context issues its next instruction. -/
  | issue (ctx : Nat)
  /-- The n-th speculative firing of the context issues its next instruction (R128). -/
  | speculate (ctx n : Nat)
  /-- A copy engine moves the next elements of a record, as many as given (R261). -/
  | move (id n : Nat)
  /-- The TLBs of a tile give up the translation of an address of an ASID (R364). -/
  | forget (tile asid va : Nat)
  /-- The ways of a tile take in the sector of an address, or give it up with a write-back if it is dirty (R25, R243). -/
  | fill (tile pa : Nat)
  | evict (tile pa : Nat)
  deriving DecidableEq, Repr

/-! ## The machine -/

/-- The state of the package. -/
structure State where
  /-- The context whose instruction issues. -/
  cur : Option Nat := none
  /-- The instruction that is issuing, with the sources it read; none between steps. -/
  issuing : Option ReplayEntry := none
  /-- The instruction that issues is the first entry of its context's replay list (R392). -/
  replayNow : Bool := false
  /-- What happens next, oldest first; empty: the device chooses. -/
  inputs : List Input := []
  /-- %ticks, %ptp and the value that %ptpset makes it take at the next tick (R34, R423). -/
  ticks : Nat := 0
  ptp : Nat := 0
  ptpset : Option Word := none
  /-- Steps of strands, the order behind age stamps (R120). -/
  cycle : Nat := 0
  /-- Numbers given to firings, in-flight instructions, requests and copies. -/
  fresh : Nat := 0
  /-- The count of free values drawn. -/
  drawn : Nat := 0
  /-- Contexts by the low 15 bits of their handle (R389): active and shadow slots. -/
  ctxs : Map Ctx := []
  /-- Speculative firings, in the order of their dispatch (R126). -/
  specs : List Spec := []
  ops : List Op := []
  copies : List CopyRun := []
  asyncDone : List AsyncDone := []
  /-- Faults that wait for room in a pending list (R384). -/
  faultsWaiting : List (Nat × PendingFault) := []
  records : List PendingRecord := []
  /-- The repair queues: die, entry number, entry (R258). -/
  repairs : List (Nat × Nat × RepairEntry) := []
  queues : List Queue := []
  shadows : List Shadow := []
  graphs : List Graph := []
  subqs : List Subq := []
  /-- Tokens whose tag names no instance of the consumer, with the graph (R112). -/
  strays : List (Nat × Token) := []
  /-- The tick at which the Curator's last interval ended (R220). -/
  curated : Nat := 0
  /-- The weighted round robin: the partition in turn and its dispatches in this round; at reset the round of partition 63 is over (R216). -/
  rrPart : Nat := 63
  rrServed : Nat := 64
  engines : Map Engine := []
  requests : List LeaseReq := []
  /-- The DRAM region, by physical address: the bytes that are not what an unlisted byte reads as (R238). -/
  mem : List Host.Cell := []
  /-- The scratchpad and FIFO banks: bytes by tile, bank and offset (R240). -/
  scratch : Map Byte := []
  /-- The hold slots in use of each screen-tile buffer, in the order they were held, by the buffer's place ÷ 4096 (R249, R274). -/
  holds : Map (List Nat) := []
  /-- Bank modes by 24 × tile + bank, where they differ from those of reset (R240). -/
  bankModes : Map Nat := []
  /-- Banks marked as queue banks, by tile (R377). -/
  queueBanks : Map (BitVec 24) := []
  /-- The sectors in the cache ways of tiles, by tile × 2^47 + physical address / 32 (R25, R240, R246). -/
  tileCache : Map Sector := []
  /-- The lines of the cluster caches, by cluster × 2^31 + physical address / 128. The caches are coherent, so that their bytes are those of `mem`
  (R25, R243, R246). -/
  slices : Map SliceLine := []
  /-- Sectors whose check code fails, DRAM by PA / 32 and scratchpad above 2^47 (R404). -/
  badSectors : List Nat := []
  tlb : List TlbEntry := []
  asids : Map Asid := []
  bindings : List Binding := []
  parts : Map Part := []
  /-- The owning partition of a tile plus one; absent: unowned (R367). -/
  tileOwner : Map Nat := []
  /-- The owning partition of a cluster-cache way plus one, by 16 × cluster + way; absent: the shared pool. -/
  wayOwner : Map Nat := []
  clusters : Map Cluster := []
  /-- %pmbudget BUDGET, %pmcommit LATCHED with the committed budget, %pmwdog EXPIRED, RUNNING and the tick of the last kick. -/
  budget : Nat := 1100
  latched : Bool := false
  comBudget : Nat := 1100
  expired : Bool := false
  running : Bool := false
  kickedAt : Nat := 0
  /-- Dies over the thermal trip (R205). -/
  hot : BitVec 4 := 0
  swaps : List SwapJob := []
  /-- Descriptors staged for a strand (R396). -/
  staged : List SwapJob := []
  fullSwitches : List FullSwitch := []
  images : List CtxImage := []
  /-- Scratchpad images of full switches (R400). -/
  scratchImages : List ScratchImage := []
  queueImages : List QueueImage := []
  mgmt : MgmtWindow := {}
  fwdigest : BitVec 512 := 0
  safe : List SafeImage := []
  /-- Units retired, by the unit word of R406, and the transient errors of the last hour (R408). -/
  retired : List Nat := []
  transients : List UnitFault := []
  /-- Units to be tested after an error, and units under test (R407). -/
  testDue : List Nat := []
  testing : List Nat := []
  /-- Failures of the flit that a link sends, since one last got through (R403). -/
  flitRetries : Map Nat := []
  /-- The lanes of a Trigar Link port after narrowing; absent: 8 (R408). -/
  linkLanes : Map Nat := []
  /-- The tiles, the strands (from 512) and the UCIe modules (from 4096) whose spare stands in for a failed bank, a failed lane or failed lanes, the tiles
  removed from placement, and the UCIe modules that are disabled (R408). -/
  spares : List Nat := []
  tilesOut : List Nat := []
  modulesOff : List Nat := []
  irqs : List HostIrq := []
  hostResp : HostResp := .none
  deriving DecidableEq, Repr

/-- Why the machine stops with a fault. -/
inductive Fault where
  /-- `exec` was asked for an instruction while no context has a firing to issue it. Safe: no state is given. -/
  | noFiring
  deriving DecidableEq, Repr

/-- Why an instruction has no meaning here. -/
inductive Refusal where
  /-- The instruction's meaning is not written yet. Safe: no state is given. -/
  | notModelled (mnemonic : String)
  deriving DecidableEq, Repr

/-- The machine right after device reset: no context lives, the boot ROM runs (MW_FWCTL INROM), every cluster is RAILOFF with a valid
retention state of reset values, and no byte of memory has been written (R199, R201, R415). -/
def State.reset : State := {}

end Sys2Proof.Machine
end

