-- ==== Sys2Proof/Machine/Maps.lean ====
section
/-! DEFINITION. Sparse tables in one canonical form: keys strictly rise and no entry equals the table's default. -/

namespace Sys2Proof.Machine

/-- The value at a key, the default where the key is not listed. -/
def Map.get {α : Type} (d : α) : Map α → Nat → α
  | [], _ => d
  | (k', v) :: rest, k => if k = k' then v else Map.get d rest k

/-- Write a value at a key; writing the default removes the entry. -/
def Map.set {α : Type} [DecidableEq α] (d : α) : Map α → Nat → α → Map α
  | [], k, v => if v = d then [] else [(k, v)]
  | (k', v') :: rest, k, v =>
    if k < k' then (if v = d then (k', v') :: rest else (k, v) :: (k', v') :: rest)
    else if k = k' then (if v = d then rest else (k, v) :: rest)
    else (k', v') :: Map.set d rest k v

/-- The entry at a key of a table without a default. -/
def Map.find? {α : Type} : Map α → Nat → Option α
  | [], _ => none
  | (k', v) :: rest, k => if k = k' then some v else Map.find? rest k

/-- Put an entry at a key. -/
def Map.insert {α : Type} : Map α → Nat → α → Map α
  | [], k, v => [(k, v)]
  | (k', v') :: rest, k, v =>
    if k < k' then (k, v) :: (k', v') :: rest
    else if k = k' then (k, v) :: rest
    else (k', v') :: Map.insert rest k v

/-- Remove the entry at a key. -/
def Map.erase {α : Type} : Map α → Nat → Map α
  | [], _ => []
  | (k', v') :: rest, k => if k = k' then rest else (k', v') :: Map.erase rest k

/-- The keys strictly rise above a bound. -/
def Map.risesFrom {α : Type} : Nat → Map α → Bool
  | _, [] => true
  | n, (k, _) :: rest => decide (n ≤ k) && Map.risesFrom (k + 1) rest

/-- The canonical form of a table with a default. -/
def Map.wf {α : Type} [DecidableEq α] (d : α) (m : Map α) : Bool :=
  Map.risesFrom 0 m && m.all fun c => decide (c.2 ≠ d)

/-- The bytes of the DRAM region (R238). -/
abbrev Memory := List Host.Cell

/-- What a byte of DRAM reads as while nothing has written it since device reset. DESIGN CHOICE, unsafe: the manual gives no contents
of GDDR-7 at power-on. [DESIGN CHOICE, unsafe, log 5] -/
def Memory.unlisted : Byte := 0

/-- The canonical form of memory. -/
def Memory.wf (m : Memory) : Bool := Map.wf Memory.unlisted m

/-- One byte of memory. [DESIGN CHOICE, unsafe, log 5] -/
def Memory.read (m : Memory) (a : Nat) : Byte := Map.get Memory.unlisted m a

/-- Write one byte of memory. -/
def Memory.write (m : Memory) (a : Nat) (b : Byte) : Memory := Map.set Memory.unlisted m a b

/-- n bytes of memory from an address. -/
def Memory.readBytes (m : Memory) (a : Nat) : Nat → List Byte
  | 0 => []
  | n + 1 => Memory.read m a :: Memory.readBytes m (a + 1) n

/-- Write bytes from an address upwards. -/
def Memory.writeBytes (m : Memory) (a : Nat) : List Byte → Memory
  | [] => m
  | b :: rest => Memory.writeBytes (Memory.write m a b) (a + 1) rest

end Sys2Proof.Machine
end

