-- ==== Sys2Proof/Machine/Ops.lean ====
section
/-! DEFINITION. The named operations over contexts and registers, issuing an instruction (R37 to R39, R58, R75, R76), what is still in flight
(R385), and taking a trap and returning from one (R381 to R388, R392), each written once. -/

namespace Sys2Proof.Machine

/-! ## Fault causes (R78) -/

def cIllegalOpcode : BitVec 8 := 0x01
def cIllegalEncoding : BitVec 8 := 0x02
def cPrivilege : BitVec 8 := 0x03
def cRegisterEmpty : BitVec 8 := 0x04
def cAlignment : BitVec 8 := 0x05
def cTranslation : BitVec 8 := 0x06
def cProtection : BitVec 8 := 0x07
def cMemUncorrectable : BitVec 8 := 0x08
def cTargetGated : BitVec 8 := 0x09
def cCounterOverflow : BitVec 8 := 0x0A
def cQueueState : BitVec 8 := 0x0B
def cLeaseLost : BitVec 8 := 0x0C
def cBoundExceeded : BitVec 8 := 0x0D
def cDeadlock : BitVec 8 := 0x0E
def cModuleAbsent : BitVec 8 := 0x0F
def cArith : BitVec 8 := 0x10
def cGraphUnarmed : BitVec 8 := 0x11
def cSoftware : BitVec 8 := 0x12
def cWatchdog : BitVec 8 := 0x13
def cAtomicUnrepairable : BitVec 8 := 0x14
def cReplayMismatch : BitVec 8 := 0x15

/-! ## Where a context sits (R9 to R11, R389) -/

/-- The tile of a context key, 384 + d for the System Tile of die d. -/
def tileOf (c : Nat) : Nat := c % 512
def strandOf (c : Nat) : Nat := c / 512 % 4
def slotOf (c : Nat) : Nat := c / 2048 % 8
/-- Whether the slot is in the shadow bank. -/
def inShadow (c : Nat) : Bool := c / 16384 % 2 == 1
/-- The key of a slot of the active bank. -/
def mkKey (tile strand slot : Nat) : Nat := tile + 512 * strand + 2048 * slot
def onSystemTile (c : Nat) : Bool := decide (384 ≤ tileOf c)
/-- The die of a tile number. -/
def dieOfTile (t : Nat) : Nat := if 384 ≤ t then (t - 384) % 4 else t / 96
def dieOf (c : Nat) : Nat := dieOfTile (tileOf c)
/-- The global cluster of a compute tile (R11). -/
def clusterOfTile (t : Nat) : Nat := t / 8
/-- Two contexts on one strand. -/
def sameStrand (c d : Nat) : Bool := c % 2048 == d % 2048
/-- The context of the supervisor of partition p (R10). -/
def supervisorOf (p : Nat) : Nat := mkKey (384 + p / 16) (1 + p % 16 / 8) (p % 8)
/-- The firmware context of a die. -/
def firmwareOf (die : Nat) : Nat := mkKey (384 + die) 0 0
/-- The number that firmware's module slots go under, in place of an ASID. [DEDUCED, unsafe, log 21] -/
def firmwareAsid : Nat := 8192

/-! ## Bits of words -/

/-- Set or clear bit n of a word. -/
def setBit {w : Nat} (x : BitVec w) (n : Nat) (b : Bool) : BitVec w :=
  if b then x ||| BitVec.twoPow w n else x &&& ~~~ BitVec.twoPow w n

/-- A 64-bit word from a natural number, modulo 2^64. -/
def wd (n : Nat) : Word := BitVec.ofNat 64 n

/-- A Bool as a bit. -/
def b2n (b : Bool) : Nat := if b then 1 else 0

/-- The slot and the offset of a code pointer, and a code pointer of both (R81). -/
def cpSlot (p : Word) : Nat := bits p.toNat 51 48
def cpOffset (p : Word) : Nat := bits p.toNat 47 0
def codePtr (slot offset : Nat) : Word := wd (slot % 16 * 2 ^ 48 + offset % 2 ^ 48)
/-- The code pointer n bytes on. One that runs past the last offset of its slot is marked by bit 63 and names no word (R84).
[DESIGN CHOICE, unsafe, log 123] -/
def nextPc (p : Word) (n : Nat) : Word := if cpOffset p + n < 2 ^ 48 then p + wd n else codePtr (cpSlot p) (cpOffset p + n) ||| BitVec.twoPow 64 63

/-! ## Registers of a context (R33 to R37) -/

def Ctx.rg (c : Ctx) (n : Nat) : Word := Map.get 0 c.g n
def Ctx.rv (c : Ctx) (n : Nat) : VWord := Map.get 0 c.v n
/-- A mask register; k0 reads as all ones (R33). -/
def Ctx.rk (c : Ctx) (n : Nat) : Mask := if n = 0 then BitVec.allOnes 32 else Map.get 0 c.k n
def Ctx.re (c : Ctx) (n : Nat) : Word := Map.get 0 c.e n
def Ctx.rq (c : Ctx) (n : Nat) : PortBind := Map.get .unbound c.q n

/-- Write a g register and mark it full (R37). -/
def Ctx.wg (c : Ctx) (n : Nat) (x : Word) : Ctx := { c with g := Map.set 0 c.g n x, gEmpty := setBit c.gEmpty n false, gBad := setBit c.gBad n false }
/-- Write a v register and mark it full. -/
def Ctx.wv (c : Ctx) (n : Nat) (x : VWord) : Ctx := { c with v := Map.set 0 c.v n x, vEmpty := setBit c.vEmpty n false, vBad := setBit c.vBad n false }
/-- Write a mask register; k0 is hard-wired and never written. -/
def Ctx.wk (c : Ctx) (n : Nat) (x : Mask) : Ctx := if n = 0 then c else { c with k := Map.set 0 c.k n x }
def Ctx.we (c : Ctx) (n : Nat) (x : Word) : Ctx := { c with e := Map.set 0 c.e n x }
def Ctx.wq (c : Ctx) (n : Nat) (x : PortBind) : Ctx := { c with q := Map.set .unbound c.q n x }
/-- Mark registers empty, or full with their values left. -/
def Ctx.markG (c : Ctx) (n : Nat) (empty : Bool) : Ctx := { c with gEmpty := setBit c.gEmpty n empty }
def Ctx.markV (c : Ctx) (n : Nat) (empty : Bool) : Ctx := { c with vEmpty := setBit c.vEmpty n empty }
def Ctx.emptyG (c : Ctx) (n : Nat) : Bool := c.gEmpty.getLsbD n
def Ctx.emptyV (c : Ctx) (n : Nat) : Bool := c.vEmpty.getLsbD n
/-- Sticky bits are set and never cleared here (R54, R56). -/
def Ctx.warns (c : Ctx) (w : Word) : Ctx := { c with warn := c.warn ||| w }
def Ctx.flagsFp (c : Ctx) (w : Word) : Ctx := { c with fpflags := c.fpflags ||| w }

/-- Bits of %warn (R54). -/
def wModcombo : Word := 0x01
def wSat : Word := 0x02
def wNar : Word := 0x04
def wClip : Word := 0x08
def wEscalated : Word := 0x10
def wBoundInf : Word := 0x20
def wSpill : Word := 0x40

/-! ## Tables of the state -/

def State.ctx? (s : State) (c : Nat) : Option Ctx := Map.find? s.ctxs c
def State.setCtx (s : State) (c : Nat) (x : Ctx) : State := { s with ctxs := Map.insert s.ctxs c x }
/-- Change a context that exists. -/
def State.modCtx (s : State) (c : Nat) (f : Ctx → Ctx) : State :=
  match s.ctx? c with
  | none => s
  | some x => s.setCtx c (f x)

/-- The context of an image: its g, v and k registers are those that stand in memory, where a program may have changed them (R398). An image of
the safe tier has no place in DRAM. [DESIGN CHOICE, unsafe, log 100] -/
def CtxImage.read (i : CtxImage) (m : Memory) : Ctx :=
  if 2 ^ 38 ≤ i.addr then i.ctx
  else
    { i.ctx with
      g := (List.range 64).foldl (fun t n => Map.set 0 t n (BitVec.ofNat 64 (leNat (Memory.readBytes m (i.addr + 8 * n) 8)))) []
      v := (List.range 64).foldl (fun t n => Map.set 0 t n (BitVec.ofNat 1024 (leNat (Memory.readBytes m (i.addr + 512 + 128 * n) 128)))) []
      k := ((List.range 16).drop 1).foldl (fun t n => Map.set 0 t n (BitVec.ofNat 32 (leNat (Memory.readBytes m (i.addr + 8704 + 4 * n) 4)))) [] }

/-- Bytes 0 to 9,039 of a context image: the registers, their full/empty bits (1 is full) and the live guard table (R398). -/
def Ctx.imageBytes (c : Ctx) : List Byte :=
  (List.range 64).flatMap (fun n => leBytes 8 (Map.get 0 c.g n).toNat) ++ (List.range 64).flatMap (fun n => leBytes 128 (Map.get 0 c.v n).toNat) ++
  (List.range 16).flatMap (fun n => leBytes 4 (if n = 0 then 2 ^ 32 - 1 else (Map.get 0 c.k n).toNat)) ++
  leBytes 8 (~~~c.gEmpty).toNat ++ leBytes 8 (~~~c.vEmpty).toNat ++
  (List.range 16).flatMap fun n => leBytes 8 (Map.get (0, 0) c.guards n).1.toNat ++ leBytes 8 (Map.get (0, 0) c.guards n).2.toNat

/-- The memory with an image's bytes as its context has them; e0 to e3 stand at 9,104 to 9,135. -/
def CtxImage.store (i : CtxImage) (c : Ctx) (m : Memory) : Memory :=
  if 2 ^ 38 ≤ i.addr then m
  else Memory.writeBytes (Memory.writeBytes m i.addr c.imageBytes) (i.addr + 9104) ((List.range 4).flatMap fun n => leBytes 8 (Map.get 0 c.e n).toNat)

/-- Change the context of an image, at the image's home (R275, R398). -/
def State.modImage (s : State) (i : CtxImage) (f : Ctx → Ctx) : State :=
  let c := f (i.read s.mem)
  { s with images := s.images.map fun x => if x.key = i.key then { x with ctx := c } else x, mem := i.store c s.mem }

/-- A context wherever it is: in a slot, or written out to an image (R275). -/
def State.owner? (s : State) (c : Nat) : Option Ctx :=
  match s.ctx? c with
  | some x => some x
  | none => (s.images.find? fun i => i.key == c).map fun i => i.read s.mem
def State.modOwner (s : State) (c : Nat) (f : Ctx → Ctx) : State :=
  match s.ctx? c with
  | some x => s.setCtx c (f x)
  | none =>
    match s.images.find? fun i => i.key == c with
    | some i => s.modImage i f
    | none => s
def State.part (s : State) (p : Nat) : Part := Map.get {} s.parts p
def State.setPart (s : State) (p : Nat) (x : Part) : State := { s with parts := Map.set {} s.parts p x }
def State.cluster (s : State) (c : Nat) : Cluster := Map.get {} s.clusters c
def State.setCluster (s : State) (c : Nat) (x : Cluster) : State := { s with clusters := Map.set {} s.clusters c x }
def State.engine (s : State) (e : Nat) : Engine := Map.get {} s.engines e
def State.setEngine (s : State) (e : Nat) (x : Engine) : State := { s with engines := Map.set {} s.engines e x }
def State.asid (s : State) (a : Nat) : Asid := Map.get {} s.asids a
def State.setAsid (s : State) (a : Nat) (x : Asid) : State := { s with asids := Map.set {} s.asids a x }
def State.graph? (s : State) (h : Nat) : Option Graph := s.graphs.find? fun g => g.handle == h
/-- Change a graph that exists. -/
def State.modGraph (s : State) (h : Nat) (f : Graph → Graph) : State :=
  { s with graphs := s.graphs.map fun g => if g.handle = h then f g else g }
/-- A context becomes resident: it gets a new age stamp, later than every other (R120). -/
def State.renew (s : State) (key : Nat) : State := ({ s with cycle := s.cycle + 1 } : State).modCtx key fun c => { c with stamp := s.cycle + 1 }
/-- A progress event of a graph: its stillness timer returns to 0 (R169). -/
def State.progress (s : State) (h : Nat) : State := s.modGraph h fun g => { g with timer := 0, fired := false }

/-- A new number for a firing, an instruction in flight, a request or a copy. -/
def State.takeFresh (s : State) : Nat × State := (s.fresh, { s with fresh := s.fresh + 1 })

/-- The next free value (see the assumption log). [DESIGN CHOICE, safe, log 1] -/
def State.drawWord (s : State) : Word × State := (Config.freeWord s.drawn, { s with drawn := s.drawn + 1 })
/-- [DESIGN CHOICE, safe, log 2; DEDUCED, safe, log 42] -/
def State.drawChoice (s : State) : Bool × State := (Config.freeChoice s.drawn, { s with drawn := s.drawn + 1 })

/-- How many of the instants of a gang, epoch + k × slice, lie before a time in nanoseconds; the slice is in microseconds (R222).
[DESIGN CHOICE, unsafe, log 98] -/
def gangPast (epoch slice t : Nat) : Nat := (t - epoch + 1000 * slice - 1) / (1000 * slice)

/-- A gang counts the instants before a time as over: it switches at the next one from then on (R222). -/
def Part.gangAt (p : Part) (t : Nat) : Part :=
  match p.gang with
  | some (epoch, slice) => { p with gangDone := gangPast epoch slice t }
  | none => p

/-! ## Performance counters (R107, R108) -/

/-- Whether a selector counts an event of a context of this ASID, own or not. [DEDUCED, unsafe, log 38] -/
def selects (sel : Word) (code : Nat) (own : Bool) (sameAsid : Bool) : Bool :=
  sel.toNat % 256 == code && sel.getLsbD 8 && (own || (!sel.getLsbD 9 && sameAsid))

/-- The counters of a context after an event. [DEDUCED, unsafe, log 38] -/
def Ctx.count (c : Ctx) (code n : Nat) (own sameAsid : Bool) : Ctx :=
  if c.pmsel.isEmpty then c
  else
    { c with pmcnt := (List.range 8).foldl (fun m j =>
        if selects (Map.get 0 c.pmsel j) code own sameAsid then Map.set 0 m j (Map.get 0 m j + wd n) else m) c.pmcnt }

/-- An event of context `key` counts in the selectors of its strand (R107). [DEDUCED, unsafe, log 38] -/
def State.countEvent (s : State) (key code n : Nat) : State :=
  match s.ctx? key with
  | none => s
  | some x =>
    { s with ctxs := s.ctxs.map fun e =>
        if sameStrand e.1 key && !inShadow e.1 then (e.1, e.2.count code n (e.1 == key) (e.2.asid == x.asid)) else e }

/-- The stall event of a firing that waits at issue (R108). -/
def Stall.event : Stall → Option Nat
  | .none => Option.none
  | .operand _ _ _ => some 0x20
  | .tokens _ _ => some 0x21
  | .space _ _ => some 0x22
  | .engine => some 0x23
  | .lease => some 0x24
  | .memory => some 0x25
  | .waiting => some 0x26

/-- The contexts that stand in active slots of a strand. -/
def State.onStrand (s : State) (key : Nat) : List (Nat × Ctx) := s.ctxs.filter fun e => sameStrand e.1 key && !inShadow e.1

/-- The events that a strand charges for cycles in which it issues nothing, each with the context that it belongs to: one of the fetch events while no
instruction word is available, and otherwise the first unmet condition in the order of the codes, or 0x04 where no firing runs (R108).
[DESIGN CHOICE, safe, log 129] -/
def State.charges (s : State) (key : Nat) : List (Nat × Nat) :=
  let here := s.onStrand key
  let stalls := here.filterMap fun e => (e.2.firing.bind fun f => f.stall.event).map fun n => (e.1, n)
  let first := [0x20, 0x21, 0x22, 0x23, 0x24, 0x25, 0x26].findSome? fun n => stalls.find? fun x => x.2 == n
  [0x10, 0x11, 0x12, 0x13, 0x14].map (fun n => (key, n)) ++
  (match first with
   | some x => [x]
   | none => if here.all fun e => e.2.firing.isNone then [(key, 0x04)] else [])

/-- The counters of a context after cycles whose number the model does not hold: the events, each its own or not and of its ASID or not. -/
def Ctx.idle (c : Ctx) (l : List (Nat × Bool × Bool)) : Ctx :=
  if c.pmsel.isEmpty then c
  else { l.foldl (fun c e => c.count e.1 (Config.freeCycles e.1 c.idled) e.2.1 e.2.2) c with idled := c.idled + 1 }

/-- The events of a strand as the context at `k` of an ASID sees them. -/
def State.seenBy (s : State) (l : List (Nat × Nat)) (k asid : Nat) : List (Nat × Bool × Bool) :=
  l.map fun e => (e.2, e.1 == k, ((s.ctx? e.1).map fun x => x.asid == asid).getD false)

/-- Cycles pass on the strand of a context: each event that it charges has counted a free number of them (R107, R108). [DESIGN CHOICE, safe, log 129] -/
def State.passTime (s : State) (key : Nat) : State :=
  let l := s.charges key
  { s with ctxs := s.ctxs.map fun e => if sameStrand e.1 key && !inShadow e.1 then (e.1, e.2.idle (s.seenBy l e.1 e.2.asid)) else e }

/-! ## Speculative firings (R126, R133) -/

/-- The speculative firings of a context, the oldest first. -/
def State.specsOf (s : State) (key : Nat) : List Spec := s.specs.filter fun x => x.key == key

/-- Squash the speculative firings of a context: their private state is gone, and with it every tentative pop, held push and predicted reservation
(R129 to R131, R133). Events 0x01 and 0x03 count what they issued and how many there were (R108). -/
def State.squash (s : State) (key : Nat) : State :=
  match s.specsOf key with
  | [] => s
  | l =>
    ((({ s with specs := s.specs.filter fun x => x.key != key } : State).countEvent key 1 ((l.map fun x => x.issued).foldl (· + ·) 0)).countEvent key 3
      l.length).passTime key

/-! ## Bindings as firings hold them (R82, R83) -/

/-- The binding that a firing holds for a slot (R83). -/
def State.heldBinding (s : State) (f : Firing) (slot : Nat) : Option Binding :=
  match f.refs.find? fun r => r.slot == slot with
  | none => none
  | some r => s.bindings.find? fun b => b.asid == r.asid && b.slot == slot && b.gen == r.gen

/-- The binding a slot has at present, when it has one (R82). -/
def State.boundNow (s : State) (asid slot : Nat) : Option Binding :=
  let a := s.asid asid
  if a.bound.getLsbD slot then
    s.bindings.find? fun b => b.asid == asid && b.slot == slot && b.gen == Map.get 0 a.gens slot
  else none

/-- The binding through which a firing enters a slot: the one it holds, or the present one (R83). -/
def State.enterBinding (s : State) (asid : Nat) (f : Firing) (slot : Nat) : Option Binding :=
  if f.refs.any fun r => r.slot == slot then s.heldBinding f slot else s.boundNow asid slot

/-- A reference to a binding. -/
def Binding.ref (b : Binding) : BindRef := { asid := b.asid, slot := b.slot, gen := b.gen }

/-- The firing with its reference to a slot's binding taken (R83). -/
def Firing.take (f : Firing) (b : Binding) : Firing :=
  if f.refs.any fun r => r.slot == b.slot then f else { f with refs := f.refs ++ [b.ref] }

/-! ## The monad of meanings -/

/-- The outcome of a meaning. -/
abbrev Result := Host.Outcome State Fault Refusal

/-- What raises a fault, and what its frame and record carry. [DESIGN CHOICE, safe, log 3] -/
structure Trap where
  cause : BitVec 8
  info : Word := 0
  /-- The manual states no %trapinfo for this fault: it is a free value. -/
  free : Bool := false
  /-- The syndrome of R363. -/
  syndrome : Word := 0
  /-- The address of the record or block concerned, or gA of SVC; gB of SVC (R388). -/
  addr : Word := 0
  gb : Option Word := none
  /-- The fault is raised after the instruction has completed: RPC is the next one (R391, R385). -/
  after : Bool := false
  /-- SOFTWARE raised by SVC (R379). -/
  svc : Bool := false
  /-- The destination of SVC, which its entry leaves empty (R392). -/
  svcDst : Nat := 0
  /-- The context is parked whatever handler it has (R405). -/
  park : Bool := false
  deriving DecidableEq, Repr

/-- How an instruction ends without its effect. -/
inductive Exn where
  | trap (t : Trap)
  | wait (w : Stall)
  | stop (f : Fault)
  deriving DecidableEq, Repr

/-- A meaning: it changes the state, or ends in a trap, a wait or a stop with the state as it was (R52). -/
abbrev M := StateT State (Except Exn)

/-- Fault(CODE) with %trapinfo (R53). -/
def raise {α : Type} (cause : BitVec 8) (info : Word := 0) : M α := throw (.trap { cause := cause, info := info })
/-- A fault whose %trapinfo the manual does not state: a free value. [DESIGN CHOICE, safe, log 1; DESIGN CHOICE, safe, log 3] -/
def raiseFree {α : Type} (cause : BitVec 8) : M α := throw (.trap { cause := cause, free := true })
/-- The instruction waits at issue. -/
def stall {α : Type} (w : Stall) : M α := throw (.wait w)

/-- The key of the context that issues. -/
def curKey : M Nat := do
  match (← get).cur with
  | some c => pure c
  | none => throw (.stop .noFiring)

/-- The context that issues. -/
def curCtx : M Ctx := do
  let c ← curKey
  match (← get).ctx? c with
  | some x => pure x
  | none => throw (.stop .noFiring)

/-- The firing that issues. -/
def curFiring : M Firing := do
  match (← curCtx).firing with
  | some f => pure f
  | none => throw (.stop .noFiring)

/-- Change the context that issues. -/
def modCur (f : Ctx → Ctx) : M Unit := do
  let c ← curKey
  modify fun s => s.modCtx c f

/-- The instruction that issues, with the sources it read. -/
def issuing : M ReplayEntry := do
  match (← get).issuing with
  | some e => pure e
  | none => throw (.stop .noFiring)

/-- Write a destination register. -/
def writeG (n : Nat) (x : Word) : M Unit := modCur fun c => c.wg n x
def writeV (n : Nat) (x : VWord) : M Unit := modCur fun c => c.wv n x
/-- Set a bit of %warn (R53). -/
def warn (w : Word) : M Unit := modCur fun c => c.warns w
/-- Set bits of %fpflags (R56). -/
def raiseFp (w : Word) : M Unit := modCur fun c => c.flagsFp w

/-- The place of an operand among the captured ones (R428). -/
inductive Slot where
  | a | b | c | x
  deriving DecidableEq, Repr

def ReplayEntry.op (e : ReplayEntry) : Slot → VWord
  | .a => e.opA
  | .b => e.opB
  | .c => e.opC
  | .x => e.opX

def ReplayEntry.setOp (e : ReplayEntry) (s : Slot) (x : VWord) : ReplayEntry :=
  match s with
  | .a => { e with opA := x }
  | .b => { e with opB := x }
  | .c => { e with opC := x }
  | .x => { e with opX := x }

/-- A captured operand as a g value, and as a whole register. -/
def opG (s : Slot) : M Word := do pure (((← issuing).op s).extractLsb' 0 64)
def opV (s : Slot) : M VWord := do pure ((← issuing).op s)
/-- The guard mask as read at issue. -/
def opMask : M Mask := do pure (← issuing).mask
/-- PC: the code pointer of the instruction (R88). -/
def curPc : M Word := do pure (← issuing).pc

/-! ## Sources and destinations -/

/-- A kind of register an operand field names. -/
inductive RegKind where
  | g | v | k
  deriving DecidableEq, Repr

/-- A source: where it is captured, the register, its trap-on-empty bit, and the high bit of its field (R38). -/
structure Src where
  slot : Slot
  kind : RegKind
  n : Nat
  trap : Bool := false
  pos : Nat := 0
  deriving DecidableEq, Repr

/-- A destination register with a full/empty bit. -/
structure Dst where
  vec : Bool
  n : Nat
  deriving DecidableEq, Repr

/-- Whether the register of a source fails its parity for good (R405). [DESIGN CHOICE, unsafe, log 113] -/
def Ctx.fails (c : Ctx) (r : Src) : Bool :=
  match r.kind with
  | .g => c.gBad.getLsbD r.n
  | .v => c.vBad.getLsbD r.n
  | .k => false

/-- Whether the register of a source is empty; a mask never is (R36). -/
def Ctx.isEmptySrc (c : Ctx) (r : Src) : Bool :=
  match r.kind with
  | .g => c.emptyG r.n
  | .v => c.emptyV r.n
  | .k => false

def Ctx.readSrc (c : Ctx) (r : Src) : VWord :=
  match r.kind with
  | .g => (c.rg r.n).setWidth 1024
  | .v => c.rv r.n
  | .k => (c.rk r.n).setWidth 1024

/-- The register number and kind in %trapinfo (R38). -/
def regInfo (vec : Bool) (n : Nat) : Word := wd (n + 256 * b2n vec)

/-- The empty source marked trap-on-empty whose field stands highest (R38). -/
def topTrapping (c : Ctx) : List Src → Option Src
  | [] => none
  | r :: rest =>
    match topTrapping c rest with
    | none => if r.trap && c.isEmptySrc r then some r else none
    | some t => if r.trap && c.isEmptySrc r && decide (t.pos < r.pos) then some r else some t

/-- Whether an instruction in flight of a context has still to write a register. -/
def Op.writes (o : Op) (key : Nat) (d : Dst) : Bool := o.ctx == key && (if d.vec then o.dstV.contains d.n else o.dstG.contains d.n)

/-- Whether some instruction in flight, an atomic in a repair queue, or an entry of a frame has still to write a register (R39, R258). -/
def State.produced (s : State) (key : Nat) (d : Dst) : Bool :=
  s.ops.any (fun o => o.writes key d) || s.repairs.any (fun r => r.2.2.op.writes key d) ||
  (match s.ctx? key with
   | none => false
   | some c => c.frames.any fun f => f.entries.any fun e => if d.vec then e.dstV.contains d.n else e.dstG.contains d.n)

/-- The bit that says that an operand is read, and how (R428). -/
def Src.readBit (r : Src) : BitVec 6 :=
  let n := match r.slot with
    | .a => 1
    | .b => 2
    | .c => 4
    | .x => 0
  BitVec.ofNat 6 (if r.kind = .v then 8 * n else n)

/-- Capture the sources of an instruction. -/
def capture (c : Ctx) (e : ReplayEntry) : List Src → ReplayEntry
  | [] => e
  | r :: rest => capture c { e.setOp r.slot (c.readSrc r) with reads := e.reads ||| r.readBit } rest

/-! ## Instructions in flight (R37, R39, R385) -/

/-- What a frame does with an instruction in flight: it becomes an entry, an entry with its supplied result, its result is delivered
first, or it runs on (R275, R385). [DEDUCED, unsafe, log 28] -/
inductive Role where
  | entry | supply | deliver | runOn
  deriving DecidableEq, Repr

/-- [DEDUCED, unsafe, log 28] -/
def Op.role (o : Op) : Role :=
  match o.kind with
  | .load => .entry
  | .fault _ _ _ => .entry
  | .counterAdd => .entry
  | .counterRead => .entry
  | .lease _ => .entry
  | .handle _ _ => .supply
  | .engine _ => .entry
  | .value _ _ => if bits o.word.toNat 63 50 = 0x1401 then .supply else .deliver
  | .modbind _ _ _ => .deliver
  | .modfree _ _ _ => .entry
  | .store => .runOn
  | .atomic => .runOn
  | .awarm => .runOn
  | .awcred => .runOn
  | .blend => .runOn
  | .seqret => .runOn
  | .tlbinv => .runOn
  | .evack _ => .entry
  | .gdrain _ => .entry

/-- Whether an order acquires, and whether it releases (R279). -/
def hasAcq (ord : Nat) : Bool := ord % 2 == 1
def hasRel (ord : Nat) : Bool := decide (2 ≤ ord)

/-- Whether an instruction in flight is an access of memory. -/
def Op.isAccess (o : Op) : Bool :=
  match o.kind with
  | .load => true
  | .store => true
  | .atomic => true
  | .counterAdd => true
  | .counterRead => true
  | .awarm => true
  | .awcred => true
  | .blend => true
  | .seqret => true
  | _ => false

/-- The bytes an access may touch: the place of the first in its 64 KiB page, and their number; gathers and scatters may touch any. -/
def Op.span (o : Op) : Option (Nat × Nat) :=
  let m := bits o.word.toNat 63 50
  if m = 0x3402 ∨ m = 0x3442 then none
  else if m = 0x3401 ∨ m = 0x3441 then some (o.addr % 65536, 128)
  else if o.kind = .blend ∨ o.kind = .seqret then some (o.addr % 65536, 4096)
  else some (o.addr % 65536, 8)

/-- Whether an access may touch one of m bytes from an address, under any mapping of their pages. -/
def Op.meetsAt (o : Op) (va m : Nat) : Bool :=
  match o.span with
  | some (a, n) => decide ((va + 65536 - a) % 65536 < n) || decide ((a + 65536 - va % 65536) % 65536 < m)
  | none => true

/-- Whether two accesses may touch one byte, under any mapping of their pages. [DEDUCED, unsafe, log 14] -/
def Op.meets (o p : Op) : Bool :=
  match p.span with
  | some (b, m) => o.meetsAt b m
  | none => true

/-- Whether the instruction is one that R275 does not let run on by itself (R385). -/
def Op.counted (o : Op) : Bool := decide (o.role ≠ .runOn)

/-- Whether an access is held behind one of these older accesses of its context: it may touch a byte that one of them may touch, it follows an acquire,
or it is a release (R277, R280). It has then not left its strand (R275). [DEDUCED, unsafe, log 28] -/
def Op.follows (o : Op) (l : List Op) : Bool := o.isAccess && l.any fun p => p.isAccess && (hasRel o.ord || hasAcq p.ord || p.meets o)

/-- The instructions of a firing that a frame takes, in the order of their issue: those that do not run on by themselves, and the accesses that are held
behind one that it takes (R275, R385). [DEDUCED, unsafe, log 28] -/
def State.takenOps (s : State) (key serial : Nat) : List Op :=
  (s.ops.filter fun o => o.ctx == key && o.serial == serial).foldl (fun l o => if o.counted || o.follows l then l ++ [o] else l) []

/-- Whether a firing has the sixteen instructions issued and incomplete beyond which no more issue (R385). -/
def State.fullFlight (s : State) (key serial : Nat) : Bool := decide (16 ≤ (s.takenOps key serial).length)

/-- Put the issuing instruction in flight: it marks its destinations empty (R37). A seventeenth that a frame would take waits (R385).
[DEDUCED, unsafe, log 14] -/
def issueOp (kind : OpKind) (dstG dstV : List Nat) (addr scope ord : Nat) : M Nat := do
  let key ← curKey
  let f ← curFiring
  let e ← issuing
  let s ← get
  let o : Op :=
    { id := s.fresh, ctx := key, serial := f.serial, word := e.word, pc := e.pc, kind := kind, dstG := dstG, dstV := dstV,
      opA := e.opA, opB := e.opB, opC := e.opC, opX := e.opX, reads := e.reads, mask := e.mask, addr := addr, scope := scope, ord := ord, tick := s.ticks }
  if (o.counted || o.follows (s.takenOps key f.serial)) && s.fullFlight key f.serial then stall .memory
  else
    set { s with fresh := s.fresh + 1, ops := s.ops ++ [o] }
    modCur fun c =>
      let c := dstG.foldl (fun c n => c.markG n true) c
      dstV.foldl (fun c n => c.markV n true) c
    pure o.id

/-- Put a result that is already known in flight (R37). -/
def issueValue (g : Nat) (x : Word) : M Unit := do
  let _ ← issueOp (.value x []) [g] [] 0 0 0

/-- A fault that is delivered as a long-latency producer's (R39). -/
def issueFault (t0 : Trap) (dstG dstV : List Nat) : M Unit := do
  let s ← get
  let (w, sw) := s.drawWord
  let t := if t0.free then { t0 with info := w } else t0
  if t0.free then set sw
  let _ ← issueOp (.fault t.cause t.info t.syndrome) dstG dstV t.addr.toNat 0 0

/-- Write the results of an instruction into its destinations and mark them full; a destination without a result keeps its value. -/
def Ctx.deliver (c : Ctx) (dstG dstV : List Nat) (g : Word) (v : List VWord) : Ctx :=
  let c := dstG.foldl (fun c n => c.wg n g) c
  (dstV.zip (v.map some ++ dstV.map fun _ => none)).foldl (fun c p =>
    match p.2 with
    | some x => c.wv p.1 x
    | none => c.markV p.1 false) c

/-- Whether R80 replaces the order of an instruction in flight: one that orders the wrong way for a load, a store, MCADD or MCREAD. -/
def Op.combo (o : Op) : Bool :=
  let w := o.word.toNat
  let reads (ord : Nat) : Bool := decide (2 ≤ ord)
  let writes (ord : Nat) : Bool := ord % 2 == 1
  match bits w 63 56, bits w 55 50 with
  | 0xD0, _ => o.kind == .load && reads (bits w 19 18)
  | 0xD1, _ => o.kind == .store && writes (bits w 19 18)
  | 0x60, 0 => writes (bits w 16 15)
  | 0x60, 1 => reads (bits w 16 15)
  | _, _ => false

/-- A context as the completion of an instruction in flight leaves it: the results in their registers, and the warning of a fallback (R37, R80). -/
def Ctx.complete (c : Ctx) (o : Op) (g : Word) (v : List VWord) : Ctx :=
  let c1 := c.deliver o.dstG o.dstV g v
  if o.combo then c1.warns wModcombo else c1

/-- The replay entry of an instruction in flight. [DEDUCED, unsafe, log 28] -/
def Op.toEntry (o : Op) : ReplayEntry :=
  let e : ReplayEntry :=
    { word := o.word, pc := o.pc, opA := o.opA, opB := o.opB, opC := o.opC, opX := o.opX, reads := o.reads, mask := o.mask, dstG := o.dstG, dstV := o.dstV }
  match o.kind with
  | .value g v => { e with mode := 2, supplyG := g, supplyV := v.headD 0, supplyW := v.getD 1 0 }
  | .handle h _ => { e with mode := 2, supplyG := h }
  | _ => e

/-- A MODBIND takes effect: its binding, put aside under a tag, becomes the one of its slot with the next generation, and the binding before it is
released (R82, R93). -/
def State.applyBind (s : State) (asid slot tag : Nat) : Nat × State :=
  let a := s.asid asid
  let old := Map.get 0 a.gens slot
  let new := (old + 1) % 2 ^ 48
  let s1 : State := { s with bindings := s.bindings.map fun b =>
    if b.asid = asid ∧ b.slot = slot then
      (if b.gen = tag then { b with gen := new } else if b.gen = old ∧ a.bound.getLsbD slot then { b with released := true } else b)
    else b }
  (new, s1.setAsid asid { a with gens := Map.set 0 a.gens slot new, bound := setBit a.bound slot true })

/-- Take the instructions of a firing out of flight for a frame: results that need no entry are delivered, and the rest become entries in the
order of their issue; the one numbered `bad` is marked FAULTED (R385). [DEDUCED, unsafe, log 28] -/
def State.interruptOps (s : State) (key serial : Nat) (bad : Option Nat) : State × List ReplayEntry :=
  let taken := s.takenOps key serial
  let s1 := { s with ops := s.ops.filter fun o => !taken.any fun p => p.id == o.id }
  let s2 := taken.foldl (fun s o =>
    match o.role, o.kind with
    | .deliver, .value g v => s.modCtx key fun c => c.complete o g v
    | .deliver, .modbind asid slot tag =>
      let (gen, s1) := s.applyBind asid slot tag
      s1.modCtx key fun c => c.deliver o.dstG o.dstV (wd gen) []
    | _, .lease r => { s with requests := s.requests.filter fun q => q.id != r }
    | _, .engine e => s.setEngine e { s.engine e with ops := (s.engine e).ops.filter fun m => m.id != o.id }
    | _, _ => s) s1
  (s2, (taken.filter fun o => decide (o.role ≠ .deliver)).map fun o => { o.toEntry with faulted := some o.id == bad })

/-! ## Traps (R381 to R388) -/

/-- Whether a cause of a context at U goes to its own handler (R381). -/
def userCause (cause : BitVec 8) (svc : Bool) : Bool :=
  [cRegisterEmpty, cAlignment, cTargetGated, cCounterOverflow, cQueueState, cLeaseLost, cBoundExceeded, cArith].contains cause ||
  (cause == cSoftware && !svc)

/-- Whether the context is running a trap handler, or is about to. -/
def Ctx.inHandler (c : Ctx) : Bool :=
  c.frames.any (fun f => f.user) || (match c.firing with | some f => f.handler | none => false)

/-- Whether a trap goes to the context's own handler (R381). [DESIGN CHOICE, unsafe, log 134] -/
def Ctx.ownHandler (c : Ctx) (cause : BitVec 8) (svc : Bool) : Bool :=
  decide (c.trapvec ≠ 0) && !c.inHandler &&
  (match c.priv with
   | .u => userCause cause svc
   | .s => !svc
   | .f => true)

/-- The context that receives the fault records of a context (R381, R379). -/
def recordTarget (c : Ctx) (key : Nat) : Nat :=
  match c.priv with
  | .u => supervisorOf c.part
  | .s => firmwareOf (dieOf key)
  | .f => firmwareOf (dieOf key)

/-- Send a record to the record queue of a context (R388). -/
def State.sendRecord (s : State) (target : Nat) (words : List Word) : State :=
  { s with records := s.records ++ [{ target := target, words := words }] }

/-- The queue of an edge for a consumer; the record queue of a context is edge 0 of graph 0 (R140, R388). -/
def State.queue? (s : State) (graph edge consumer : Nat) : Option Queue :=
  s.queues.find? fun q => q.graph == graph && q.edge == edge && q.consumer == consumer

/-- Whether a record waits because its target is firmware that is being replaced (R416). -/
def State.firmwareBusy (s : State) (target : Nat) : Bool := s.mgmt.busy && s.mgmt.live && decide (384 ≤ tileOf target) && strandOf target == 0

/-- Whether a record for a context waits at its source: its queue is full, or its firmware is being replaced (R388, R406, R416). -/
def State.recordWaits (s : State) (target : Nat) : Bool :=
  ((s.queue? 0 0 target).map fun q => decide (q.credits + q.returning < 2)).getD true || s.firmwareBusy target

/-! ## Units under test (R406, R407) -/

/-- The unit word of R406. -/
def unitWord (type place part : Nat) : Nat := type + place * 2 ^ 4 + part * 2 ^ 13
def unitType (u : Nat) : Nat := u % 16
def unitPlace (u : Nat) : Nat := bits u 12 4
def unitPart (u : Nat) : Nat := bits u 17 13

/-- The units that hold what reaches them: those under test, and those whose record of KIND 4 waits at its source (R406, R407).
[DESIGN CHOICE, safe, log 104] -/
def State.busyUnits (s : State) : List Nat :=
  s.testing ++ (s.records.filter fun r => bits (r.words.getD 0 0).toNat 23 16 == 4 && s.recordWaits r.target).map fun r => (r.words.getD 5 0).toNat

/-- Whether a bank or a way of a cluster cache is busy: the work of an engine, which may meet it, waits. [DESIGN CHOICE, safe, log 104] -/
def State.storageBusy (s : State) : Bool := s.busyUnits.any fun u => unitType u == 1 || unitType u == 2

/-- The handle of a context (R389). -/
def handleOf (key : Nat) (c : Ctx) : Word := wd (key % 32768 + 32768 * (if c.priv = .f then 0 else c.asid))

/-- The summary of a frame (R386). -/
def Frame.summary (f : Frame) (inner : Bool) : Word :=
  wd (f.cause.toNat + f.entries.length * 2 ^ 8 + b2n f.delayed * 2 ^ 13 + b2n f.user * 2 ^ 14 + b2n f.async * 2 ^ 15 + b2n inner * 2 ^ 16)

/-- Whether a cause is a hardware fault of R410: MEM_UNCORRECTABLE is one in the register form of R405, 0xF in [63:60], the kind in [8] and the number in
[5:0], which no address of the aperture is. [DEDUCED, unsafe, log 30] -/
def hardwareCause (cause : BitVec 8) (info : Word) : Bool :=
  cause == cTargetGated || cause == cLeaseLost ||
  (cause == cMemUncorrectable && bits info.toNat 63 60 == 15 && bits info.toNat 59 9 == 0 && bits info.toNat 7 6 == 0)

/-- Whether a launch has made an irrevocable effect (R411). -/
def Launch.irrevocable (l : Launch) : Bool := decide (l.atomics + l.adds + l.pushes + l.stores ≠ 0)

/-- IDEMPOTENT of a launch record (R212). -/
def Launch.idempotent (l : Launch) : Bool := (l.words.getD 1 0).getLsbD 5

/-- The verdict of the scheduler on a hardware fault of a running launch (R410). [DEDUCED, unsafe, log 30] -/
def Launch.judge (l : Launch) (cause : BitVec 8) : Launch :=
  if 2 ≤ l.replays then { l with failed := some cause }
  else if !l.irrevocable || l.idempotent then { l with replayDue := true }
  else { l with unsafeEnd := true }

/-- A firmware context as the device starts it: at its entry, with the registers of a new context and a reference to the binding of its handler's
slot (R83, R203, R381, R416). [DESIGN CHOICE, unsafe, log 25] -/
def Ctx.restart (c : Ctx) (serial stamp : Nat) (b : Option Binding) : Ctx :=
  { priv := .f, asid := c.asid, part := 0, entry := c.entry, q := c.q, modtab := c.modtab, born := c.born, stamp := stamp,
    firing := some { pc := c.entry, serial := serial, entry := 16, refs := (b.map Binding.ref).toList } }

/-- Start a firmware context anew. [DESIGN CHOICE, unsafe, log 25] -/
def State.restartFirmware (s : State) (key : Nat) (c : Ctx) : State :=
  let s1 : State := { s.squash key with fresh := s.fresh + 1, cycle := s.cycle + 1 }
  s1.setCtx key (c.restart s.fresh (s.cycle + 1) (s.boundNow c.asid (cpSlot c.entry)))

/-- Form the frame of a trap and send it where R381 says; the speculative firings of the context are squashed first (R133, R382). `fpc` and `fword` describe the faulting or issuing instruction, `rpc` is where
the firing continues, `entries` is the replay queue. [DEDUCED, unsafe, log 30] -/
def State.deliverTrap (s0 : State) (key : Nat) (t0 : Trap) (fpc fword rpc : Word) (entries : List ReplayEntry) (delayed async : Bool) : State :=
  let (w, sw) := s0.drawWord
  let s := (if t0.free then sw else s0).squash key
  let t := if t0.free then { t0 with info := w } else t0
  match s.ctx? key with
  | none => s
  | some c =>
    let own := !t.park && c.ownHandler t.cause t.svc
    let frame : Frame :=
      { cause := t.cause, delayed := delayed, user := own, async := async, info := t.info, fpc := fpc, fword := fword, rpc := rpc,
        since := s.ticks, entries := entries, firing := c.firing.map fun f => { f with wait := f.wait.map fun w => { w with seen := 0 }, stall := .none } }
    let rec0 (extra : Nat) : List Word :=
      [ wd (t.cause.toNat + entries.length * 2 ^ 8 + b2n delayed * 2 ^ 13 + b2n async * 2 ^ 14 + extra), handleOf key c, t.info, fpc, fword,
        t.syndrome, t.addr, t.gb.getD (wd s.ticks) ]
    if own then
      s.setCtx key { c with frames := frame :: c.frames, firing := none, replay := [], trapcause := t.cause.setWidth 64, trapinfo := t.info }
    else if c.priv = .f then s.restartFirmware key c
    else
      let parked : Ctx :=
        { c with frames := frame :: c.frames, firing := none, replay := [], parked := true, trapcause := t.cause.setWidth 64, trapinfo := t.info }
      match (if !t.park && c.priv = .u && hardwareCause t.cause t.info then s.graph? c.graph else none) with
      | some g =>
        match g.running with
        | some l =>
          let l' := l.judge t.cause
          let stopped : Ctx := { c with firing := none, replay := [], aborted := true, trapcause := t.cause.setWidth 64, trapinfo := t.info }
          let s1 := s.setCtx key stopped
          let s2 := s1.modGraph g.handle fun g => { g with running := some l' }
          s2.sendRecord (recordTarget c key) (rec0 (if l'.replayDue then 2 ^ 15 else 0))
        | none => (s.setCtx key parked).sendRecord (recordTarget c key) (rec0 0)
      | none => (s.setCtx key parked).sendRecord (recordTarget c key) (rec0 0)

/-- TRAP and SVC have issued (R108, R169, R385). -/
def State.issuedTrap (s : State) (key graph : Nat) : State := (s.countEvent key 1 1).progress graph

/-- The trap of an instruction at issue: every other instruction of the firing in flight is captured, and RPC is the instruction itself, or the
next one for TRAP and SVC (R385). A replayed entry that faults forms a new frame in which it and the entries not yet replayed stand (R392).
[DESIGN CHOICE, safe, log 3] -/
def State.takeTrap (s : State) (key : Nat) (t : Trap) (e : ReplayEntry) (len : Nat) : State :=
  match s.ctx? key with
  | none => s
  | some c =>
    match c.firing with
    | none => s.deliverTrap key t e.pc e.word 0 [] false false
    | some f =>
      let (s1, entries) := (if t.after then s.issuedTrap key c.graph else s).interruptOps key f.serial none
      if s.replayNow then
        let rest := match c.replay with | _ :: r => r | [] => []
        s1.deliverTrap key t e.pc e.word f.pc (entries ++ { e with faulted := true } :: rest) true false
      else
        let svcEntry : List ReplayEntry := if t.svc then [{ e with dstG := [t.svcDst] }] else []
        let rpc := if t.after then nextPc f.pc len else f.pc
        let s2 := if t.svc then s1.modCtx key fun c => c.markG t.svcDst true else s1
        s2.deliverTrap key t e.pc e.word rpc (entries ++ svcEntry) false false

/-- Put a fault of an asynchronous instruction in its context's pending list, which holds four; a further one waits at its agent (R384). A fault
of a context that is gone is discarded. [DEDUCED, unsafe, log 31] -/
def State.queueFault (s : State) (key : Nat) (p : PendingFault) : State :=
  match s.owner? key with
  | none => s
  | some c =>
    if c.pending.length < 4 then s.modOwner key fun c => { c with pending := c.pending ++ [p] }
    else { s with faultsWaiting := s.faultsWaiting ++ [(key, p)] }

/-- The fault of an asynchronous instruction (R384). -/
def State.asyncFault (s0 : State) (key : Nat) (t0 : Trap) (pc word : Word) : State :=
  let (w, sw) := s0.drawWord
  let s := if t0.free then sw else s0
  let t := if t0.free then { t0 with info := w } else t0
  s.queueFault key { cause := t.cause, info := t.info, fpc := pc, fword := word, addr := t.addr, syndrome := t.syndrome }

/-- The fault of an instruction in flight (R39, R384): while its firing is the one that runs, a frame whose entry is marked FAULTED; after that, a
fault of an asynchronous instruction. The entries that RESUME has not yet replayed become the later entries of the frame (R392). -/
def State.opFault (s : State) (o : Op) (t : Trap) : State :=
  let running : Option Firing :=
    match s.ctx? o.ctx with
    | none => none
    | some c => if c.parked then none else c.firing.filter fun f => decide (f.serial = o.serial) && o.counted
  match running with
  | some f =>
    let (s1, entries) := s.interruptOps o.ctx f.serial (some o.id)
    s1.deliverTrap o.ctx t o.pc o.word f.pc (entries ++ (((s.ctx? o.ctx).map fun c => c.replay).getD [])) true false
  | none => ({ s with ops := s.ops.filter fun p => p.id != o.id } : State).asyncFault o.ctx t o.pc o.word

/-- Whether a replay entry is handled without issuing it again, and what it leaves: SKIP marks the destinations full, SUPPLY writes the
supplied values (R387, R392). -/
def Ctx.settle (c : Ctx) (e : ReplayEntry) : Ctx :=
  if e.mode = 1 then e.dstV.foldl (fun c n => c.markV n false) (e.dstG.foldl (fun c n => c.markG n false) c)
  else c.deliver e.dstG e.dstV e.supplyG [e.supplyV, e.supplyW]

/-- Drop the innermost frame and continue the interrupted firing at its RPC, with its entries to be treated first (R392). [DEDUCED, unsafe, log 33] -/
def Ctx.resumeFrame (c : Ctx) (f : Frame) (rest : List Frame) : Ctx :=
  { c with frames := rest, replay := f.entries, firing := f.firing.map fun x => { x with pc := f.rpc }, stoppedAt := none }

/-! ## Issue -/

/-- Where an instruction leaves its firing. -/
inductive Next where
  /-- At the following word. -/
  | seq
  /-- At a code pointer. -/
  | jump (pc : Word)
  /-- Ended; the body has dealt with the firing. -/
  | ended
  deriving DecidableEq, Repr

/-- How an instruction is guarded (R58, R59). -/
inductive Guarding where
  | scalar | vector | unguarded
  deriving DecidableEq, Repr

/-- What an instruction asks of the issue: the lowest privilege, its guard, its sources and its destinations. -/
structure Ask where
  priv : Priv := .u
  guard : Guarding := .scalar
  kg : Nat := 0
  srcs : List Src := []
  dsts : List Dst := []
  deriving DecidableEq, Repr

/-- A privilege as the level number in %trapinfo of PRIVILEGE (R77). -/
def Priv.level : Priv → Nat
  | .u => 0
  | .s => 1
  | .f => 2

/-- The length of an instruction in bytes (R88). -/
def instrLen (i : Instr) : Nat :=
  match i.view with
  | some ⟨_, _, _, .l _⟩ => 16
  | _ => 8

/-- The first word of an instruction. -/
def instrWord (i : Instr) : Word := (encode i).headD 0

/-- The first source whose register fails parity for good (R405). [DESIGN CHOICE, unsafe, log 113] -/
def badSource (c : Ctx) (srcs : List Src) : Option Src := srcs.find? c.fails

/-- The state while an instruction issues with the sources it read, and the state without it. -/
def State.issues (s : State) (e : Option ReplayEntry) : State := { s with issuing := e }

/-- The firing of a context goes on at a pc; what it waited for is over. -/
def Ctx.goOn (c : Ctx) (pc : Firing → Word) : Ctx :=
  { c with firing := c.firing.map fun f => { f with pc := pc f, stall := .none, wait := none } }

/-- Check 5 of R76: a source marked trap-on-empty is full, no other source is empty, none fails its parity for good (R405), and no earlier
instruction has still to write a destination; then the sources are captured. -/
def readSources (i : Instr) (a : Ask) (key : Nat) (c : Ctx) (f : Firing) (s : State) : Except Exn ReplayEntry :=
  match topTrapping c a.srcs with
  | some r => .error (.trap { cause := cRegisterEmpty, info := regInfo (r.kind == .v) r.n })
  | none =>
    match a.srcs.find? c.isEmptySrc with
    | some r => .error (.wait (.operand (r.kind == .v) r.n false))
    | none =>
      match badSource c a.srcs with
      | some r => .error (.trap { cause := cMemUncorrectable, info := regInfo (r.kind == .v) r.n + wd (15 * 2 ^ 60) })
      | none =>
        match a.dsts.find? (s.produced key) with
        | some d => .error (.wait (.operand d.vec d.n true))
        | none => .ok (capture c { word := instrWord i, pc := f.pc, mask := c.rk a.kg } a.srcs)

/-- Where an instruction that has done its work leaves its firing, or the list of entries that RESUME issues (R392). -/
def State.leave (s : State) (i : Instr) (key : Nat) (replayed : Bool) (next : Next) : State :=
  match next with
  | .ended => s
  | .jump pc => s.modCtx key fun c => c.goOn fun _ => pc
  | .seq =>
    if replayed then s.modCtx key fun c => { c with replay := c.replay.tail }
    else s.modCtx key fun c => c.goOn fun f => nextPc f.pc (instrLen i)

/-- The counts of an instruction that has issued (R108, R169). -/
def State.issuedOne (s : State) (key graph : Nat) : State := ((({ s with replayNow := false } : State).countEvent key 1 1).passTime key).progress graph

/-- Checks 4 and 5 of R76 in the order of the table, then the body, then the advance of the program counter. -/
def issueBody (i : Instr) (a : Ask) (body : M Next) : M Unit := do
  let key ← curKey
  let c ← curCtx
  let f ← curFiring
  let s ← get
  if c.priv.level < a.priv.level then raise cPrivilege (wd a.priv.level)
  let replayed := if s.replayNow then c.replay.head? else none
  if decide (a.guard ≠ .scalar) || (c.rk a.kg).getLsbD 0 || replayed.isSome then
    let e ← match replayed with
      | some e => pure e
      | none =>
        match readSources i a key c f s with
        | .ok e => pure e
        | .error x => throw x
    modify fun s => s.issues (some e)
    let next ← body
    modify fun s => (s.issues none).leave i key replayed.isSome next
  else modCur fun c => { c with firing := c.firing.map fun f => { f with pc := nextPc f.pc (instrLen i), stall := .none } }
  modify fun s => s.issuedOne key c.graph

/-- The firing of a context waits at issue (R38). -/
def State.setStall (s : State) (key : Nat) (w : Stall) : State :=
  (({ s with replayNow := false } : State).modCtx key fun c =>
    { c with firing := c.firing.map fun f => { f with stall := w } }).passTime key

/-- What faults see of an instruction that has not captured its sources. [DEDUCED, unsafe, log 114] -/
def issuePoint (i : Instr) (s : State) (c : Ctx) (f : Firing) : ReplayEntry :=
  match (if s.replayNow then c.replay.head? else none) with
  | some e => e
  | none => { word := instrWord i, pc := f.pc, mask := 0 }

/-- The outcome of an instruction: its next state, the trap it takes from the state as it was (R52, R76), or its wait. -/
def conclude (i : Instr) (s : State) (r : Except Exn (Unit × State)) : Result :=
  match r with
  | .ok (_, t) => .next t
  | .error (.stop f) => .fault f
  | .error (.wait w) =>
    match s.cur with
    | some key => .next (s.setStall key w)
    | none => .fault .noFiring
  | .error (.trap t) =>
    match s.cur with
    | none => .fault .noFiring
    | some key =>
      match s.ctx? key with
      | none => .fault .noFiring
      | some c =>
        match c.firing with
        | none => .fault .noFiring
        | some f =>
          let e := match t.svc, (s.replayNow : Bool) with
            | true, false => { issuePoint i s c f with opA := t.addr.setWidth 1024, opB := (t.gb.getD 0).setWidth 1024, reads := 3 }
            | _, _ => issuePoint i s c f
          .next { s.takeTrap key t e (instrLen i) with replayNow := false }

/-- Run a control instruction: its body says where the firing goes on. [DEDUCED, unsafe, log 114] -/
def runControl (i : Instr) (a : Ask) (body : M Next) (s : State) : Result :=
  conclude i s ((issueBody i a body).run s)

/-- Run an instruction that goes on at the following word. [DEDUCED, unsafe, log 114] -/
def runInstr (i : Instr) (a : Ask) (body : M Unit) (s : State) : Result :=
  runControl i a (do body; pure .seq) s

/-- An event row: it changes the state, or leaves it where its condition does not hold. -/
def runEvent (f : State → State) (s : State) : Result := .next (f s)

/-! ## Waits (R38, R149, R157) -/

/-- Clear the waits of a context for memory and engines, after something it waited for has completed. -/
def State.wake (s : State) (key : Nat) : State :=
  s.modCtx key fun c => { c with firing := c.firing.map fun f =>
    match f.stall with
    | .memory => { f with stall := .none }
    | .engine => { f with stall := .none }
    | .lease => { f with stall := .none }
    | _ => f }

/-- Clear such waits of every context. -/
def State.wakeAll (s : State) : State :=
  { s with ctxs := s.ctxs.map fun e => (e.1, { e.2 with firing := e.2.firing.map fun f =>
    match f.stall with
    | .memory => { f with stall := .none }
    | .engine => { f with stall := .none }
    | .lease => { f with stall := .none }
    | _ => f }) }

end Sys2Proof.Machine
end

