-- ==== Sys2Proof/Machine/Scopes.lean ====
section
/-! DEFINITION. Agents and scopes (R276, R278): where each agent stands, its group of a scope, and which pairs of a release and an acquire synchronise.
The cache actions of a release and of an acquire (R246, R280) are those of its own tile whatever the other agent is. -/

namespace Sys2Proof.Machine

/-- What issues accesses to memory, by its position (R276): a context by its number, an engine or a copy engine by its cluster, a home slice, a backstop
home or a repair queue by its die, an agent of the package, or the host and other packages. -/
inductive Agent where
  | context (key : Nat)
  | unit (cluster : Nat)
  | home (die : Nat)
  | package
  | system
  deriving DecidableEq, Repr

/-- The cluster of a context; a System Tile is a cluster of its own, numbered from 48. -/
def clusterOfKey (key : Nat) : Nat := if onSystemTile key then 48 + (tileOf key - 384) else clusterOfTile (tileOf key)

/-- The group of a scope that an agent belongs to; none for a scope narrower than its position. The scopes are 0 strand, 1 tile, 2 cluster, 3 die,
4 package and 5 system; a System Tile is a cluster of its own. [DESIGN CHOICE, unsafe, log 121] -/
def Agent.group (a : Agent) (scope : Nat) : Option Nat :=
  match a, scope with
  | .context k, 0 => some (k % 2048)
  | .context k, 1 => some (tileOf k)
  | .context k, 2 => some (clusterOfKey k)
  | .context k, 3 => some (dieOf k)
  | .unit cl, 2 => some cl
  | .unit cl, 3 => some (if cl < 48 then cl / 12 else cl - 48)
  | .home d, 3 => some d
  | .context _, 4 => some 0
  | .unit _, 4 => some 0
  | .home _, 4 => some 0
  | .package, 4 => some 0
  | _, 5 => some 0
  | _, _ => none

/-- Whether two agents lie in one group of a scope. -/
def together (p q : Agent) (scope : Nat) : Bool :=
  match p.group scope, q.group scope with
  | some x, some y => x == y
  | _, _ => false

/-- Whether a release of p at scope S and an acquire of q at scope S' may synchronise (R278). [DESIGN CHOICE, unsafe, log 121] -/
def synchronises (p : Agent) (S : Nat) (q : Agent) (S' : Nat) : Bool := together p q S && together p q S'

/-- Whether the group that a context has at a scope takes in its whole cluster, whose engines are no part of its tile, so that a release or an acquire at it acts on the ways of its tile (R246, R280).
[DESIGN CHOICE, unsafe, log 121] -/
def leavesTile (key scope : Nat) : Bool := together (.context key) (.unit (clusterOfKey key)) scope

end Sys2Proof.Machine
end

