-- ==== Sys2Proof/Machine/Operands.lean ====
section
/-! DEFINITION. The operand forms: which register each field of a format names, its trap-on-empty bit (R61 to R67), and what the
instruction asks of the issue. Integers are read and written at the width of a type (R96). -/

namespace Sys2Proof.Machine

/-! ## R format (R61): FE bit 11 is A, bit 10 B and bit 9 C -/

def rA (rk : RegKind) (f : RForm) : Src := { slot := .a, kind := rk, n := f.a.toNat, trap := f.fe.getLsbD 2, pos := 39 }
def rB (rk : RegKind) (f : RForm) : Src := { slot := .b, kind := rk, n := f.b.toNat, trap := f.fe.getLsbD 1, pos := 33 }
def rC (rk : RegKind) (f : RForm) : Src := { slot := .c, kind := rk, n := f.c.toNat, trap := f.fe.getLsbD 0, pos := 27 }
/-- The destination read as a source, with blocking (R97, R428). -/
def rOld (rk : RegKind) (f : RForm) : Src := { slot := .x, kind := rk, n := f.d.toNat }
def rAsk (f : RForm) (srcs : List Src) (dsts : List Dst) : Ask := { kg := f.kg.toNat, srcs := srcs, dsts := dsts }
def gDst (n : Nat) : Dst := { vec := false, n := n }
def vDst (n : Nat) : Dst := { vec := true, n := n }

/-! ## I format (R62) -/

def iA (f : IForm) : Src := { slot := .a, kind := .g, n := f.a.toNat, trap := f.fea.getLsbD 0, pos := 39 }
def iAsk (f : IForm) (srcs : List Src) : Ask := { kg := f.kg.toNat, srcs := srcs, dsts := [gDst f.d.toNat] }
/-- IMM24 sign-extended to 64 bits (R62). -/
def immOf (f : IForm) : Word := f.imm.signExtend 64

/-! ## J format (R63): A never traps -/

def jA (rk : RegKind) (f : JForm) : Src := { slot := .a, kind := rk, n := f.a.toNat, pos := 45 }
def jM (f : JForm) : Src := { slot := .b, kind := .k, n := bits f.mod.toNat 3 0 }
def jAsk (f : JForm) (srcs : List Src) (dsts : List Dst) : Ask := { kg := f.kg.toNat, srcs := srcs, dsts := dsts }

/-! ## M format (R64, R65): FE bit 17 is DS and bit 16 BASE; the index never traps, and index 0 is none -/

def mDs (rk : RegKind) (f : MForm) : Src := { slot := .a, kind := rk, n := f.ds.toNat, trap := f.fe.getLsbD 1, pos := 45 }
def mBase (f : MForm) : Src := { slot := .b, kind := .g, n := f.base.toNat, trap := f.fe.getLsbD 0, pos := 39 }
def mIdx (f : MForm) : List Src := if f.idx = 0 then [] else [{ slot := .c, kind := .g, n := f.idx.toNat }]
def mVIdx (f : MForm) : Src := { slot := .c, kind := .v, n := f.idx.toNat }
def mAsk (g : Guarding) (f : MForm) (srcs : List Src) (dsts : List Dst) : Ask := { guard := g, kg := f.kg.toNat, srcs := srcs, dsts := dsts }

/-! ## S format (R66): FE bit 14 is A, bit 13 B and bit 12 D -/

def sA (f : SForm) : Src := { slot := .a, kind := .g, n := f.a.toNat, trap := f.fe.getLsbD 2, pos := 39 }
def sB (rk : RegKind) (f : SForm) : Src := { slot := .b, kind := rk, n := f.b.toNat, trap := f.fe.getLsbD 1, pos := 33 }
/-- D read as a source stands third among the captured operands (R428). -/
def sD (f : SForm) : Src := { slot := .c, kind := .g, n := f.d.toNat, trap := f.fe.getLsbD 0, pos := 45 }
def sAsk (f : SForm) (srcs : List Src) (dsts : List Dst) : Ask := { kg := f.kg.toNat, srcs := srcs, dsts := dsts }

/-! ## X format (R67): every register blocks -/

def xA (f : XForm) : Src := { slot := .a, kind := .g, n := f.a.toNat }
def xB (rk : RegKind) (f : XForm) : Src := { slot := .b, kind := rk, n := f.b.toNat }
def xC (rk : RegKind) (f : XForm) : Src := { slot := .c, kind := rk, n := f.c.toNat }
def xAsk (f : XForm) (srcs : List Src) (dsts : List Dst) : Ask := { kg := f.kg.toNat, srcs := srcs, dsts := dsts }

/-! ## Integers at the width of a type (R96) -/

/-- The width of an integer type 0 to 7. -/
def tyWidth (ty : Nat) : Nat := 8 * 2 ^ (ty % 4)
/-- i8 to i64 are signed. -/
def tySigned (ty : Nat) : Bool := decide (ty < 4)

/-- The low w bits of a number as a signed or an unsigned integer. -/
def asInt (signed : Bool) (w : Nat) (n : Nat) : Int :=
  let u := n % 2 ^ w
  if signed && decide (2 ^ (w - 1) ≤ u) then (u : Int) - 2 ^ w else u

/-- A register read at the width of its type. -/
def rdInt (ty : Nat) (x : Word) : Int := asInt (tySigned ty) (tyWidth ty) x.toNat

/-- The low w bits of an integer, as a number. -/
def lowBits (w : Nat) (n : Int) : Nat := (n % 2 ^ w).toNat

/-- Wr: the low w bits of an integer, sign-extended for an i type and zero-extended for a w type. -/
def wrInt (ty : Nat) (n : Int) : Word := BitVec.ofInt 64 (asInt (tySigned ty) (tyWidth ty) (lowBits (tyWidth ty) n))

/-- The range of a type. -/
def intMin (ty : Nat) : Int := if tySigned ty then -(2 ^ (tyWidth ty - 1) : Int) else 0
def intMax (ty : Nat) : Int := if tySigned ty then 2 ^ (tyWidth ty - 1) - 1 else 2 ^ tyWidth ty - 1

/-- Sat(ty, n) (R53). -/
def satInt (ty : Nat) (n : Int) : Int := if n < intMin ty then intMin ty else if intMax ty < n then intMax ty else n

end Sys2Proof.Machine
end

