-- ==== Sys2Proof/Machine/Flags.lean ====
section
/-! DEFINITION. The sticky bits that results set: %warn (R54, R80, R98), %fpflags (R56), and the actor flags (R89, R90, R132). -/

namespace Sys2Proof.Machine

/-- Bits of %fpflags (R56). -/
def fNV : Word := 0x01
def fDZ : Word := 0x02
def fOF : Word := 0x04
def fUF : Word := 0x08
def fNX : Word := 0x10

/-- Whether the saturation field asks for a clamp: sat, or satfinite taken as sat for an integer destination (R80). -/
def clamps (sm : Nat) : Bool := decide (sm ≠ 0)

/-- The warnings of an integer result: W_SAT when the clamp changed it, W_MODCOMBO for satfinite (R80, R98). -/
def intWarns (ty sm : Nat) (n : Int) : Word :=
  (if clamps sm && decide (satInt ty n ≠ n) then wSat else 0) ||| (if sm = 2 then wModcombo else 0)

/-- The value of an integer result under its saturation field (R98). -/
def intValue (ty sm : Nat) (n : Int) : Word := wrInt ty (if clamps sm then satInt ty n else n)

/-- Write an integer result and set its warnings. -/
def putInt (ty sm d : Nat) (n : Int) : M Unit := do
  writeG d (intValue ty sm n)
  warn (intWarns ty sm n)

/-- FLAG and END: a bit named in both CLR and SET ends at 1 (R89, R101). -/
def flagUpdate (flags set clr : Byte) : Byte := (flags &&& ~~~clr) ||| set

/-- The update of END, after which flags set from outside take effect (R90, R132). -/
def endFlags (c : Ctx) (set clr : Byte) : Byte := flagUpdate c.flags set clr ||| c.flagsHeld

/-- Whether a context has a firing in flight, running or interrupted. -/
def Ctx.inFlight (c : Ctx) : Bool := c.firing.isSome || c.frames.any fun f => f.firing.isSome

/-- An event sets actor flag n from outside: held to the END of the firing in flight, or at once when there is none (R132). -/
def Ctx.raiseFlag (c : Ctx) (n : Nat) : Ctx :=
  if c.inFlight then { c with flagsHeld := c.flagsHeld ||| BitVec.twoPow 8 n } else { c with flags := c.flags ||| BitVec.twoPow 8 n }

end Sys2Proof.Machine
end

