-- ==== Sys2Proof/Machine/Integer.lean ====
section
/-! DEFINITION. Integer and address arithmetic: the register forms at MAJ 0x10 (R96 to R98), the immediate forms at MAJ 0x11 (R99) and MOVI.L and
LEA.L (R100). -/

namespace Sys2Proof.Machine

/-! ## The results (R97) -/

/-- floor(a × b ÷ 2^w). -/
def mulHigh (ty : Nat) (a b : Int) : Int := a * b / 2 ^ tyWidth ty

/-- A shift count: any count of the width or more acts alike. -/
def shiftCount (n : Nat) : Nat := Nat.min n 128

/-- a × 2^n, exact. -/
def shlExact (a : Int) (n : Nat) : Int := a * 2 ^ shiftCount n
/-- floor(u ÷ 2^n) of the w bits read unsigned. -/
def shrExact (ty : Nat) (x : Word) (n : Nat) : Int := ((x.toNat % 2 ^ tyWidth ty) / 2 ^ shiftCount n : Nat)
/-- floor(s ÷ 2^n) of the w bits read signed. -/
def sraExact (ty : Nat) (x : Word) (n : Nat) : Int := asInt true (tyWidth ty) x.toNat / 2 ^ shiftCount n
/-- The w bits rotated left by n mod w. -/
def rotExact (ty : Nat) (x : Word) (n : Nat) : Int :=
  let w := tyWidth ty
  let u := x.toNat % 2 ^ w
  let r := n % w
  ((u * 2 ^ r + u / 2 ^ (w - r)) % 2 ^ w : Nat)

/-- Ones among the low w bits. -/
def popCount (n : Nat) : Nat → Nat
  | 0 => 0
  | w + 1 => n % 2 + popCount (n / 2) w
/-- Zeros above the highest one of the low w bits. -/
def leadZeros (n w : Nat) : Nat := if n % 2 ^ w = 0 then w else w - 1 - Nat.log2 (n % 2 ^ w)
/-- Zeros below the lowest one of the low w bits. -/
def trailZeros (n : Nat) : Nat → Nat
  | 0 => 0
  | w + 1 => if n % 2 = 1 then 0 else 1 + trailZeros (n / 2) w

/-- The conditions of CMP (R97). -/
def compareInt (cond : Nat) (a b : Int) : Bool :=
  match cond with
  | 0 => decide (a = b)
  | 1 => decide (a ≠ b)
  | 2 => decide (a < b)
  | 3 => decide (a ≤ b)
  | 4 => decide (b < a)
  | _ => decide (b ≤ a)

/-- Position and length of a bit field, and the field (R97 EXT). -/
def fieldPos (b : Word) : Nat := b.toNat % 64
def fieldLen (c : Word) (p : Nat) : Nat := Nat.min (c.toNat % 128) (64 - p)
def extractField (signed : Bool) (a b c : Word) : Int :=
  let l := fieldLen c (fieldPos b)
  if l = 0 then 0 else asInt signed l (a.toNat / 2 ^ fieldPos b)
/-- gD with the field replaced by the low bits of gA (R97 INS). -/
def insertField (d a b c : Word) : Word :=
  let p := fieldPos b
  let l := fieldLen c p
  let mask := wd ((2 ^ l - 1) * 2 ^ p)
  (d &&& ~~~mask) ||| (wd (a.toNat * 2 ^ p) &&& mask)

/-! ## Shapes of instructions -/

/-- Two register sources and a g destination. -/
def intTwo (i : Instr) (f : RForm) (op : Int → Int → Int) (s : State) : Result :=
  runInstr i (rAsk f [rA .g f, rB .g f] [gDst f.d.toNat]) (do
    let ty := f.ty.toNat
    putInt ty f.sm.toNat f.d.toNat (op (rdInt ty (← opG .a)) (rdInt ty (← opG .b)))) s

/-- Two sources of which the second is a count read as unsigned 64-bit. -/
def intShift (i : Instr) (f : RForm) (op : Word → Nat → Int) (s : State) : Result :=
  runInstr i (rAsk f [rA .g f, rB .g f] [gDst f.d.toNat]) (do
    putInt f.ty.toNat f.sm.toNat f.d.toNat (op (← opG .a) (← opG .b).toNat)) s

/-- One source, with a count that is zero-extended. -/
def intCount (i : Instr) (f : RForm) (op : Nat → Nat → Nat) (s : State) : Result :=
  runInstr i (rAsk f [rA .g f] [gDst f.d.toNat]) (do
    writeG f.d.toNat (wd (op (← opG .a).toNat (tyWidth f.ty.toNat)))) s

/-- Division and remainder: a divisor of zero raises ARITH. -/
def intDivide (i : Instr) (f : RForm) (op : Int → Int → Int) (s : State) : Result :=
  runInstr i (rAsk f [rA .g f, rB .g f] [gDst f.d.toNat]) (do
    let ty := f.ty.toNat
    let b := rdInt ty (← opG .b)
    if b = 0 then raiseFree cArith
    putInt ty f.sm.toNat f.d.toNat (op (rdInt ty (← opG .a)) b)) s

/-- A bitwise operation on the low w bits. -/
def bitwise (i : Instr) (f : RForm) (op : Word → Word → Word) (s : State) : Result :=
  runInstr i (rAsk f [rA .g f, rB .g f] [gDst f.d.toNat]) (do
    putInt f.ty.toNat 0 f.d.toNat (op (← opG .a) (← opG .b)).toNat) s

/-- An immediate form: a register source and IMM24 (R99). -/
def intImm (i : Instr) (f : IForm) (op : Word → Word → Int) (s : State) : Result :=
  runInstr i (iAsk f [iA f]) (do putInt f.ty.toNat 0 f.d.toNat (op (← opG .a) (immOf f))) s

/-! ## The register forms -/

/-- ADD: Wr(a + b) (R97). -/
def execAdd (f : RForm) (s : State) : Result := intTwo (.add f) f (· + ·) s
/-- SUB: Wr(a − b) (R97). -/
def execSub (f : RForm) (s : State) : Result := intTwo (.sub f) f (· - ·) s
/-- MUL: Wr(a × b) (R97). -/
def execMul (f : RForm) (s : State) : Result := intTwo (.mul f) f (· * ·) s
/-- MULH: Wr(floor(a × b ÷ 2^w)) (R97). -/
def execMulh (f : RForm) (s : State) : Result := intTwo (.mulh f) f (mulHigh f.ty.toNat) s
/-- DIV: Wr(trunc(a ÷ b)); ARITH on zero (R97). -/
def execDiv (f : RForm) (s : State) : Result := intDivide (.div f) f Int.tdiv s
/-- REM: a − b × trunc(a ÷ b); ARITH on zero (R97). -/
def execRem (f : RForm) (s : State) : Result := intDivide (.rem f) f Int.tmod s
/-- AND (R97). -/
def execAnd (f : RForm) (s : State) : Result := bitwise (.and f) f (· &&& ·) s
/-- OR (R97). -/
def execOr (f : RForm) (s : State) : Result := bitwise (.or f) f (· ||| ·) s
/-- XOR (R97). -/
def execXor (f : RForm) (s : State) : Result := bitwise (.xor f) f (· ^^^ ·) s
/-- ANDN: a ∧ ¬b (R97). -/
def execAndn (f : RForm) (s : State) : Result := bitwise (.andn f) f (fun a b => a &&& ~~~b) s
/-- SHL: Wr(a × 2^n) (R97). -/
def execShl (f : RForm) (s : State) : Result := intShift (.shl f) f (fun a n => shlExact (rdInt f.ty.toNat a) n) s
/-- SHR (R97). -/
def execShr (f : RForm) (s : State) : Result := intShift (.shr f) f (shrExact f.ty.toNat) s
/-- SRA (R97). -/
def execSra (f : RForm) (s : State) : Result := intShift (.sra f) f (sraExact f.ty.toNat) s
/-- ROT (R97). -/
def execRot (f : RForm) (s : State) : Result := intShift (.rot f) f (rotExact f.ty.toNat) s
/-- CLZ: leading zeros of the w bits (R97). -/
def execClz (f : RForm) (s : State) : Result := intCount (.clz f) f leadZeros s
/-- CTZ: trailing zeros of the w bits (R97). -/
def execCtz (f : RForm) (s : State) : Result := intCount (.ctz f) f trailZeros s
/-- POPC: ones of the w bits (R97). -/
def execPopc (f : RForm) (s : State) : Result := intCount (.popc f) f popCount s
/-- MIN (R97). -/
def execMin (f : RForm) (s : State) : Result := intTwo (.min f) f (fun a b => if a ≤ b then a else b) s
/-- MAX (R97). -/
def execMax (f : RForm) (s : State) : Result := intTwo (.max f) f (fun a b => if a ≤ b then b else a) s

/-- ABSD: |a − b|, always zero-extended (R97). -/
def execAbsd (f : RForm) (s : State) : Result :=
  runInstr (.absd f) (rAsk f [rA .g f, rB .g f] [gDst f.d.toNat]) (do
    let ty := f.ty.toNat
    writeG f.d.toNat (wd (rdInt ty (← opG .a) - rdInt ty (← opG .b)).natAbs)) s

/-- CMP: 1 when the condition MOD[2:0] holds, else 0 (R97). -/
def execCmp (f : RForm) (s : State) : Result :=
  runInstr (.cmp f) (rAsk f [rA .g f, rB .g f] [gDst f.d.toNat]) (do
    let ty := f.ty.toNat
    writeG f.d.toNat (wd (b2n (compareInt (bits f.mod.toNat 2 0) (rdInt ty (← opG .a)) (rdInt ty (← opG .b)))))) s

/-- SEL: Wr(gC ≠ 0 ? a : b), all 64 bits of gC tested (R97). -/
def execSel (f : RForm) (s : State) : Result :=
  runInstr (.sel f) (rAsk f [rA .g f, rB .g f, rC .g f] [gDst f.d.toNat]) (do
    let ty := f.ty.toNat
    let a ← opG .a
    let b ← opG .b
    writeG f.d.toNat (wrInt ty (rdInt ty (if (← opG .c) ≠ 0 then a else b)))) s

/-- MOV: Wr(a) (R97). -/
def execMov (f : RForm) (s : State) : Result :=
  runInstr (.mov f) (rAsk f [rA .g f] [gDst f.d.toNat]) (do
    let ty := f.ty.toNat
    writeG f.d.toNat (wrInt ty (rdInt ty (← opG .a)))) s

/-- EXT: a field of gA, sign-extended for i64 and zero-extended for w64 (R97). -/
def execExt (f : RForm) (s : State) : Result :=
  runInstr (.ext f) (rAsk f [rA .g f, rB .g f, rC .g f] [gDst f.d.toNat]) (do
    writeG f.d.toNat (BitVec.ofInt 64 (extractField (tySigned f.ty.toNat) (← opG .a) (← opG .b) (← opG .c)))) s

/-- INS: gD with a field replaced by the low bits of gA; gD is read with blocking (R97). -/
def execIns (f : RForm) (s : State) : Result :=
  runInstr (.ins f) (rAsk f [rA .g f, rB .g f, rC .g f, rOld .g f] [gDst f.d.toNat]) (do
    writeG f.d.toNat (insertField (← opG .x) (← opG .a) (← opG .b) (← opG .c))) s

/-- LEA: (gA + gB × 2^MOD[2:0]) mod 2^64 (R97). -/
def execLea (f : RForm) (s : State) : Result :=
  runInstr (.lea f) (rAsk f [rA .g f, rB .g f] [gDst f.d.toNat]) (do
    writeG f.d.toNat ((← opG .a) + wd ((← opG .b).toNat * 2 ^ bits f.mod.toNat 2 0))) s

/-! ## The immediate forms (R99) -/

/-- ADD with an immediate. -/
def execAddImm (f : IForm) (s : State) : Result := intImm (.addImm f) f (fun a b => rdInt f.ty.toNat a + rdInt f.ty.toNat b) s
/-- AND with an immediate. -/
def execAndImm (f : IForm) (s : State) : Result := intImm (.andImm f) f (fun a b => (a &&& b).toNat) s
/-- OR with an immediate. -/
def execOrImm (f : IForm) (s : State) : Result := intImm (.orImm f) f (fun a b => (a ||| b).toNat) s
/-- XOR with an immediate. -/
def execXorImm (f : IForm) (s : State) : Result := intImm (.xorImm f) f (fun a b => (a ^^^ b).toNat) s
/-- SHL by an immediate count, read as unsigned 64-bit. -/
def execShlImm (f : IForm) (s : State) : Result := intImm (.shlImm f) f (fun a b => shlExact (rdInt f.ty.toNat a) b.toNat) s
/-- SHR by an immediate count. -/
def execShrImm (f : IForm) (s : State) : Result := intImm (.shrImm f) f (fun a b => shrExact f.ty.toNat a b.toNat) s
/-- SRA by an immediate count. -/
def execSraImm (f : IForm) (s : State) : Result := intImm (.sraImm f) f (fun a b => sraExact f.ty.toNat a b.toNat) s

/-- CMP with an immediate; the condition is MOD[2:0]. -/
def execCmpImm (f : IForm) (s : State) : Result :=
  runInstr (.cmpImm f) (iAsk f [iA f]) (do
    let ty := f.ty.toNat
    writeG f.d.toNat (wd (b2n (compareInt (bits f.mod.toNat 2 0) (rdInt ty (← opG .a)) (rdInt ty (immOf f)))))) s

/-- MOVI: Wr(imm). -/
def execMovi (f : IForm) (s : State) : Result :=
  runInstr (.movi f) (iAsk f []) (do
    let ty := f.ty.toNat
    writeG f.d.toNat (wrInt ty (rdInt ty (immOf f)))) s

/-- LEA with MOD[0] = 0: gD := (gA + imm) mod 2^64. -/
def execLeaImm (f : IForm) (s : State) : Result :=
  runInstr (.leaImm f) (iAsk f [iA f]) (do writeG f.d.toNat ((← opG .a) + immOf f)) s

/-! ## Addresses in the module image (R99, R100) -/

/-- The virtual address of the instruction that issues: the base of the binding it was fetched from and the offset of PC. -/
def pcAddress : M Word := do
  let c ← curCtx
  let f ← curFiring
  let pc ← curPc
  match (← get).enterBinding c.asid f (cpSlot pc) with
  | some b => pure (wd (b.base + cpOffset pc))
  | none => pure (wd (cpOffset pc))

/-- LEA with MOD[0] = 1: gD := the virtual address of this word + imm. -/
def execLeaPc (f : IForm) (s : State) : Result :=
  runInstr (.leaPc f) (iAsk f []) (do writeG f.d.toNat ((← pcAddress) + immOf f)) s

/-- MOVI.L: Wr(literal) (R100). -/
def execMoviL (f : LForm) (s : State) : Result :=
  runInstr (.moviL f) { kg := f.kg.toNat, dsts := [gDst f.d.toNat] } (do
    let ty := f.ty.toNat
    writeG f.d.toNat (wrInt ty (rdInt ty f.lit))) s

/-- LEA.L: gD := (address of the first word + literal) mod 2^64 (R100). -/
def execLeaL (f : LForm) (s : State) : Result :=
  runInstr (.leaL f) { kg := f.kg.toNat, dsts := [gDst f.d.toNat] } (do writeG f.d.toNat ((← pcAddress) + f.lit)) s

end Sys2Proof.Machine
end

