-- ==== Sys2Proof/Machine/Masks.lean ====
section
/-! DEFINITION. Masks, flags and register state at MAJ 0x12 (R101, R102). -/

namespace Sys2Proof.Machine

/-- The operation of KLOG (R101). -/
def logOp (op : Nat) (a b : Mask) : Mask :=
  match op with
  | 0 => a &&& b
  | 1 => a ||| b
  | 2 => a ^^^ b
  | 3 => a &&& ~~~b
  | 4 => ~~~(a &&& b)
  | 5 => ~~~(a ||| b)
  | 6 => ~~~(a ^^^ b)
  | _ => ~~~a

/-- A captured mask operand. -/
def opK (sl : Slot) : M Mask := do pure ((← opV sl).extractLsb' 0 32)

/-- KSET: kD := gA[31:0]. -/
def execKset (f : RForm) (s : State) : Result :=
  runInstr (.kset f) (rAsk f [rA .g f] []) (do
    let a ← opG .a
    modCur fun c => c.wk f.d.toNat (a.setWidth 32)) s

/-- KLOG: kD := op(kA, kB). -/
def execKlog (f : RForm) (s : State) : Result :=
  runInstr (.klog f) (rAsk f [rA .k f, rB .k f] []) (do
    let a ← opK .a
    let b ← opK .b
    modCur fun c => c.wk f.d.toNat (logOp (bits f.mod.toNat 2 0) a b)) s

/-- KMOV: kD := kA with MOD[0] = 0, or gD := kA zero-extended. -/
def execKmov (f : RForm) (s : State) : Result :=
  runInstr (.kmov f) (rAsk f [rA .k f] (if f.mod.getLsbD 0 then [gDst f.d.toNat] else [])) (do
    let a ← opK .a
    if f.mod.getLsbD 0 then writeG f.d.toNat (a.setWidth 64) else modCur fun c => c.wk f.d.toNat a) s

/-- KCNT: gD := popcount(kA ∧ kB). -/
def execKcnt (f : RForm) (s : State) : Result :=
  runInstr (.kcnt f) (rAsk f [rA .k f, rB .k f] [gDst f.d.toNat]) (do
    let a ← opK .a
    let b ← opK .b
    writeG f.d.toNat (wd (popCount (a &&& b).toNat 32))) s

/-- Bits [21:14] of an R word: CLR of FLAG and END (R87, R101). -/
def clrField (f : RForm) : Byte := BitVec.ofNat 8 (f.ty.toNat * 8 + f.rm.toNat)
/-- MOD[7:0]: SET of FLAG and END. -/
def setField (f : RForm) : Byte := f.mod.extractLsb' 0 8

/-- FLAG: gD := the flags before the update when MOD[8] = 1; then flags := (flags ∧ ¬CLR) ∨ SET. -/
def execFlag (f : RForm) (s : State) : Result :=
  runInstr (.flag f) (rAsk f [] (if f.mod.getLsbD 8 then [gDst f.d.toNat] else [])) (do
    let c ← curCtx
    if f.mod.getLsbD 8 then writeG f.d.toNat (c.flags.setWidth 64)
    modCur fun c => { c with flags := flagUpdate c.flags (setField f) (clrField f) }) s

/-- The register that EMPTY and FULL name: MOD[0] says g or v. -/
def markDst (f : RForm) : Dst := { vec := f.mod.getLsbD 0, n := f.d.toNat }

/-- Mark a register empty or full and leave its value. -/
def markReg (d : Dst) (empty : Bool) : M Unit := modCur fun c => if d.vec then c.markV d.n empty else c.markG d.n empty

/-- EMPTY: waits for a producer still writing the register, and marks it empty (R101, R102). -/
def execEmpty (f : RForm) (s : State) : Result :=
  runInstr (.empty f) (rAsk f [] [markDst f]) (markReg (markDst f) true) s

/-- FULL: waits likewise, and marks it full (R101, R102). -/
def execFull (f : RForm) (s : State) : Result :=
  runInstr (.full f) (rAsk f [] [markDst f]) (markReg (markDst f) false) s

end Sys2Proof.Machine
end

