-- ==== Sys2Proof/Machine/Control.lean ====
section
/-! DEFINITION. Control transfer (R81 to R92): NOP, branches, calls, LOOP. -/

namespace Sys2Proof.Machine

/-- A target of a control transfer: a slot and an offset that may lie outside the image. -/
structure Target where
  slot : Nat
  offset : Int
  deriving DecidableEq, Repr

/-- PC plus a byte offset, in the slot of PC (R88). -/
def relTarget (pc : Word) (bytes : Int) : Target := { slot := cpSlot pc, offset := (cpOffset pc : Int) + bytes }
/-- The target that a code pointer names; bits [63:52] are ignored (R81). -/
def ptrTarget (p : Word) : Target := { slot := cpSlot p, offset := cpOffset p }
/-- A target as a code pointer: an offset outside the 48 bits of one stands modulo 2^48 in the same slot. [DESIGN CHOICE, unsafe, log 123] -/
def Target.ptr (t : Target) : Word := wd (t.slot % 16 * 2 ^ 48 + (t.offset % 2 ^ 48).toNat)

/-- The checks of a taken transfer, and the reference to the binding it enters (R57, R83, R84, R88). -/
def transferTo (t : Target) : M Next := do
  let c ← curCtx
  let f ← curFiring
  if t.offset % 8 ≠ 0 then raiseFree cAlignment
  match (← get).enterBinding c.asid f t.slot with
  | none => raiseFree cModuleAbsent
  | some b =>
    if t.offset < 0 ∨ (b.len : Int) ≤ t.offset then raise cProtection t.ptr
    modCur fun c => { c with firing := c.firing.map fun f => f.take b }
    pure (.jump t.ptr)

/-- The bytes that OFF32 spans: 8-byte words, signed (R63). -/
def offBytes (f : JForm) : Int := 8 * f.off.toInt

/-- The link code pointer: the instruction after this one, with bits [63:52] as 0 (R81, R88). -/
def linkPtr (pc : Word) (len : Nat) : Word := (relTarget pc len).ptr

/-- NOP has no effect (R86). -/
def execNop (f : RForm) (s : State) : Result := runInstr (.nop f) (rAsk f [] []) (pure ()) s

/-- BR (R88). -/
def execBr (f : JForm) (s : State) : Result :=
  runControl (.br f) (jAsk f [] []) (do transferTo (relTarget (← curPc) (offBytes f))) s

/-- BRANY: taken when kA ∧ kM has a bit set (R88). -/
def execBrany (f : JForm) (s : State) : Result :=
  runControl (.brany f) (jAsk f [jA .k f, jM f] []) (do
    if (← opK .a) &&& (← opK .b) ≠ 0 then transferTo (relTarget (← curPc) (offBytes f)) else pure .seq) s

/-- BRALL: taken when kA holds every bit of kM (R88). -/
def execBrall (f : JForm) (s : State) : Result :=
  runControl (.brall f) (jAsk f [jA .k f, jM f] []) (do
    let m ← opK .b
    if (← opK .a) &&& m = m then transferTo (relTarget (← curPc) (offBytes f)) else pure .seq) s

/-- CALL: links through g63 (R88). -/
def execCall (f : JForm) (s : State) : Result :=
  runControl (.call f) (jAsk f [] [gDst 63]) (do
    let pc ← curPc
    let n ← transferTo (relTarget pc (offBytes f))
    writeG 63 (linkPtr pc 8)
    pure n) s

/-- RET: to the code pointer in gA (R88). -/
def execRet (f : RForm) (s : State) : Result :=
  runControl (.ret f) (rAsk f [rA .g f] []) (do transferTo (ptrTarget (← opG .a))) s

/-- BRX: to the code pointer in gA, in any slot (R88). -/
def execBrx (f : RForm) (s : State) : Result :=
  runControl (.brx f) (rAsk f [rA .g f] []) (do transferTo (ptrTarget (← opG .a))) s

/-- CALLX: gA is read before g63 is written (R88). -/
def execCallx (f : RForm) (s : State) : Result :=
  runControl (.callx f) (rAsk f [rA .g f] [gDst 63]) (do
    let n ← transferTo (ptrTarget (← opG .a))
    writeG 63 (linkPtr (← curPc) 8)
    pure n) s

/-- LOOP: the counter falls by one and the branch is taken while it was above 1 (R88). -/
def execLoop (f : JForm) (s : State) : Result :=
  runControl (.loop f) (jAsk f [jA .g f] [gDst f.a.toNat]) (do
    let a ← opG .a
    if 1 < a.toNat then
      let n ← transferTo (relTarget (← curPc) (offBytes f))
      writeG f.a.toNat (a - 1)
      pure n
    else
      writeG f.a.toNat 0
      pure .seq) s

/-- BR.L: the literal is a signed byte offset (R88, R92). -/
def execBrL (f : LForm) (s : State) : Result :=
  runControl (.brL f) { kg := f.kg.toNat } (do transferTo (relTarget (← curPc) f.lit.toInt)) s

/-- CALL.L: the link is PC + 16 (R88, R92). -/
def execCallL (f : LForm) (s : State) : Result :=
  runControl (.callL f) { kg := f.kg.toNat, dsts := [gDst 63] } (do
    let pc ← curPc
    let n ← transferTo (relTarget pc f.lit.toInt)
    writeG 63 (linkPtr pc 16)
    pure n) s

end Sys2Proof.Machine
end

