-- ==== Sys2Proof/Machine/Translate.lean ====
section
/-! DEFINITION. Translation: the aperture's decoding (R239), the two stages of page tables (R359 to R363), cached translations (R364), firmware's
physical addresses (R360) and the host's windows (R371). -/

namespace Sys2Proof.Machine

/-- What an access asks of a page (R362). -/
inductive Right where
  | r | w | x
  deriving DecidableEq, Repr

/-- The place of a right in the R, W, X field [4:2] of a descriptor. -/
def Right.bit : Right → Nat
  | .r => 0
  | .w => 1
  | .x => 2

/-- The syndrome of R363. -/
def syndrome (stage level : Nat) (need : Right) (why : Nat) : Word :=
  wd (stage + level * 4 + b2n (need == .w) * 16 + b2n (need == .x) * 32 + why * 64)

/-- A failed translation of a virtual address (R363). [DEDUCED, unsafe, log 73] -/
def xlateTrap (va stage level : Nat) (need : Right) (why : Nat) : Trap :=
  { cause := if why < 2 then cTranslation else cProtection, info := wd va, syndrome := syndrome stage level need why, addr := wd va }

/-- A leaf that a walk found: the base of the page, its size, its rights, its level and the RING bit. -/
structure Leaf where
  base : Nat
  log : Nat
  rights : BitVec 3
  level : Nat
  ring : Bool
  deriving DecidableEq, Repr

/-- log2 of what a leaf maps at a level, and of what an index at the level spans (R361). -/
def levelLog (level : Nat) : Nat :=
  match level with
  | 0 => 39
  | 1 => 30
  | 2 => 21
  | _ => 16

/-- The index of an address in a table of a level (R361). -/
def levelIndex (level a : Nat) : Nat := a / 2 ^ levelLog level % (if level = 3 then 32 else 512)

/-- The reserved-bit and LEAF checks of a descriptor at a level (R362): true when it is malformed. [DEDUCED, unsafe, log 73] -/
def badDescriptor (stage level d : Nat) : Bool :=
  let leaf := d / 2 % 2 == 1
  bits d 7 6 != 0 || bits d 63 52 != 0 || (stage == 1 && (bits d 5 5 == 1 || bits d 51 48 != 0)) ||
  (level == 0 && leaf) || (level == 3 && !leaf) ||
  (if leaf then d / 2 ^ 8 * 2 ^ 8 % 2 ^ levelLog level % 2 ^ 52 != 0
   else bits d 5 2 != 0 || (level != 2 && bits d 11 8 != 0))

/-- A walk of one stage from a table of a level down (R361). `rd` reads the descriptor of a level at an address. -/
def walkFrom (stage va : Nat) (need : Right) (rd : Nat → Nat → Except Trap Nat) (a : Nat) : Nat → Nat → Nat → Except Trap Leaf
  | 0, level, _ => .error (xlateTrap va stage level need 1)
  | fuel + 1, level, table =>
    match rd level (table + 8 * levelIndex level a) with
    | .error t => .error t
    | .ok d =>
      if d % 2 = 0 then .error (xlateTrap va stage level need 0)
      else if badDescriptor stage level d then .error (xlateTrap va stage level need 1)
      else if d / 2 % 2 = 1 then
        .ok { base := bits d 51 8 * 256, log := levelLog level, rights := BitVec.ofNat 3 (bits d 4 2), level := level, ring := bits d 5 5 == 1 }
      else walkFrom stage va need rd a fuel (level + 1) (bits d 51 8 * 256)

/-- Eight bytes of DRAM as a number (R361). -/
def descriptorAt (s : State) (pa : Nat) : Nat := leNat (Memory.readBytes s.mem pa 8)

/-- Whether a range of DRAM meets an uncorrectable sector. -/
def State.dramBad (s : State) (pa n : Nat) : Bool :=
  s.badSectors.any fun b => decide (b < 2 ^ 47) && decide (32 * b < pa + n) && decide (pa < 32 * b + 32)

/-- The fault of a consumer of uncorrectable data (R405). -/
def badDataTrap (va : Nat) : Trap := { cause := cMemUncorrectable, info := wd va, addr := wd va }

/-- A descriptor as a walk for an address uses it: an uncorrectable one faults the access, which consumes it (R31, R405). [DEDUCED, unsafe, log 73] -/
def tableWord (s : State) (va pa : Nat) : Except Trap Nat := if s.dramBad pa 8 then .error (badDataTrap va) else .ok (descriptorAt s pa)

/-- Stage 2: an IPA of 48 bits to a leaf, by the tables of a partition. A table beyond the DRAM region fails as WHY 3 at the level of the descriptor that
names it (R363). [DEDUCED, unsafe, log 73] -/
def stage2 (s : State) (root va : Nat) (need : Right) (ipa : Nat) : Except Trap Leaf :=
  if 2 ^ 48 ≤ ipa then .error (xlateTrap va 2 0 need 0) else
  walkFrom 2 va need (fun level pa => if pa < 2 ^ 38 then tableWord s va pa else .error (xlateTrap va 2 (level - 1) need 3)) ipa 4 0 root

/-- The physical address that a leaf gives, which must lie below 2^38 (R359). [DEDUCED, unsafe, log 73; DESIGN CHOICE, safe, log 140] -/
def leafPa (l : Leaf) (va : Nat) (need : Right) (a : Nat) : Except Trap Nat :=
  let pa := l.base + a % 2 ^ l.log
  if pa < 2 ^ 38 then .ok pa else .error (xlateTrap va 2 l.level need 3)

/-- Whether a byte of a page marked RING may not be named yet: the graph whose ring lies there has a spilling queue and is not drained; a drained
graph's ring is ordinary memory (R148, R247, R363). [DESIGN CHOICE, safe, log 51] -/
def ringClosed (s : State) (part pa : Nat) : Bool :=
  s.graphs.any fun g => g.handle == Config.ringOf (pa / 65536) && g.part == part && g.state != .empty && g.state != .drained && g.queues.any fun q => q.spill

/-- The checks of the rights on a combined translation: the stage-1 leaf, then the stage-2 leaf, then the RING mark (R363). [DESIGN CHOICE, safe, log 51] -/
def checkRights (s : State) (part va : Nat) (need : Right) (e : TlbEntry) : Except Trap Nat :=
  let pa := e.pa + (va - e.va)
  if !e.rights1.getLsbD need.bit then .error (xlateTrap va 1 e.level1 need 2)
  else if !e.rights2.getLsbD need.bit then .error (xlateTrap va 2 e.level2 need 2)
  else if e.ring && ringClosed s part pa then .error (xlateTrap va 2 e.level2 need 4)
  else .ok pa

/-- A walk of both stages (R359, R361, R363). Each table address of stage 1 is translated by stage 2 before it is read. -/
def walkBoth (s : State) (asid part va : Nat) (need : Right) : Except Trap TlbEntry :=
  let root2 := (s.part part).root
  let rd (_ ipa : Nat) : Except Trap Nat :=
    match stage2 s root2 va need ipa with
    | .error t => .error t
    | .ok l =>
      match leafPa l va need ipa with
      | .error t => .error t
      | .ok pa => tableWord s va pa
  match walkFrom 1 va need rd va 4 0 (s.asid asid).root with
  | .error t => .error t
  | .ok l1 =>
    if !l1.rights.getLsbD need.bit then .error (xlateTrap va 1 l1.level need 2)
    else
      let ipa := l1.base + va % 2 ^ l1.log
      match stage2 s root2 va need ipa with
      | .error t => .error t
      | .ok l2 =>
        match leafPa l2 va need ipa with
        | .error t => .error t
        | .ok pa =>
          let log := Nat.min l1.log l2.log
          .ok { asid := asid, part := part, va := va / 2 ^ log * 2 ^ log, log := log, ipa := ipa / 2 ^ log * 2 ^ log,
                pa := pa / 2 ^ log * 2 ^ log, rights1 := l1.rights, level1 := l1.level, rights2 := l2.rights, level2 := l2.level,
                ring := l2.ring }

/-- The cached translation of an address in the TLBs of a tile (R364). [DESIGN CHOICE, safe, log 18] -/
def State.tlbHit (s : State) (tile asid part va : Nat) : Option TlbEntry :=
  s.tlb.find? fun e => e.tile == tile && e.asid == asid && e.part == part && e.va == va / 2 ^ e.log * 2 ^ e.log

/-- The entry that translates an address: cached for the tile, or by a walk (R359, R364). [DESIGN CHOICE, safe, log 18; DEDUCED, unsafe, log 73] -/
def entryFor (s : State) (tile asid part va : Nat) (need : Right) : Except Trap TlbEntry :=
  if 2 ^ 48 ≤ va then .error (xlateTrap va 1 0 need 0)
  else
    match s.tlbHit tile asid part va with
    | some e => .ok e
    | none => walkBoth s asid part va need

/-- The translation of a virtual address for an ASID of a partition (R359, R363). [DESIGN CHOICE, safe, log 18] -/
def translateAs (s : State) (tile asid part va : Nat) (need : Right) : Except Trap Nat :=
  match entryFor s tile asid part va need with
  | .error t => .error t
  | .ok e => checkRights s part va need e

/-- log2 of the size of the page of an address: of what its stage-1 leaf maps; 64 KiB for firmware, in the aperture, and where no translation is found
(R27, R361). [DEDUCED, unsafe, log 70] -/
def pageLog (s : State) (key : Nat) (c : Ctx) (va : Nat) : Nat :=
  if c.priv = .f ∨ va / 2 ^ 56 = 0xFE then 16
  else
    (([Right.r, .w, .x].findSome? fun need => (entryFor s (tileOf key) c.asid c.part va need).toOption).map fun e => levelLog e.level1).getD 16

/-- The tile of an agent of the device that keeps no translations: it walks the tables. -/
def noTile : Nat := 511

/-- The translation for a context: none at privilege F, whose addresses below 2^38 are physical (R360). -/
def translateFor (s : State) (key : Nat) (c : Ctx) (va : Nat) (need : Right) : Except Trap Nat :=
  if c.priv = .f then
    if va < 2 ^ 38 then .ok va else .error { cause := cProtection, info := wd va, addr := wd va }
  else translateAs s (tileOf key) c.asid c.part va need

/-- An address of a host window: stage 2 of the partition alone (R371). [DESIGN CHOICE, safe, log 51] -/
def translateHost (s : State) (part ipa : Nat) (need : Right) : Except Trap Nat :=
  match stage2 s (s.part part).root ipa need ipa with
  | .error t => .error t
  | .ok l =>
    if !l.rights.getLsbD need.bit then .error (xlateTrap ipa 2 l.level need 2)
    else
      match leafPa l ipa need ipa with
      | .error t => .error t
      | .ok pa => if l.ring && ringClosed s part pa then .error (xlateTrap ipa 2 l.level need 4) else .ok pa

/-! ## The scratchpad aperture (R239) -/

/-- Where an access goes: a physical address of the DRAM region, or a byte of a bank. -/
inductive Place where
  | dram (pa : Nat)
  | bank (tile bank off : Nat)
  deriving DecidableEq, Repr

/-- Whether an address lies in the aperture (R359). -/
def inAperture (va : Nat) : Bool := va / 2 ^ 56 == 0xFE

/-- Checks 1 and 2 of R239, made at issue from the address alone, for an access of `size` bytes by the context at `key`. -/
def apertureAt (s : State) (key : Nat) (c : Ctx) (va size : Nat) : Except Trap Place :=
  let field := bits va 29 21
  let tile := if field = 511 then tileOf key else field
  let off := bits va 15 0
  let bad : Bool :=
    bits va 55 30 != 0 || (decide (384 ≤ field) && field != 511) || (field == 511 && onSystemTile key) ||
    (c.priv != .f && Map.get 0 s.tileOwner tile != c.part + 1) || decide (24 ≤ bits va 20 16) || decide (65536 < off + size)
  if bad then .error { cause := cProtection, info := wd va, addr := wd va } else .ok (.bank tile (bits va 20 16) off)

/-- Where the access of a context leads, with the checks that are made at issue (R238, R239, R253). -/
def placeOf (s : State) (key : Nat) (c : Ctx) (va size : Nat) (need : Right) : Except Trap Place :=
  if inAperture va then apertureAt s key c va size
  else
    match translateFor s key c va need with
    | .error t => .error t
    | .ok pa => .ok (.dram pa)

/-- Mode of a bank: 0 CACHE, 1 SCRATCH, 2 FIFO; banks 0 to 7 are CACHE and 8 to 23 SCRATCH at reset (R240). -/
def resetBankMode (bank : Nat) : Nat := if bank < 8 then 0 else 1
def State.bankMode (s : State) (tile bank : Nat) : Nat :=
  match Map.get 0 s.bankModes (24 * tile + bank) with
  | 0 => resetBankMode bank
  | m + 1 => m

/-- Whether a cluster refuses remote scratchpad requests: from the start of HANDOFF until RESUME ends (R202). -/
def Cluster.refuses (c : Cluster) : Bool :=
  match c.state with
  | .on => false
  | .quiesced => match c.op with | some .handoff => true | _ => false
  | .away => true
  | .clkoff => true
  | .railoff => true

/-- Checks 3 and 4 of R239, made when the access reaches the cluster's port and the bank. -/
def bankChecks (s : State) (key va tile bank : Nat) : Except Trap Unit :=
  if (onSystemTile key || clusterOfTile (tileOf key) != clusterOfTile tile) && (s.cluster (clusterOfTile tile)).refuses then
    .error { cause := cTargetGated, info := wd va, addr := wd va }
  else if s.bankMode tile bank ≠ 1 then .error { cause := cProtection, info := wd va, addr := wd va }
  else .ok ()

end Sys2Proof.Machine
end

