-- ==== Sys2Proof/Machine/Slices.lean ====
section
/-! DEFINITION. The cluster caches and the homes of DRAM addresses (R25, R243 to R246): which lines a slice holds, which home an address has, and the
estimator of way gating (R198). The caches are coherent, so a read gives what the home gives; the lines decide only what way gating does. -/

namespace Sys2Proof.Machine

/-! ## Homes (R244, R245) -/

/-- The cluster whose slice is the home of a physical address: of those of die PA[37:36], number PA[35:7] mod 12 (R244). -/
def homeCluster (pa : Nat) : Nat := 12 * bits pa 37 36 + bits pa 35 7 % 12

/-- The single home of an address (R244, R245). -/
inductive Home where
  | slice (cluster : Nat)
  | backstop (die : Nat)
  deriving DecidableEq, Repr

/-- The home of an address now: its slice, or the backstop of its die while the slice is away. -/
def State.homeOf (s : State) (pa : Nat) : Home :=
  if (s.cluster (homeCluster pa)).homeaway then .backstop (bits pa 37 36) else .slice (homeCluster pa)

/-! ## Lines (R243) -/

/-- [DESIGN CHOICE, unsafe, log 119] -/
def sliceKey (cl pa : Nat) : Nat := cl * 2 ^ 31 + pa / 128
/-- The number of a sector in its line. -/
def sectorOf (pa : Nat) : Nat := pa / 32 % 4

/-- Drop the lines for which p holds of the cluster, the line's address and the line; dirty sectors are written back first, and their bytes stand in
memory already. -/
def State.dropLines (s : State) (p : Nat → Nat → SliceLine → Bool) : State :=
  { s with slices := s.slices.filter fun e => !p (e.1 / 2 ^ 31) (e.1 % 2 ^ 31 * 128) e.2 }

/-- Which sectors of the line at an address overlap n bytes at another. -/
def sectorsMet (line pa n : Nat) : BitVec 4 :=
  (List.range 4).foldl (fun m k => setBit m k (decide (line + 32 * k < pa + n) && decide (pa < line + 32 * k + 32))) 0

/-- The home recalls the copies of the sectors of n bytes that cluster caches hold, but for one cluster's; a line that keeps no sector is gone
(R243, R244). [DESIGN CHOICE, unsafe, log 119] -/
def State.recallSectors (s : State) (keep : Option Nat) (pa n : Nat) : State :=
  { s with slices := s.slices.filterMap fun e =>
      let m := sectorsMet (e.1 % 2 ^ 31 * 128) pa n
      if m = 0 ∨ keep = some (e.1 / 2 ^ 31) then some e
      else if e.2.held &&& ~~~m = 0 then none
      else some (e.1, { e.2 with held := e.2.held &&& ~~~m, dirty := e.2.dirty &&& ~~~m }) }

/-- A slice gives up its lines and recalls every copy of the lines that it is the home of, or the backstop those that it has tracked (R200, R245).
[DESIGN CHOICE, unsafe, log 119] -/
def State.recall (s : State) (cl : Nat) : State := s.dropLines fun c a _ => c == cl || homeCluster a == cl

/-- The owner of a way as %wgcfg and PARTCFG .ways have it: 0 the shared pool, p + 1 a partition, 65 gated for good. -/
def State.wayOwnerOf (s : State) (cl w : Nat) : Nat := Map.get 0 s.wayOwner (16 * cl + w)

/-- The way that a new line of a set takes: one without a line, or else one of them by a free choice, among the powered ways that are the partition's own
or shared (R243, R369); the line that stood there is dropped. [DESIGN CHOICE, unsafe, log 119] -/
def State.newWay (s : State) (cl owner pa : Nat) : Option Nat × State :=
  let inSet (c a : Nat) : Bool := c == cl && a / 128 % 8192 == pa / 128 % 8192
  let used := (s.slices.filter fun e => inSet (e.1 / 2 ^ 31) (e.1 % 2 ^ 31 * 128)).map fun e => e.2.way
  let ways := (List.range (s.cluster cl).waysOn).filter fun w => s.wayOwnerOf cl w == 0 || s.wayOwnerOf cl w == owner
  match ways.find? fun w => !used.contains w with
  | some w => (some w, s)
  | none =>
    match ways[(Config.freeWord s.drawn).toNat % Nat.max 1 ways.length]? with
    | none => (none, s)
    | some w => (some w, { s with drawn := s.drawn + 1 }.dropLines fun c a l => inSet c a && l.way == w)

/-! ## The estimator of way gating (R198) -/

/-- Misses per 1,024 accesses. -/
def missesBelow (accesses misses limit : Nat) : Bool := if accesses = 0 then decide (0 < limit) else decide (1024 * misses < limit * accesses)

/-- The estimator once the window of a tick has begun: the window that has ended decides since when the misses have been below MISSLO.
[DESIGN CHOICE, unsafe, log 60] -/
def Cluster.roll (c : Cluster) (now : Nat) : Cluster :=
  if c.missWin = now / 1000 then c
  else
    { c with
      missWin := now / 1000, missAcc := 0, misses := 0
      lowSince := if missesBelow c.missAcc c.misses c.missLo then c.lowSince else 1000 * (c.missWin + 1) }

/-- An access to a slice is counted. [DESIGN CHOICE, unsafe, log 60] -/
def Cluster.countMiss (c : Cluster) (now : Nat) (miss : Bool) : Cluster :=
  let c1 := c.roll now
  { c1 with missAcc := c1.missAcc + 1, misses := c1.misses + b2n miss }

/-! ## Accesses of tiles (R25, R243) -/

/-- The line of a slice for an address: the one it has, or a new one in a way for the partition of the tile, if there is a way. -/
def State.lineFor (s : State) (cl tile pa : Nat) : Option SliceLine × State :=
  match Map.find? s.slices (sliceKey cl pa) with
  | some l => (some l, s)
  | none =>
    match s.newWay cl (Map.get 0 s.tileOwner tile) pa with
    | (some w, t) => (some { way := w }, t)
    | (none, t) => (none, t)

/-- An access of a compute tile to a sector goes through the slice of its cluster: it hits or is filled, and a write marks the sector dirty there and
takes it from every other slice (R25, R243, R244). [DESIGN CHOICE, unsafe, log 119] -/
def State.sliceAccess (s : State) (tile pa : Nat) (write : Bool) : State :=
  if 384 ≤ tile then s
  else
    let cl := clusterOfTile tile
    let n := sectorOf pa
    let old := Map.find? s.slices (sliceKey cl pa)
    let hit := (old.map fun l => l.held.getLsbD n).getD false
    let s1 := s.setCluster cl ((s.cluster cl).countMiss s.ticks (!hit))
    let s2 := if write then s1.recallSectors (some cl) pa 1 else s1
    match s2.lineFor cl tile pa with
    | (some l, s3) => { s3 with slices := Map.insert s3.slices (sliceKey cl pa) { l with held := setBit l.held n true, dirty := setBit l.dirty n (write || l.dirty.getLsbD n) } }
    | (none, s3) => s3

end Sys2Proof.Machine
end

