-- ==== Sys2Proof/Machine/Access.lean ====
section
/-! DEFINITION. The bytes of memory as agents reach them: the tile cache ways, the homes and the banks (R237 to R248), what a release
and an acquire do to the ways (R246, R280), uncorrectable sectors (R404, R405), and the irrevocable effects of a launch (R411). -/

namespace Sys2Proof.Machine

/-! ## Banks (R240, R249) -/

def bankKey (tile bank off : Nat) : Nat := (24 * tile + bank) * 65536 + off
def State.bankByte (s : State) (tile bank off : Nat) : Byte := Map.get 0 s.scratch (bankKey tile bank off)
def State.bankWrite (s : State) (tile bank off : Nat) : List Byte → State
  | [] => s
  | b :: rest => State.bankWrite { s with scratch := Map.set 0 s.scratch (bankKey tile bank off) b } tile bank (off + 1) rest
def State.bankBytes (s : State) (tile bank off n : Nat) : List Byte := (List.range n).map fun j => s.bankByte tile bank (off + j)
/-- Discard the contents of a bank: every byte reads 0 (R241). -/
def State.zeroBank (s : State) (tile bank : Nat) : State :=
  { s with
    scratch := s.scratch.filter fun e => e.1 / 65536 != 24 * tile + bank
    holds := s.holds.filter fun e => e.1 / 16 != 24 * tile + bank
    badSectors := s.badSectors.filter fun b => !(decide (2 ^ 47 ≤ b) && (b - 2 ^ 47) / 2048 == 24 * tile + bank) }
def State.setBankMode (s : State) (tile bank mode : Nat) : State :=
  { s with bankModes := Map.set 0 s.bankModes (24 * tile + bank) (if mode = resetBankMode bank then 0 else mode + 1) }
/-- The number of a sector of a bank among the uncorrectable ones. -/
def bankSector (tile bank off : Nat) : Nat := 2 ^ 47 + bankKey tile bank off / 32

/-! ## DRAM at its homes -/

/-- The sectors that a range of bytes covers whole (R404). -/
def coversSector (pa n sector : Nat) : Bool := decide (pa ≤ 32 * sector) && decide (32 * sector + 32 ≤ pa + n)

/-- Bytes are written; all 32 bytes of an uncorrectable sector written together make it correct (R404). -/
def State.memWrite (s : State) (pa : Nat) (bs : List Byte) : State :=
  { s with mem := Memory.writeBytes s.mem pa bs, badSectors := s.badSectors.filter fun b => !coversSector pa bs.length b }

/-- A write at the home of an address, which recalls the copies of its sectors that cluster caches hold (R243, R244). -/
def State.dramWrite (s : State) (pa : Nat) (bs : List Byte) : State := (s.recallSectors none pa bs.length).memWrite pa bs

/-- Whether a range of a bank meets an uncorrectable sector. -/
def State.bankBad (s : State) (tile bank off n : Nat) : Bool :=
  s.badSectors.any fun b => decide (2 ^ 47 ≤ b) && decide (32 * (b - 2 ^ 47) < bankKey tile bank off + n) &&
    decide (bankKey tile bank off < 32 * (b - 2 ^ 47) + 32)

/-! ## The cache ways of a tile (R243, R246) -/

/-- The byte at a place in a sector. -/
def Sector.byte (x : Sector) (j : Nat) : Byte := x.bytes.extractLsb' (8 * j) 8
/-- Put a byte at a place in a sector, stored by the tile or filled. -/
def Sector.put (x : Sector) (j : Nat) (b : Byte) (st : Bool) : Sector :=
  { bytes := (x.bytes &&& ~~~(0xFF#256 <<< (8 * j))) ||| (b.setWidth 256 <<< (8 * j))
    held := setBit x.held j true, stored := setBit x.stored j st }
/-- The bytes that the ways hold for the tile alone. -/
def Sector.own (x : Sector) : BitVec 32 := x.held &&& x.stored
def Sector.dirty (x : Sector) : Bool := x.own != 0
/-- The places of a sector for which p holds take the bytes of memory at its address, clean. -/
def Sector.take (x : Sector) (m : Memory) (pa : Nat) (p : Nat → Bool) : Sector :=
  (List.range 32).foldl (fun x j => if p j then x.put j (Memory.read m (pa + j)) false else x) x

def cacheKey (tile pa : Nat) : Nat := tile * 2 ^ 47 + pa / 32
/-- The address of the sector that a key names, and its tile. -/
def sectorPa (k : Nat) : Nat := k % 2 ^ 47 * 32
def sectorTile (k : Nat) : Nat := k / 2 ^ 47
/-- Whether a tile has a bank in CACHE mode; System Tiles have no banks that are ways. -/
def State.hasWays (s : State) (tile : Nat) : Bool := decide (tile < 384) && (List.range 24).any fun b => s.bankMode tile b == 0
/-- The sector of an address as the ways of a tile hold it; with no byte held where they do not. -/
def State.sector (s : State) (tile pa : Nat) : Sector := (Map.find? s.tileCache (cacheKey tile pa)).getD {}
/-- The byte that the ways hold at an address, and whether the tile has stored it. -/
def State.cached? (s : State) (tile pa : Nat) : Option (Byte × Bool) :=
  let x := s.sector tile pa
  if x.held.getLsbD (pa % 32) then some (x.byte (pa % 32), x.stored.getLsbD (pa % 32)) else none
/-- Whether the ways hold a dirty sector of an address. -/
def State.dirtySector (s : State) (tile pa : Nat) : Bool := (s.sector tile pa).dirty
def State.setSector (s : State) (tile pa : Nat) (x : Sector) : State := { s with tileCache := Map.insert s.tileCache (cacheKey tile pa) x }
/-- Store bytes into the ways of a tile. -/
def State.storeWays (s : State) (tile pa : Nat) : List Byte → State
  | [] => s
  | b :: rest => State.storeWays (s.setSector tile pa ((s.sector tile pa).put (pa % 32) b true)) tile (pa + 1) rest

/-- The sector of an address comes through the slice of the tile's cluster: into the ways, which keep what they already hold, or past them where the tile
has none (R25, R240). Uncorrectable bytes are not kept in the ways, so that whoever reads them meets them (R31, R405). -/
def State.fillSector (s : State) (tile pa : Nat) : State :=
  if s.hasWays tile then
    let x := s.sector tile pa
    if x.held = BitVec.allOnes 32 then s
    else
      let s1 := s.sliceAccess tile pa false
      if s.dramBad (pa / 32 * 32) 32 then s1
      else s1.setSector tile pa (x.take s.mem (pa / 32 * 32) fun j => !x.held.getLsbD j)
  else s.sliceAccess tile pa false

/-- The byte that the tile sees. -/
def State.seenByte (s : State) (tile pa : Nat) : Byte :=
  match s.cached? tile pa with
  | some e => e.1
  | none => Memory.read s.mem pa

/-- The bytes of a sector that the tile has stored go home, through the slice of its cluster; a sector stored whole is correct from then on (R25, R404). -/
def State.sendSector (s : State) (tile pa : Nat) (x : Sector) : State :=
  State.sliceAccess { s with
    mem := (List.range 32).foldl (fun m j => if x.own.getLsbD j then Memory.write m (pa + j) (x.byte j) else m) s.mem
    badSectors := if x.own = BitVec.allOnes 32 then s.badSectors.filter fun b => b != pa / 32 else s.badSectors } tile pa true

/-- Whether an entry of the ways is a sector of a tile that has a byte whose address satisfies p. -/
def ofTile (tile : Nat) (p : Nat → Bool) (e : Nat × Sector) : Bool :=
  sectorTile e.1 == tile && (List.range 32).any fun j => p (sectorPa e.1 + j)

/-- Write back the dirty sectors of a tile that have an address for which p holds; the copies stay, clean (R270 CWB). Of a sector the bytes go home that
the tile has stored: the others are not its to write, and writing them would undo the stores of another tile (R237).
[DEDUCED, unsafe, log 15; DESIGN CHOICE, unsafe, log 17] -/
def State.writeBack (s : State) (tile : Nat) (p : Nat → Bool) : State :=
  let hit (e : Nat × Sector) : Bool := e.2.dirty && ofTile tile p e
  let s1 := (s.tileCache.filter hit).foldl (fun s e => s.sendSector tile (sectorPa e.1) e.2) s
  { s1 with tileCache := s1.tileCache.map fun e => if hit e then (e.1, { e.2 with stored := 0 }) else e }
/-- Drop the clean sectors of a tile that have an address for which p holds; a dirty sector stays whole (R270 CINV, R280). -/
def State.dropSectors (s : State) (tile : Nat) (p : Nat → Bool) : State :=
  { s with tileCache := s.tileCache.filter fun e => e.2.dirty || !ofTile tile p e }
/-- The bytes of a dirty sector that its tile has not stored are fetched again: the sector stays, whole and dirty, and what an acquire orders sees in it no
byte from before the acquire (R280, R282). Uncorrectable bytes are not kept in the ways. [DESIGN CHOICE, unsafe, log 17] -/
def State.refreshed (s : State) (pa : Nat) (x : Sector) : Sector :=
  if s.dramBad pa 32 then { x with held := x.own } else x.take s.mem pa fun j => !x.own.getLsbD j
/-- What an acquire does to the ways of a tile where p holds: its clean sectors are dropped and its dirty ones refreshed (R280).
[DESIGN CHOICE, unsafe, log 17] -/
def State.dropClean (s : State) (tile : Nat) (p : Nat → Bool) : State :=
  let s1 := s.dropSectors tile p
  { s1 with tileCache := s1.tileCache.map fun e => if ofTile tile p e then (e.1, s.refreshed (sectorPa e.1) e.2) else e }
/-- Write back, then drop (R270 CFLUSH). [DESIGN CHOICE, unsafe, log 17] -/
def State.flushWays (s : State) (tile : Nat) (p : Nat → Bool) : State := (s.writeBack tile p).dropClean tile p
/-- The sector of an address, in the ways of the issuer, before an agent at the home acts for it: program order between accesses of one
context to one address (R277). [DEDUCED, unsafe, log 69] -/
def State.flushSector (s : State) (tile pa : Nat) : State := s.flushWays tile fun a => a / 32 == pa / 32

/-- A release at scope cluster or wider writes back every dirty sector of the tile (R276, R280). [DESIGN CHOICE, unsafe, log 121] -/
def State.releaseWays (s : State) (key scope : Nat) : State := if leavesTile key scope then s.writeBack (tileOf key) fun _ => true else s
/-- An acquire at scope cluster or wider drops the tile's clean sectors (R280). [DESIGN CHOICE, unsafe, log 121] -/
def State.acquireWays (s : State) (key scope : Nat) : State := if leavesTile key scope then s.dropClean (tileOf key) fun _ => true else s

/-! ## Reads and writes of a context -/

/-- Read n bytes at one place, through the issuer's ways (R255, R405). -/
def readPlace (s : State) (key va n : Nat) : Place → Except Trap (List Byte × State)
  | .dram pa =>
    if s.dramBad pa n && (List.range n).any (fun j => (s.cached? (tileOf key) (pa + j)).isNone) then .error (badDataTrap va)
    else
      let s1 := (s.fillSector (tileOf key) pa).fillSector (tileOf key) (pa + n - 1)
      .ok ((List.range n).map fun j => s1.seenByte (tileOf key) (pa + j), s1)
  | .bank tile bank off =>
    match bankChecks s key va tile bank with
    | .error t => .error t
    | .ok () => if s.bankBad tile bank off n then .error (badDataTrap va) else .ok (s.bankBytes tile bank off n, s)

/-- A tile without ways writes through the slice of its cluster; a System Tile writes at the home (R240, R243). -/
def State.sendBytes (s : State) (tile pa : Nat) (bs : List Byte) : State :=
  if tile < 384 then ((s.memWrite pa bs).sliceAccess tile pa true).sliceAccess tile (pa + bs.length - 1) true else s.dramWrite pa bs

/-- Bytes are written to a bank; all 32 bytes of an uncorrectable sector written together make it correct (R404). -/
def State.bankStore (s : State) (tile bank off : Nat) (bs : List Byte) : State :=
  State.bankWrite { s with badSectors := s.badSectors.filter fun b =>
    !(decide (2 ^ 47 ≤ b) && coversSector (bankKey tile bank off) bs.length (b - 2 ^ 47)) } tile bank off bs

/-- Write bytes at one place, through the issuer's ways. -/
def writePlace (s : State) (key va : Nat) (bs : List Byte) : Place → Except Trap State
  | .dram pa =>
    if s.hasWays (tileOf key) then
      let s1 := (s.fillSector (tileOf key) pa).fillSector (tileOf key) (pa + bs.length - 1)
      .ok (s1.storeWays (tileOf key) pa bs)
    else .ok (s.sendBytes (tileOf key) pa bs)
  | .bank tile bank off =>
    match bankChecks s key va tile bank with
    | .error t => .error t
    | .ok () => .ok (s.bankStore tile bank off bs)

/-- Translate and read n bytes for a context. -/
def loadAt (s : State) (key : Nat) (c : Ctx) (va n : Nat) : Except Trap (List Byte × State) :=
  match placeOf s key c va n .r with
  | .error t => .error t
  | .ok p => readPlace s key va n p

/-- Translate and write bytes for a context. -/
def storeAt (s : State) (key : Nat) (c : Ctx) (va : Nat) (bs : List Byte) : Except Trap State :=
  match placeOf s key c va bs.length .w with
  | .error t => .error t
  | .ok p => writePlace s key va bs p

/-- Read at the home or the bank, past the ways of every tile: copy engines, engines and the device's own reads (R284). [DEDUCED, unsafe, log 69] -/
def homeRead (s : State) (key va n : Nat) : Place → Except Trap (List Byte)
  | .dram pa => if s.dramBad pa n then .error (badDataTrap va) else .ok (Memory.readBytes s.mem pa n)
  | .bank tile bank off =>
    match bankChecks s key va tile bank with
    | .error t => .error t
    | .ok () => if s.bankBad tile bank off n then .error (badDataTrap va) else .ok (s.bankBytes tile bank off n)

/-- Write at the home or the bank. [DEDUCED, unsafe, log 69] -/
def homeWrite (s : State) (key va : Nat) (bs : List Byte) : Place → Except Trap State
  | .dram pa => .ok (s.dramWrite pa bs)
  | .bank tile bank off =>
    match bankChecks s key va tile bank with
    | .error t => .error t
    | .ok () => .ok (s.bankStore tile bank off bs)

/-- Read for an agent that acts for a context, element by element where it crosses a page. -/
def agentRead (s : State) (key : Nat) (c : Ctx) (va n : Nat) : Except Trap (List Byte) :=
  match placeOf s key c va n .r with
  | .error t => .error t
  | .ok p => homeRead s key va n p

def agentWrite (s : State) (key : Nat) (c : Ctx) (va : Nat) (bs : List Byte) : Except Trap State :=
  match placeOf s key c va bs.length .w with
  | .error t => .error t
  | .ok p => homeWrite s key va bs p

/-- A 64-bit word read by an agent. -/
def agentWord (s : State) (key : Nat) (c : Ctx) (va : Nat) : Except Trap Nat :=
  match agentRead s key c va 8 with
  | .error t => .error t
  | .ok bs => .ok (leNat bs)

/-- n words from an address, read by an agent. -/
def agentWords (s : State) (key : Nat) (c : Ctx) (va : Nat) : Nat → Except Trap (List Nat)
  | 0 => .ok []
  | n + 1 =>
    match agentWord s key c va with
    | .error t => .error t
    | .ok w =>
      match agentWords s key c (va + 8) n with
      | .error t => .error t
      | .ok ws => .ok (w :: ws)

/-- Checks 1 and 2 of R239 on the whole of an access of an agent to the aperture, before any of its bytes moves. -/
def spanCheck (s : State) (key : Nat) (c : Ctx) (va n : Nat) : Except Trap Unit :=
  if inAperture va && n != 0 then (apertureAt s key c va n).map fun _ => () else .ok ()

/-- n bytes from an address, one translation for each byte's page. -/
def bytesFrom (s : State) (key : Nat) (c : Ctx) (va : Nat) : Nat → Except Trap (List Byte)
  | 0 => .ok []
  | n + 1 =>
    match agentRead s key c va 1 with
    | .error t => .error t
    | .ok b =>
      match bytesFrom s key c (va + 1) n with
      | .error t => .error t
      | .ok bs => .ok (b ++ bs)

/-- Read n bytes for an agent. -/
def agentBytes (s : State) (key : Nat) (c : Ctx) (va n : Nat) : Except Trap (List Byte) :=
  match spanCheck s key c va n with
  | .error t => .error t
  | .ok () => bytesFrom s key c va n

/-- Write bytes one after another; what was written before a fault stays. [DESIGN CHOICE, unsafe, log 96] -/
def storeFrom (s : State) (key : Nat) (c : Ctx) (va : Nat) : List Byte → State × Option Trap
  | [] => (s, none)
  | b :: rest =>
    match agentWrite s key c va [b] with
    | .error t => (s, some t)
    | .ok s1 => storeFrom s1 key c (va + 1) rest

/-- Write bytes for an agent. [DESIGN CHOICE, unsafe, log 96] -/
def agentStore (s : State) (key : Nat) (c : Ctx) (va : Nat) (bs : List Byte) : State × Option Trap :=
  match spanCheck s key c va bs.length with
  | .error t => (s, some t)
  | .ok () => storeFrom s key c va bs

/-! ## Irrevocable effects of a launch (R411) -/

/-- The running launch of the graph of a context. -/
def State.launchOf (s : State) (key : Nat) : Option (Graph × Launch) :=
  match s.owner? key with
  | none => none
  | some c =>
    match s.graph? c.graph with
    | none => none
    | some g => g.running.map fun l => (g, l)

/-- The regions of a launch for a copy: base and length, read through the graph's ASID (R212, R223). -/
def launchRegions (s : State) (key : Nat) (c : Ctx) (l : Launch) (copy : Nat) : List (Nat × Nat) :=
  let table := (l.words.getD 14 0).toNat
  let n := (l.words.getD 15 0).toNat % 256
  if table = 0 then [] else
  (List.range n).filterMap fun j =>
    match agentWord s key c (table + 32 * j), agentWord s key c (table + 32 * j + 8 + 8 * copy) with
    | .ok len, .ok base => some (base, len)
    | _, _ => none

def inRegions (rs : List (Nat × Nat)) (va n : Nat) : Bool := rs.any fun r => decide (r.1 ≤ va) && decide (va + n ≤ r.1 + r.2)

def satCount (n : Nat) : Nat := Nat.min 65535 (n + 1)
/-- Count an effect of the launch of a context. -/
def State.countEffect (s : State) (key : Nat) (f : Launch → Launch) : State :=
  match s.launchOf key with
  | none => s
  | some (g, _) => s.modGraph g.handle fun g => { g with running := g.running.map f }
def State.countAtomic (s : State) (key : Nat) : State := s.countEffect key fun l => { l with atomics := satCount l.atomics }
def State.countAdd (s : State) (key : Nat) : State := s.countEffect key fun l => { l with adds := satCount l.adds }
/-- Whether n bytes at an address lie in DRAM and in no region of the launch of a context. [DEDUCED, unsafe, log 141] -/
def State.outside (s : State) (key va n : Nat) : Bool :=
  match s.launchOf key, s.owner? key with
  | some (_, l), some c => !inAperture va && !inRegions (launchRegions s key c l c.copy) va n
  | _, _ => false

/-- A store to DRAM that falls in no region of the launch. [DEDUCED, unsafe, log 141] -/
def State.countStore (s : State) (key va n : Nat) : State :=
  if s.outside key va n then s.countEffect key fun l => { l with stores := satCount l.stores } else s

/-- Whether a context runs in a copy of a redundant launch (R223). -/
def State.redundant (s : State) (key : Nat) : Bool :=
  match s.launchOf key with
  | some (_, l) => (l.words.getD 1 0).getLsbD 3
  | none => false

/-- The fault of a store, copy element or engine write in a copy of a redundant launch that falls outside its regions (R223, R411). -/
def State.strayStore (s : State) (key va n : Nat) : Option Trap :=
  if s.redundant key && s.outside key va n then some { cause := cProtection, info := wd va } else none

end Sys2Proof.Machine
end

