-- ==== Sys2Proof/Machine/Loads.lean ====
section
/-! DEFINITION. Loads and stores (R251 to R255): addresses, what they check at issue, and what they do when their result is written or their
bytes reach the home or the bank. -/

namespace Sys2Proof.Machine

/-! ## Types in memory (R70, R251) -/

/-- The element size in bytes; the 4-bit types move in pairs of one byte. -/
def tyBytes (ty : Nat) : Nat := Nat.max 1 (tyBits ty / 8)
/-- [DEDUCED, unsafe, log 75] -/
def tyNibble (ty : Nat) : Bool := ty == 14 || ty == 17
/-- t6 keeps six bits of a byte and writes the top two as zero (R35). [DEDUCED, unsafe, log 75] -/
def trimT6 (ty : Nat) (bs : List Byte) : List Byte := if ty = 16 then bs.map fun b => b &&& 0x3F else bs

/-- An order after the fallback of R80: loads take acquire for any ordering bit, stores release. -/
def loadOrd (ord : Nat) : Nat := if ord = 0 then 0 else 1
/-- [DEDUCED, unsafe, log 49] -/
def storeOrd (ord : Nat) : Nat := if ord = 0 then 0 else 2
/-- Whether R80 replaces the order of a load or of a store. -/
def loadCombo (ord : Nat) : Bool := decide (2 ≤ ord)
def storeCombo (ord : Nat) : Bool := ord == 1 || ord == 3

/-- The effective address (R65, R252): none when a 4-bit type's index plus displacement is odd. -/
def effAddr (ty : Nat) (base idx : Word) (disp : Int) : Option Nat :=
  if tyNibble ty then
    let n := idx.toInt + disp
    if n % 2 ≠ 0 then none else some (base + BitVec.ofInt 64 (n / 2)).toNat
  else some (base + BitVec.ofInt 64 ((idx.toInt + disp) * (tyBytes ty : Int))).toNat

/-- The address that an M-format instruction forms, with its displacement in elements; misalignment raises ALIGNMENT (R252). -/
def memAddr (ty : Nat) (hasIdx : Bool) (disp : Int) : M Nat := do
  let base ← opG .b
  let idx ← if hasIdx then opG .c else pure 0
  match effAddr ty base idx disp with
  | none => raise cAlignment (base + BitVec.ofInt 64 ((idx.toInt + disp) / 2))
  | some a => if a % tyBytes ty ≠ 0 then raise cAlignment (wd a) else pure a

def mDisp (f : MForm) : Int := f.disp.toInt

/-! ## Order of the accesses of one context (R255, R277, R280) -/

/-- The accesses of a context that have issued and not been made: those on their way, and atomics held in a repair queue (R258). -/
def State.inFlightOf (s : State) (key : Nat) : List Op :=
  (s.ops.filter fun o => o.ctx == key && o.isAccess) ++ (s.repairs.filter fun r => r.2.2.op.ctx == key).map fun r => r.2.2.op

/-- Whether a context has an access that is still to be made. -/
def State.accessing (s : State) (key : Nat) : Bool := !(s.inFlightOf key).isEmpty

/-- An access after an acquire of the context waits until the acquire has completed (R280). -/
def gateAcquire : M Unit := do
  let key ← curKey
  if ((← get).inFlightOf key).any fun o => hasAcq o.ord then stall .memory

/-- Whether an access at an address is held behind a diverted atomic of its context on the same page (R258). [DEDUCED, unsafe, log 70] -/
def State.arcHolds (s : State) (ctx addr : Nat) : Bool :=
  s.repairs.any fun r =>
    let log := ((s.owner? ctx).map fun c => pageLog s ctx c r.2.2.op.addr).getD 16
    r.2.2.op.ctx == ctx && r.2.2.op.addr / 2 ^ log == addr / 2 ^ log

/-- The address of a lane of a gather or scatter: BASE + (sext32(index) + DISP16) × 4 (R254). [DEDUCED, unsafe, log 75] -/
def laneAddr (base : Word) (idx : VWord) (disp : Int) (lane : Nat) : Nat :=
  (base + BitVec.ofInt 64 (((idx.extractLsb' (32 * lane) 32).toInt + disp) * 4)).toNat

def activeLanes (mask : Mask) : List Nat := (List.range 32).filter fun l => mask.getLsbD l

/-- Addresses that name every page an access touches: those of the active lanes of a gather or scatter, or the first and the last byte. -/
def Op.touches (o : Op) : List Nat :=
  match o.span with
  | none =>
    let f := MForm.ofWord o.word.toNat
    (activeLanes o.mask).map (laneAddr (o.opB.extractLsb' 0 64) o.opC f.disp.toInt)
  | some (_, n) => [o.addr, (o.addr + n - 1) % 2 ^ 64]

/-- Whether an access meets a busy bank or way, which makes it wait: the bank that it names, or, through the caches, a bank in CACHE mode of its tile or a
way of its cluster, whichever line it meets (R406, R407). [DESIGN CHOICE, safe, log 104] -/
def State.meetsTest (s : State) (ctx va : Nat) : Bool :=
  let tile := if bits va 29 21 = 511 then tileOf ctx else bits va 29 21
  if inAperture va then s.busyUnits.contains (unitWord 1 tile (bits va 20 16))
  else
    s.busyUnits.any fun u =>
      (unitType u == 1 && unitPlace u == tileOf ctx && s.bankMode (tileOf ctx) (unitPart u) == 0) || (unitType u == 2 && unitPlace u == clusterOfKey ctx)

/-- Whether an access may take effect now: no arc of its pages, no test of its bank, no older access of its context to its bytes, no older acquire, and
for a release no older access at all (R258, R277, R280). [DEDUCED, unsafe, log 14] -/
def State.mayPerform (s : State) (o : Op) : Bool :=
  !(o.touches.any fun a => s.arcHolds o.ctx a || s.meetsTest o.ctx a) &&
  !(s.inFlightOf o.ctx).any fun p => decide (p.id < o.id) && (hasRel o.ord || hasAcq p.ord || p.meets o)

/-! ## Issue -/

/-- Put a load in flight (R37, R251). -/
def issueLoad (f : MForm) (dstG dstV : List Nat) (addr : Nat) : M Unit := do
  gateAcquire
  let _ ← issueOp .load dstG dstV addr f.sc.toNat (loadOrd f.ord.toNat)

/-- The elements of a whole-register access that are active: number, bytes from the start (R35, R254). -/
def activeElems (ty : Nat) (mask : Mask) : List (Nat × Nat) :=
  let sz := tyBytes ty
  (List.range (128 / sz)).filterMap fun i => if mask.getLsbD (sz * i / 4) then some (i, sz * i) else none

/-- The first active lane whose address is misaligned raises ALIGNMENT (R254). -/
def gatherAlign (f : MForm) : M Unit := do
  let base ← opG .b
  let idx ← opV .c
  match (activeLanes (← opMask)).find? fun l => laneAddr base idx (mDisp f) l % 4 != 0 with
  | some l => raise cAlignment (wd (laneAddr base idx (mDisp f) l))
  | none => pure ()

/-- The physical address of a place, 2^60 for a bank. [DEDUCED, unsafe, log 16] -/
def Place.pa : Place → Nat
  | .dram pa => pa
  | .bank _ _ _ => 2 ^ 60

/-- The translations of the elements of a store, or the first fault. [DEDUCED, unsafe, log 16] -/
def storePas (s : State) (key : Nat) (c : Ctx) (size : Nat) : List Nat → Except Trap (List Nat)
  | [] => .ok []
  | a :: rest =>
    match placeOf s key c a size .w with
    | .error t => .error t
    | .ok p =>
      match storePas s key c size rest with
      | .error t => .error t
      | .ok pas => .ok (p.pa :: pas)

/-- The checks of R239 on the 128 bytes of a VLD or VST in the aperture, which has an active element. [DEDUCED, unsafe, log 16] -/
def checkWhole (s : State) (key : Nat) (c : Ctx) (a : Nat) (es : List (Nat × Nat)) : Except Trap Unit :=
  if inAperture a && !es.isEmpty then (apertureAt s key c a 128).map fun _ => () else .ok ()

/-- A store translates and checks the address of every active element at issue, before any byte is written (R253). -/
def checkStore (addrs : List Nat) (size : Nat) : M (List Nat) := do
  let key ← curKey
  let c ← curCtx
  match storePas (← get) key c size addrs with
  | .error t => throw (.trap t)
  | .ok pas => pure pas

/-- Whether 4 KiB of a bank are an ACTIVE screen-tile buffer: a SEQRET has made them one, and byte 3 is 1. Other data is no buffer, whatever its bytes
are (R249, R274). [DEDUCED, unsafe, log 70] -/
def State.activeBuffer (s : State) (tile bank base : Nat) : Bool :=
  (Map.find? s.holds (bankKey tile bank base / 4096)).isSome && s.bankByte tile bank (base + 3) == 1

/-- The protected bytes of an ACTIVE screen-tile buffer: 0 to 1,023 and 3,072 to 4,095 (R250). -/
def bufferProtected (s : State) (tile bank off n : Nat) : Bool :=
  s.activeBuffer tile bank (off / 4096 * 4096) && (decide (off % 4096 < 1024) || decide (3072 < off % 4096 + n))

/-- In a copy of a redundant launch a store outside the regions raises PROTECTION (R223). -/
def checkRedundantStore (addrs : List Nat) (size : Nat) : M Unit := do
  let key ← curKey
  let s ← get
  match addrs.findSome? fun a => s.strayStore key a size with
  | some t => throw (.trap t)
  | none => pure ()

/-- Put a store in flight (R253). [DEDUCED, unsafe, log 16] -/
def issueStore (f : MForm) (addr : Nat) (pas : List Nat) : M Unit := do
  gateAcquire
  let id ← issueOp .store [] [] addr f.sc.toNat (storeOrd f.ord.toNat)
  modify fun s => { s with ops := s.ops.map fun o => if o.id = id then { o with pas := pas } else o }

/-- LD (R254). -/
def execLd (f : MForm) (s : State) : Result :=
  runInstr (.ld f) (mAsk .scalar f (mBase f :: mIdx f) [gDst f.ds.toNat]) (do
    let a ← memAddr f.ty.toNat (f.idx ≠ 0) (mDisp f)
    issueLoad f [f.ds.toNat] [] a) s

/-- VLD (R254). -/
def execVld (f : MForm) (s : State) : Result :=
  runInstr (.vld f) (mAsk .vector f (mBase f :: mIdx f) [vDst f.ds.toNat]) (do
    let a ← memAddr f.ty.toNat (f.idx ≠ 0) (mDisp f)
    issueLoad f [] [f.ds.toNat] a) s

/-- VLDX: a gather of 32-bit lanes (R254). -/
def execVldx (f : MForm) (s : State) : Result :=
  runInstr (.vldx f) (mAsk .vector f [mBase f, mVIdx f] [vDst f.ds.toNat]) (do
    gatherAlign f
    issueLoad f [] [f.ds.toNat] 0) s

/-- ST (R254). -/
def execSt (f : MForm) (s : State) : Result :=
  runInstr (.st f) (mAsk .scalar f (mDs .g f :: mBase f :: mIdx f) []) (do
    let a ← memAddr f.ty.toNat (f.idx ≠ 0) (mDisp f)
    let pas ← checkStore [a] (tyBytes f.ty.toNat)
    checkRedundantStore [a] (tyBytes f.ty.toNat)
    issueStore f a pas) s

/-- VST (R254). -/
def execVst (f : MForm) (s : State) : Result :=
  runInstr (.vst f) (mAsk .vector f (mDs .v f :: mBase f :: mIdx f) []) (do
    let a ← memAddr f.ty.toNat (f.idx ≠ 0) (mDisp f)
    let elems := activeElems f.ty.toNat (← opMask)
    match checkWhole (← get) (← curKey) (← curCtx) a elems with
    | .error t => throw (.trap t)
    | .ok () => pure ()
    let es := elems.map fun e => (a + e.2) % 2 ^ 64
    let pas ← checkStore es (tyBytes f.ty.toNat)
    checkRedundantStore es (tyBytes f.ty.toNat)
    issueStore f a pas) s

/-- VSTX: a scatter of 32-bit lanes (R254). -/
def execVstx (f : MForm) (s : State) : Result :=
  runInstr (.vstx f) (mAsk .vector f [mDs .v f, mBase f, mVIdx f] []) (do
    gatherAlign f
    let base ← opG .b
    let idx ← opV .c
    let es := (activeLanes (← opMask)).map (laneAddr base idx (mDisp f))
    let pas ← checkStore es 4
    checkRedundantStore es 4
    issueStore f 0 pas) s

/-! ## Performing a load (R254, R255) -/

/-- Read one element after another; the first fault ends the load. -/
def loadElems (key : Nat) (c : Ctx) (n : Nat) : List Nat → State → Except Trap (List (List Byte) × State)
  | [], s => .ok ([], s)
  | a :: rest, s =>
    match loadAt s key c a n with
    | .error t => .error t
    | .ok (bs, s1) =>
      match loadElems key c n rest s1 with
      | .error t => .error t
      | .ok (vs, s2) => .ok (bs :: vs, s2)

/-- Put bytes into a vector register from a byte position. [DEDUCED, unsafe, log 75] -/
def putBytes (v : VWord) (pos : Nat) (bs : List Byte) : VWord :=
  let n := 8 * bs.length
  let mask : VWord := BitVec.ofNat 1024 ((2 ^ n - 1) * 2 ^ (8 * pos))
  (v &&& ~~~mask) ||| BitVec.ofNat 1024 (leNat bs * 2 ^ (8 * pos))

/-- The bytes of a vector register. -/
def vBytes (v : VWord) (pos n : Nat) : List Byte := leBytes n (v.toNat / 2 ^ (8 * pos))

/-- What a load writes: the g value or the v value, from the value of the register before. -/
def performLoad (s : State) (o : Op) (c : Ctx) : Except Trap (Ctx × State) :=
  let f := MForm.ofWord o.word.toNat
  let ty := f.ty.toNat
  let s0 := if hasAcq o.ord then s.acquireWays o.ctx o.scope else s
  match bits o.word.toNat 55 50 with
  | 0 =>
    match loadAt s0 o.ctx c o.addr (tyBytes ty) with
    | .error t => .error t
    | .ok (bs, s1) =>
      let x := wd (leNat bs)
      .ok (c.wg f.ds.toNat (if ty < 8 then wrInt ty (rdInt ty x) else x), s1)
  | 1 =>
    let es := activeElems ty o.mask
    match (checkWhole s0 o.ctx c o.addr es).bind fun _ => loadElems o.ctx c (tyBytes ty) (es.map fun e => (o.addr + e.2) % 2 ^ 64) s0 with
    | .error t => .error t
    | .ok (vs, s1) =>
      .ok (c.wv f.ds.toNat ((es.zip vs).foldl (fun v p => putBytes v p.1.2 (trimT6 ty p.2)) (c.rv f.ds.toNat)), s1)
  | _ =>
    let ls := activeLanes o.mask
    match loadElems o.ctx c 4 (ls.map (laneAddr (o.opB.extractLsb' 0 64) o.opC (mDisp f))) s0 with
    | .error t => .error t
    | .ok (vs, s1) => .ok (c.wv f.ds.toNat ((ls.zip vs).foldl (fun v p => putBytes v (4 * p.1) p.2) (c.rv f.ds.toNat)), s1)

/-! ## Performing a store (R253, R254) -/

/-- Write bytes of a context, to the physical address found at issue or to a bank after the checks that are made there; a protected part of an
ACTIVE buffer refuses (R250). -/
def performBytes (s : State) (key : Nat) (c : Ctx) (va pa : Nat) (bs : List Byte) : State × Option Trap :=
  if pa < 2 ^ 60 then
    match writePlace s key va bs (.dram pa) with
    | .error t => (s, some t)
    | .ok s1 => (s1, none)
  else
    match placeOf s key c va bs.length .w with
    | .error t => (s, some t)
    | .ok p =>
      match p with
      | .bank tile bank off =>
        match bankChecks s key va tile bank with
        | .error t => (s, some t)
        | .ok () =>
          if bufferProtected s tile bank off bs.length then (s, some { cause := cProtection, info := wd va, addr := wd va })
          else
            match writePlace s key va bs p with
            | .error t => (s, some t)
            | .ok s1 => (s1, none)
      | .dram _ =>
        match writePlace s key va bs p with
        | .error t => (s, some t)
        | .ok s1 => (s1, none)

/-- The pieces of a store with the physical addresses found at issue. -/
abbrev Pieces := List ((Nat × List Byte) × Nat)

/-- Pieces that follow on one another in one sector of 32 bytes are written together (R404). -/
def joinPieces : Pieces → Pieces
  | [] => []
  | p :: rest =>
    match joinPieces rest with
    | [] => [p]
    | q :: more =>
      let n := p.1.2.length
      if q.1.1 = p.1.1 + n ∧ q.1.1 / 32 = p.1.1 / 32 ∧ (q.2 = p.2 + n ∨ (q.2 = 2 ^ 60 ∧ p.2 = 2 ^ 60)) then ((p.1.1, p.1.2 ++ q.1.2), p.2) :: more
      else p :: q :: more

/-- Write pieces in order; the first fault is reported, and a request that faults writes nothing of that piece. -/
def performPieces (key : Nat) (c : Ctx) : Pieces → State → State × Option Trap
  | [], s => (s, none)
  | p :: rest, s =>
    match performBytes s key c p.1.1 p.2 p.1.2 with
    | (s1, some t) => (s1, some t)
    | (s1, none) => performPieces key c rest s1

/-- The addresses and bytes of a store. -/
def storePieces (o : Op) : List (Nat × List Byte) :=
  let f := MForm.ofWord o.word.toNat
  let ty := f.ty.toNat
  match bits o.word.toNat 55 50 with
  | 0 => [(o.addr, leBytes (tyBytes ty) o.opA.toNat)]
  | 1 => (activeElems ty o.mask).map fun e => ((o.addr + e.2) % 2 ^ 64, trimT6 ty (vBytes o.opA e.2 (tyBytes ty)))
  | _ => (activeLanes o.mask).map fun l =>
      (laneAddr (o.opB.extractLsb' 0 64) o.opC (mDisp f) l, vBytes o.opA (4 * l) 4)

/-- A store is counted once, if any of its elements falls outside the regions of its launch (R411). -/
def State.countPieces (s : State) (key : Nat) (ps : List (Nat × List Byte)) : State :=
  match ps.find? fun p => s.outside key p.1 p.2.length with
  | none => s
  | some p => s.countStore key p.1 p.2.length

/-- A store reaches its home or bank (R253, R280). [DEDUCED, unsafe, log 16] -/
def performStore (s : State) (o : Op) (c : Ctx) : State × Option Trap :=
  let s0 := if hasRel o.ord then s.releaseWays o.ctx o.scope else s
  let ps := storePieces o
  match performPieces o.ctx c (joinPieces (ps.zip o.pas)) s0 with
  | (s1, some t) => (s1, some t)
  | (s1, none) =>
    let s2 := s1.countPieces o.ctx ps
    (if hasRel o.ord then s2.releaseWays o.ctx o.scope else s2, none)

end Sys2Proof.Machine
end

