-- ==== Sys2Proof/Machine/Numeric.lean ====
section
/-! DEFINITION. Number formats to the bit (R291 to R309): decoding to exact values, rounding, and encoding into every type, with the flags and
warnings that each raises. -/

namespace Sys2Proof.Machine

/-- The exact value of an element: a NaN (signalling or quiet), an infinity, or (−1)^neg × m × 2^e (R292). -/
inductive Val where
  | nan (sig : Bool)
  | inf (neg : Bool)
  | fin (neg : Bool) (m : Nat) (e : Int)
  deriving DecidableEq, Repr

/-- An encoded element with the %fpflags and %warn bits that it raises. -/
structure Enc where
  code : Nat
  fp : Word := 0
  warn : Word := 0
  deriving DecidableEq, Repr

/-! ## Formats (R294, R297) -/

/-- A binary format: widths of exponent and fraction, and bias. -/
structure Binary where
  ebits : Nat
  fbits : Nat
  bias : Nat
  deriving DecidableEq, Repr

def binaryOf (ty : Nat) : Option Binary :=
  match ty with
  | 8 => some ⟨5, 10, 15⟩
  | 9 => some ⟨8, 7, 127⟩
  | 10 => some ⟨8, 23, 127⟩
  | 11 => some ⟨11, 52, 1023⟩
  | 12 => some ⟨4, 3, 7⟩
  | 13 => some ⟨5, 2, 15⟩
  | 14 => some ⟨2, 1, 1⟩
  | _ => none

def Binary.width (b : Binary) : Nat := 1 + b.ebits + b.fbits
/-- Exponent of the smallest normal. -/
def Binary.emin (b : Binary) : Int := 1 - (b.bias : Int)
/-- Whether the format keeps the all-ones exponent for infinities and NaNs. -/
def ieeeLike (ty : Nat) : Bool := (decide (8 ≤ ty) && decide (ty ≤ 11)) || ty == 13

/-- Type classes: integers 0 to 7 and i4; types with subnormals (R80). -/
def isIntTy (ty : Nat) : Bool := decide (ty < 8) || ty == 17
def hasSubnormals (ty : Nat) : Bool := decide (8 ≤ ty) && decide (ty ≤ 14)
/-- Bits of an element's code: t6 has six, held in eight (R70). -/
def codeBits (ty : Nat) : Nat := if ty = 16 then 6 else tyBits ty

/-- The code of the largest finite magnitude (R294, R297). -/
def maxFiniteCode (ty : Nat) : Nat :=
  match ty with
  | 8 => 0x7BFF
  | 9 => 0x7F7F
  | 10 => 0x7F7FFFFF
  | 11 => 0x7FEFFFFFFFFFFFFF
  | 12 => 0x7E
  | 13 => 0x7B
  | _ => 0x7

/-- The code of +∞ where the format has one. -/
def infCode (ty : Nat) : Nat :=
  match ty with
  | 8 => 0x7C00
  | 9 => 0x7F80
  | 10 => 0x7F800000
  | 11 => 0x7FF0000000000000
  | _ => 0x7C

/-- The canonical NaN (R295). -/
def nanCode (ty : Nat) : Nat :=
  match ty with
  | 8 => 0x7E00
  | 9 => 0x7FC0
  | 10 => 0x7FC00000
  | 11 => 0x7FF8000000000000
  | 12 => 0x7F
  | 13 => 0x7E
  | 15 => 0x80
  | 16 => 0x20
  | 18 => 0xFF
  | 19 => 0xFF00
  | _ => 0

/-! ## Decoding (R293 to R301) -/

def decodeBinary (b : Binary) (ty code : Nat) : Val :=
  let neg := code / 2 ^ (b.ebits + b.fbits) % 2 == 1
  let ex := code / 2 ^ b.fbits % 2 ^ b.ebits
  let fr := code % 2 ^ b.fbits
  if ieeeLike ty && ex == 2 ^ b.ebits - 1 then
    if fr = 0 then .inf neg else .nan (fr / 2 ^ (b.fbits - 1) % 2 == 0)
  else if ty == 12 && ex == 15 && fr == 7 then .nan false
  else if ex = 0 then .fin neg fr (b.emin - b.fbits)
  else .fin neg (2 ^ b.fbits + fr) ((ex : Int) - b.bias - b.fbits)

/-- Leading bits equal to r in the low w bits of m. -/
def runLength (m : Nat) (r : Nat) : Nat → Nat
  | 0 => 0
  | w + 1 => if m / 2 ^ w % 2 = r then 1 + runLength m r w else 0

/-- The magnitude field of a tapered code of n − 1 bits, nonzero, as m × 2^e (R300). -/
def taperedMag (bitsM m : Nat) : Nat × Int :=
  let r := m / 2 ^ (bitsM - 1) % 2
  let run := runLength m r bitsM
  let k : Int := if r = 1 then (run : Int) - 1 else -(run : Int)
  let left := bitsM - run - 1
  let rest := m % 2 ^ left
  if left = 0 then (1, 2 * k)
  else
    let e := rest / 2 ^ (left - 1)
    let j := left - 1
    (2 ^ j + rest % 2 ^ j, 2 * k + e - j)

def decodeTapered (bitsM code : Nat) : Val :=
  let neg := code / 2 ^ bitsM % 2 == 1
  let m := code % 2 ^ bitsM
  if m = 0 then (if neg then .nan false else .fin false 0 0)
  else
    let v := taperedMag bitsM m
    .fin neg v.1 v.2

/-- An integer as an exact value. -/
def intVal (n : Int) : Val := .fin (decide (n < 0)) n.natAbs 0

/-- The exact value of a code of a type. -/
def decodeVal (ty code : Nat) : Val :=
  match binaryOf ty with
  | some b => decodeBinary b ty code
  | none =>
    match ty with
    | 15 => decodeTapered 7 code
    | 16 => decodeTapered 5 code
    | 17 => intVal (asInt true 4 code)
    | 18 => if code % 256 = 255 then .nan false else .fin false 1 ((code % 256 : Nat) - 127)
    | 19 =>
      let ex := code / 256 % 256
      if ex = 0 then .fin false 0 0 else if ex = 255 then .inf false else .fin false (256 + code % 256) ((ex : Int) - 127 - 8)
    | _ => intVal (asInt (tySigned ty) (tyWidth ty) code)

/-- Whether a code is a subnormal of a type that has them. -/
def isSubnormal (ty code : Nat) : Bool :=
  match binaryOf ty with
  | some b => code / 2 ^ b.fbits % 2 ^ b.ebits == 0 && code % 2 ^ b.fbits != 0
  | none => false

/-- A source element; `.ftz` reads a subnormal as a zero of its sign (R296). -/
def fetchVal (ty code : Nat) (ftz : Bool) : Val :=
  if ftz && isSubnormal ty code then
    match decodeVal ty code with
    | .fin neg _ _ => .fin neg 0 0
    | v => v
  else decodeVal ty code

/-! ## Exact arithmetic -/

def Val.neg : Val → Val
  | .nan s => .nan s
  | .inf n => .inf (!n)
  | .fin n m e => .fin (!n) m e
def Val.abs : Val → Val
  | .nan s => .nan s
  | .inf _ => .inf false
  | .fin _ m e => .fin false m e
def Val.isNan : Val → Bool
  | .nan _ => true
  | _ => false
def Val.isSig : Val → Bool
  | .nan s => s
  | _ => false
def Val.isInf : Val → Bool
  | .inf _ => true
  | _ => false
def Val.isZero : Val → Bool
  | .fin _ m _ => m == 0
  | _ => false
def Val.sign : Val → Bool
  | .nan _ => false
  | .inf n => n
  | .fin n _ _ => n

/-- m × 2^e as an integer count of 2^t, for t ≤ e. -/
def scaleUp (m : Nat) (e t : Int) : Nat := m * 2 ^ (e - t).toNat

/-- Compare m1 × 2^e1 with m2 × 2^e2. -/
def magLe (m1 : Nat) (e1 : Int) (m2 : Nat) (e2 : Int) : Bool :=
  let t := if e1 ≤ e2 then e1 else e2
  decide (scaleUp m1 e1 t ≤ scaleUp m2 e2 t)
def magLt (m1 : Nat) (e1 : Int) (m2 : Nat) (e2 : Int) : Bool := !magLe m2 e2 m1 e1

/-- The signed sum of two finite values, as an integer count of 2^e. -/
def sumFin (n1 : Bool) (m1 : Nat) (e1 : Int) (n2 : Bool) (m2 : Nat) (e2 : Int) : Int × Int :=
  let t := if e1 ≤ e2 then e1 else e2
  let a : Int := scaleUp m1 e1 t
  let b : Int := scaleUp m2 e2 t
  ((if n1 then -a else a) + (if n2 then -b else b), t)

/-- Order of two values that are not NaN; zeros of either sign are equal. -/
def Val.lt (a b : Val) : Bool :=
  match a, b with
  | .inf n, .inf m => n && !m
  | .inf n, _ => n
  | _, .inf m => !m
  | .fin n1 m1 e1, .fin n2 m2 e2 => decide ((sumFin n1 m1 e1 (!n2) m2 e2).1 < 0)
  | _, _ => false
def Val.eq (a b : Val) : Bool :=
  match a, b with
  | .inf n, .inf m => n == m
  | .fin n1 m1 e1, .fin n2 m2 e2 => decide ((sumFin n1 m1 e1 (!n2) m2 e2).1 = 0)
  | _, _ => false

/-- floor(log2 m) + e for m > 0. -/
def floorLog (m : Nat) (e : Int) : Int := (Nat.log2 m : Int) + e

/-! ## Rounding (R302) -/

/-- Whether a value between q and q + 1, at `rem` of 2^k above q with `sticky` more below, rounds up. -/
def roundsUp (rm : Nat) (neg : Bool) (q rem k : Nat) (sticky : Bool) : Bool :=
  let half := 2 ^ (k - 1)
  match rm with
  | 0 => decide (half < rem) || (rem == half && (sticky || q % 2 == 1))
  | 1 => false
  | 2 => (rem != 0 || sticky) && !neg
  | 3 => (rem != 0 || sticky) && neg
  | _ => decide (half ≤ rem)

/-- Round m × 2^e, with more below when sticky, to a multiple of 2^qe: the multiple, and whether it differs. A sticky value must have
e < qe. -/
def roundAt (rm : Nat) (neg : Bool) (m : Nat) (e : Int) (sticky : Bool) (qe : Int) : Nat × Bool :=
  if qe ≤ e then (m * 2 ^ (e - qe).toNat, sticky)
  else
    let k := (qe - e).toNat
    let q := m / 2 ^ k
    let rem := m % 2 ^ k
    (if roundsUp rm neg q rem k sticky then q + 1 else q, rem != 0 || sticky)

/-- Round a magnitude to p bits with the exponent bounded below: q × 2^qe and whether it differs. -/
def roundPrec (p : Nat) (low : Int) (rm : Nat) (neg : Bool) (m : Nat) (e : Int) (sticky : Bool) : Nat × Int × Bool :=
  let want := floorLog m e - (p - 1)
  let qe := if want ≤ low then low else want
  let r := roundAt rm neg m e sticky qe
  (r.1, qe, r.2)

/-- Round a finite value to an integer under RM: the integer, and whether it differs (R305). -/
def roundToInt (rm : Nat) (neg : Bool) (m : Nat) (e : Int) : Int × Bool :=
  let r := roundAt rm neg m e false 0
  (if neg then -(r.1 : Int) else r.1, r.2)

/-! ## Encoding into binary formats (R303, R304) -/

/-- The code of q × 2^qe, which the format holds. -/
def packBinary (b : Binary) (neg : Bool) (q : Nat) (qe : Int) : Nat :=
  let sgn := b2n neg * 2 ^ (b.ebits + b.fbits)
  if q = 0 then sgn
  else
    let l := floorLog q qe
    if l < b.emin then sgn + scaleUp q qe (b.emin - b.fbits)
    else
      let ex := (l + b.bias).toNat
      let fr := if l - b.fbits ≤ qe then scaleUp q qe (l - b.fbits) else q / 2 ^ (l - b.fbits - qe).toNat
      sgn + ex * 2 ^ b.fbits + (fr - 2 ^ b.fbits)

def signed (b : Binary) (neg : Bool) (code : Nat) : Nat := b2n neg * 2 ^ (b.ebits + b.fbits) + code

/-- The largest finite code on a grid whose `drop` low fraction bits are 0. -/
def gridMax (ty drop : Nat) : Nat := maxFiniteCode ty / 2 ^ drop * 2 ^ drop

/-- Overflow of a rounded result (R303), on a grid whose `drop` low fraction bits are 0. -/
def encodeOverflow (b : Binary) (ty rm sm drop : Nat) (neg : Bool) : Enc :=
  let big := signed b neg (gridMax ty drop)
  if sm ≠ 0 ∨ ty = 14 then { code := big, fp := fOF ||| fNX, warn := wSat }
  else
    let away := rm == 0 || rm == 4 || (rm == 2 && !neg) || (rm == 3 && neg)
    if !away then { code := big, fp := fOF ||| fNX }
    else if ty = 12 then { code := 0x7F, fp := fOF ||| fNX }
    else { code := signed b neg (infCode ty), fp := fOF ||| fNX }

/-- Whether q × 2^qe lies beyond the largest finite value. -/
def overflows (b : Binary) (ty q : Nat) (qe : Int) : Bool :=
  match decodeBinary b ty (maxFiniteCode ty) with
  | .fin _ m e => magLt m e q qe
  | _ => false

/-- Encode a nonzero magnitude, with more below it when sticky, into a binary format of which `drop` low fraction bits are kept 0 (R302, R303,
R296). -/
def encodeMag (b : Binary) (ty rm sm : Nat) (ftz : Bool) (drop : Nat) (neg : Bool) (m : Nat) (e : Int) (sticky : Bool) : Enc :=
  let p := b.fbits + 1 - drop
  let (q, qe, nx) := roundPrec p (b.emin - b.fbits + drop) rm neg m e sticky
  if overflows b ty q qe then encodeOverflow b ty rm sm drop neg
  else
    let (uq, uqe, _) := roundPrec p (floorLog m e - 2 * p) rm neg m e sticky
    let tiny := decide (floorLog uq uqe < b.emin)
    let code := packBinary b neg q qe
    if ftz && q != 0 && decide (floorLog q qe < b.emin) then { code := signed b neg 0, fp := fUF ||| fNX }
    else { code := code, fp := (if nx then fNX else 0) ||| (if nx && tiny then fUF else 0) }

/-- Encode into a binary format (R303, R304). -/
def encodeBinary (b : Binary) (ty rm sm : Nat) (ftz : Bool) (v : Val) : Enc :=
  match v with
  | .nan sig => if ty = 14 then { code := 0, fp := fNV } else { code := nanCode ty, fp := if sig then fNV else 0 }
  | .inf neg =>
    if ty = 14 then { code := signed b neg 7, warn := wSat }
    else if ty = 12 then (if sm = 0 then { code := 0x7F } else { code := signed b neg 0x7E, warn := wSat })
    else if sm = 2 then { code := signed b neg (maxFiniteCode ty), warn := wSat }
    else { code := signed b neg (infCode ty) }
  | .fin neg m e => if m = 0 then { code := signed b neg 0 } else encodeMag b ty rm sm ftz 0 neg m e false

/-! ## Tapered formats (R304, R307) -/

/-- The largest magnitude code whose value does not exceed m × 2^e, looked for from `c` downwards. -/
def taperedBelow (bitsM : Nat) (m : Nat) (e : Int) : Nat → Nat
  | 0 => 0
  | c + 1 =>
    let v := taperedMag bitsM (c + 1)
    if magLe v.1 v.2 m e then c + 1 else taperedBelow bitsM m e c

/-- Encode into t8 (bitsM = 7) or t6 (bitsM = 5). -/
def encodeTapered (bitsM rm : Nat) (v : Val) : Enc :=
  let top := 2 ^ bitsM - 1
  let sm (neg : Bool) (c : Nat) : Nat := b2n neg * 2 ^ bitsM + c
  match v with
  | .nan sig => { code := 2 ^ bitsM, fp := if sig then fNV else 0, warn := wNar }
  | .inf neg => { code := sm neg top, warn := wSat }
  | .fin neg m e =>
    if m = 0 then { code := 0 }
    else
      let mx := taperedMag bitsM top
      let mn := taperedMag bitsM 1
      if magLt mx.1 mx.2 m e then { code := sm neg top, fp := fOF ||| fNX, warn := wSat }
      else if magLt m e mn.1 mn.2 then { code := sm neg 1, fp := fUF ||| fNX }
      else
        let c := taperedBelow bitsM m e top
        let lo := taperedMag bitsM c
        if magLe m e lo.1 lo.2 then { code := sm neg c }
        else
          let hi := taperedMag bitsM (c + 1)
          let t := (if lo.2 ≤ hi.2 then (if lo.2 ≤ e then lo.2 else e) else (if hi.2 ≤ e then hi.2 else e))
          let below := scaleUp m e t - scaleUp lo.1 lo.2 t
          let above := scaleUp hi.1 hi.2 t - scaleUp m e t
          let up : Bool :=
            match rm with
            | 0 => decide (above < below) || (above == below && c % 2 == 1)
            | 1 => false
            | 2 => !neg
            | 3 => neg
            | _ => decide (above ≤ below)
          { code := sm neg (if up then c + 1 else c), fp := fNX }

/-! ## e8m0 and eb16 (R308, R309) -/

/-- Encode a nonzero magnitude, with more below it when sticky, as a power of two; the halfway point is 1.5 × 2^n (R308). -/
def e8m0Mag (rm sm m : Nat) (e : Int) (sticky : Bool) : Enc :=
  let n := floorLog m e
  let p := 2 ^ Nat.log2 m
  let exact := m == p && !sticky
  let up : Bool :=
    if exact then false
    else
      match rm with
      | 0 => decide (3 * p < 2 * m) || (2 * m == 3 * p && (sticky || decide ((n + 127) % 2 ≠ 0)))
      | 1 => false
      | 2 => true
      | 3 => false
      | _ => decide (3 * p ≤ 2 * m)
  let r := if up then n + 1 else n
  if r < -127 then { code := 0, fp := fUF ||| fNX }
  else if 127 < r then
    (if sm = 0 then { code := 0xFF, fp := fOF ||| fNX } else { code := 0xFE, fp := fOF ||| fNX, warn := wSat })
  else { code := (r + 127).toNat, fp := if exact then 0 else fNX }

def encodeE8m0 (rm sm : Nat) (v : Val) : Enc :=
  match v with
  | .nan sig => { code := 0xFF, fp := if sig then fNV else 0 }
  | .inf _ => if sm = 0 then { code := 0xFF } else { code := 0xFE, warn := wSat }
  | .fin _ m e => if m = 0 then { code := 0, fp := fNX } else e8m0Mag rm sm m e false

/-- The least eb16 code not below m × 2^e, with more below m's last place when sticky, and whether it differs (R309). -/
def upEb16 (m : Nat) (e : Int) (sticky : Bool) : Nat × Bool :=
  if m = 0 then (if sticky then (0x0100, true) else (0, false))
  else
    let l := floorLog m e
    if l < -126 then (0x0100, true)
    else
      let qe := l - 8
      let r : Nat × Bool :=
        if qe ≤ e then (m * 2 ^ (e - qe).toNat + b2n sticky, sticky)
        else
          let k := (qe - e).toNat
          let q := m / 2 ^ k
          if m % 2 ^ k = 0 && !sticky then (q, false) else (q + 1, true)
      let q := if r.1 = 512 then 256 else r.1
      let l := if r.1 = 512 then l + 1 else l
      if 127 < l then (0xFF00, true) else ((l + 127).toNat * 256 + (q - 256), r.2)

def encodeEb16 (v : Val) : Enc :=
  match v with
  | .nan sig => { code := 0xFF00, fp := if sig then fNV else 0 }
  | .inf _ => { code := 0xFF00 }
  | .fin _ m e =>
    let r := upEb16 m e false
    { code := r.1, fp := if r.2 then fNX else 0 }

/-! ## Integers (R304 to R306) -/

/-- Width, sign and range of an integer type, i4 among them (R293). -/
def intWidth (ty : Nat) : Nat := if ty = 17 then 4 else tyWidth ty
def intSigned (ty : Nat) : Bool := ty == 17 || tySigned ty
def intLow (ty : Nat) : Int := if intSigned ty then -(2 ^ (intWidth ty - 1) : Int) else 0
def intHigh (ty : Nat) : Int := if intSigned ty then 2 ^ (intWidth ty - 1) - 1 else 2 ^ intWidth ty - 1
def intCode (ty : Nat) (n : Int) : Nat := lowBits (intWidth ty) n

/-- A value that is not an integer source, or that has been scaled, into an integer type (R304, R305). -/
def encodeInt (ty rm sm : Nat) (v : Val) : Enc :=
  let out (neg : Bool) (fp : Word) : Enc :=
    if sm = 0 then { code := intCode ty (intLow ty), fp := fp ||| fNV }
    else { code := intCode ty (if neg then intLow ty else intHigh ty), fp := fp, warn := wSat }
  match v with
  | .nan _ => { code := 0, fp := fNV }
  | .inf neg => out neg 0
  | .fin neg m e =>
    let (n, nx) := roundToInt rm neg m e
    let fp : Word := if nx then fNX else 0
    if intLow ty ≤ n ∧ n ≤ intHigh ty then { code := intCode ty n, fp := fp } else out (decide (n < intLow ty)) fp

/-- An integer into another integer type (R306). -/
def encodeIntInt (ty sm : Nat) (n : Int) : Enc :=
  if sm = 0 then { code := intCode ty n }
  else if n < intLow ty then { code := intCode ty (intLow ty), warn := wSat }
  else if intHigh ty < n then { code := intCode ty (intHigh ty), warn := wSat }
  else { code := intCode ty n }

/-! ## Every destination -/

/-- Encode an exact value into a type (R303 to R309). SM already carries the fallbacks of R80. -/
def encodeVal (ty rm sm : Nat) (ftz : Bool) (v : Val) : Enc :=
  match binaryOf ty with
  | some b => encodeBinary b ty rm sm ftz v
  | none =>
    match ty with
    | 15 => encodeTapered 7 rm v
    | 16 => encodeTapered 5 rm v
    | 18 => encodeE8m0 rm sm v
    | 19 => encodeEb16 v
    | _ => encodeInt ty rm sm v

/-- Saturation after the fallbacks of R80: satfinite acts as sat for an integer type, nosat as sat for e2m1, t8 and t6. -/
def smFor (ty sm : Nat) : Nat := if isIntTy ty && sm == 2 then 1 else if (ty == 14 || ty == 15 || ty == 16) && sm == 0 then 1 else sm
def smCombo (ty sm : Nat) : Bool := (isIntTy ty && sm == 2) || ((ty == 14 || ty == 15 || ty == 16) && sm == 0)

/-- The value of an integer code. -/
def intOfCode (ty code : Nat) : Int := asInt (intSigned ty) (intWidth ty) code

/-- CVT of one element: integer to integer under R306, everything else from its exact value (R292, R329). -/
def convertElem (src dst rm sm : Nat) (ftz : Bool) (code : Nat) : Enc :=
  let sm := smFor dst sm
  let v := fetchVal src code (ftz && hasSubnormals src)
  if isIntTy src && isIntTy dst then encodeIntInt dst sm (intOfCode src code)
  else
    let r := encodeVal dst rm sm (ftz && hasSubnormals dst) v
    if v.isSig then { r with fp := r.fp ||| fNV } else r

/-- A width adapter's conversion: exact upwards, rne with sat downwards; and whether the element changed value (R143). -/
def adaptElem (src dst code : Nat) : Nat × Bool :=
  if src = dst then (code, false)
  else
    let r := convertElem src dst 0 1 false code
    (r.code, decide (decodeVal src code ≠ decodeVal dst r.code) && !(decodeVal src code).eq (decodeVal dst r.code))

end Sys2Proof.Machine
end

