-- ==== Sys2Proof/Machine/Tokens.lean ====
section
/-! DEFINITION. Tokens and link words (R20, R140 to R143): packing elements, the header's fields, width adapters, and taking elements from a
stream of link words (R153, R314). -/

namespace Sys2Proof.Machine

/-! ## Packing (R142) -/

/-- Bits of an element in a link word. -/
def linkBits (fmt : Nat) : Nat := codeBits fmt

/-- Elements per link word. -/
def perWord (fmt : Nat) : Nat := 256 / linkBits fmt

/-- Pack codes from bit 0 upwards. -/
def packCodes (w : Nat) (codes : List Nat) : Nat :=
  codes.foldr (fun c n => n * 2 ^ w + c % 2 ^ w) 0

/-- n codes of w bits. -/
def unpackCodes (w n : Nat) (x : Nat) : List Nat := (List.range n).map fun i => x / 2 ^ (w * i) % 2 ^ w

/-- A list in pieces of n, with fuel for its length. -/
def chunk {α : Type} (n : Nat) : Nat → List α → List (List α)
  | 0, _ => []
  | _, [] => []
  | fuel + 1, l => l.take n :: chunk n fuel (l.drop n)

/-- The link words that carry a list of elements; the last one has its COUNT when it is partly filled (R140). -/
def linkWords (fmt : Nat) (codes : List Nat) : List LinkWord :=
  (chunk (perWord fmt) codes.length codes).map fun l =>
    { data := BitVec.ofNat 256 (packCodes (linkBits fmt) l), count := if l.length = perWord fmt then 0 else l.length }

/-- The elements of a link word. -/
def LinkWord.elems (fmt : Nat) (w : LinkWord) : List Nat :=
  unpackCodes (linkBits fmt) (if w.count = 0 then perWord fmt else w.count) w.data.toNat

/-! ## Headers (R20, R141) -/

def hdrL (h : Word) : Nat := bits h.toNat 38 35
def hdrFmt (h : Word) : Nat := bits h.toNat 44 40
def hdrTag (h : Word) : Nat := bits h.toNat 47 45
def hdrEos (h : Word) : Bool := h.getLsbD 39
/-- A word with the field of w bits from bit lo replaced. -/
def putField (h : Word) (lo w v : Nat) : Word :=
  (h &&& ~~~(wd ((2 ^ w - 1) * 2 ^ lo))) ||| wd (v % 2 ^ w * 2 ^ lo)
def setL (h : Word) (l : Nat) : Word := putField h 35 4 l
def setFmt (h : Word) (f : Nat) : Word := putField h 40 5 f
def setTag (h : Word) (t : Nat) : Word := putField h 45 3 t
def setEos (h : Word) (e : Bool) : Word := putField h 39 1 (b2n e)
/-- The bits of a header template that the device uses: [63:48], [47:45] and [34:0] (R159). -/
def templateBits (h : Word) : Word := h &&& 0xFFFFE007FFFFFFFF

/-- Slots a token of L link words takes (R145). -/
def slotsOf (l : Nat) : Nat := Nat.max l 1

/-! ## Width adapters (R143) -/

/-- The pairs of formats an adapter joins. -/
def adapterPair (a b : Nat) : Bool :=
  [(17, 0), (0, 17), (14, 12), (12, 14), (16, 15), (15, 16)].contains (a, b)

/-- The link words of an adapter, with ADJ on each word in which an element changed. -/
def adaptWords (src dst : Nat) (ws : List LinkWord) : List LinkWord :=
  let es := (ws.flatMap fun w => w.elems src).map (adaptElem src dst)
  (chunk (perWord dst) es.length es).map fun l =>
    { data := BitVec.ofNat 256 (packCodes (linkBits dst) (l.map (·.1))), adj := l.any (·.2)
      count := if l.length = perWord dst then 0 else l.length }

/-- The delivered tokens of an adapter edge: words in groups of eight, L of each rewritten, EOS on the last alone. -/
def adaptToken (src dst : Nat) (t : Token) : List Token :=
  if src = dst then [{ t with slots := slotsOf t.words.length }]
  else if t.words.isEmpty then [{ t with header := setFmt t.header dst, slots := 1 }]
  else
    let groups := chunk 8 16 (adaptWords src dst t.words)
    (groups.zipIdx).map fun p =>
      { header := setEos (setL (setFmt t.header dst) p.1.length) (hdrEos t.header && p.2 + 1 == groups.length),
        words := p.1, slots := slotsOf p.1.length }

/-- The slots that the delivered tokens of a push occupy (R143, R145). -/
def deliveredSlots (src dst : Nat) (t : Token) : Nat := ((adaptToken src dst t).map fun d => d.slots).foldl (· + ·) 0

/-! ## Stream reads (R153) -/

/-- What taking n elements from the head of a list of tokens gives. -/
inductive Taken where
  /-- The elements, the tokens that remain, the elements taken from the head word of them, the tokens popped, and whether a word had ADJ. -/
  | ok (codes : List Nat) (rest : List Token) (taken : Nat) (popped : List Token) (adj : Bool)
  /-- Too few elements. -/
  | short
  /-- A token with no link words stands in the way. -/
  | noWords
  /-- A link word fails its check code (R405). -/
  | bad
  deriving DecidableEq, Repr

/-- Take elements from the words of one token: elements, the words left, elements taken of the first of them, ADJ seen, and a bad word met. -/
def takeWords (fmt : Nat) : Nat → Nat → List LinkWord → List Nat × List LinkWord × Nat × Bool × Bool
  | _, taken, [] => ([], [], taken, false, false)
  | need, taken, w :: rest =>
    if need = 0 then ([], w :: rest, taken, false, false)
    else if w.bad then ([], w :: rest, taken, false, true)
    else
      let es := (w.elems fmt).drop taken
      if need < es.length then (es.take need, w :: rest, taken + need, w.adj, false)
      else
        let r := takeWords fmt (need - es.length) 0 rest
        (es ++ r.1, r.2.1, r.2.2.1, w.adj || r.2.2.2.1, r.2.2.2.2)

/-- Whether no element of a link word is left once some have been taken. -/
def LinkWord.spent (fmt : Nat) (w : LinkWord) (taken : Nat) : Bool := (if w.count = 0 then perWord fmt else w.count) ≤ taken

/-- The words of a token from which a number of elements has already been taken: the words that are left, and what is taken of the first of them. -/
def skipWords (fmt : Nat) : Nat → List LinkWord → List LinkWord × Nat
  | taken, [] => ([], taken)
  | taken, w :: rest =>
    if w.spent fmt taken then skipWords fmt (taken - (if w.count = 0 then perWord fmt else w.count)) rest else (w :: rest, taken)

/-- Take elements across tokens; `taken` elements of the first token have been taken before, and a token keeps its words until it is popped whole
(R146, R153). [DEDUCED, unsafe, log 47] -/
def takeStream (fmt : Nat) : Nat → Nat → List Token → Taken
  | need, taken, [] => if need = 0 then .ok [] [] taken [] false else .short
  | need, taken, t :: rest =>
    if need = 0 then .ok [] (t :: rest) taken [] false
    else if t.words.isEmpty then .noWords
    else
      let at_ := skipWords fmt taken t.words
      let r := takeWords fmt need at_.2 at_.1
      if r.2.2.2.2 then .bad
      else if r.2.1.isEmpty then
        match takeStream fmt (need - r.1.length) 0 rest with
        | .ok codes rest' taken' popped adj => .ok (r.1 ++ codes) rest' taken' (t :: popped) (r.2.2.2.1 || adj)
        | x => x
      else .ok r.1 (t :: rest) (taken + r.1.length) [] r.2.2.2.1

/-- Codes that bound the values of a format: all of them up to 8 bits, otherwise its extremes and special values. -/
def witnessCodes (fmt : Nat) : List Nat :=
  let w := codeBits fmt
  if w ≤ 8 then List.range (2 ^ w)
  else
    match binaryOf fmt with
    | some b =>
      [maxFiniteCode fmt, infCode fmt, nanCode fmt, 1, 2 ^ b.fbits - 1, 2 ^ (b.fbits + 1) - 1, 2 ^ (w - 1) + maxFiniteCode fmt]
    | none =>
      if fmt = 19 then [0, 0x0100, 0x01FF, 0xFEFF, 0xFF00]
      else if tySigned fmt then [2 ^ (w - 1), 2 ^ (w - 1) - 1] else [2 ^ w - 1]

/-- Whether a type holds a value; a zero of either sign counts as the value 0 (R314). -/
def holdsVal (ty : Nat) (v : Val) : Bool :=
  match v with
  | .nan _ => !isIntTy ty && ty != 14 && ty != 19
  | .inf n => ieeeLike ty || (ty == 19 && !n)
  | .fin _ m _ => m == 0 && ty != 18 || (decodeVal ty (encodeVal ty 0 1 false v).code).eq v

/-- Whether a port's format may be read as a source type (R314). -/
def streamAccepts (fmt ty : Nat) : Bool := fmt == ty || (witnessCodes fmt).all fun c => holdsVal ty (decodeVal fmt c)

/-- The code of a signalling NaN of a type, with a payload that the manual does not state. [DESIGN CHOICE, safe, log 10] -/
def sigNanCode (ty : Nat) : Nat :=
  match binaryOf ty with
  | some b => infCode ty + 1 + Config.signalPayload % (2 ^ (b.fbits - 1) - 1)
  | none => nanCode ty

/-- An element of the port's format, decoded into the source type; a NaN keeps its nature and loses its payload and its sign (R314). -/
def streamElem (fmt ty c : Nat) : Nat :=
  match decodeVal fmt c with
  | .nan true => sigNanCode ty
  | .nan false => nanCode ty
  | v => if fmt = ty then c else (encodeVal ty 0 1 false v).code

end Sys2Proof.Machine
end

