-- ==== Sys2Proof/Machine/Queues.lean ====
section
/-! DEFINITION. Queues as the device moves tokens through them: ports and the edges behind them, credits, reservations, spill rings, proxy
shadows, owner routes, submission queues reached as home queues, and stray tokens (R112, R140 to R154, R206, R231). -/

namespace Sys2Proof.Machine

/-- Raise a fault that a check has found. -/
def orTrap {α : Type} (r : Except Trap α) : M α :=
  match r with
  | .ok x => pure x
  | .error t => throw (.trap t)

/-! ## QUEUE_STATE (R154) -/

def queueInfo (q why detail : Nat) : Word := wd (q % 16 + why * 16 + detail % 2 ^ 20 * 512)
def queueTrap (q why : Nat) (detail : Nat := 0) : Trap := { cause := cQueueState, info := queueInfo q why detail }
def raiseQ {α : Type} (q why : Nat) (detail : Nat := 0) : M α := throw (.trap (queueTrap q why detail))

/-! ## Finding queues -/

def State.modQueue (s : State) (graph edge consumer : Nat) (f : Queue → Queue) : State :=
  { s with queues := s.queues.map fun q => if q.graph = graph ∧ q.edge = edge ∧ q.consumer = consumer then f q else q }
def State.shadow? (s : State) (graph edge producer : Nat) : Option Shadow :=
  s.shadows.find? fun q => q.graph == graph && q.edge == edge && q.producer == producer
def State.modShadow (s : State) (graph edge producer : Nat) (f : Shadow → Shadow) : State :=
  { s with shadows := s.shadows.map fun q => if q.graph = graph ∧ q.edge = edge ∧ q.producer = producer then f q else q }

/-- The first index of a list whose entry satisfies p. -/
def indexOf {α : Type} (p : α → Bool) : List α → Nat → Option Nat
  | [], _ => none
  | x :: rest, n => if p x then some n else indexOf p rest (n + 1)

/-- The edge at a port of an actor, by its number (R228). -/
def Graph.edgeAt (g : Graph) (actor port : Nat) (out : Bool) : Option (Nat × EdgeDesc) :=
  (g.edges.zipIdx.find? fun e =>
    if out then e.1.pact == actor && e.1.pq == port else e.1.cact == actor && e.1.cq == port).map fun e => (e.2, e.1)

def slotsSum (ts : List Token) : Nat := (ts.map fun t => t.slots).foldl (· + ·) 0

/-- The input queue that a stream register of a context reads. -/
def State.inQueue (s : State) (key : Nat) (c : Ctx) (n : Nat) : Option Queue :=
  match c.rq n with
  | .input port =>
    match s.graph? c.graph with
    | none => none
    | some g =>
      match g.edgeAt c.actor port false with
      | none => none
      | some (e, _) => s.queue? g.handle e key
  | .records => s.queue? 0 0 key
  | _ => none

/-- An output port as a push sees it. -/
structure OutPort where
  graph : Nat
  edge : Nat
  /-- The consumer actor, and the consumer instance the producer is paired with. -/
  actor : Nat
  consumer : Option Nat
  proxy : Bool
  depth : Nat
  fmt : Nat
  inFmt : Nat
  template : Word
  deriving DecidableEq, Repr

/-- Format codes of the ports of an edge. -/
def Graph.outFmtOf (g : Graph) (e : EdgeDesc) : Nat :=
  if e.pact = 255 then 7 else (((g.actors[e.pact]?).bind fun a => a.ports[e.pq]?).map (·.1)).getD 7
def Graph.inFmtOf (g : Graph) (e : EdgeDesc) : Nat := (((g.actors[e.cact]?).bind fun a => a.ports[e.cq]?).map (·.1)).getD 7

/-- The consumer instance that a producer instance is paired with on an edge (R221). -/
def Graph.pairOf (g : Graph) (edge producer : Nat) : Option Nat :=
  (g.pairs.find? fun p => p.1 == edge && p.2.1 == producer).map fun p => p.2.2

/-- The output port behind a stream register of a context. -/
def State.outPort (s : State) (key : Nat) (c : Ctx) (n : Nat) : Option OutPort :=
  match c.rq n with
  | .output port template =>
    match s.graph? c.graph with
    | none => none
    | some g =>
      match g.edgeAt c.actor port true with
      | none => none
      | some (e, d) =>
        let q := g.queues[d.queue]?
        some { graph := g.handle, edge := e, actor := d.cact, consumer := g.pairOf e key, proxy := (q.map (·.proxy)).getD false,
               depth := (q.map (·.depth)).getD 0, fmt := g.outFmtOf d, inFmt := g.inFmtOf d, template := template }
  | _ => none

/-- Whether a stream register is bound to an output, and to an input. -/
def PortBind.isOut : PortBind → Bool
  | .output _ _ => true
  | .home _ _ => true
  | _ => false
def PortBind.isIn : PortBind → Bool
  | .input _ => true
  | .records => true
  | _ => false

/-- The format of the output behind a stream register; a home queue takes the record's 64-bit words. [DEDUCED, unsafe, log 46] -/
def State.outFormat (s : State) (key : Nat) (c : Ctx) (n : Nat) : Nat := ((s.outPort key c n).map (·.fmt)).getD 7

/-! ## Credits, reservations and space (R145, R148, R149) -/

/-- Free slots of the spill ring of a queue. -/
def Queue.ringFree (q : Queue) : Nat := if q.spill then q.ringCap - slotsSum q.ring else 0

/-- Free credits of a port as its context sees them. [DEDUCED, unsafe, log 43] -/
def State.freeCredits (s : State) (key : Nat) (p : OutPort) : Nat :=
  if p.proxy then ((s.shadow? p.graph p.edge key).map (·.credits)).getD 0
  else ((p.consumer.bind fun c => s.queue? p.graph p.edge c).map (·.credits)).getD 0

/-- Whether the ring of a port's queue holds tokens. -/
def State.spilling (s : State) (p : OutPort) : Bool :=
  !p.proxy && ((p.consumer.bind fun c => s.queue? p.graph p.edge c).map fun q => !q.ring.isEmpty).getD false

def State.ringFree (s : State) (p : OutPort) : Nat :=
  if p.proxy then 0 else ((p.consumer.bind fun c => s.queue? p.graph p.edge c).map Queue.ringFree).getD 0

/-- What the firing in flight takes of the credits of an edge, and pops from one, besides what is committed (R126). -/
def Ctx.noteCredits (c : Ctx) (edge : Nat) (n : Int) : Ctx :=
  { c with past := c.past.map fun p => { p with taken := Map.set 0 p.taken edge (Map.get 0 p.taken edge + n) } }
def Ctx.notePops (c : Ctx) (edge : Nat) (ts : List Token) : Ctx :=
  { c with past := c.past.map fun p => { p with popped := Map.set [] p.popped edge (Map.get [] p.popped edge ++ ts) } }

/-- [DEDUCED, unsafe, log 43] -/
def Ctx.reserved (c : Ctx) (n : Nat) : Nat := Map.get 0 c.resv n
def Ctx.setReserved (c : Ctx) (n k : Nat) : Ctx := { c with resv := Map.set 0 c.resv n k }

/-- Take credits of a port, or give them back. [DEDUCED, unsafe, log 43] -/
def State.addCredits (s0 : State) (key : Nat) (p : OutPort) (n : Int) : State :=
  let add (c : Nat) : Nat := ((c : Int) + n).toNat
  let s := s0.modCtx key fun c => c.noteCredits p.edge (-n)
  if p.proxy then s.modShadow p.graph p.edge key fun q => { q with credits := add q.credits }
  else
    match p.consumer with
    | none => s
    | some c => s.modQueue p.graph p.edge c fun q => { q with credits := add q.credits }

/-- What a waiting push or reservation can see: free slots of a home queue, or free credits, room in the ring and whether the ring is in use. -/
def State.spaceSeen (s : State) (key : Nat) (c : Ctx) (n : Nat) : Nat :=
  match c.rq n with
  | .home a _ => ((s.subqs.find? fun q => q.addr == a).map fun q => 2 ^ q.logsize - (q.tail + 2 ^ 32 - q.head) % 2 ^ 32).getD 0
  | _ =>
    match s.outPort key c n with
    | none => 0
    | some p => s.freeCredits key p + 2 ^ 20 * (s.ringFree p + 2 ^ 20 * b2n (s.spilling p))
/-- What a waiting pop or stream read can see: link words and tokens queued. -/
def State.tokensSeen (s : State) (key : Nat) (c : Ctx) (n : Nat) : Nat := ((s.inQueue key c n).map fun q => slotsSum q.fifo).getD 0

/-- Put a token on its way to a consumer. -/
def State.sendToken (s : State) (graph edge consumer : Nat) (t : Token) : State :=
  s.modQueue graph edge consumer fun q => { q with transit := q.transit ++ [t] }

/-- The outcome of a push. -/
inductive Pushed where
  | done (s : State)
  /-- It waits; what it saw. -/
  | wait
  deriving DecidableEq, Repr

/-- Push a token to a port of the actor, routed by owner or not: reservation first, then credits, then the ring; nothing is taken while it waits
(R148, R149). A push that its reservation covers never waits: while the ring is in use it joins the ring, and its reserved slots become credits with
which the ring drains. [DEDUCED, unsafe, log 130; DESIGN CHOICE, unsafe, log 138] -/
def State.push (s : State) (key n : Nat) (c : Ctx) (p : OutPort) (consumer : Nat) (owner : Bool) (t0 : Token) : Pushed :=
  let t := { t0 with slots := if p.proxy then slotsOf t0.words.length else deliveredSlots p.fmt p.inFmt t0 }
  let r := c.reserved n
  let free := s.freeCredits key p
  let send (s : State) : State :=
    let s1 :=
      if p.proxy then s.modShadow p.graph p.edge key fun q => { q with entries := q.entries ++ [{ consumer := consumer, owner := owner, token := t }] }
      else s.sendToken p.graph p.edge consumer t
    (s1.modQueue p.graph p.edge consumer fun q => { q with producer := some key }).progress p.graph
  let intoRing (s : State) : State :=
    (s.modQueue p.graph p.edge consumer fun q => { q with ring := q.ring ++ [t], producer := some key }).progress p.graph
  let toRing : Pushed := if !p.proxy && decide (t.slots ≤ s.ringFree p) then .done (intoRing s) else .wait
  if s.spilling p then
    if t.slots ≤ r then .done (intoRing ((s.modCtx key fun c => c.setReserved n (r - t.slots)).addCredits key p t.slots)) else toRing
  else if t.slots ≤ r then .done (send (s.modCtx key fun c => c.setReserved n (r - t.slots)))
  else if t.slots - r ≤ free then
    .done (send ((s.modCtx key fun c => c.setReserved n 0).addCredits key p (-((t.slots - r : Nat) : Int))))
  else toRing

/-- The warning of a push that has put its token into a spill ring (R54): a push sets it at once, and an asynchronous instruction when it completes (R55). -/
def State.spillWarn (before after : State) : Word :=
  if (before.queues.zip after.queues).any fun q => decide (q.1.ring.length < q.2.ring.length) then wSpill else 0

/-- Give a reservation back as credits (R149, R158). -/
def State.unreserve (s : State) (key n k : Nat) : State :=
  match s.ctx? key with
  | none => s
  | some c =>
    match s.outPort key c n with
    | none => s.modCtx key fun c => c.setReserved n (c.reserved n - k)
    | some p => (s.modCtx key fun c => c.setReserved n (c.reserved n - k)).addCredits key p k

/-! ## Submission queues as home queues (R152, R206, R231) -/

def State.subq? (s : State) (addr : Nat) : Option Subq := s.subqs.find? fun q => q.addr == addr
def State.modSubq (s : State) (addr : Nat) (f : Subq → Subq) : State :=
  { s with subqs := s.subqs.map fun q => if q.addr = addr then f q else q }

def Subq.size (q : Subq) : Nat := 2 ^ q.logsize
/-- Records written and not fetched. -/
def Subq.queued (q : Subq) : Nat := (q.tail + 2 ^ 32 - q.head) % 2 ^ 32

/-- Words 1 and 2 of a QSB (R206). -/
def Subq.word1 (q : Subq) : Nat := q.tail % 2 ^ 32 + q.head % 2 ^ 32 * 2 ^ 32
def Subq.word2 (q : Subq) : Nat :=
  q.logsize + b2n q.slot.isSome * 2 ^ 5 + b2n q.pending * 2 ^ 6 + (q.slot.getD 0) * 2 ^ 7 + q.maxprio * 2 ^ 15 + q.part * 2 ^ 18 +
  q.asid * 2 ^ 24 + b2n q.deviceFed * 2 ^ 37 + q.tear * 2 ^ 38 + b2n q.error * 2 ^ 40

/-- A commit: HEAD, TAIL, RESIDENT and PENDING go to the QSB and to the PROGRESS snapshot in one step (R209). -/
def State.commitSubq (s : State) (addr : Nat) : State :=
  let s1 := s.modSubq addr fun q => { q with snapHead := q.head, snapResident := q.slot.isSome, snapPending := q.pending }
  match s1.subq? addr with
  | none => s1
  | some q => s1.dramWrite (addr + 8) (leBytes 8 q.word1 ++ leBytes 8 q.word2)

/-- The physical address of a byte of the slot array, through the queue's ASID. -/
def slotByte (s : State) (q : Subq) (i j : Nat) (need : Right) : Except Trap Nat :=
  translateAs s noTile q.asid q.part (q.base + 128 * (i % q.size) + j) need

/-- Claim slot TAIL, write a record into it and advance TAIL, which is also the notify (R152, R231). [DEDUCED, unsafe, log 48] -/
def State.appendRecord (s : State) (q : Subq) (bs : List Byte) : Except Trap State :=
  match slotByte s q q.tail 0 .w with
  | .error t => .error t
  | .ok pa =>
    let s1 := { s.dramWrite pa bs with fresh := s.fresh + 1 }
    let s2 := s1.modSubq q.addr fun x =>
      { x with tail := (x.tail + 1) % 2 ^ 32, pending := x.pending || x.slot.isNone, pendingAt := if x.pending then x.pendingAt else s.fresh }
    .ok (s2.commitSubq q.addr)

/-- Note a record that the running launch of a context appended (R411). -/
def State.noteSpawn (s : State) (key : Nat) (q : Subq) : State :=
  s.countEffect key fun l => { l with spawned := l.spawned ++ [(q.addr, q.tail)] }

/-! ## Owner routes (R151) -/

/-- The owner of a partition id at an actor. -/
def State.ownerOf (s : State) (graph actor pid : Nat) : Option Nat :=
  match s.graph? graph with
  | none => none
  | some g => (g.owners.find? fun o => o.1 == actor && o.2.1 == pid).map fun o => o.2.2

/-! ## Pushing as an instruction does -/

/-- A push of a token through a stream register (R149, R152, R156, R161); the header still has the program's L and format.
[DESIGN CHOICE, unsafe, log 138] -/
def pushThrough (n : Nat) (owner : Bool) (h0 : Word) (words : List LinkWord) : M Unit := do
  let key ← curKey
  let c ← curCtx
  let s ← get
  match c.rq n with
  | .home a _ =>
    if owner then raiseQ n 10
    if words.length ≠ 4 then raiseQ n 18
    if s.redundant key then raiseFree cProtection
    match s.subq? a with
    | none => raiseQ n 1
    | some q =>
      if q.size ≤ q.queued then stall (.space n (s.spaceSeen key c n))
      let bs := words.flatMap fun w => leBytes 32 w.data.toNat
      let s1 ← orTrap ((s.noteSpawn key q).appendRecord q bs)
      set (s1.progress c.graph)
  | .output _ _ =>
    match s.outPort key c n with
    | none => stall (.space n (s.spaceSeen key c n))
    | some p =>
      if p.depth < slotsOf words.length then raiseQ n 3
      let fin (h : Word) (consumer : Nat) : M Unit := do
        match s.push key n c p consumer owner { header := setFmt (setL h words.length) p.fmt, words := words, slots := slotsOf words.length } with
        | .done s1 =>
          set s1
          warn (s.spillWarn s1)
        | .wait => stall (.space n (s.spaceSeen key c n))
      if owner then
        if !p.proxy then raiseQ n 10
        let pid := bits h0.toNat 19 0
        match s.ownerOf p.graph p.actor pid with
        | none => raiseQ n 7 pid
        | some o => fin (setTag h0 (slotOf o)) o
      else
        match p.consumer with
        | none => stall (.space n (s.spaceSeen key c n))
        | some o => fin h0 o
  | _ => raiseQ n 1

/-! ## Popping -/

/-- Take the head token of an input queue: its credits go back, or its slots are held (R146). -/
def State.popQueue (s : State) (q : Queue) (t : Token) : State :=
  (s.modQueue q.graph q.edge q.consumer fun x =>
    { x with fifo := x.fifo.tail, taken := 0,
             held := if x.manual then x.held ++ [t] else x.held,
             returning := if x.manual then x.returning else x.returning + t.slots }).progress q.graph

/-- The input queue of a stream register, or the fault of a wrong binding (R36). -/
def inputOf (n : Nat) : M (Option Queue) := do
  let key ← curKey
  let c ← curCtx
  if !(c.rq n).isIn then raiseQ n 1
  pure ((← get).inQueue key c n)

/-- Wait for tokens at a stream register. -/
def waitTokens {α : Type} (n : Nat) : M α := do
  let key ← curKey
  let c ← curCtx
  stall (.tokens n ((← get).tokensSeen key c n))

/-- Read a whole register's elements of a type through a stream register (R153, R314): codes of the source type.
[DEDUCED, unsafe, log 46; DEDUCED, unsafe, log 47] -/
def readStream (n ty : Nat) : M (List Nat) := do
  let q ← inputOf n
  match q with
  | none => waitTokens n
  | some q =>
    if !streamAccepts q.inFmt ty then raiseQ n 16
    match takeStream q.inFmt (1024 / tyBits ty) q.taken q.fifo with
    | .short => waitTokens n
    | .noWords => raiseQ n 6
    | .bad => raiseFree cMemUncorrectable
    | .ok codes rest taken popped adj =>
      modify fun s => ((s.modCtx q.consumer fun c => c.notePops q.edge popped).modQueue q.graph q.edge q.consumer fun x =>
        { x with fifo := rest, taken := taken, held := if x.manual then x.held ++ popped else x.held,
                 returning := if x.manual then x.returning else x.returning + slotsSum popped }).progress q.graph
      if adj then warn wSat
      pure (codes.map (streamElem q.inFmt ty))

/-- Push a whole register's elements of a type through a stream register (R153, R314). -/
def writeStream (n ty : Nat) (codes : List Nat) : M Unit := do
  let key ← curKey
  let c ← curCtx
  if !(c.rq n).isOut then raiseQ n 1
  if (← get).outFormat key c n ≠ ty then raiseQ n 16
  let h := match c.rq n with
    | .output _ t => t
    | .home _ t => t
    | _ => 0
  pushThrough n false (setEos (templateBits h) false) (linkWords ty codes)

/-! ## Arrival (R112, R143) -/

/-- A token that names no instance of the consumer is kept for the supervisor and reported (R112, R388); Q and WHY of its %trapinfo are not stated.
[DEDUCED, unsafe, log 44] -/
def State.strayToken (s0 : State) (graph : Nat) (t : Token) : State :=
  let part := ((s0.graph? graph).map (·.part)).getD 0
  let (f, s) := s0.drawWord
  let w := queueInfo (f.toNat % 16) (f.toNat / 16 % 32) 0
  let key := supervisorOf part
  let s1 : State := { s with strays := s.strays ++ [(graph, t)] }
  let s2 := s1.queueFault key { cause := cQueueState, info := w, fpc := 0, fword := 0, addr := t.header }
  s2.sendRecord key [wd (0x0B + 2 * 2 ^ 16), 0, w, 0, 0, 0, t.header, wd s.ticks]

/-- A token reaches the strand of its consumer and enters the port of the slot that its tag names (R112), repacked by the edge's adapter
(R143). [DEDUCED, unsafe, log 44] -/
def State.arrive (s : State) (q : Queue) (t : Token) : State :=
  let target := q.consumer % 2048 + 2048 * hdrTag t.header + q.consumer / 16384 * 16384
  let ts := adaptToken q.outFmt q.inFmt t
  if target = q.consumer then
    (s.modQueue q.graph q.edge q.consumer fun x => { x with fifo := x.fifo ++ ts }).progress q.graph
  else
    let back := s.modQueue q.graph q.edge q.consumer fun x => { x with returning := x.returning + slotsSum ts }
    match s.queue? q.graph q.edge target with
    | some _ =>
      (back.modQueue q.graph q.edge target fun x =>
        { x with fifo := x.fifo ++ ts, credits := x.credits - slotsSum ts, producer := q.producer }).progress q.graph
    | none => back.strayToken q.graph t

end Sys2Proof.Machine
end

