-- ==== Sys2Proof/Machine/QueueGroup.lean ====
section
/-! DEFINITION. The queue group at MAJ 0x50 (R155 to R161). -/

namespace Sys2Proof.Machine

def sP (f : SForm) : Nat := f.p.toNat
def sImm (f : SForm) : Nat := f.imm.toNat
def sCnd (f : SForm) : Nat := f.cnd.toNat
def sKind (f : SForm) : Nat := sCnd f

/-- A release of an ordinary instruction: it waits for the context's older accesses and writes the tile's dirty sectors back (R280). -/
def releaseNow (sc : Nat) : M Unit := do
  let key ← curKey
  if (← get).accessing key then stall .memory
  modify fun s => s.releaseWays key sc

/-- An acquire that is complete at issue drops the tile's clean sectors (R280). -/
def acquireNow (sc : Nat) : M Unit := do
  let key ← curKey
  modify fun s => s.acquireWays key sc

/-- Wait while an earlier producer still has to write a register that the instruction turns out to write (R39). [DEDUCED, unsafe, log 49] -/
def needDst (d : Dst) : M Unit := do
  let key ← curKey
  if (← get).produced key d then stall (.operand d.vec d.n true)

/-- The effective order of an instruction that only writes, and the warning of its fallback (R80). -/
def writeOrder (f : SForm) : M Bool := do
  let o := f.ord.toNat
  if storeCombo o then warn wModcombo
  if o ≠ 0 then releaseNow f.sc.toNat
  pure (o ≠ 0)

/-- The effective order of an instruction that only reads. -/
def readOrder (f : SForm) : M Unit := do
  let o := f.ord.toNat
  if loadCombo o then warn wModcombo
  if o ≠ 0 then acquireNow f.sc.toNat

/-- The link words of a register's bytes [32 j + 31 : 32 j] (R156); in the format t6 the four pad bits of each are written 0 (R142).
[DESIGN CHOICE, unsafe, log 127] -/
def regWords (fmt : Nat) (v : VWord) (n : Nat) : List LinkWord :=
  (List.range n).map fun j =>
    let x := v.extractLsb' (256 * j) 256
    { data := if fmt = 16 then x &&& BitVec.ofNat 256 (2 ^ 252 - 1) else x }

/-- A register that holds four link words at most; the rest is 0. [DEDUCED, unsafe, log 45] -/
def wordsReg (ws : List LinkWord) : VWord := BitVec.ofNat 1024 (packCodes 256 ((ws.take 4).map fun w => w.data.toNat))

/-- QPUSH (R156). -/
def execQpush (f : SForm) (s : State) : Result :=
  runInstr (.qpush f) (sAsk f [sA f, sB .v f] []) (do
    let h ← opG .a
    let c ← curCtx
    if !(c.rq (sP f)).isOut then raiseQ (sP f) 1
    let l := hdrL h
    if 8 < l then raiseQ (sP f) 2
    match (← get).outPort (← curKey) c (sP f) with
    | some p => if p.depth < slotsOf l then raiseQ (sP f) 3
    | none => pure ()
    if 4 < l ∧ f.b = 63 then raiseQ (sP f) 17
    let v ← opV .b
    let fmt := (← get).outFormat (← curKey) c (sP f)
    let words ←
      if 4 < l then do
        let n := f.b.toNat + 1
        if c.emptyV n then
          if f.fe.getLsbD 1 then raise cRegisterEmpty (regInfo true n)
          stall (.operand true n false)
        if c.vBad.getLsbD n then raise cMemUncorrectable (regInfo true n + wd (15 * 2 ^ 60))
        pure (regWords fmt v 4 ++ regWords fmt (c.rv n) (l - 4))
      else pure (regWords fmt v l)
    let _ ← writeOrder f
    pushThrough (sP f) (sCnd f == 1) h words) s

/-- QEOS: a token with EOS set and no link words, then the remaining reservation goes back (R156). [DEDUCED, unsafe, log 49] -/
def execQeos (f : SForm) (s : State) : Result :=
  runInstr (.qeos f) (sAsk f [sA f] []) (do
    let h ← opG .a
    let c ← curCtx
    let key ← curKey
    if !(c.rq (sP f)).isOut then raiseQ (sP f) 1
    if hasRel f.ord.toNat then releaseNow f.sc.toNat
    pushThrough (sP f) false (setEos (setL h 0) true) []
    modify fun s => match s.ctx? key with
      | some c => s.unreserve key (sP f) (c.reserved (sP f))
      | none => s) s

/-- All ones: no header holds an L of 15 (R157). -/
def noToken : Word := BitVec.allOnes 64

/-- Check and deliver a token's header and payload into gD and vB (R155, R157); `pop` is made once every check has passed. [DEDUCED, unsafe, log 45] -/
def deliverToken (f : SForm) (t : Token) (pop : M Unit) : M Unit := do
  let long := decide (4 < t.words.length)
  if long ∧ f.b = 63 then raiseQ (sP f) 17
  if long then needDst (vDst (f.b.toNat + 1))
  if t.words.any (·.bad) then
    issueFault { cause := cMemUncorrectable, free := true } [f.d.toNat] [f.b.toNat]
  else
    pop
    if t.words.any (·.adj) then warn wSat
    readOrder f
    let vs := if long then [wordsReg t.words, wordsReg (t.words.drop 4)] else [wordsReg t.words]
    let ds := if long then [f.b.toNat, f.b.toNat + 1] else [f.b.toNat]
    let _ ← issueOp (.value t.header vs) [f.d.toNat] ds 0 0 0

/-- QPOP or QPEEK finds no token and says so (R157). -/
def missToken (f : SForm) : M Unit := do
  readOrder f
  issueValue f.d.toNat noToken

/-- The head token of a queue as it stands: without the words that stream reads have taken whole (R153). [DEDUCED, unsafe, log 47] -/
def Queue.headToken (q : Queue) (t : Token) : Token := { t with words := (skipWords q.inFmt q.taken t.words).1 }

/-- The n-th token behind the head of a queue, as it stands. -/
def Queue.queuedToken (q : Queue) (n : Nat) : Option Token := if n = 0 then q.fifo.head?.map q.headToken else q.fifo[n]?

/-- Take the head token of a queue for the context that issues, as a pop of its firing (R126, R146). -/
def takeHead (q : Queue) (t : Token) : M Unit :=
  modify fun s => (s.modCtx q.consumer fun c => c.notePops q.edge [t]).popQueue q t

/-- QPOP (R157). [DEDUCED, unsafe, log 45; DEDUCED, unsafe, log 46] -/
def execQpop (f : SForm) (s : State) : Result :=
  runInstr (.qpop f) (sAsk f [] [gDst f.d.toNat, vDst f.b.toNat]) (do
    match ← inputOf (sP f) with
    | none => if sCnd f = 1 then missToken f else waitTokens (sP f)
    | some q =>
      match q.fifo with
      | [] => if sCnd f = 1 then missToken f else waitTokens (sP f)
      | t :: _ => deliverToken f (q.headToken t) (takeHead q t)) s

/-- QPEEK (R157). [DESIGN CHOICE, unsafe, log 132] -/
def execQpeek (f : SForm) (s : State) : Result :=
  runInstr (.qpeek f) (sAsk f [] [gDst f.d.toNat, vDst f.b.toNat]) (do
    let q ← inputOf (sP f)
    let found := q.bind fun q => if sCnd f = 0 then q.queuedToken (sImm f) else q.held[sImm f]?
    match found with
    | none => missToken f
    | some t => deliverToken f t (pure ())) s

/-- The output port of a stream register, or the fault of a wrong binding. -/
def outputOf (n : Nat) : M (Option OutPort) := do
  let c ← curCtx
  let key ← curKey
  if !(c.rq n).isOut then raiseQ n 1
  pure ((← get).outPort key c n)

/-- QRES (R158): n credits become a reservation. [DEDUCED, unsafe, log 46] -/
def execQres (f : SForm) (s : State) : Result :=
  runInstr (.qres f) (sAsk f [] (if sCnd f = 1 then [gDst f.d.toNat] else [])) (do
    let key ← curKey
    let c ← curCtx
    let n := sImm f
    match ← outputOf (sP f) with
    | none =>
      if sCnd f = 1 then issueValue f.d.toNat 0
      else stall (.space (sP f) ((← get).spaceSeen key c (sP f)))
    | some p =>
      if p.depth < n then raiseQ (sP f) 8
      if n ≤ (← get).freeCredits key p then
        modify fun s => (((s.addCredits key p (-(n : Int))).modCtx key fun c => c.setReserved (sP f) (c.reserved (sP f) + n)).progress c.graph)
        if sCnd f = 1 then issueValue f.d.toNat (wd n)
      else if sCnd f = 1 then issueValue f.d.toNat 0
      else stall (.space (sP f) ((← get).spaceSeen key c (sP f)))) s

/-- QREL: reserved slots go back as credits, all of them when n = 0 (R158). -/
def execQrel (f : SForm) (s : State) : Result :=
  runInstr (.qrel f) (sAsk f [] []) (do
    let key ← curKey
    let c ← curCtx
    let _ ← outputOf (sP f)
    let r := c.reserved (sP f)
    if r < sImm f then raiseQ (sP f) 8
    modify fun s => (s.unreserve key (sP f) (if sImm f = 0 then r else sImm f)).progress c.graph) s

/-- QCRED: the slots of the oldest held tokens go back (R158). -/
def execQcred (f : SForm) (s : State) : Result :=
  runInstr (.qcred f) (sAsk f [] []) (do
    match ← inputOf (sP f) with
    | none => raiseQ (sP f) 4
    | some q =>
      if !q.manual then raiseQ (sP f) 5
      if q.held.length < sImm f then raiseQ (sP f) 4
      modify fun s => s.modQueue q.graph q.edge q.consumer fun x =>
        { x with held := x.held.drop (sImm f), returning := x.returning + slotsSum (x.held.take (sImm f)) }) s

/-- Unbind a stream register: its reservation goes back, its tokens stay with the port (R159). -/
def State.unbind (s : State) (key n : Nat) : State :=
  match s.ctx? key with
  | none => s
  | some c => (s.unreserve key n (c.reserved n)).modCtx key fun c => c.wq n .unbound

/-- The port descriptor of the issuing actor: type code, OUT and DECL. -/
def State.portDesc (s : State) (c : Ctx) (port : Nat) : Option (Nat × Bool × Bool) :=
  match s.graph? c.graph with
  | none => none
  | some g => (g.actors[c.actor]?).bind fun a => a.ports[port]?

/-- Whether a binding is to a port of the actor. -/
def PortBind.isPort (b : PortBind) (port : Nat) : Bool :=
  match b with
  | .input p => p == port
  | .output p _ => p == port
  | _ => false

/-- QBIND .port (R159). -/
def execQbindPort (f : SForm) (s : State) : Result :=
  runInstr (.qbindPort f) (sAsk f [sA f, sB .g f] []) (do
    let key ← curKey
    let c ← curCtx
    let port := (← opG .a).toNat
    let tmpl := templateBits (← opG .b)
    match (← get).portDesc c port with
    | none => raiseQ (sP f) 9
    | some (_, out, decl) =>
      if !decl then raiseQ (sP f) 9
      if (List.range 16).any fun n => n != sP f && (c.rq n).isPort port then raiseQ (sP f) 9
      modify fun s => (s.unbind key (sP f)).modCtx key fun c => c.wq (sP f) (if out then .output port tmpl else .input port)) s

/-- The submission queue at a virtual address of the issuer (R159): misaligned ALIGNMENT, none PROTECTION, host-fed QUEUE_STATE WHY 14, and one of another
ASID PROTECTION, in the order of the text. [DEDUCED, unsafe, log 114] -/
def subqAt (n : Nat) (a : Word) : M Subq := do
  let c ← curCtx
  if a.toNat % 128 ≠ 0 then raise cAlignment a
  let s ← get
  let pa ← orTrap (translateFor s (← curKey) c a.toNat .r)
  match s.subq? pa with
  | none => raise cProtection a
  | some q =>
    if !q.deviceFed then raiseQ n 14
    if q.asid ≠ c.asid then raise cProtection a
    pure q

/-- QBIND .home takes gA alone; its template is 0 until QBIND .tmpl sets one (R159). [DEDUCED, unsafe, log 46] -/
def execQbindHome (f : SForm) (s : State) : Result :=
  runInstr (.qbindHome f) { sAsk f [sA f] [] with priv := .s } (do
    let key ← curKey
    let q ← subqAt (sP f) (← opG .a)
    modify fun s => (s.unbind key (sP f)).modCtx key fun c => c.wq (sP f) (.home q.addr 0)) s

/-- QBIND .tmpl (R159). -/
def execQbindTmpl (f : SForm) (s : State) : Result :=
  runInstr (.qbindTmpl f) (sAsk f [sB .g f] []) (do
    let tmpl := templateBits (← opG .b)
    let c ← curCtx
    match c.rq (sP f) with
    | .output port _ => modCur fun c => c.wq (sP f) (.output port tmpl)
    | .home a _ => modCur fun c => c.wq (sP f) (.home a tmpl)
    | _ => raiseQ (sP f) 1) s

/-- QUNBIND (R159). -/
def execQunbind (f : SForm) (s : State) : Result :=
  runInstr (.qunbind f) (sAsk f [] []) (do
    let key ← curKey
    modify fun s => s.unbind key (sP f)) s

/-- The word of QSTAT (R160). [DESIGN CHOICE, unsafe, log 132] -/
def State.queueStatus (s : State) (key : Nat) (c : Ctx) (n : Nat) : Word :=
  match c.rq n with
  | .unbound => 0
  | .home a _ =>
    let q := s.subq? a
    let free := (q.map fun q => q.size - q.queued).getD 0
    wd (free % 2 ^ 14 * 2 ^ 14 + 2 * 2 ^ 56 + 2 ^ 58 + 2 ^ 63)
  | .output _ _ =>
    match s.outPort key c n with
    | none => wd (2 ^ 58 + 2 ^ 63)
    | some p =>
      let tokens := if p.proxy then ((s.shadow? p.graph p.edge key).map fun x => x.entries.length).getD 0 else 0
      let q := p.consumer.bind fun o => s.queue? p.graph p.edge o
      let g := s.graph? p.graph
      let d := (g.bind fun g => (g.edges[p.edge]?).bind fun e => g.queues[e.queue]?)
      wd (tokens % 2 ^ 14 + s.freeCredits key p % 2 ^ 14 * 2 ^ 14 + c.reserved n % 2 ^ 14 * 2 ^ 28 + b2n p.proxy * 2 ^ 56 + 2 ^ 58 +
        b2n ((d.map (·.manual)).getD false) * 2 ^ 59 + b2n ((d.map (·.spill)).getD false) * 2 ^ 60 +
        b2n ((q.map fun q => !q.ring.isEmpty).getD false) * 2 ^ 61 + 2 ^ 63)
  | _ =>
    match s.inQueue key c n with
    | none => wd (2 ^ 63)
    | some q =>
      wd ((q.fifo.length + q.ring.length) % 2 ^ 14 + q.credits % 2 ^ 14 * 2 ^ 14 + q.held.length % 2 ^ 14 * 2 ^ 42 + b2n q.proxy * 2 ^ 56 +
        b2n q.manual * 2 ^ 59 + b2n q.spill * 2 ^ 60 + b2n (!q.ring.isEmpty) * 2 ^ 61 +
        b2n ((q.fifo.head?.map fun t => hdrEos t.header).getD false) * 2 ^ 62 + 2 ^ 63)

/-- QSTAT (R160). -/
def execQstat (f : SForm) (s : State) : Result :=
  runInstr (.qstat f) (sAsk f [] [gDst f.d.toNat]) (do
    let key ← curKey
    let c ← curCtx
    writeG f.d.toNat ((← get).queueStatus key c (sP f))) s

/-- QFWD (R161). -/
def execQfwd (f : SForm) (s : State) : Result :=
  runInstr (.qfwd f) (sAsk f [] []) (do
    let key ← curKey
    let c ← curCtx
    let o := sImm f % 16
    let q ← inputOf (sP f)
    if !(c.rq o).isOut then raiseQ o 1
    match q with
    | none => waitTokens (sP f)
    | some q =>
      match q.fifo with
      | [] => waitTokens (sP f)
      | t :: _ =>
        if hdrFmt t.header ≠ (← get).outFormat key c o then raiseQ (sP f) 11
        let tmpl := match c.rq o with
          | .output _ x => x
          | _ => 0
        let w := (q.headToken t).words
        takeHead q t
        pushThrough o (sCnd f == 1) (setTag t.header (hdrTag tmpl)) w
        if w.any (·.adj) then warn wSat) s

end Sys2Proof.Machine
end

