-- ==== Sys2Proof/Machine/Counters.lean ====
section
/-! DEFINITION. Monotonic counters, arrival words, event counters and WAIT: the group at MAJ 0x60 (R22, R23, R162 to R168), and the additions and
credits that every agent makes. -/

namespace Sys2Proof.Machine

/-! ## Monotonic counters at their homes (R22, R162) -/

/-- The checks of a counter's address: a multiple of 8, outside the aperture, translated for the right (R162). -/
def counterPlace (s : State) (key : Nat) (c : Ctx) (va : Nat) (need : Right) : Except Trap Nat :=
  if va % 8 ≠ 0 then .error { cause := cAlignment, info := wd va, addr := wd va }
  else if inAperture va then .error { cause := cProtection, info := wd va, addr := wd va }
  else translateFor s key c va need

/-- The word at a physical address, or the fault of an uncorrectable sector. -/
def homeWord (s : State) (va pa : Nat) : Except Trap Nat :=
  if s.dramBad pa 8 then .error (badDataTrap va) else .ok (leNat (Memory.readBytes s.mem pa 8))

/-- Add to the counter at a physical address: the old value and the state after, or COUNTER_OVERFLOW with the counter as it was (R22).
[DEDUCED, unsafe, log 69] -/
def addAtHome (s : State) (va pa n : Nat) : Except Trap (Nat × State) :=
  match homeWord s va pa with
  | .error t => .error t
  | .ok old =>
    if 2 ^ 64 ≤ old + n then .error { cause := cCounterOverflow, free := true, addr := wd va }
    else .ok (old, s.dramWrite pa (leBytes 8 (old + n)))

/-- A counter add that an agent makes for a context. -/
def agentAdd (s : State) (key : Nat) (c : Ctx) (va n : Nat) : Except Trap State :=
  match counterPlace s key c va .w with
  | .error t => .error t
  | .ok pa =>
    match addAtHome s va pa n with
    | .error t => .error t
    | .ok r => .ok r.2

/-- MCADD reaches its counter: the old value (R162). In a copy of a redundant launch the add is withheld and the present value returned (R223). -/
def performCounterAdd (s : State) (o : Op) (c : Ctx) : Except Trap (Nat × State) :=
  let f := SForm.ofWord o.word.toNat
  let n := if f.cnd = 1 then f.imm.toNat else (o.opB.extractLsb' 0 64).toNat
  match counterPlace s o.ctx c o.addr .w with
  | .error t => .error t
  | .ok pa =>
    let s0 := s.flushSector (tileOf o.ctx) pa
    let s1 := if hasRel o.ord then s0.releaseWays o.ctx o.scope else s0
    if s1.redundant o.ctx then
      match homeWord s1 o.addr pa with
      | .error t => .error t
      | .ok old => .ok (old, s1.countEffect o.ctx fun l => { l with withheld := l.withheld ++ [(c.copy, wd o.addr, wd n)] })
    else
      match addAtHome s1 o.addr pa n with
      | .error t => .error t
      | .ok (old, s2) => .ok (old, s2.countAdd o.ctx)

/-- MCREAD reads its counter (R162). -/
def performCounterRead (s : State) (o : Op) (c : Ctx) : Except Trap (Nat × State) :=
  match counterPlace s o.ctx c o.addr .r with
  | .error t => .error t
  | .ok pa =>
    let s0 := s.flushSector (tileOf o.ctx) pa
    let s1 := if hasAcq o.ord then s0.acquireWays o.ctx o.scope else s0
    match homeWord s1 o.addr pa with
    | .error t => .error t
    | .ok x => .ok (x, s1)

/-- MCADD (R162): a long-latency producer whose faults are all delivered later. -/
def execMcadd (f : SForm) (s : State) : Result :=
  runInstr (.mcadd f) (sAsk f (sA f :: if f.cnd = 1 then [] else [sB .g f]) [gDst f.d.toNat]) (do
    let a ← opG .a
    gateAcquire
    let _ ← issueOp .counterAdd [f.d.toNat] [] a.toNat f.sc.toNat (storeOrd f.ord.toNat)) s

/-- MCREAD (R162). -/
def execMcread (f : SForm) (s : State) : Result :=
  runInstr (.mcread f) (sAsk f [sA f] [gDst f.d.toNat]) (do
    let a ← opG .a
    gateAcquire
    let _ ← issueOp .counterRead [f.d.toNat] [] a.toNat f.sc.toNat (loadOrd f.ord.toNat)) s

/-! ## Arrival words (R23, R163) -/

/-- A credit of n bytes. -/
def creditWord (aw : Nat) (n : Nat) : Nat :=
  let cnt := bits aw 27 0 + n
  let target := bits aw 55 28
  if target ≤ cnt then (bits aw 63 56 + 1) % 256 * 2 ^ 56 + target * 2 ^ 28
  else bits aw 63 56 * 2 ^ 56 + target * 2 ^ 28 + cnt

/-- A new target with the generation unchanged (R267). -/
def armWord (aw n : Nat) : Nat := bits aw 63 56 * 2 ^ 56 + n % 2 ^ 28 * 2 ^ 28

/-- Where an arrival word lies: in the aperture, a multiple of 8, in a SCRATCH bank that is served (R23, R239, R267). -/
def arrivalPlace (s : State) (key : Nat) (c : Ctx) (va : Nat) : Except Trap (Nat × Nat × Nat) :=
  if va % 8 ≠ 0 then .error { cause := cAlignment, info := wd va, addr := wd va }
  else if !inAperture va then .error { cause := cProtection, info := wd va, addr := wd va }
  else
    match apertureAt s key c va 8 with
    | .error t => .error t
    | .ok (.dram _) => .error { cause := cProtection, info := wd va, addr := wd va }
    | .ok (.bank tile bank off) =>
      match bankChecks s key va tile bank with
      | .error t => .error t
      | .ok () => .ok (tile, bank, off)

/-- Change the arrival word at an address, for a context or an agent that acts for it. [DESIGN CHOICE, unsafe, log 72] -/
def updateArrival (s : State) (key : Nat) (c : Ctx) (va : Nat) (f : Nat → Nat) : Except Trap State :=
  match arrivalPlace s key c va with
  | .error t => .error t
  | .ok (tile, bank, off) =>
    if bufferProtected s tile bank off 8 then .error { cause := cProtection, info := wd va, addr := wd va }
    else if s.bankBad tile bank off 8 then .error (badDataTrap va)
    else .ok (s.bankWrite tile bank off (leBytes 8 (f (leNat (s.bankBytes tile bank off 8)))))

/-! ## Event counters (R164, R168) -/

/-- An asynchronous completion adds 1 to an event counter of its context. -/
def Ctx.countCompletion (c : Ctx) (n : Nat) : Ctx := c.we n (c.re n + 1)

/-- EREAD (R168). -/
def execEread (f : SForm) (s : State) : Result :=
  runInstr (.eread f) (sAsk f [] [gDst f.d.toNat]) (do writeG f.d.toNat ((← curCtx).re (sImm f % 4))) s

/-- ECLR reads and clears in one step (R168). -/
def execEclr (f : SForm) (s : State) : Result :=
  runInstr (.eclr f) (sAsk f [] [gDst f.d.toNat]) (do
    writeG f.d.toNat ((← curCtx).re (sImm f % 4))
    modCur fun c => c.we (sImm f % 4) 0) s

/-! ## Wait slots (R166) -/

def Ctx.slot (c : Ctx) (n : Nat) : WaitCond := Map.get .never c.slots n

/-- The sources of WCOND: in kinds 5 to 7 A is a name, and B is read in kinds 0 to 4. -/
def wcondSrcs (f : SForm) : List Src :=
  match sCnd f with
  | 0 => [sA f, sB .g f]
  | 1 => [sA f, sB .g f]
  | 2 => [sB .g f]
  | 3 => [sB .g f]
  | 4 => [sB .g f]
  | _ => []

/-- The condition that WCOND writes. -/
def wcondOf (f : SForm) (a b : Word) : WaitCond :=
  match sCnd f with
  | 0 => .ctr a b f.sc.toNat
  | 1 => .gen a (b.setWidth 8)
  | 2 => .ev (sP f % 4) b
  | 3 => .tok (sP f) b
  | 4 => .free (sP f) b
  | 5 => .lease f.a.toNat
  | 6 => .gfull f.a.toNat
  | _ => .vfull f.a.toNat

/-- WCOND (R166). -/
def execWcond (f : SForm) (s : State) : Result :=
  runInstr (.wcond f) (sAsk f (wcondSrcs f) []) (do
    let a ← opG .a
    let b ← opG .b
    modCur fun c => { c with slots := Map.set .never c.slots (sImm f % 4) (wcondOf f a b) }) s

/-! ## WAIT (R167) -/

/-- Whether an access of a context to eight bytes at an address is still to be made: a sample of its word comes after it (R277). -/
def State.pendingAt (s : State) (key va : Nat) : Bool := (s.inFlightOf key).any fun o => o.meetsAt va 8

/-- Whether a condition holds, with the checks of its address. -/
def condHolds (s : State) (key : Nat) (c : Ctx) (w : WaitCond) : Except Trap Bool :=
  match w with
  | .never => .ok false
  | .ctr a v _ =>
    match counterPlace s key c a.toNat .r with
    | .error t => .error t
    | .ok pa =>
      match homeWord (s.flushSector (tileOf key) pa) a.toNat pa with
      | .error t => .error t
      | .ok x => .ok (decide (v.toNat ≤ x) && !s.pendingAt key a.toNat)
  | .gen a v =>
    match arrivalPlace s key c a.toNat with
    | .error t => .error t
    | .ok (tile, bank, off) =>
      if s.bankBad tile bank off 8 then .error (badDataTrap a.toNat)
      else .ok (decide ((s.bankByte tile bank (off + 7) - v).toNat ≤ 127) && !s.pendingAt key a.toNat)
  | .ev n v => .ok (decide (v ≤ c.re n))
  | .tok q n => .ok (decide (n.toNat ≤ ((s.inQueue key c q).map fun x => x.fifo.length).getD 0) && (c.rq q).isIn)
  | .free q n => .ok (decide (n.toNat ≤ ((s.outPort key c q).map fun p => s.freeCredits key p).getD (s.spaceSeen key c q) + c.reserved q) &&
      (c.rq q).isOut)
  | .lease g => .ok (!c.emptyG g)
  | .gfull g => .ok (!c.emptyG g)
  | .vfull v => .ok (!c.emptyV v)

/-- Sample the slots of a mask: the first fault in slot order, or the conditions seen to hold now. -/
def sampleSlots (s : State) (key : Nat) (c : Ctx) (mask : BitVec 4) : List Nat → Except Trap (BitVec 4)
  | [] => .ok 0
  | n :: rest =>
    match (if mask.getLsbD n then condHolds s key c (c.slot n) else .ok false) with
    | .error t => .error t
    | .ok b =>
      match sampleSlots s key c mask rest with
      | .error t => .error t
      | .ok r => .ok (setBit r n b)

/-- The outcome of one sample of a WAIT. [DEDUCED, unsafe, log 37] -/
structure Sampled where
  seen : BitVec 4
  done : Bool
  deriving DecidableEq, Repr

/-- One sample: conditions latch; `.any` needs one and `.all` needs every slot of a mask that is not empty. [DEDUCED, unsafe, log 37] -/
def sampleWait (s : State) (key : Nat) (c : Ctx) (f : SForm) (seen : BitVec 4) : Except Trap Sampled :=
  let mask : BitVec 4 := BitVec.ofNat 4 (sImm f)
  match sampleSlots s key c mask [0, 1, 2, 3] with
  | .error t => .error t
  | .ok now =>
    let all := seen ||| now
    .ok { seen := all, done := if f.cnd = 0 then decide (all ≠ 0) else decide (mask ≠ 0) && decide (all = mask) }

/-- The result of a WAIT: the conditions seen, and bit 4 when it timed out. -/
def waitResult (r : Sampled) : Word := r.seen.setWidth 64 ||| (if r.done then 0 else 16)

/-- Whether some condition seen is one that acquires. -/
def acquiresSeen (c : Ctx) (seen : BitVec 4) : Bool :=
  [0, 1, 2, 3].any fun n => seen.getLsbD n && (match c.slot n with
    | .ctr _ _ _ => true
    | .gen _ _ => true
    | .ev _ _ => true
    | _ => false)

/-- The ways after a WAIT that acquires. -/
def State.waitAcquire (s : State) (key : Nat) (c : Ctx) (f : SForm) (seen : BitVec 4) : State :=
  if hasAcq f.ord.toNat && acquiresSeen c seen then s.acquireWays key f.sc.toNat else s

/-- WAIT: sampled once at issue; then it completes, or its firing waits (R167). [DEDUCED, unsafe, log 37] -/
def execWait (f : SForm) (s : State) : Result :=
  runControl (.wait f) (sAsk f [sA f] [gDst f.d.toNat]) (do
    let key ← curKey
    let c ← curCtx
    let fr ← curFiring
    let t ← opG .a
    gateAcquire
    let s ← get
    let deadline := match fr.wait with
      | some w => w.deadline
      | none => s.ticks + Nat.min t.toNat (2 ^ 32)
    let r ← orTrap (sampleWait s key c f ((fr.wait.map fun w => w.seen).getD 0))
    modify fun s => s.waitAcquire key c f r.seen
    if r.done || decide (deadline ≤ s.ticks) then
      writeG f.d.toNat (waitResult r)
      pure .seq
    else
      let e ← issuing
      modCur fun c => { c with firing := c.firing.map fun x =>
        { x with wait := some { word := e.word, deadline := deadline, seen := r.seen }, stall := .waiting } }
      pure .ended) s

/-- A later sample of a WAIT in progress: it completes, times out, faults, or goes on waiting (R167). [DEDUCED, unsafe, log 37] -/
def State.waitStep (s : State) (key : Nat) (timeout : Bool) : State :=
  match s.ctx? key with
  | none => s
  | some c =>
    match c.firing with
    | none => s
    | some fr =>
      match fr.wait with
      | none => s
      | some w =>
        if fr.stall ≠ .waiting then s
        else
          let f := SForm.ofWord w.word.toNat
          match sampleWait s key c f w.seen with
          | .error t => s.takeTrap key t { word := w.word, pc := fr.pc } 8
          | .ok r =>
            if r.done || (timeout && decide (w.deadline ≤ s.ticks)) then
              (s.waitAcquire key c f r.seen).modCtx key fun c =>
                { c.wg f.d.toNat (waitResult r) with firing := some { fr with pc := nextPc fr.pc 8, wait := none, stall := .none } }
            else s.modCtx key fun c => { c with firing := some { fr with wait := some { w with seen := r.seen } } }

/-- The samples of a tick: every WAIT in progress completes, times out, faults, or goes on waiting (R167). -/
def State.sampleWaits (s : State) : State := (s.ctxs.map fun e => e.1).foldl (fun s key => s.waitStep key true) s

end Sys2Proof.Machine
end

