-- ==== Sys2Proof/Machine/Guards.lean ====
section
/-! DEFINITION. The guard table: entries and their validity (R114 to R118), eligibility (R117, R119), and the guard group at MAJ 0x40 (R135 to R139). -/

namespace Sys2Proof.Machine

/-! ## Entries (R115, R116, R118) -/

def condKind (c : Nat) : Nat := bits c 23 21
def condQ (c : Nat) : Nat := bits c 20 17
def condTag (c : Nat) : Nat := bits c 15 0
def cond0 (w1 : Word) : Nat := bits w1.toNat 23 0
def cond1 (w1 : Word) : Nat := bits w1.toNat 47 24
def entryV (w0 : Word) : Bool := w0.getLsbD 63

/-- A field of an entry that is invalid: its word, its highest bit and WHY (R136). -/
structure GuardOffence where
  word : Nat
  fieldHi : Nat
  why : Nat
  deriving DecidableEq, Repr

/-- The invalid fields of a condition whose low bit stands at `lo` of word 1, the highest field first. -/
def condOffences (c lo : Nat) : List GuardOffence :=
  (if 5 ≤ condKind c then [{ word := 1, fieldHi := lo + 23, why := 2 }] else []) ++
  (if condKind c = 0 ∧ condQ c ≠ 0 then [{ word := 1, fieldHi := lo + 20, why := 5 }] else []) ++
  (if bits c 16 16 ≠ 0 then [{ word := 1, fieldHi := lo + 16, why := 1 }] else []) ++
  (if condKind c ≠ 2 ∧ condTag c ≠ 0 then [{ word := 1, fieldHi := lo + 15, why := 5 }] else [])

/-- The invalid fields of an entry, the highest first (R118, R136). -/
def entryOffences (w0 w1 : Word) : List GuardOffence :=
  (if bits w1.toNat 55 48 &&& (255 - bits w1.toNat 63 56) ≠ 0 then [{ word := 1, fieldHi := 55, why := 4 }] else []) ++
  condOffences (cond1 w1) 24 ++ condOffences (cond0 w1) 0 ++
  (if bits w0.toNat 62 52 ≠ 0 then [{ word := 0, fieldHi := 62, why := 1 }] else []) ++
  (if bits w0.toNat 47 0 % 8 ≠ 0 then [{ word := 0, fieldHi := 47, why := 3 }] else [])

def entryValid (w0 w1 : Word) : Bool := (entryOffences w0 w1).isEmpty

/-- %trapinfo of an invalid entry (R136). -/
def guardInfo (n : Nat) (o : GuardOffence) : Word := wd (n % 16 + o.word * 16 + o.fieldHi * 32 + o.why * 2048)

def Ctx.guard (c : Ctx) (n : Nat) : Word × Word := Map.get (0, 0) c.guards n

/-- The table that GUARD and UNGUARD of the present firing change. -/
def Ctx.heldGuards (c : Ctx) : Map (Word × Word) := c.guardsHeld.getD c.guards

/-! ## Eligibility (R117, R119) -/

/-- Whether an output can take a token of this context without a reservation: a free credit, or room in the ring (R117, R148, R152).
[DEDUCED, unsafe, log 130] -/
def State.hasSpace (s : State) (key : Nat) (c : Ctx) (q : Nat) : Bool :=
  match c.rq q with
  | .output _ _ =>
    match s.outPort key c q with
    | none => false
    | some p => decide (0 < s.freeCredits key p) || decide (0 < s.ringFree p)
  | .home _ _ => decide (0 < s.spaceSeen key c q)
  | _ => false

/-- Whether a condition of an entry holds (R117). -/
def condTrue (s : State) (key : Nat) (c : Ctx) (cond : Nat) : Bool :=
  let q := condQ cond
  match condKind cond with
  | 0 => true
  | 1 => (((s.inQueue key c q).map fun x => !x.fifo.isEmpty).getD false)
  | 2 => (((s.inQueue key c q).bind fun x => x.fifo.head?).map fun t => bits t.header.toNat 15 0 == condTag cond).getD false
  | 3 => s.hasSpace key c q
  | 4 => (c.rq q).isOut && decide (0 < c.reserved q)
  | _ => false

/-- Whether an entry's flag test passes (R119). -/
def flagsPass (flags : Byte) (w1 : Word) : Bool := (flags.toNat ^^^ bits w1.toNat 55 48) &&& bits w1.toNat 63 56 == 0

/-- Whether an entry is eligible on a state of the context and its ports (R119). -/
def entryEligible (s : State) (key : Nat) (c : Ctx) (n : Nat) : Bool :=
  let e := c.guard n
  entryV e.1 && entryValid e.1 e.2 && flagsPass c.flags e.2 && condTrue s key c (cond0 e.2) && condTrue s key c (cond1 e.2)

/-- The eligible entry of lowest index (R119). -/
def selectedEntry (s : State) (key : Nat) (c : Ctx) : Option Nat := (List.range 16).find? fun n => entryEligible s key c n

/-- The eligible entries, bit n for entry n (R138). [DEDUCED, unsafe, log 27] -/
def eligibleMask (s : State) (key : Nat) (c : Ctx) : Nat :=
  ((List.range 16).filter fun n => entryEligible s key c n).foldl (fun m n => m + 2 ^ n) 0

/-! ## Committed state (R126, R134) -/

/-- The committed flags of a context: those that the firings that have ended left. -/
def Ctx.committedFlags (c : Ctx) : Byte := if c.inFlight then (c.past.map fun p => p.flags).getD c.flags else c.flags

/-- A queue of a graph without what a firing in flight has popped from it and taken of its credits. -/
def Committed.restore (p : Committed) (key graph : Nat) (pair : Nat → Option Nat) (q : Queue) : Queue :=
  { q with
    fifo := if q.consumer = key ∧ (q.graph = graph ∨ q.graph = 0) then Map.get [] p.popped q.edge ++ q.fifo else q.fifo
    credits := if q.graph = graph ∧ pair q.edge = some q.consumer then ((q.credits : Int) + Map.get 0 p.taken q.edge).toNat else q.credits }

/-- The committed state of a context: its flags, ports and reservations as the firings that have ended left them (R126). -/
def State.committed (s : State) (key : Nat) (c : Ctx) : State × Ctx :=
  match (if c.inFlight then c.past else none) with
  | none => (s, c)
  | some p =>
    let pair (e : Nat) : Option Nat := (s.graph? c.graph).bind fun g => g.pairOf e key
    ({ s with
        queues := s.queues.map (p.restore key c.graph pair)
        shadows := s.shadows.map fun x =>
          if x.graph = c.graph ∧ x.producer = key then { x with credits := ((x.credits : Int) + Map.get 0 p.taken x.edge).toNat } else x },
      { c with flags := p.flags, resv := p.resv })

/-- The eligible entries of the committed state (R134, R138). -/
def committedMask (s : State) (key : Nat) (c : Ctx) : Nat := eligibleMask (s.committed key c).1 key (s.committed key c).2

/-! ## Instructions (R135 to R139) -/

/-- GUARD and UNGUARD put a changed table aside until the END of their firing; they squash every younger firing at issue, and while a table is put
aside the context dispatches none (R136). -/
def holdGuards (table : Ctx → Map (Word × Word)) : M Unit := do
  let key ← curKey
  modify fun s => s.squash key
  modCur fun c => { c with guardsHeld := some (table c) }

/-- GUARD .entry (R136). [DEDUCED, unsafe, log 26] -/
def execGuardEntry (f : SForm) (s : State) : Result :=
  runInstr (.guardEntry f) (sAsk f [sA f, sB .g f] []) (do
    let a ← opG .a
    let b ← opG .b
    match entryOffences a b with
    | o :: _ => raise cIllegalEncoding (guardInfo (sImm f) o)
    | [] => holdGuards fun c => Map.set (0, 0) c.heldGuards (sImm f % 16) (a, b)) s

/-- The first invalid entry of a list of entries. -/
def firstInvalid : List (Word × Word) → Nat → Option (Nat × GuardOffence)
  | [], _ => none
  | e :: rest, n =>
    match entryOffences e.1 e.2 with
    | o :: _ => some (n, o)
    | [] => firstInvalid rest (n + 1)

/-- Words paired two by two. -/
def pairWords : List Nat → List (Word × Word)
  | a :: b :: rest => (wd a, wd b) :: pairWords rest
  | _ => []

/-- A table of entries without the empty ones. -/
def guardMap (es : List (Word × Word)) : Map (Word × Word) :=
  (es.zipIdx).foldl (fun m e => Map.set (0, 0) m e.2 e.1) []

/-- n words read by a context through its ways. -/
def loadWords (s : State) (key : Nat) (c : Ctx) (va : Nat) : Nat → Except Trap (List Nat × State)
  | 0 => .ok ([], s)
  | n + 1 =>
    match loadAt s key c va 8 with
    | .error t => .error t
    | .ok (bs, s1) =>
      match loadWords s1 key c (va + 8) n with
      | .error t => .error t
      | .ok (ws, s2) => .ok (leNat bs :: ws, s2)

/-- GUARD .table (R136): the table is read at issue, once the accesses of the context are made, and its faults are those of a long-latency producer.
[DEDUCED, unsafe, log 26] -/
def execGuardTable (f : SForm) (s : State) : Result :=
  runInstr (.guardTable f) (sAsk f [sA f] [gDst f.d.toNat]) (do
    let a ← opG .a
    let key ← curKey
    let c ← curCtx
    if a.toNat % 256 ≠ 0 then raise cAlignment a
    if (← get).accessing key then stall .memory
    match loadWords (← get) key c a.toNat 32 with
    | .error t =>
      holdGuards Ctx.heldGuards
      issueFault t [f.d.toNat] []
    | .ok (ws, s1) =>
      set s1
      let es := pairWords ws
      match firstInvalid es 0 with
      | some (n, o) =>
        holdGuards Ctx.heldGuards
        issueFault { cause := cIllegalEncoding, info := guardInfo n o } [f.d.toNat] []
      | none =>
        holdGuards fun _ => guardMap es
        modCur fun c => { c with guardtab := a }
        issueValue f.d.toNat (wd (es.filter fun e => entryV e.1).length)) s

/-- A table with V cleared in the entries named. -/
def clearV (m : Map (Word × Word)) (p : Nat → Bool) : Map (Word × Word) :=
  (List.range 16).foldl (fun m n =>
    if p n then let e := Map.get (0, 0) m n; Map.set (0, 0) m n (setBit e.1 63 false, e.2) else m) m

/-- UNGUARD .one (R137). [DEDUCED, unsafe, log 26] -/
def execUnguardOne (f : SForm) (s : State) : Result :=
  runInstr (.unguardOne f) (sAsk f [] []) (do
    holdGuards fun c => clearV c.heldGuards fun n => n == sImm f % 16) s

/-- UNGUARD .mask (R137). [DEDUCED, unsafe, log 26] -/
def execUnguardMask (f : SForm) (s : State) : Result :=
  runInstr (.unguardMask f) (sAsk f [sA f] []) (do
    let a ← opG .a
    holdGuards fun c => clearV c.heldGuards fun n => a.getLsbD n) s

/-- GQRY .entry reads the live table, which GUARD of this firing has not yet changed (R136, R138). [DEDUCED, unsafe, log 26] -/
def execGqryEntry (f : SForm) (s : State) : Result :=
  runInstr (.gqryEntry f) (sAsk f [] [gDst f.d.toNat, gDst f.b.toNat]) (do
    let e := (← curCtx).guard (sImm f % 16)
    writeG f.d.toNat e.1
    writeG f.b.toNat e.2) s

/-- GQRY .elig (R138). [DEDUCED, unsafe, log 27] -/
def execGqryElig (f : SForm) (s : State) : Result :=
  runInstr (.gqryElig f) (sAsk f [] [gDst f.d.toNat]) (do
    let c ← curCtx
    let key ← curKey
    writeG f.d.toNat (wd (committedMask (← get) key c + c.committedFlags.toNat * 2 ^ 16))) s

/-- The word of CTXQ for a slot (R139). [DEDUCED, unsafe, log 27; DESIGN CHOICE, unsafe, log 126] -/
def State.slotStatus (s : State) (asid key : Nat) : Word :=
  match s.ctx? key with
  | none => 0
  | some c =>
    if c.asid ≠ asid then 1
    else
      let active := b2n c.firing.isSome
      wd (1 + 2 + b2n c.parked * 4 + active * 8 + (active + (s.specsOf key).length) % 8 * 16 + c.committedFlags.toNat * 2 ^ 8 +
        committedMask s key c * 2 ^ 16 +
        Nat.min 255 c.waited * 2 ^ 32)

/-- CTXQ (R139). [DEDUCED, unsafe, log 27] -/
def execCtxq (f : SForm) (s : State) : Result :=
  runInstr (.ctxq f) (sAsk f [] [gDst f.d.toNat]) (do
    let c ← curCtx
    let key ← curKey
    writeG f.d.toNat ((← get).slotStatus c.asid (mkKey (tileOf key) (strandOf key) (sImm f % 8)))) s

end Sys2Proof.Machine
end

