-- ==== Sys2Proof/Machine/Completion.lean ====
section
/-! DEFINITION. How instructions in flight complete: long-latency results and faults (R37, R39, R136), counter adds at their homes (R22), the
completions of asynchronous instructions (R55, R164), and the release of firings that wait at issue (R38, R149, R157, R167). -/

namespace Sys2Proof.Machine

def State.op? (s : State) (id : Nat) : Option Op := s.ops.find? fun o => o.id == id
def State.dropOp (s : State) (id : Nat) : State := { s with ops := s.ops.filter fun o => o.id != id }
def State.modOp (s : State) (id : Nat) (f : Op → Op) : State := { s with ops := s.ops.map fun o => if o.id = id then f o else o }

/-- An instruction in flight writes its destinations and is done (R37). -/
def State.finishOp (s : State) (o : Op) (g : Word) (v : List VWord) : State :=
  ((s.dropOp o.id).modOwner o.ctx fun c => c.complete o g v).wake o.ctx

/-- An asynchronous instruction has completed: what it owes its context is on its way (R55, R164). -/
def State.asyncComplete (s : State) (ctx : Nat) (ev : Option Nat) (warn fp : Word) : State :=
  { s with fresh := s.fresh + 1, asyncDone := s.asyncDone ++ [{ id := s.fresh, ctx := ctx, ev := ev, warn := warn, fpflags := fp }] }

/-- The result of a load, MCREAD or known value arrives (R37), or its fault (R39). -/
def State.longLatency (s : State) (o : Op) : State :=
  match o.kind with
  | .value g v => s.finishOp o g v
  | .fault cause info syn => (s.opFault o { cause := cause, info := info, syndrome := syn, addr := wd o.addr }).wake o.ctx
  | .load =>
    if s.mayPerform o then
      match s.owner? o.ctx with
      | none => s.dropOp o.id
      | some c =>
        match performLoad s o c with
        | .error t => (s.opFault o t).wake o.ctx
        | .ok (c1, s1) => ((s1.dropOp o.id).modOwner o.ctx fun _ => c1.complete { o with dstG := [], dstV := [] } 0 []).wake o.ctx
    else s
  | .counterRead =>
    if s.mayPerform o then
      match s.owner? o.ctx with
      | none => s.dropOp o.id
      | some c =>
        match performCounterRead s o c with
        | .error t => (s.opFault o t).wake o.ctx
        | .ok (x, s1) => s1.finishOp o (wd x) []
    else s
  | _ => s

/-- LONG_LATENCY_RESULT (R37). [DEDUCED, unsafe, log 14] -/
def execLongLatencyResult (id : Nat) (s : State) : Result :=
  runEvent (fun s => match s.op? id with
    | some o => s.longLatency o
    | none => s) s

/-- MONOTONIC_COUNTER_ADD: the home applies the add of an MCADD, whose old value is then on its way back (R22, R162). -/
def execMonotonicCounterAdd (id : Nat) (s : State) : Result :=
  runEvent (fun s => match s.op? id with
    | some o =>
      match o.kind, s.owner? o.ctx with
      | .counterAdd, some c =>
        if s.mayPerform o then
          match performCounterAdd s o c with
          | .error t => (s.opFault o t).wake o.ctx
          | .ok (old, s1) => (s1.modOp id fun o => { o with kind := .value (wd old) [] }).wake o.ctx
        else s
      | _, _ => s
    | none => s) s

/-- A completion reaches its context: the event counter advances and warnings and flags are set; a completion of a context that is gone is
discarded (R55, R113, R164). -/
def Ctx.absorb (c : Ctx) (d : AsyncDone) : Ctx :=
  let c1 := (c.warns d.warn).flagsFp d.fpflags
  match d.ev with
  | some n => c1.countCompletion n
  | none => c1

/-- Every completion on its way to a context reaches it. -/
def State.absorbAll (s : State) (key : Nat) : State :=
  (s.asyncDone.filter fun d => d.ctx == key).foldl (fun s d => s.modOwner key fun c => c.absorb d)
    { s with asyncDone := s.asyncDone.filter fun d => d.ctx != key }

/-- ASYNC_COMPLETION (R55, R164, R275). -/
def execAsyncCompletion (id : Nat) (s : State) : Result :=
  runEvent (fun s => match s.asyncDone.find? fun d => d.id == id with
    | some d =>
      ({ s with asyncDone := s.asyncDone.filter fun x => x.id != id } : State).modOwner d.ctx fun c => c.absorb d
    | none => s) s

/-- Whether what a firing waits for at issue has come about (R38, R39, R149, R157). [DEDUCED, safe, log 53] -/
def State.stallOver (s : State) (key : Nat) (c : Ctx) (w : Stall) : Bool :=
  match w with
  | .operand vec n dst => if dst then !s.produced key { vec := vec, n := n } else !(if vec then c.emptyV n else c.emptyG n)
  | .tokens q n => decide (n ≠ s.tokensSeen key c q)
  | .space q n => decide (n ≠ s.spaceSeen key c q)
  | _ => false

/-- Let a firing whose wait is over issue again. [DEDUCED, safe, log 53] -/
def State.releaseStall (s : State) (key : Nat) (p : Stall → Bool) : State :=
  match s.ctx? key with
  | none => s
  | some c =>
    match c.firing with
    | none => s
    | some f => if p f.stall && s.stallOver key c f.stall then s.setCtx key { c with firing := some { f with stall := .none } } else s

/-- OPERAND_WAIT_RELEASE (R38). -/
def execOperandWaitRelease (ctx : Nat) (s : State) : Result :=
  runEvent (fun s => s.releaseStall ctx fun w => match w with | .operand _ _ _ => true | _ => false) s

/-- PUSH_CREDIT_WAIT_RELEASE (R149). -/
def execPushCreditWaitRelease (ctx : Nat) (s : State) : Result :=
  runEvent (fun s => s.releaseStall ctx fun w => match w with | .space _ _ => true | _ => false) s

/-- POP_TOKEN_WAIT_RELEASE (R153, R157). -/
def execPopTokenWaitRelease (ctx : Nat) (s : State) : Result :=
  runEvent (fun s => s.releaseStall ctx fun w => match w with | .tokens _ _ => true | _ => false) s

/-- WAIT_COMPLETION (R167). -/
def execWaitCompletion (ctx : Nat) (s : State) : Result := runEvent (fun s => s.waitStep ctx false) s

/-- WAIT_TIMEOUT (R167). [DEDUCED, unsafe, log 37] -/
def execWaitTimeout (ctx : Nat) (s : State) : Result := runEvent (fun s => s.waitStep ctx true) s

end Sys2Proof.Machine
end

