-- ==== Sys2Proof/Machine/Cache.lean ====
section
/-! DEFINITION. Fences, cache controls and bank switches (R241, R242, R268 to R271), arrival words (R267), and the arrival of posted writes and
of page walks (R253, R364). -/

namespace Sys2Proof.Machine

/-! ## FENCE (R268) -/

/-- ATOM, which returns nothing. -/
def Op.isAtom (o : Op) : Bool := bits o.word.toNat 63 50 == 0x3480
/-- Whether an access is only a write. -/
def Op.onlyWrites (o : Op) : Bool :=
  match o.kind with
  | .store => true
  | .awarm => true
  | .awcred => true
  | .blend => true
  | .seqret => true
  | _ => false

/-- Whether an access in flight holds a fence of an order: a posted atomic never does, and an acquire orders earlier loads alone. -/
def Op.fenced (o : Op) (ord : Nat) : Bool := o.isAccess && !o.isAtom && (hasRel ord || !o.onlyWrites)

/-- FENCE (R268); rlx is taken as ar (R80). [DEDUCED, unsafe, log 15] -/
def execFence (f : MForm) (s : State) : Result :=
  runInstr (.fence f) (mAsk .scalar f [] []) (do
    let key ← curKey
    let ord := if f.ord = 0 then 3 else f.ord.toNat
    if ((← get).inFlightOf key).any fun o => o.fenced ord then stall .memory
    modify fun s => if hasRel ord then s.releaseWays key f.sc.toNat else s
    modify fun s => if hasAcq ord then s.acquireWays key f.sc.toNat else s
    if f.ord = 0 then warn wModcombo) s

/-! ## PREF, CWB, CINV and CFLUSH (R252, R269, R270) -/

/-- The address without an alignment check; a 4-bit type rounds its displacement down (R252). -/
def looseAddr (ty : Nat) (hasIdx : Bool) (disp : Int) : M Nat := do
  let base ← opG .b
  let idx ← if hasIdx then opG .c else pure 0
  let n : Int := if tyNibble ty then (idx.toInt + disp) / 2 else (idx.toInt + disp) * (tyBytes ty : Int)
  pure (base + BitVec.ofInt 64 n).toNat

/-- The physical address of a byte that some access of a context could reach in the DRAM region. -/
def dramOf (s : State) (key : Nat) (c : Ctx) (va : Nat) : Option Nat :=
  [Right.r, .w, .x].findSome? fun need => match translateFor s key c va need with | .ok pa => some pa | .error _ => none

/-- PREF requests a fill and changes nothing that programs see; the line is filled into the tile's ways at SC tile and into the cluster cache at SC
cluster (R269). -/
def execPref (f : MForm) (s : State) : Result :=
  runInstr (.pref f) (mAsk .scalar f (mBase f :: mIdx f) []) (do
    let a ← looseAddr f.ty.toNat (f.idx ≠ 0) (mDisp f)
    let c ← curCtx
    let key ← curKey
    modify fun s =>
      if !inAperture a && s.hasWays (tileOf key) then
        match dramOf s key c a with
        | some pa =>
          [0, 32, 64, 96].foldl (fun s j =>
            let pa := pa / 128 * 128 + j
            if f.sc = 1 then s.fillSector (tileOf key) pa else if f.sc = 2 then s.sliceAccess (tileOf key) pa false else s) s
        | none => s
      else s) s

/-- The 64 KiB pages that a range of addresses below 2^48 overlaps. -/
def pagesOf (a n : Nat) : List Nat :=
  let stop := Nat.min (a + n) (2 ^ 48)
  if stop ≤ a then [] else (List.range ((stop + 65535) / 65536 - a / 65536)).map fun j => a / 65536 * 65536 + 65536 * j

/-- Whether a physical address lies in a line of 128 bytes that overlaps a range of a context's addresses. -/
def inLines (s : State) (key : Nat) (c : Ctx) (a n pa : Nat) : Bool :=
  (pagesOf a n).any fun page =>
    match dramOf s key c page with
    | some base =>
      decide (pa / 65536 = base / 65536) &&
      (let lo := page + pa % 65536 / 128 * 128
       decide (lo < a + n) && decide (a < lo + 128))
    | none => false

/-- A cache control: it waits for the accesses of its context that are still on their way, then acts on the lines in range (R270).
[DEDUCED, unsafe, log 15] -/
def cacheControl (i : Instr) (f : MForm) (act : State → Nat → (Nat → Bool) → State) (s : State) : Result :=
  runInstr i (mAsk .scalar f (mDs .g f :: mBase f :: mIdx f) []) (do
    let a ← looseAddr f.ty.toNat (f.idx ≠ 0) (mDisp f)
    let n := (← opG .a).toNat
    let c ← curCtx
    let key ← curKey
    if (← get).accessing key then stall .memory
    modify fun s => act s (tileOf key) fun pa => if n = 0 then true else inLines s key c a n pa) s

/-- CWB (R270). -/
def execCwb (f : MForm) (s : State) : Result := cacheControl (.cwb f) f State.writeBack s
/-- CINV (R270). -/
def execCinv (f : MForm) (s : State) : Result := cacheControl (.cinv f) f State.dropSectors s
/-- CFLUSH (R270). -/
def execCflush (f : MForm) (s : State) : Result := cacheControl (.cflush f) f State.flushWays s

/-! ## Bank switches (R240 to R242, R271) -/

/-- Whether a graph is in a state other than EMPTY and DRAINED. -/
def State.graphLive (s : State) (h : Nat) : Bool :=
  match s.graph? h with
  | some g => g.state != .empty && g.state != .drained
  | none => false

/-- The declared depth of an edge's queue. -/
def State.edgeDepth (s : State) (h edge : Nat) : Nat :=
  (((s.graph? h).bind fun g => (g.edges[edge]?).bind fun d => g.queues[d.queue]?).map (·.depth)).getD 0

/-- Banks of a depth of slots: ceil(depth ÷ 2,048) (R145). -/
def banksOf (depth : Nat) : Nat := (depth + 2047) / 2048

/-- Banks that the queues of live graphs, and the shadows of their proxy queues, occupy on a tile (R145, R240). -/
def State.liveBanks (s : State) (tile : Nat) : Nat :=
  (s.queues.filter fun q => tileOf q.consumer == tile && s.graphLive q.graph).foldl (fun n q => n + banksOf q.depth) 0 +
  (s.shadows.filter fun x => tileOf x.producer == tile && s.graphLive x.graph).foldl (fun n x => n + banksOf (s.edgeDepth x.graph x.edge)) 0

def State.fifoBanks (s : State) (tile : Nat) : Nat := ((List.range 24).filter fun b => s.bankMode tile b == 2).length

/-- Whether a FIFO bank of a tile backs a live queue: it must when every FIFO bank is needed, it does not when none is, and otherwise the
manual does not say which banks hold which queues (R241). [DESIGN CHOICE, unsafe, log 50] -/
def State.backsQueue (s : State) (tile : Nat) (free : Bool) : Bool :=
  if s.liveBanks tile = 0 then false else if s.fifoBanks tile ≤ s.liveBanks tile then true else free

/-- The copies in progress after a switch of a bank: a record with bytes there fails when it goes on (R242). [DEDUCED, unsafe, log 117] -/
def cutCopies (bank : Nat) (l : List CopyRun) : List CopyRun :=
  l.map fun r => match r.banks.find? fun b => b.1 == bank with | some b => { r with cut := some b.2 } | none => r

/-- Drop the clean lines that lay in a bank that leaves CACHE mode: those of one way, which lines the model does not tell, so that they are free
(R241). [DESIGN CHOICE, unsafe, log 17] -/
def State.dropWay (s : State) (tile : Nat) : State :=
  if s.hasWays tile then
    { s.dropClean tile (fun pa => Config.freeChoice (s.drawn + pa / 128)) with drawn := s.drawn + 2 ^ 31 }
  else s.dropClean tile fun _ => true

/-- What a switch does to the contents of a bank (R241). The cache ways of a tile are one store here, so a bank that leaves CACHE mode writes
back every dirty sector of the tile, and the lines that lay in it are a free choice; the last one drops them all.
[DESIGN CHOICE, unsafe, log 17; DEDUCED, unsafe, log 117] -/
def State.switchBank (s : State) (tile bank mode : Nat) : State :=
  let was := s.bankMode tile bank
  if was = mode then s
  else
    let s1 := if was = 0 then s.writeBack tile fun _ => true else s
    let s2 := ({ s1 with copies := cutCopies (24 * tile + bank) s1.copies }.setBankMode tile bank mode).zeroBank tile bank
    if was = 0 then s2.dropWay tile else s2

/-- BANKCFG (R271). -/
def execBankcfg (f : MForm) (s : State) : Result :=
  runInstr (.bankcfg f) (mAsk .scalar f (mDs .g f :: mBase f :: mIdx f) []) (do
    let a ← memAddr f.ty.toNat (f.idx ≠ 0) (mDisp f)
    let mode := (← opG .a).toNat % 4
    if !inAperture a || a % 65536 != 0 then raise cAlignment (wd a)
    let key ← curKey
    let c ← curCtx
    match ← orTrap (apertureAt (← get) key c a 1) with
    | .dram _ => raise cProtection (wd a)
    | .bank tile bank _ =>
      if (onSystemTile key || clusterOfTile (tileOf key) != clusterOfTile tile) && ((← get).cluster (clusterOfTile tile)).refuses then
        raise cTargetGated (wd a)
      if (← get).busyUnits.contains (unitWord 1 tile bank) then stall .memory
      let was := (← get).bankMode tile bank
      let fifo := decide (mode = 2) || decide (was = 2)
      if mode = 3 then raise cProtection (wd a)
      if fifo && c.priv == .u then raise cProtection (wd a)
      if fifo && !(Map.get 0 (← get).queueBanks tile).getLsbD bank then raise cProtection (wd a)
      if was = 2 && mode ≠ 2 then
        let (free, s1) := (← get).drawChoice
        if (← get).backsQueue tile free then raise cProtection (wd a)
        set s1
      modify fun s => s.switchBank tile bank mode) s

/-! ## Arrival words (R267) -/

/-- Issue AWARM or AWCRED: the address must lie in the aperture and pass the checks made at issue (R239, R267). -/
def issueArrival (f : MForm) (kind : OpKind) (ord : Nat) : M Unit := do
  let a ← memAddr f.ty.toNat (f.idx ≠ 0) (mDisp f)
  let key ← curKey
  let c ← curCtx
  if !inAperture a then raise cProtection (wd a)
  let _ ← orTrap (apertureAt (← get) key c a 8)
  gateAcquire
  let _ ← issueOp kind [] [] a f.sc.toNat ord

/-- AWARM (R267); it is no release (R279). -/
def execAwarm (f : MForm) (s : State) : Result :=
  runInstr (.awarm f) (mAsk .scalar f (mDs .g f :: mBase f :: mIdx f) []) (issueArrival f .awarm 0) s
/-- AWCRED (R267). -/
def execAwcred (f : MForm) (s : State) : Result :=
  runInstr (.awcred f) (mAsk .scalar f (mDs .g f :: mBase f :: mIdx f) []) (issueArrival f .awcred (storeOrd f.ord.toNat)) s

/-! ## Arrivals (R253) -/

/-- A posted access has been performed, or its fault is delivered as that of an asynchronous instruction (R253). -/
def State.posted (s : State) (o : Op) (r : State × Option Trap) : State :=
  match r with
  | (s1, none) => s1.finishOp o 0 []
  | (_, some t) => (s.opFault o t).wake o.ctx

/-- AWARM or AWCRED reaches its bank (R163, R267). -/
def performArrival (s : State) (o : Op) (c : Ctx) : State × Option Trap :=
  let n := o.opA.toNat % 2 ^ 28
  let s0 := if hasRel o.ord then s.releaseWays o.ctx o.scope else s
  match updateArrival s0 o.ctx c o.addr fun aw => if o.kind = .awarm then armWord aw n else creditWord aw n with
  | .error t => (s, some t)
  | .ok s1 => (s1, none)

/-- POSTED_WRITE_ARRIVAL: a store or an AWARM reaches its home or bank (R253). [DEDUCED, unsafe, log 14] -/
def execPostedWriteArrival (id : Nat) (s : State) : Result :=
  runEvent (fun s => match s.op? id with
    | none => s
    | some o =>
      match s.owner? o.ctx with
      | none => s.dropOp id
      | some c =>
        if s.mayPerform o then
          match o.kind with
          | .store => s.posted o (performStore s o c)
          | .awarm => s.posted o (performArrival s o c)
          | _ => s
        else s) s

/-- ARRIVAL_WORD_CREDIT: an AWCRED reaches its bank (R163, R267). -/
def execArrivalWordCredit (id : Nat) (s : State) : Result :=
  runEvent (fun s => match s.op? id with
    | none => s
    | some o =>
      match s.owner? o.ctx with
      | none => s.dropOp id
      | some c =>
        if s.mayPerform o then
          match o.kind with
          | .awcred => s.posted o (performArrival s o c)
          | _ => s
        else s) s

/-- PAGE_WALK_COMPLETION: a walk ends and its translation is cached for the tile whose miss it served; the number says whose TLBs, 8192 × tile + ASID
(R364). [DESIGN CHOICE, safe, log 18] -/
def execPageWalkCompletion (tlb va : Nat) (s : State) : Result :=
  runEvent (fun s =>
    let tile := tlb / 8192
    let asid := tlb % 8192
    let part := (s.asid asid).part
    if !(s.asid asid).live || decide (2 ^ 48 ≤ va) || (s.tlbHit tile asid part va).isSome then s
    else
      match [Right.r, .w, .x].findSome? fun need => match walkBoth s asid part va need with | .ok e => some e | .error _ => none with
      | some e => { s with tlb := s.tlb ++ [{ e with tile := tile }] }
      | none => s) s

end Sys2Proof.Machine
end

