-- ==== Sys2Proof/Machine/Elementary.lean ====
section
/-! DEFINITION. Exact arithmetic on decoded values (R318), and the roots and elementary functions of R321 and R323 as integers scaled by a power of
two, to enough places that one rounding gives the rounding of the exact value. -/

namespace Sys2Proof.Machine

/-! ## Sums and products (R318) -/

/-- A value with the flags that forming it raises. -/
structure Formed where
  val : Val
  fp : Word := 0
  deriving DecidableEq, Repr

def invalid : Formed := { val := .nan false, fp := fNV }
/-- NV for a signalling NaN among the operands (R295). -/
def sigFlag (vs : List Val) : Word := if vs.any Val.isSig then fNV else 0
/-- The canonical NaN of an operation with a NaN operand. -/
def nanOf (vs : List Val) : Formed := { val := .nan false, fp := sigFlag vs }

/-- An exact sum: a zero sum of like signs keeps the sign, of unlike signs it is +0, or −0 under rdn. -/
def sumVal (rm : Nat) (n1 : Bool) (m1 : Nat) (e1 : Int) (n2 : Bool) (m2 : Nat) (e2 : Int) : Val :=
  let r := sumFin n1 m1 e1 n2 m2 e2
  if r.1 = 0 then .fin (if m1 = 0 ∧ m2 = 0 ∧ n1 = n2 then n1 else rm == 3) 0 0
  else .fin (decide (r.1 < 0)) r.1.natAbs r.2

def addVal (rm : Nat) (a b : Val) : Formed :=
  match a, b with
  | .inf n, .inf m => if n = m then { val := .inf n } else invalid
  | .inf n, .fin _ _ _ => { val := .inf n }
  | .fin _ _ _, .inf m => { val := .inf m }
  | .fin n1 m1 e1, .fin n2 m2 e2 => { val := sumVal rm n1 m1 e1 n2 m2 e2 }
  | _, _ => nanOf [a, b]

def mulVal (a b : Val) : Formed :=
  match a, b with
  | .inf n, .inf m => { val := .inf (n != m) }
  | .inf n, .fin m k _ => if k = 0 then invalid else { val := .inf (n != m) }
  | .fin m k _, .inf n => if k = 0 then invalid else { val := .inf (n != m) }
  | .fin n1 m1 e1, .fin n2 m2 e2 => { val := .fin (n1 != n2) (m1 * m2) (e1 + e2) }
  | _, _ => nanOf [a, b]

/-- a × b + c with one rounding; 0 × ∞ sets NV even when c is a NaN. -/
def fmaVal (rm : Nat) (a b c : Val) : Formed :=
  let p := mulVal a b
  if p.val.isNan ∨ c.isNan then { val := .nan false, fp := p.fp ||| sigFlag [a, b, c] }
  else addVal rm p.val c

/-- Encode a formed result, with its flags. -/
def encodeFormed (ty rm sm : Nat) (ftz : Bool) (r : Formed) : Enc :=
  let e := encodeVal ty rm sm ftz r.val
  { e with fp := e.fp ||| r.fp }

/-! ## The grids of R321 and R323 -/

/-- Encode a nonzero magnitude on the grid of a type whose `drop` low fraction bits are 0, rounded rne. -/
def encodeGrid (ty sm drop : Nat) (ftz : Bool) (neg : Bool) (m : Nat) (e : Int) (sticky : Bool) : Enc :=
  match binaryOf ty with
  | none => { code := 0 }
  | some b => encodeMag b ty 0 sm ftz drop neg m e sticky

/-- An infinite result: under satfinite the largest grid value with W_SAT (R321, R323). -/
def gridInf (ty sm drop : Nat) (neg : Bool) (fp : Word) : Enc :=
  match binaryOf ty with
  | none => { code := 0 }
  | some b =>
    if sm = 2 then { code := signed b neg (gridMax ty drop), fp := fp, warn := wSat } else { code := signed b neg (infCode ty), fp := fp }

/-- A zero of a sign, and the canonical NaN. -/
def zeroCode (ty : Nat) (neg : Bool) : Enc := encodeVal ty 0 0 false (.fin neg 0 0)
def nanEnc (ty : Nat) (fp : Word) : Enc := { code := nanCode ty, fp := fp }

/-- The fraction bits that the seed grid leaves 0: at most 12 significant bits remain (R321). -/
def seedDrop (ty : Nat) : Nat :=
  match binaryOf ty with
  | some b => b.fbits - 11
  | none => 0

/-- The integer square root, bit by bit from bit b down. -/
def isqrtFrom (n : Nat) : Nat → Nat → Nat
  | 0, acc => acc
  | b + 1, acc => isqrtFrom n b (if (acc + 2 ^ b) * (acc + 2 ^ b) ≤ n then acc + 2 ^ b else acc)
def isqrt (n : Nat) : Nat := isqrtFrom n (Nat.log2 n / 2 + 1) 0

/-- 1 ÷ a on the seed grid (R321). -/
def rcpSeed (ty sm : Nat) (ftz : Bool) (v : Val) : Enc :=
  match v with
  | .nan s => nanEnc ty (if s then fNV else 0)
  | .inf n => zeroCode ty n
  | .fin n m e =>
    if m = 0 then gridInf ty sm (seedDrop ty) n fDZ
    else
      let k := Nat.log2 m + 130
      encodeGrid ty sm (seedDrop ty) ftz n (2 ^ k / m) (-e - k) (2 ^ k % m != 0)

/-- 1 ÷ √a on the seed grid (R321). -/
def rsqSeed (ty sm : Nat) (ftz : Bool) (v : Val) : Enc :=
  match v with
  | .nan s => nanEnc ty (if s then fNV else 0)
  | .inf n => if n then nanEnc ty fNV else zeroCode ty false
  | .fin n m e =>
    if m = 0 then gridInf ty sm (seedDrop ty) n fDZ
    else if n then nanEnc ty fNV
    else
      let m' := if e % 2 = 0 then m else 2 * m
      let e' := if e % 2 = 0 then e else e - 1
      let k := Nat.log2 m' / 2 + 130
      let r := isqrt (2 ^ (2 * k) / m')
      encodeGrid ty sm (seedDrop ty) ftz false r (-(e' / 2) - k) (r * r * m' != 2 ^ (2 * k))

/-! ## Elementary functions in fixed point (R323)

An integer x stands for x ÷ 2^384. Every series below is cut where its terms vanish, and its error stays below 2^−370; the function
values at operands of these types that are not exact are irrational, and none lies that near a rounding boundary (see the assumption log). -/

def fxBits : Nat := 384
def fxOne : Nat := 2 ^ fxBits
def fxMul (a b : Nat) : Nat := a * b / fxOne

/-- ln 2 = Σ 1 ÷ (k × 2^k), from k upwards with fuel. -/
def fxLn2From : Nat → Nat → Nat
  | 0, _ => 0
  | fuel + 1, k => fxOne / (k * 2 ^ k) + fxLn2From fuel (k + 1)
def fxLn2 : Nat := fxLn2From 390 1

/-- atan(1 ÷ n) = Σ (−1)^k ÷ ((2k + 1) n^(2k + 1)). -/
def fxAtanInv (n : Nat) : Nat → Nat → Int
  | 0, _ => 0
  | fuel + 1, k =>
    let t : Int := (fxOne / ((2 * k + 1) * n ^ (2 * k + 1)) : Nat)
    (if k % 2 = 0 then t else -t) + fxAtanInv n fuel (k + 1)
/-- π by Machin's formula. [PRESUMED, unsafe, log 19] -/
def fxPi : Nat := (16 * fxAtanInv 5 90 0 - 4 * fxAtanInv 239 30 0).toNat

/-- e^y = Σ y^k ÷ k!, for 0 ≤ y < 1; t is the present term. -/
def fxExpFrom (y : Nat) : Nat → Nat → Nat → Nat
  | 0, _, _ => 0
  | fuel + 1, k, t => t + fxExpFrom y fuel (k + 1) (fxMul t y / (k + 1))
/-- 2^x for 0 ≤ x < 1. [PRESUMED, unsafe, log 19] -/
def fxExp2 (x : Nat) : Nat := fxExpFrom (fxMul x fxLn2) 90 0 fxOne

/-- sin y = Σ (−1)^k y^(2k + 1) ÷ (2k + 1)!, for 0 ≤ y ≤ π ÷ 2. -/
def fxSinFrom (y2 : Nat) : Nat → Nat → Nat → Int
  | 0, _, _ => 0
  | fuel + 1, k, t =>
    (if k % 2 = 0 then (t : Int) else -(t : Int)) + fxSinFrom y2 fuel (k + 1) (fxMul t y2 / ((2 * k + 2) * (2 * k + 3)))
/-- [PRESUMED, unsafe, log 19] -/
def fxSinPi (x : Nat) : Nat :=
  let y := fxMul x fxPi
  (fxSinFrom (fxMul y y) 60 0 y).toNat

/-- atanh u = Σ u^(2k + 1) ÷ (2k + 1), for 0 ≤ u ≤ 1 ÷ 3. -/
def fxAtanhFrom (u2 : Nat) : Nat → Nat → Nat → Nat
  | 0, _, _ => 0
  | fuel + 1, k, t => t / (2 * k + 1) + fxAtanhFrom u2 fuel (k + 1) (fxMul t u2)
/-- log2 z for 1 ≤ z < 2. [PRESUMED, unsafe, log 19] -/
def fxLog2 (z : Nat) : Nat :=
  let u := (z - fxOne) * fxOne / (z + fxOne)
  2 * fxAtanhFrom (fxMul u u) 130 0 u * fxOne / fxLn2

/-- The fraction bits that the grid of R323 leaves 0. -/
def fnDrop (ty : Nat) : Nat := if ty = 10 then 2 else 0

/-- m × 2^e as a fixed-point number, for e ≥ −384. -/
def toFx (m : Nat) (e : Int) : Nat := m * 2 ^ (e + fxBits).toNat

/-- 2^a (R323). [PRESUMED, unsafe, log 19] -/
def exp2Fn (ty sm : Nat) (ftz : Bool) (v : Val) : Enc :=
  match v with
  | .nan s => nanEnc ty (if s then fNV else 0)
  | .inf n => if n then zeroCode ty false else gridInf ty sm (fnDrop ty) false 0
  | .fin n m e =>
    if m = 0 then encodeGrid ty sm (fnDrop ty) ftz false 1 0 false
    else if 12 ≤ floorLog m e then encodeGrid ty sm (fnDrop ty) ftz false 1 (if n then -4096 else 4096) false
    else
      let x : Int := if n then -(toFx m e : Int) else toFx m e
      let k := x / fxOne
      let fr := (x % fxOne).toNat
      if fr = 0 then encodeGrid ty sm (fnDrop ty) ftz false 1 k false
      else encodeGrid ty sm (fnDrop ty) ftz false (fxExp2 fr) (k - fxBits) true

/-- log2 a (R323). [PRESUMED, unsafe, log 19] -/
def log2Fn (ty sm : Nat) (ftz : Bool) (v : Val) : Enc :=
  match v with
  | .nan s => nanEnc ty (if s then fNV else 0)
  | .inf n => if n then nanEnc ty fNV else gridInf ty sm (fnDrop ty) false 0
  | .fin n m e =>
    if m = 0 then gridInf ty sm (fnDrop ty) true fDZ
    else if n then nanEnc ty fNV
    else
      let l := Nat.log2 m
      let k : Int := (l : Int) + e
      if m = 2 ^ l then (if k = 0 then zeroCode ty false else encodeGrid ty sm (fnDrop ty) ftz (decide (k < 0)) k.natAbs 0 false)
      else
        let r : Int := k * fxOne + (fxLog2 (m * fxOne / 2 ^ l) : Nat)
        encodeGrid ty sm (fnDrop ty) ftz (decide (r < 0)) r.natAbs (-(fxBits : Int)) true

/-- sin(π x) for 0 ≤ x ≤ 1 ÷ 2 in fixed point, as an encoded result of a sign: 0 and 1 are exact. -/
def sinPart (ty sm : Nat) (ftz neg : Bool) (zeroSign : Bool) (x : Nat) : Enc :=
  if x = 0 then zeroCode ty zeroSign
  else if 2 * x = fxOne then encodeGrid ty sm (fnDrop ty) ftz neg 1 0 false
  else encodeGrid ty sm (fnDrop ty) ftz neg (fxSinPi x) (-(fxBits : Int)) true

/-- |a| modulo 2 in fixed point. -/
def modTwo (m : Nat) (e : Int) : Nat := if 1 ≤ e then 0 else toFx m e % (2 * fxOne)

/-- sin(π × a) (R323). [PRESUMED, unsafe, log 19] -/
def sinPiFn (ty sm : Nat) (ftz : Bool) (v : Val) : Enc :=
  match v with
  | .nan s => nanEnc ty (if s then fNV else 0)
  | .inf _ => nanEnc ty fNV
  | .fin n m e =>
    let t := modTwo m e
    let flip := decide (fxOne ≤ t)
    let t1 := if flip then t - fxOne else t
    let t2 := if fxOne < 2 * t1 then fxOne - t1 else t1
    sinPart ty sm ftz (n != flip) n t2

/-- cos(π × a) (R323). [PRESUMED, unsafe, log 19] -/
def cosPiFn (ty sm : Nat) (ftz : Bool) (v : Val) : Enc :=
  match v with
  | .nan s => nanEnc ty (if s then fNV else 0)
  | .inf _ => nanEnc ty fNV
  | .fin _ m e =>
    let t := modTwo m e
    let t1 := if fxOne < t then 2 * fxOne - t else t
    if 2 * t1 ≤ fxOne then sinPart ty sm ftz false false (fxOne / 2 - t1) else sinPart ty sm ftz true false (t1 - fxOne / 2)

end Sys2Proof.Machine
end

