-- ==== Sys2Proof/Machine/Atomics.lean ====
section
/-! DEFINITION. Atomics (R256, R257) and the repair queue of each die (R258, R259). -/

namespace Sys2Proof.Machine

/-! ## The operation (R256) -/

/-- The displacement and the operation of ATOM and ATOMR. -/
def atomDisp (f : MForm) : Int := (f.disp.extractLsb' 0 12).toInt
def atomOp (f : MForm) : Nat := bits f.disp.toNat 15 12

/-- New(OP, old, v) for an element of a type, as codes of its width. -/
def atomNew (ty op old v : Nat) : Nat :=
  let w := 8 * tyBytes ty
  let less (a b : Nat) : Bool := decide (asInt (tySigned ty) w a < asInt (tySigned ty) w b)
  match op with
  | 0 => (old + v) % 2 ^ w
  | 1 => if less v old then v else old
  | 2 => if less old v then v else old
  | 3 => old &&& v
  | 4 => old ||| v
  | 5 => old ^^^ v
  | 6 => v
  | _ => (encodeVal ty 0 0 false (addVal 0 (decodeVal ty old) (decodeVal ty v)).val).code

/-- The old value as gDS receives it: Wr of R96. -/
def atomOld (ty old : Nat) : Word := if ty < 8 then wrInt ty (rdInt ty (wd old)) else wd old

/-- The value that an atomic in flight puts in place of an old one. -/
def Op.atomicNew (o : Op) (old : Nat) : Nat :=
  let f := MForm.ofWord o.word.toNat
  let ty := f.ty.toNat
  let w := 8 * tyBytes ty
  let a := o.opA.toNat % 2 ^ w
  if bits o.word.toNat 55 50 = 2 then (if old = a then o.opX.toNat % 2 ^ w else old) else atomNew ty (atomOp f) old a

/-! ## Issue (R256, R257) -/

/-- Put an atomic in flight: an aperture address passes the checks made at issue, and a redundant copy may not make one (R223, R239, R257).
[DEDUCED, unsafe, log 67] -/
def issueAtomic (f : MForm) (disp : Int) (dsts : List Nat) : M Unit := do
  let ty := f.ty.toNat
  let a ← memAddr ty (f.idx ≠ 0) disp
  let key ← curKey
  let c ← curCtx
  if inAperture a then let _ ← orTrap (apertureAt (← get) key c a (tyBytes ty))
  if (← get).redundant key then raise cProtection (wd a)
  gateAcquire
  let _ ← issueOp .atomic dsts [] a f.sc.toNat f.ord.toNat

/-- ATOM (R256). -/
def execAtom (f : MForm) (s : State) : Result :=
  runInstr (.atom f) (mAsk .scalar f (mDs .g f :: mBase f :: mIdx f) []) (issueAtomic f (atomDisp f) []) s
/-- ATOMR (R256). -/
def execAtomr (f : MForm) (s : State) : Result :=
  runInstr (.atomr f) (mAsk .scalar f (mDs .g f :: mBase f :: mIdx f) [gDst f.ds.toNat]) (issueAtomic f (atomDisp f) [f.ds.toNat]) s
/-- CAS: gDS + 1 is read with blocking (R256). -/
def execCas (f : MForm) (s : State) : Result :=
  runInstr (.cas f) (mAsk .scalar f (mDs .g f :: { slot := .x, kind := .g, n := f.ds.toNat + 1 } :: mBase f :: mIdx f) [gDst f.ds.toNat])
    (issueAtomic f (mDisp f) [f.ds.toNat]) s

/-! ## At the serialisation point (R257) -/

/-- Apply an atomic in one step: the old value and the state after, or the fault it meets. [DEDUCED, unsafe, log 67] -/
def performAtomic (s : State) (o : Op) (c : Ctx) : Except Trap (Nat × State) :=
  let n := tyBytes (MForm.ofWord o.word.toNat).ty.toNat
  match placeOf s o.ctx c o.addr n .w with
  | .error t => .error t
  | .ok p =>
    let s0 := if hasRel o.ord then s.releaseWays o.ctx o.scope else s
    let finish (s1 : State) : State := (if hasAcq o.ord then s1.acquireWays o.ctx o.scope else s1).countAtomic o.ctx
    match p with
    | .dram pa =>
      if s.dramBad pa n then .error (badDataTrap o.addr)
      else
        let s1 := s0.flushSector (tileOf o.ctx) pa
        let old := leNat (Memory.readBytes s1.mem pa n)
        .ok (old, finish (s1.dramWrite pa (leBytes n (o.atomicNew old))))
    | .bank tile bank off =>
      match bankChecks s o.ctx o.addr tile bank with
      | .error t => .error t
      | .ok () =>
        if bufferProtected s tile bank off n then .error { cause := cProtection, info := wd o.addr, addr := wd o.addr }
        else if s.bankBad tile bank off n then .error (badDataTrap o.addr)
        else
          let old := leNat (s0.bankBytes tile bank off n)
          .ok (old, finish (s0.bankWrite tile bank off (leBytes n (o.atomicNew old))))

/-- An atomic has been applied: its result, where it has one, is written (R256). -/
def State.finishAtomic (s : State) (o : Op) (old : Nat) : State :=
  s.finishOp o (atomOld (MForm.ofWord o.word.toNat).ty.toNat old) []

/-- Faults that divert an atomic (R258). [DEDUCED, unsafe, log 67] -/
def diverts (cause : BitVec 8) : Bool := cause == cTranslation || cause == cProtection || cause == cMemUncorrectable

/-- The fault of an atomic that ends without effect, at its result or as an asynchronous fault (R258). [DEDUCED, unsafe, log 67] -/
def State.failAtomic (s : State) (o : Op) (t : Trap) : State :=
  if o.isAtom then ((s.dropOp o.id).asyncFault o.ctx t o.pc o.word).wakeAll
  else
    let rest := s.ops.filter fun p => p.id != o.id
    let bad : Op := { o with kind := .fault t.cause t.info t.syndrome }
    ({ s with ops := (rest.filter fun p => decide (p.id < o.id)) ++ bad :: rest.filter fun p => decide (o.id < p.id) } : State).wakeAll

/-- ATOMIC_APPLY (R257). -/
def execAtomicApply (id : Nat) (s : State) : Result :=
  runEvent (fun s => match s.op? id with
    | none => s
    | some o =>
      match o.kind, s.owner? o.ctx with
      | .atomic, some c =>
        if s.mayPerform o then
          match performAtomic s o c with
          | .ok (old, s1) => s1.finishAtomic o old
          | .error t => if diverts t.cause then s else s.failAtomic o t
        else s
      | _, _ => s) s

/-! ## The repair queue (R258, R259) -/

/-- The die that finds the fault of an atomic: the issuer's for a fault of translation, the home's for one found there. [DEDUCED, unsafe, log 68] -/
def faultDie (s : State) (o : Op) (c : Ctx) : Nat :=
  match placeOf s o.ctx c o.addr 1 .w with
  | .error _ => dieOf o.ctx
  | .ok (.dram pa) => bits pa 37 36
  | .ok (.bank tile _ _) => dieOfTile tile

/-- The record of a held entry, for the partition's supervisor (R388). [DEDUCED, unsafe, log 68] -/
def State.repairRecord (s : State) (die entry : Nat) (o : Op) (c : Ctx) (t : Trap) : State :=
  s.sendRecord (if c.priv = .f then firmwareOf (dieOf o.ctx) else supervisorOf c.part)
    [wd (t.cause.toNat + 2 ^ 16), handleOf o.ctx c, t.info, o.pc, o.word, wd (entry + 64 * die), t.addr, wd s.ticks]

def State.repair? (s : State) (die entry : Nat) : Option RepairEntry :=
  (s.repairs.find? fun r => r.1 == die && r.2.1 == entry).map fun r => r.2.2
def State.dropRepair (s : State) (die entry : Nat) : State :=
  { s with repairs := s.repairs.filter fun r => !(r.1 == die && r.2.1 == entry) }

/-- ATOMIC_DIVERSION: a faulting atomic takes the lowest free entry of the queue, or waits while all 64 are held (R258). [DEDUCED, unsafe, log 68] -/
def execAtomicDiversion (id : Nat) (s : State) : Result :=
  runEvent (fun s => match s.op? id with
    | none => s
    | some o =>
      match o.kind, s.owner? o.ctx with
      | .atomic, some c =>
        if s.mayPerform o then
          match performAtomic s o c with
          | .ok _ => s
          | .error t =>
            let die := faultDie s o c
            match (List.range 64).find? fun n => (s.repair? die n).isNone with
            | some n =>
              if diverts t.cause then
                ({ s.dropOp id with repairs := s.repairs ++ [(die, n,
                    { op := o, cause := t.cause, info := t.info, syndrome := t.syndrome, faults := 1, since := s.ticks })] } : State).repairRecord
                  die n o c t
              else s
            | none => s
        else s
      | _, _ => s) s

/-- An entry is unrepairable: no effect, ATOMIC_UNREPAIRABLE to the issuer, and the arc is released (R258). [DEDUCED, unsafe, log 68] -/
def State.unrepairable (s : State) (die entry : Nat) (e : RepairEntry) : State :=
  (s.dropRepair die entry).failAtomic e.op { cause := cAtomicUnrepairable, info := wd e.op.addr, addr := wd e.op.addr }

/-- A retry puts the atomic back at the head of its arc: it is applied, or faults again in the same entry; the fifth fault is the last (R258). -/
def State.retryRepair (s : State) (die entry : Nat) : State :=
  match s.repair? die entry with
  | none => s
  | some e =>
    match s.owner? e.op.ctx with
    | none => s.dropRepair die entry
    | some c =>
      match performAtomic s e.op c with
      | .ok (old, s1) => (((s1.dropRepair die entry).finishAtomic e.op old)).wakeAll
      | .error t =>
        if !diverts t.cause then (s.dropRepair die entry).failAtomic e.op t
        else if 4 ≤ e.faults then s.unrepairable die entry e
        else
          let e' := { e with cause := t.cause, info := t.info, syndrome := t.syndrome, faults := e.faults + 1 }
          ({ s with repairs := s.repairs.map fun r => if r.1 == die && r.2.1 == entry then (r.1, r.2.1, e') else r } : State).repairRecord
            die entry e.op c t

def State.abandonRepair (s : State) (die entry : Nat) : State :=
  match s.repair? die entry with
  | none => s
  | some e => s.unrepairable die entry e

/-- A write of %rprctl by a supervisor: an entry of another partition, or of firmware, is left (R259). -/
def State.writeRprctl (s : State) (part : Nat) (v : Nat) : State :=
  let entry := bits v 5 0
  let die := bits v 7 6
  match s.repair? die entry with
  | none => s
  | some e =>
    if !((s.owner? e.op.ctx).any fun c => c.priv != .f && c.part == part) then s
    else
      match bits v 9 8 with
      | 1 => s.retryRepair die entry
      | 2 => s.abandonRepair die entry
      | _ => s

/-- REPAIR_RETRY (R258, R259). -/
def execRepairRetry (die entry : Nat) (s : State) : Result := runEvent (fun s => s.retryRepair die entry) s
/-- REPAIR_ABANDON (R258, R259). -/
def execRepairAbandon (die entry : Nat) (s : State) : Result := runEvent (fun s => s.abandonRepair die entry) s
/-- REPAIR_TIMEOUT: 1,000,000 ticks without resolution (R258). -/
def execRepairTimeout (die entry : Nat) (s : State) : Result :=
  runEvent (fun s => match s.repair? die entry with
    | none => s
    | some e => if e.since + 1000000 ≤ s.ticks then s.unrepairable die entry e else s) s

end Sys2Proof.Machine
end

