-- ==== Sys2Proof/Machine/Blend.lean ====
section
/-! DEFINITION. Screen-tile buffers (R249, R250) and the blends applied in their banks (R272 to R274). -/

namespace Sys2Proof.Machine

/-! ## Fragments (R272) -/

def descSeq (d : Nat) : Nat := bits d 15 0
def descCover (d : Nat) : Nat := bits d 23 16
def descRow (d : Nat) : Nat := bits d 27 24
def descHalf (d : Nat) : Nat := bits d 28 28
def descOp (d : Nat) : Nat := bits d 30 29

/-- Sequence tag a is before b, or after it (R144). -/
def tagBefore (a b : Nat) : Bool := decide (32768 ≤ (a + 65536 - b) % 65536)
def tagAfter (a b : Nat) : Bool := a % 65536 != b % 65536 && !tagBefore a b

/-! ## The buffer (R249) -/

/-- A buffer: its tile, bank and offset. -/
structure Buffer where
  tile : Nat
  bank : Nat
  off : Nat
  deriving DecidableEq, Repr

def Buffer.key (b : Buffer) : Nat := bankKey b.tile b.bank b.off / 4096
def State.bufByte (s : State) (b : Buffer) (n : Nat) : Nat := (s.bankByte b.tile b.bank (b.off + n)).toNat
def State.bufNat (s : State) (b : Buffer) (n size : Nat) : Nat := leNat (s.bankBytes b.tile b.bank (b.off + n) size)
def State.setBuf (s : State) (b : Buffer) (n size v : Nat) : State := s.bankWrite b.tile b.bank (b.off + n) (leBytes size v)
def State.curTag (s : State) (b : Buffer) : Nat := s.bufNat b 0 2
def State.heldCount (s : State) (b : Buffer) : Nat := s.bufByte b 2
def State.bufActive (s : State) (b : Buffer) : Bool := s.activeBuffer b.tile b.bank b.off

/-- The hold slots in use, in the order they were held. -/
def State.holdSlots (s : State) (b : Buffer) : List Nat :=
  let l := Map.get [] s.holds b.key
  if l.length = s.heldCount b then l else List.range (Nat.min 15 (s.heldCount b))

/-- Set the hold slots in use, and HELD with them. [DEDUCED, unsafe, log 70] -/
def State.setHolds (s : State) (b : Buffer) (l : List Nat) : State := { s with holds := Map.insert s.holds b.key l }.setBuf b 2 1 l.length

/-- The descriptor and the colours in a hold slot (R249, R272). -/
def State.heldDesc (s : State) (b : Buffer) (n : Nat) : Nat := s.bufNat b (4 + 4 * n) 4
/-- [DEDUCED, unsafe, log 70] -/
def State.heldColours (s : State) (b : Buffer) (n : Nat) : Nat := s.bufNat b (64 + 64 * n) 64

/-- Hold a fragment, or a retire marker without colours, in the lowest free slot; none when all 15 are in use. [DEDUCED, unsafe, log 70] -/
def State.hold (s : State) (b : Buffer) (desc : Nat) (colours : Option Nat) : Option State :=
  let used := s.holdSlots b
  match (List.range 15).find? fun n => !used.contains n with
  | none => none
  | some n =>
    let s1 := s.setBuf b (4 + 4 * n) 4 desc
    let s2 := match colours with
      | some x => s1.setBuf b (64 + 64 * n) 64 x
      | none => s1
    some (s2.setHolds b (used ++ [n]))

/-! ## Applying a fragment (R273) -/

def oneVal : Val := .fin false 1 0

/-- A channel under an operation: the exact value, rounded once. -/
def blendChannel (op : Nat) (alpha : Bool) (s d a : Val) : Nat :=
  let v : Val :=
    if op = 2 then (addVal 0 s d).val
    else
      let rest := (mulVal d (addVal 0 oneVal a.neg).val).val
      (addVal 0 (if alpha then s else (mulVal s a).val) rest).val
  (encodeVal 8 0 0 false v).code

/-- A pixel of four f16 channels. -/
def blendPixel (op src dst : Nat) : Nat :=
  if op = 1 then src
  else
    let ch (x c : Nat) : Val := decodeVal 8 (x / 2 ^ (16 * c) % 65536)
    packCodes 16 ((List.range 4).map fun c => blendChannel op (c == 3) (ch src c) (ch dst c) (ch src 3))

/-- Apply a fragment to the pixels of a buffer. -/
def State.applyFragment (s : State) (b : Buffer) (desc colours : Nat) : State :=
  (List.range 8).foldl (fun s p =>
    if descCover desc / 2 ^ p % 2 = 1 then
      let at_ := 1024 + 128 * descRow desc + 8 * (8 * descHalf desc + p)
      s.setBuf b at_ 8 (blendPixel (descOp desc) (colours / 2 ^ (64 * p) % 2 ^ 64) (s.bufNat b at_ 8))
    else s) s

/-- One step of Advance: CURTAG moves on, and the held fragments of the new tag are applied in the order they were held. The flag says that a retire
marker for the tag was held (R274). -/
def State.advanceOnce (s : State) (b : Buffer) : State × Bool :=
  let tag := (s.curTag b + 1) % 65536
  let s1 := s.setBuf b 0 2 tag
  let due := (s1.holdSlots b).filter fun n => descSeq (s1.heldDesc b n) == tag
  let marker := due.any fun n => descOp (s1.heldDesc b n) == 3
  let s2 := (due.filter fun n => descOp (s1.heldDesc b n) != 3).foldl (fun s n => s.applyFragment b (s.heldDesc b n) (s.heldColours b n)) s1
  (s2.setHolds b ((s1.holdSlots b).filter fun n => !due.contains n), marker)

/-- Advance; each further step frees a marker, so 16 steps are enough. -/
def State.advanceTag (s : State) (b : Buffer) : Nat → State
  | 0 => s
  | fuel + 1 =>
    match s.advanceOnce b with
    | (s1, true) => s1.advanceTag b fuel
    | (s1, false) => s1

/-! ## Issue (R273, R274) -/

/-- Issue a BLEND or a SEQRET, after the address checks; every release is at scope package (R273). -/
def issueBlend (f : MForm) (kind : OpKind) : M Unit := do
  let a ← memAddr f.ty.toNat (f.idx ≠ 0) (mDisp f)
  if a % 4096 ≠ 0 then raise cAlignment (wd a)
  let key ← curKey
  let c ← curCtx
  if !inAperture a then raise cProtection (wd a)
  let _ ← orTrap (apertureAt (← get) key c a 4096)
  if kind = .blend then
    let d := ((← opV .a).extractLsb' 512 32).toNat
    if descOp d = 3 ∨ 2 ^ 31 ≤ d then raise cProtection (wd a)
  gateAcquire
  let _ ← issueOp kind [] [] a 4 (storeOrd f.ord.toNat)

/-- BLEND (R273). -/
def execBlend (f : MForm) (s : State) : Result :=
  runInstr (.blend f) (mAsk .scalar f (mDs .v f :: mBase f :: mIdx f) []) (issueBlend f .blend) s
/-- SEQRET (R274). -/
def execSeqret (f : MForm) (s : State) : Result :=
  runInstr (.seqret f) (mAsk .scalar f (mDs .g f :: mBase f :: mIdx f) []) (issueBlend f .seqret) s

/-! ## At the bank -/

/-- The buffer of a request that has reached its bank, with the checks made there (R239, R253). -/
def bufferAt (s : State) (o : Op) (c : Ctx) : Except Trap Buffer :=
  match apertureAt s o.ctx c o.addr 4096 with
  | .error t => .error t
  | .ok (.dram _) => .error { cause := cProtection, info := wd o.addr, addr := wd o.addr }
  | .ok (.bank tile bank off) =>
    match bankChecks s o.ctx o.addr tile bank with
    | .error t => .error t
    | .ok () => .ok { tile := tile, bank := bank, off := off }

def notActive (o : Op) : Trap := { cause := cProtection, info := wd o.addr, addr := wd o.addr }

/-- A BLEND at its bank: applied, held, or none when it waits for a slot (R273). [DEDUCED, unsafe, log 70] -/
def blendAt (s : State) (o : Op) (b : Buffer) : Except Trap (Option State) :=
  if !s.bufActive b then .error (notActive o)
  else
    let d := (o.opA.extractLsb' 512 32).toNat
    let x := (o.opA.extractLsb' 0 512).toNat
    let s0 := if hasRel o.ord then s.releaseWays o.ctx o.scope else s
    if tagAfter (descSeq d) (s.curTag b) then .ok (s0.hold b d (some x)) else .ok (some (s0.applyFragment b d x))

/-- A SEQRET at its bank (R274). -/
def seqretAt (s : State) (o : Op) (b : Buffer) : Except Trap (Option State) :=
  let v := o.opA.toNat
  let tag := bits v 15 0
  let s0 := if hasRel o.ord then s.releaseWays o.ctx o.scope else s
  let close (s : State) : State :=
    if bits v 17 17 = 1 ∧ s.heldCount b = 0 then { s with holds := Map.erase s.holds b.key }.setBuf b 3 1 0 else s
  if bits v 16 16 = 1 then
    if s.heldCount b ≠ 0 then .error (notActive o) else .ok (some ({ (s0.setBuf b 0 2 tag).setBuf b 3 1 1 with holds := Map.insert s0.holds b.key [] }))
  else if !s.bufActive b then .error (notActive o)
  else if tag = s.curTag b then .ok (some (close (s0.advanceTag b 16)))
  else if tagAfter tag (s.curTag b) then .ok ((s0.hold b (tag + 3 * 2 ^ 29) none).map close)
  else .ok (some (close s0))

/-- A blend request reaches its bank, in program order with those of its context (R273). -/
def State.atBank (s : State) (id : Nat) (kind : OpKind) (act : State → Op → Buffer → Except Trap (Option State)) : State :=
  match s.op? id with
  | none => s
  | some o =>
    if o.kind ≠ kind then s
    else
      match s.owner? o.ctx with
      | none => s.dropOp id
      | some c =>
        if s.mayPerform o then
          match bufferAt s o c with
          | .error t => s.posted o (s, some t)
          | .ok b =>
            match act s o b with
            | .error t => s.posted o (s, some t)
            | .ok none => s
            | .ok (some s1) => s.posted o (s1, none)
        else s

/-- BLEND_AT_BANK (R273). -/
def execBlendAtBank (id : Nat) (s : State) : Result := runEvent (fun s => s.atBank id .blend blendAt) s
/-- SEQRET_AT_BANK (R274). -/
def execSeqretAtBank (id : Nat) (s : State) : Result := runEvent (fun s => s.atBank id .seqret seqretAt) s

end Sys2Proof.Machine
end

