-- ==== Sys2Proof/Machine/Vectors.lean ====
section
/-! DEFINITION. What the four vector groups at MAJ 0x80 to 0x83 share (R311 to R315): elements of a register, the operands, streams and masks, and
writing results with their flags and warnings. -/

namespace Sys2Proof.Machine

/-! ## Elements (R35) -/

/-- Bits of an element in a register; t6 is held in 8. -/
def elemBits (ty : Nat) : Nat := tyBits ty
def elemCount (ty : Nat) : Nat := 1024 / elemBits ty

/-- The codes of a register's elements. -/
def vCodes (ty : Nat) (v : VWord) : List Nat :=
  (unpackCodes (elemBits ty) (elemCount ty) v.toNat).map fun c => c % 2 ^ codeBits ty
/-- A register of codes. -/
def codesV (ty : Nat) (codes : List Nat) : VWord := BitVec.ofNat 1024 (packCodes (elemBits ty) codes)

/-- Whether element i of a type takes part under a mask (R35, R311). -/
def takesPart (ty : Nat) (mask : Mask) (i : Nat) : Bool := mask.getLsbD (elemBits ty * i / 32)

/-- A register with the elements that have a new code replaced; others keep their bits. -/
def mergeCodes (ty : Nat) (old : VWord) (new : List (Option Nat)) : VWord :=
  let w := elemBits ty
  let olds := unpackCodes w (elemCount ty) old.toNat
  BitVec.ofNat 1024 (packCodes w ((olds.zip new).map fun p => p.2.getD p.1))

/-! ## Fields of MOD (R312) -/

def fFtz (f : RForm) : Bool := f.mod.getLsbD 0
def fBg (f : RForm) : Bool := f.mod.getLsbD 1
def fCond (f : RForm) : Nat := bits f.mod.toNat 4 2
def fK (f : RForm) : Bool := f.mod.getLsbD 5
def fQd (f : RForm) : Bool := f.mod.getLsbD 7
def fQa (f : RForm) : Bool := f.mod.getLsbD 8
def fSty (f : RForm) : Nat := bits f.mod.toNat 5 1
def fOp (f : RForm) : Nat := bits f.mod.toNat 3 1
def fExcl (f : RForm) : Bool := f.mod.getLsbD 4

/-! ## Operands -/

/-- The A operand as a source, unless it is a stream. -/
def vSrcA (f : RForm) : List Src := if fQa f then [] else [rA .v f]
def vSrcB (f : RForm) : List Src := if fBg f then [rB .g f] else [rB .v f]
def vSrcC (f : RForm) : List Src := [rC .v f]
def vDsts (f : RForm) : List Dst := if fQd f then [] else [vDst f.d.toNat]
/-- What a vector member asks of the issue. -/
def vAsk (f : RForm) (srcs : List Src) : Ask := { guard := .vector, kg := f.kg.toNat, srcs := srcs, dsts := vDsts f }

/-- The elements of A, from its register or its stream (R314). -/
def vecA (f : RForm) (ty : Nat) : M (List Nat) := do
  if fQa f then readStream (f.a.toNat % 16) ty else pure (vCodes ty (← opV .a))
/-- The elements of B: its register's, or the low bits of a g register everywhere (R313). -/
def vecB (f : RForm) (ty : Nat) : M (List Nat) := do
  if fBg f then pure (List.replicate (elemCount ty) ((← opG .b).toNat % 2 ^ codeBits ty)) else pure (vCodes ty (← opV .b))
def vecC (ty : Nat) : M (List Nat) := do pure (vCodes ty (← opV .c))

/-! ## Results -/

def orFp (rs : List (Option Enc)) : Word := rs.foldl (fun w r => match r with | some e => w ||| e.fp | none => w) 0
def orWarn (rs : List (Option Enc)) : Word := rs.foldl (fun w r => match r with | some e => w ||| e.warn | none => w) 0

/-- Write a vector result to vD or push it through qD, and raise what its elements raise (R310, R314). -/
def writeVec (f : RForm) (ty : Nat) (rs : List (Option Enc)) : M Unit := do
  if fQd f then writeStream (f.d.toNat % 16) ty (rs.map fun r => match r with | some e => e.code | none => 0)
  else
    let old := (← curCtx).rv f.d.toNat
    writeV f.d.toNat (mergeCodes ty old (rs.map fun r => r.map (·.code)))
  raiseFp (orFp rs)
  warn (orWarn rs)

/-- Apply an operation to each element that takes part. -/
def mapElems (ty : Nat) (mask : Mask) (as bs cs : List Nat) (op : Nat → Nat → Nat → Enc) : List (Option Enc) :=
  ((as.zip (bs.zip cs)).zipIdx).map fun p => if takesPart ty mask p.2 then some (op p.1.1 p.1.2.1 p.1.2.2) else none

/-- A member with one vector source. -/
def vecOne (i : Instr) (f : RForm) (op : Nat → Enc) (s : State) : Result :=
  runInstr i (vAsk f (vSrcA f)) (do
    let ty := f.ty.toNat
    let as ← vecA f ty
    writeVec f ty (mapElems ty (← opMask) as as as fun a _ _ => op a)) s

/-- A member with two sources. -/
def vecTwo (i : Instr) (f : RForm) (op : Nat → Nat → Enc) (s : State) : Result :=
  runInstr i (vAsk f (vSrcA f ++ vSrcB f)) (do
    let ty := f.ty.toNat
    let as ← vecA f ty
    let bs ← vecB f ty
    writeVec f ty (mapElems ty (← opMask) as bs bs fun a b _ => op a b)) s

/-- A member with three sources. -/
def vecThree (i : Instr) (f : RForm) (op : Nat → Nat → Nat → Enc) (s : State) : Result :=
  runInstr i (vAsk f (vSrcA f ++ vSrcB f ++ vSrcC f)) (do
    let ty := f.ty.toNat
    let as ← vecA f ty
    let bs ← vecB f ty
    let cs ← vecC ty
    writeVec f ty (mapElems ty (← opMask) as bs cs op)) s

/-- Bits of a mask register that a comparison sets: bit j for the element that holds lane j; lanes that take no part give 0 (R317). -/
def condMask (ty : Nat) (mask : Mask) (conds : List Bool) : Mask :=
  (List.range 32).foldl (fun k j =>
    let i := 32 * j / elemBits ty
    setBit k j (takesPart ty mask i && conds.getD i false)) 0

/-- A comparison, into all-ones elements or into a mask register (R317, R320). -/
def vecCompare (i : Instr) (f : RForm) (op : Nat → Nat → Bool × Word) (s : State) : Result :=
  runInstr i { vAsk f (vSrcA f ++ vSrcB f) with dsts := if fK f then [] else vDsts f } (do
    let ty := f.ty.toNat
    let as ← vecA f ty
    let bs ← vecB f ty
    let mask ← opMask
    let rs := mapElems ty mask as bs bs fun a b _ =>
      let r := op a b
      { code := if r.1 then 2 ^ elemBits ty - 1 else 0, fp := r.2 }
    if fK f then
      modCur fun c => c.wk f.d.toNat (condMask ty mask (rs.map fun r => match r with | some e => e.code != 0 | none => false))
      raiseFp (orFp rs)
    else writeVec f ty rs) s

end Sys2Proof.Machine
end

