-- ==== Sys2Proof/Machine/VecFloat.lean ====
section
/-! DEFINITION. Floating-point lanes at MAJ 0x81 (R318 to R324). -/

namespace Sys2Proof.Machine

/-- A source element of a member under its FTZ bit. -/
def fElem (f : RForm) (c : Nat) : Val := fetchVal f.ty.toNat c (fFtz f)
/-- Encode a formed result under RM, SM and FTZ. -/
def fEnc (f : RForm) (r : Formed) : Enc := encodeFormed f.ty.toNat f.rm.toNat f.sm.toNat (fFtz f) r

/-- FADD (R319). -/
def execFadd (f : RForm) (s : State) : Result := vecTwo (.fadd f) f (fun a b => fEnc f (addVal f.rm.toNat (fElem f a) (fElem f b))) s
/-- FSUB (R319): a + (−b). -/
def execFsub (f : RForm) (s : State) : Result := vecTwo (.fsub f) f (fun a b => fEnc f (addVal f.rm.toNat (fElem f a) (fElem f b).neg)) s
/-- FMUL (R319). -/
def execFmul (f : RForm) (s : State) : Result := vecTwo (.fmul f) f (fun a b => fEnc f (mulVal (fElem f a) (fElem f b))) s
/-- FFMA (R319). -/
def execFfma (f : RForm) (s : State) : Result :=
  vecThree (.ffma f) f (fun a b c => fEnc f (fmaVal f.rm.toNat (fElem f a) (fElem f b) (fElem f c))) s

/-- The lesser of two values, −0 below +0; NaN operands give way to the other (R320). -/
def minVal (a b : Val) : Val :=
  if a.isNan then (if b.isNan then .nan false else b)
  else if b.isNan then a
  else if a.lt b then a
  else if b.lt a then b
  else if a.sign then a else b
def maxVal (a b : Val) : Val :=
  if a.isNan then (if b.isNan then .nan false else b)
  else if b.isNan then a
  else if a.lt b then b
  else if b.lt a then a
  else if a.sign then b else a

/-- A minimum or maximum with its one flag (R320). -/
def pickEnc (ty : Nat) (pick : Val → Val → Val) (a b : Val) : Enc :=
  { code := (encodeVal ty 0 0 false (pick a b)).code, fp := sigFlag [a, b] }

/-- FMIN (R320). -/
def execFmin (f : RForm) (s : State) : Result := vecTwo (.fmin f) f (fun a b => pickEnc f.ty.toNat minVal (fElem f a) (fElem f b)) s
/-- FMAX (R320). -/
def execFmax (f : RForm) (s : State) : Result := vecTwo (.fmax f) f (fun a b => pickEnc f.ty.toNat maxVal (fElem f a) (fElem f b)) s

/-- The sign bit of a code. -/
def signBit (ty c : Nat) : Bool := c / 2 ^ (elemBits ty - 1) % 2 == 1

/-- The magnitude of a with the sign that SOP chooses (R320). -/
def signOp (f : RForm) (a b : Nat) : Enc :=
  let ty := f.ty.toNat
  let sa := signBit ty a
  let sb := signBit ty b
  let neg := match fCond f with
    | 0 => sb
    | 1 => !sb
    | _ => sa != sb
  match fElem f a with
  | .nan _ => { code := nanCode ty }
  | v => { code := (encodeVal ty 0 0 false v.abs).code + b2n neg * 2 ^ (elemBits ty - 1) }

/-- FSGN (R320). -/
def execFsgn (f : RForm) (s : State) : Result := vecTwo (.fsgn f) f (signOp f) s

/-- The conditions of FCMP, with NV on any NaN for the ordered relations and on a signalling one for the others (R320). -/
def compareVal (cond : Nat) (a b : Val) : Bool × Word :=
  let nan := a.isNan || b.isNan
  let r : Bool :=
    match cond with
    | 0 => !nan && a.eq b
    | 1 => nan || !a.eq b
    | 2 => !nan && a.lt b
    | 3 => !nan && !b.lt a
    | 4 => !nan && b.lt a
    | 5 => !nan && !a.lt b
    | _ => nan
  (r, if decide (2 ≤ cond) && decide (cond ≤ 5) then (if nan then fNV else 0) else sigFlag [a, b])

/-- FCMP (R320). -/
def execFcmp (f : RForm) (s : State) : Result := vecCompare (.fcmp f) f (fun a b => compareVal (fCond f) (fElem f a) (fElem f b)) s

/-- The class of a value by its one bit (R320). -/
def classOf (ty : Nat) (v : Val) : Nat :=
  let sub (m : Nat) (e : Int) : Bool := match binaryOf ty with
    | some b => decide (floorLog m e < b.emin)
    | none => false
  match v with
  | .inf true => 0
  | .inf false => 7
  | .nan true => 8
  | .nan false => 9
  | .fin true m e => if m = 0 then 3 else if sub m e then 2 else 1
  | .fin false m e => if m = 0 then 4 else if sub m e then 5 else 6

/-- FCLASS (R320). -/
def execFclass (f : RForm) (s : State) : Result := vecOne (.fclass f) f (fun a => { code := 2 ^ classOf f.ty.toNat (fElem f a) }) s

/-- FRCPS (R321). -/
def execFrcps (f : RForm) (s : State) : Result := vecOne (.frcps f) f (fun a => rcpSeed f.ty.toNat f.sm.toNat (fFtz f) (fElem f a)) s
/-- FRSQS (R321). -/
def execFrsqs (f : RForm) (s : State) : Result := vecOne (.frsqs f) f (fun a => rsqSeed f.ty.toNat f.sm.toNat (fFtz f) (fElem f a)) s
/-- FEXP2 (R323). -/
def execFexp2 (f : RForm) (s : State) : Result := vecOne (.fexp2 f) f (fun a => exp2Fn f.ty.toNat f.sm.toNat (fFtz f) (fElem f a)) s
/-- FLOG2 (R323). -/
def execFlog2 (f : RForm) (s : State) : Result := vecOne (.flog2 f) f (fun a => log2Fn f.ty.toNat f.sm.toNat (fFtz f) (fElem f a)) s
/-- FSINP (R323). -/
def execFsinp (f : RForm) (s : State) : Result := vecOne (.fsinp f) f (fun a => sinPiFn f.ty.toNat f.sm.toNat (fFtz f) (fElem f a)) s
/-- FCOSP (R323). -/
def execFcosp (f : RForm) (s : State) : Result := vecOne (.fcosp f) f (fun a => cosPiFn f.ty.toNat f.sm.toNat (fFtz f) (fElem f a)) s

/-- a rounded to an integral value, with no NX (R324). -/
def roundElem (ty rm sm : Nat) (v : Val) : Enc :=
  match v with
  | .fin n m e =>
    let r := roundToInt rm n m e
    { code := (encodeVal ty rm sm false (.fin n r.1.natAbs 0)).code }
  | w => encodeVal ty rm sm false w

/-- FRND (R324). -/
def execFrnd (f : RForm) (s : State) : Result := vecOne (.frnd f) f (fun a => roundElem f.ty.toNat f.rm.toNat f.sm.toNat (fElem f a)) s

end Sys2Proof.Machine
end

