-- ==== Sys2Proof/Machine/VecInt.lean ====
section
/-! DEFINITION. Integer lanes at MAJ 0x80 (R316, R317). -/

namespace Sys2Proof.Machine

/-- An element read at its width (R316). -/
def elemInt (ty c : Nat) : Int := asInt (tySigned ty) (tyWidth ty) c

/-- An exact integer result under SM (R316, R80). -/
def intElem (ty sm : Nat) (n : Int) : Enc :=
  { code := lowBits (tyWidth ty) (if clamps sm then satInt ty n else n), warn := intWarns ty sm n }

/-- W_MODCOMBO of satfinite on an integer type, set whatever elements take part (R80). -/
def vecCombo (f : RForm) : M Unit := if f.sm = 2 then warn wModcombo else pure ()

/-- The exact operation of a two-source member on the values of its elements. -/
def intPair (op : Int → Int → Int) (ty sm a b : Nat) : Enc := intElem ty sm (op (elemInt ty a) (elemInt ty b))
/-- A bitwise operation. -/
def bitPair (op : Nat → Nat → Nat) (ty a b : Nat) : Enc := { code := op a b % 2 ^ tyWidth ty }

/-- An integer member with a saturation field: the shape of `vecTwo` and the warning of R80. -/
def vecIntTwo (i : Instr) (f : RForm) (op : Nat → Nat → Enc) (s : State) : Result :=
  runInstr i (vAsk f (vSrcA f ++ vSrcB f)) (do
    let ty := f.ty.toNat
    let as ← vecA f ty
    let bs ← vecB f ty
    writeVec f ty (mapElems ty (← opMask) as bs bs fun a b _ => op a b)
    vecCombo f) s

/-- VADD (R316). -/
def execVadd (f : RForm) (s : State) : Result := vecIntTwo (.vadd f) f (intPair (· + ·) f.ty.toNat f.sm.toNat) s
/-- VSUB (R316). -/
def execVsub (f : RForm) (s : State) : Result := vecIntTwo (.vsub f) f (intPair (· - ·) f.ty.toNat f.sm.toNat) s
/-- VMUL (R316). -/
def execVmul (f : RForm) (s : State) : Result := vecIntTwo (.vmul f) f (intPair (· * ·) f.ty.toNat f.sm.toNat) s
/-- VMULH: floor(a × b ÷ 2^w) (R316). -/
def execVmulh (f : RForm) (s : State) : Result := vecTwo (.vmulh f) f (intPair (mulHigh f.ty.toNat) f.ty.toNat 0) s
/-- VMAD: a × b + c (R316). -/
def execVmad (f : RForm) (s : State) : Result :=
  runInstr (.vmad f) (vAsk f (vSrcA f ++ vSrcB f ++ vSrcC f)) (do
    let ty := f.ty.toNat
    let as ← vecA f ty
    let bs ← vecB f ty
    let cs ← vecC ty
    writeVec f ty (mapElems ty (← opMask) as bs cs fun a b c =>
      intElem ty f.sm.toNat (elemInt ty a * elemInt ty b + elemInt ty c))
    vecCombo f) s
/-- VAND (R316). -/
def execVand (f : RForm) (s : State) : Result := vecTwo (.vand f) f (bitPair (· &&& ·) f.ty.toNat) s
/-- VOR (R316). -/
def execVor (f : RForm) (s : State) : Result := vecTwo (.vor f) f (bitPair (· ||| ·) f.ty.toNat) s
/-- VXOR (R316). -/
def execVxor (f : RForm) (s : State) : Result := vecTwo (.vxor f) f (bitPair (· ^^^ ·) f.ty.toNat) s
/-- VSHL: a × 2^n with n read unsigned (R316). -/
def execVshl (f : RForm) (s : State) : Result :=
  vecIntTwo (.vshl f) f (fun a b => intElem f.ty.toNat f.sm.toNat (shlExact (elemInt f.ty.toNat a) b)) s
/-- VSHR: floor(u ÷ 2^n) (R316). -/
def execVshr (f : RForm) (s : State) : Result :=
  vecTwo (.vshr f) f (fun a b => intElem f.ty.toNat 0 (shrExact f.ty.toNat (wd a) b)) s
/-- VSRA: floor(s ÷ 2^n) (R316). -/
def execVsra (f : RForm) (s : State) : Result :=
  vecTwo (.vsra f) f (fun a b => intElem f.ty.toNat 0 (sraExact f.ty.toNat (wd a) b)) s
/-- VMIN (R316). -/
def execVmin (f : RForm) (s : State) : Result := vecTwo (.vmin f) f (intPair (fun a b => if a ≤ b then a else b) f.ty.toNat 0) s
/-- VMAX (R316). -/
def execVmax (f : RForm) (s : State) : Result := vecTwo (.vmax f) f (intPair (fun a b => if a ≤ b then b else a) f.ty.toNat 0) s
/-- VABS (R316). -/
def execVabs (f : RForm) (s : State) : Result :=
  runInstr (.vabs f) (vAsk f (vSrcA f)) (do
    let ty := f.ty.toNat
    let as ← vecA f ty
    writeVec f ty (mapElems ty (← opMask) as as as fun a _ _ => intElem ty f.sm.toNat ((elemInt ty a).natAbs : Int))
    vecCombo f) s
/-- VCMP (R317). -/
def execVcmp (f : RForm) (s : State) : Result :=
  vecCompare (.vcmp f) f (fun a b => (compareInt (fCond f) (elemInt f.ty.toNat a) (elemInt f.ty.toNat b), 0)) s
/-- VSEL: c ≠ 0 ? a : b (R316). -/
def execVsel (f : RForm) (s : State) : Result := vecThree (.vsel f) f (fun a b c => { code := if c ≠ 0 then a else b }) s
/-- VMOV: a, or gB everywhere (R316). -/
def execVmov (f : RForm) (s : State) : Result :=
  runInstr (.vmov f) (vAsk f (if fBg f then [rB .g f] else vSrcA f)) (do
    let ty := f.ty.toNat
    let as ← if fBg f then vecB f ty else vecA f ty
    writeVec f ty (mapElems ty (← opMask) as as as fun a _ _ => { code := a })) s
/-- VPOPC (R316). -/
def execVpopc (f : RForm) (s : State) : Result := vecOne (.vpopc f) f (fun a => { code := popCount a (tyWidth f.ty.toNat) }) s

end Sys2Proof.Machine
end

