-- ==== Sys2Proof/Machine/Lanes.lean ====
section
/-! DEFINITION. Across lanes at MAJ 0x82 (R325 to R327). -/

namespace Sys2Proof.Machine

/-- VBCAST: element gB mod n everywhere (R325). -/
def execVbcast (f : RForm) (s : State) : Result :=
  runInstr (.vbcast f) (vAsk f (vSrcA f ++ [rB .g f])) (do
    let ty := f.ty.toNat
    let as ← vecA f ty
    let b ← opG .b
    let x := as.getD (b.toNat % elemCount ty) 0
    writeVec f ty (mapElems ty (← opMask) as as as fun _ _ _ => { code := x })) s

/-- VPERM: element B mod n (R325). -/
def execVperm (f : RForm) (s : State) : Result :=
  runInstr (.vperm f) (vAsk f (vSrcA f ++ [rB .v f])) (do
    let ty := f.ty.toNat
    let as ← vecA f ty
    let bs := vCodes ty (← opV .b)
    writeVec f ty (mapElems ty (← opMask) bs bs bs fun b _ _ => { code := as.getD (b % elemCount ty) 0 })) s

/-- VROT: element (i + gB) mod n (R325). -/
def execVrot (f : RForm) (s : State) : Result :=
  runInstr (.vrot f) (vAsk f (vSrcA f ++ [rB .g f])) (do
    let ty := f.ty.toNat
    let as ← vecA f ty
    let k := (← opG .b).toNat % elemCount ty
    let rs := as.drop k ++ as.take k
    writeVec f ty (mapElems ty (← opMask) rs rs rs fun a _ _ => { code := a })) s

/-! ## Reductions and scans -/

/-- The identity of an operation (R326). -/
def identityOf (op ty : Nat) : Nat :=
  match op with
  | 0 => if isIntTy ty then 0 else 2 ^ (elemBits ty - 1)
  | 1 => if isIntTy ty then intCode ty (intHigh ty) else infCode ty
  | 2 => if isIntTy ty then intCode ty (intLow ty) else infCode ty + 2 ^ (elemBits ty - 1)
  | 3 => 2 ^ elemBits ty - 1
  | _ => 0

/-- A node of the tree (R326). -/
def nodeOf (op ty rm sm a b : Nat) : Enc :=
  match op with
  | 0 =>
    if isIntTy ty then intPair (· + ·) ty sm a b
    else encodeFormed ty rm sm false (addVal rm (decodeVal ty a) (decodeVal ty b))
  | 1 =>
    if isIntTy ty then intPair (fun x y => if x ≤ y then x else y) ty 0 a b else pickEnc ty minVal (decodeVal ty a) (decodeVal ty b)
  | 2 =>
    if isIntTy ty then intPair (fun x y => if x ≤ y then y else x) ty 0 a b else pickEnc ty maxVal (decodeVal ty a) (decodeVal ty b)
  | 3 => { code := a &&& b }
  | 4 => { code := a ||| b }
  | _ => { code := a ^^^ b }

/-- Codes with what the nodes so far have raised. -/
structure Level where
  codes : List Nat
  fp : Word := 0
  warn : Word := 0
  deriving DecidableEq, Repr

/-- Combine neighbours. -/
def pairUp (node : Nat → Nat → Enc) : List Nat → List Enc
  | a :: b :: rest => node a b :: pairUp node rest
  | [a] => [{ code := a }]
  | [] => []

/-- A level after more nodes. -/
def Level.next (l : Level) (es : List Enc) : Level :=
  { codes := es.map (·.code), fp := es.foldl (fun w e => w ||| e.fp) l.fp, warn := es.foldl (fun w e => w ||| e.warn) l.warn }

/-- The fixed pairwise tree: halve the level until one element is left (R326). -/
def reduceTree (node : Nat → Nat → Enc) : Nat → Level → Level
  | 0, l => l
  | fuel + 1, l => if l.codes.length ≤ 1 then l else reduceTree node fuel (l.next (pairUp node l.codes))

/-- A code as the device writes it: a NaN is the canonical one (R295). -/
def canonNan (ty c : Nat) : Nat := if (decodeVal ty c).isNan then nanCode ty else c

/-- One step of the scan at distance d (R327). -/
def scanStep (node : Nat → Nat → Enc) (d : Nat) (l : Level) : Level :=
  l.next ((l.codes.take d).map (fun c => { code := c }) ++ (l.codes.zip (l.codes.drop d)).map fun p => node p.1 p.2)

/-- Steps at doubling distances. -/
def scanFrom (node : Nat → Nat → Enc) : Nat → Nat → Level → Level
  | 0, _, l => l
  | fuel + 1, d, l => if l.codes.length ≤ d then l else scanFrom node fuel (2 * d) (scanStep node d l)

/-- The elements that take part, the others replaced by the identity. -/
def withIdentity (op ty : Nat) (mask : Mask) (as : List Nat) : List Nat :=
  (as.zipIdx).map fun p => if takesPart ty mask p.2 then p.1 else identityOf op ty

/-- VRED (R326). -/
def execVred (f : RForm) (s : State) : Result :=
  runInstr (.vred f) (vAsk f (vSrcA f)) (do
    let ty := f.ty.toNat
    let as ← vecA f ty
    let mask ← opMask
    let l := reduceTree (nodeOf (fOp f) ty f.rm.toNat f.sm.toNat) 8 { codes := withIdentity (fOp f) ty mask as }
    let x := l.codes.headD 0
    writeVec f ty (mapElems ty mask as as as fun _ _ _ => { code := x })
    raiseFp l.fp
    warn l.warn
    if isIntTy ty then vecCombo f) s

/-- VSCAN (R327). -/
def execVscan (f : RForm) (s : State) : Result :=
  runInstr (.vscan f) (vAsk f (vSrcA f)) (do
    let ty := f.ty.toNat
    let as ← vecA f ty
    let mask ← opMask
    let l := scanFrom (nodeOf (fOp f) ty f.rm.toNat f.sm.toNat) 8 1 { codes := withIdentity (fOp f) ty mask as }
    let out := (if fExcl f then identityOf (fOp f) ty :: l.codes.dropLast else l.codes).map (canonNan ty)
    writeVec f ty (mapElems ty mask out out out fun a _ _ => { code := a })
    raiseFp l.fp
    warn l.warn
    if isIntTy ty then vecCombo f) s

/-- VEXTL: one element into gD, a scalar instruction (R311, R325). -/
def execVextl (f : RForm) (s : State) : Result :=
  runInstr (.vextl f) (rAsk f [rA .v f, rB .g f] [gDst f.d.toNat]) (do
    let ty := f.ty.toNat
    let as := vCodes ty (← opV .a)
    let x := as.getD ((← opG .b).toNat % elemCount ty) 0
    writeG f.d.toNat (if isIntTy ty then wrInt ty (elemInt ty x) else wd x)) s

/-- VINSL: one element of vD from gA; the others are kept (R311, R325). -/
def execVinsl (f : RForm) (s : State) : Result :=
  runInstr (.vinsl f) (rAsk f [rA .g f, rB .g f, rOld .v f] [vDst f.d.toNat]) (do
    let ty := f.ty.toNat
    let a ← opG .a
    let k := (← opG .b).toNat % elemCount ty
    let old ← opV .x
    writeV f.d.toNat (mergeCodes ty old ((List.range (elemCount ty)).map fun i =>
      if i = k then some (a.toNat % 2 ^ codeBits ty) else none))) s

end Sys2Proof.Machine
end

