-- ==== Sys2Proof/Machine/Convert.lean ====
section
/-! DEFINITION. Conversions at MAJ 0x83 (R328 to R332). -/

namespace Sys2Proof.Machine

/-! ## Layout (R328) -/

/-- Elements converted, and where they lie in the source and in the destination. -/
structure Layout where
  n : Nat
  src : Nat
  dst : Nat
  narrowing : Bool
  deriving DecidableEq, Repr

def layoutOf (sty ty part : Nat) : Layout :=
  let ws := tyBits sty
  let wd := tyBits ty
  let n := 1024 / Nat.max ws wd
  { n := n, src := if ws < wd then part * n else 0, dst := if wd < ws then part * n else 0, narrowing := decide (wd < ws) }

/-- The fallbacks of R80 that a conversion takes: of its saturation field and of `.ftz`. -/
def convertCombo (f : RForm) (nosat : Bool) : M Unit := do
  let sty := fSty f
  let ty := f.ty.toNat
  if (nosat || f.sm != 0) && smCombo ty f.sm.toNat then warn wModcombo
  if fFtz f && (!hasSubnormals sty || !hasSubnormals ty) then warn wModcombo

/-- Convert one part of a register element by element (R328). -/
def convertPart (i : Instr) (f : RForm) (srcs : List Src) (conv : M (Nat → Enc)) (s : State) : Result :=
  let sty := fSty f
  let ty := f.ty.toNat
  let l := layoutOf sty ty f.c.toNat
  runInstr i (vAsk f (vSrcA f ++ srcs ++ if l.narrowing then [rOld .v f] else [])) (do
    let as ← vecA f sty
    let mask ← opMask
    let g ← conv
    let part := (as.drop l.src).take l.n
    let rs := (part.zipIdx).map fun p => if takesPart ty mask (l.dst + p.2) then some (g p.1) else none
    writeVec f ty (List.replicate l.dst none ++ rs ++ List.replicate (elemCount ty - l.dst - l.n) none)
    convertCombo f true) s

/-- A value times a power of two. The exponent is cut off where every type overflows or vanishes. [DEDUCED, safe, log 20] -/
def Val.scaleClamped (v : Val) (k : Int) : Val :=
  match v with
  | .fin n m e => .fin n m (e + (if k < -20000 then -20000 else if 20000 < k then 20000 else k))
  | w => w

/-- A scaled value encoded as a floating-point value is, whatever its source type (R330). [DEDUCED, safe, log 20] -/
def scaledElem (f : RForm) (k : Int) (c : Nat) : Enc :=
  let sty := fSty f
  let ty := f.ty.toNat
  let v := fetchVal sty c (fFtz f && hasSubnormals sty)
  let r := encodeVal ty f.rm.toNat (smFor ty f.sm.toNat) (fFtz f && hasSubnormals ty) (v.scaleClamped k)
  if v.isSig then { r with fp := r.fp ||| fNV } else r

/-- The encoding of NaN under a NaN scale, with NV (R330). -/
def nanScaled (f : RForm) : Enc :=
  let r := encodeVal f.ty.toNat f.rm.toNat (smFor f.ty.toNat f.sm.toNat) false (.nan false)
  { r with fp := r.fp ||| fNV }

/-- CVT (R329). -/
def execCvt (f : RForm) (s : State) : Result :=
  convertPart (.cvt f) f [] (pure (convertElem (fSty f) f.ty.toNat f.rm.toNat f.sm.toNat (fFtz f))) s

/-- CVTQ: times 2^(127 − c) (R330). -/
def execCvtq (f : RForm) (s : State) : Result :=
  convertPart (.cvtq f) f [rB .g f] (do
    let c := (← opG .b).toNat % 256
    pure fun x => if c = 255 then nanScaled f else scaledElem f (127 - (c : Int)) x) s

/-- CVTD: times 2^(c − 127) (R330). -/
def execCvtd (f : RForm) (s : State) : Result :=
  convertPart (.cvtd f) f [rB .g f] (do
    let c := (← opG .b).toNat % 256
    pure fun x => if c = 255 then nanScaled f else scaledElem f ((c : Int) - 127) x) s

/-- SCALE: times 2^k, with k = gB signed (R330). -/
def execScale (f : RForm) (s : State) : Result :=
  convertPart (.scale f) f [rB .g f] (do
    let k := (← opG .b).toInt
    pure (scaledElem f k)) s

/-- PACK: the low half from vA, the high half from vB (R331). -/
def execPack (f : RForm) (s : State) : Result :=
  runInstr (.pack f) (vAsk f (vSrcA f ++ [rB .v f])) (do
    let sty := fSty f
    let ty := f.ty.toNat
    let as ← vecA f sty
    let bs := vCodes sty (← opV .b)
    let xs := as ++ bs
    writeVec f ty (mapElems ty (← opMask) xs xs xs fun x _ _ => convertElem sty ty f.rm.toNat f.sm.toNat (fFtz f) x)
    convertCombo f true) s

/-- UNPACK: the low half of the source to vD, the high half to vD + 1 (R331). -/
def execUnpack (f : RForm) (s : State) : Result :=
  runInstr (.unpack f) { vAsk f (vSrcA f) with dsts := [vDst f.d.toNat, vDst (f.d.toNat + 1)] } (do
    let sty := fSty f
    let ty := f.ty.toNat
    let as ← vecA f sty
    let mask ← opMask
    let n := elemCount ty
    let half (xs : List Nat) : List (Option Enc) :=
      mapElems ty mask xs xs xs fun x _ _ => convertElem sty ty f.rm.toNat f.sm.toNat (fFtz f) x
    let lo := half (as.take n)
    let hi := half (as.drop n)
    let c ← curCtx
    writeV f.d.toNat (mergeCodes ty (c.rv f.d.toNat) (lo.map fun r => r.map (·.code)))
    writeV (f.d.toNat + 1) (mergeCodes ty (c.rv (f.d.toNat + 1)) (hi.map fun r => r.map (·.code)))
    raiseFp (orFp lo ||| orFp hi)
    warn (orWarn lo ||| orWarn hi)
    convertCombo f false) s

/-! ## AMAX (R332) -/

def amaxAcc (f : RForm) : Bool := f.mod.getLsbD 1
def amaxScl (f : RForm) : Bool := f.mod.getLsbD 2
def amaxQty (f : RForm) : Nat := bits f.mod.toNat 7 3

/-- The largest magnitude of a target type. -/
def largestCode (qty : Nat) : Nat :=
  match qty with
  | 12 => 448
  | 13 => 57344
  | 14 => 6
  | 15 => 4096
  | 16 => 256
  | 0 => 127
  | _ => 7

/-- The largest magnitude seen: NaN only when every value considered is NaN. -/
def amaxFold (vs : List Val) : Val :=
  let nums := vs.filter fun v => !v.isNan
  if nums.isEmpty && !vs.isEmpty then .nan false
  else nums.foldl (fun m v => if m.lt v.abs then v.abs else m) (.fin false 0 0)

/-- The e8m0 scale of m ÷ Max(QTY), with one rounding of the exact quotient. -/
def amaxScale (rm sm qty : Nat) (m : Val) : Enc :=
  match m with
  | .fin _ k e =>
    if k = 0 then { code := 0x7F }
    else
      let d := largestCode qty
      e8m0Mag rm sm (k * 2 ^ 64 / d) (e - 64) (k * 2 ^ 64 % d != 0)
  | v => encodeE8m0 rm sm v

/-- AMAX (R332): a vector instruction that always writes its g destination. -/
def execAmax (f : RForm) (s : State) : Result :=
  runInstr (.amax f) { guard := .vector, kg := f.kg.toNat, srcs := vSrcA f ++ (if amaxAcc f then [rC .g f] else []), dsts := [gDst f.d.toNat] } (do
    let ty := f.ty.toNat
    let as ← vecA f ty
    let mask ← opMask
    let cVal := fetchVal ty ((← opG .c).toNat % 2 ^ elemBits ty) (fFtz f)
    let elems := ((as.zipIdx).filter fun p => takesPart ty mask p.2).map fun p => fetchVal ty p.1 (fFtz f)
    let vs := if amaxAcc f then cVal :: elems else elems
    let m := amaxFold vs
    let r : Enc := if amaxScl f then amaxScale f.rm.toNat f.sm.toNat (amaxQty f) m else { code := (encodeVal ty 0 0 false m).code }
    writeG f.d.toNat (wd r.code)
    raiseFp (r.fp ||| sigFlag vs)
    warn r.warn
    if fFtz f && amaxScl f then warn wModcombo) s

end Sys2Proof.Machine
end

