-- ==== Sys2Proof/Machine/Copies.lean ====
section
/-! DEFINITION. The copy engines: stream pattern records, COPY and CHAIN (R260 to R266). -/

namespace Sys2Proof.Machine

/-! ## Records (R260) -/

/-- A dimension of a record: length, extent of the source, start, source stride and destination stride. -/
structure CopyDim where
  len : Nat
  ext : Nat
  start : Int
  src : Int
  dst : Int
  deriving DecidableEq, Repr

/-- A stream pattern record. -/
structure CopyRec where
  tbase : Nat
  dsts : List Nat
  dkind : Nat
  fmt : Nat
  ndim : Nat
  dstq : Nat
  eos : Bool
  ckind : Nat
  ectr : Nat
  pad : Nat
  caddr : Nat
  cinc : Nat
  dims : List CopyDim
  next : Nat
  own : Bool
  /-- A reserved field is not 0, or a field holds a reserved value. -/
  malformed : Bool
  deriving DecidableEq, Repr

/-- Decode the 32 words of a record. [DEDUCED, unsafe, log 71] -/
def copyRecOf (ws : List Nat) : CopyRec :=
  let w (n : Nat) : Nat := ws.getD n 0
  let ctrl := w 2
  let dkind := bits ctrl 1 0
  let ndim := bits ctrl 9 7
  let mcount := bits ctrl 24 23
  let dim (d : Nat) : CopyDim :=
    { len := bits (w (8 + d)) 31 0, ext := bits (w (8 + d)) 63 32, start := asInt true 32 (w (13 + d)), src := asInt true 64 (w (18 + d)),
      dst := asInt true 64 (w (23 + d)) }
  let unused (d : Nat) : Bool :=
    decide (w (8 + d) = 1) && decide (w (13 + d) = 0) && decide (w (18 + d) = 0) && decide (w (23 + d) = 0)
  { tbase := w 0, dsts := if dkind = 2 then w 1 :: (List.range mcount).map fun j => w (5 + j) else [w 1], dkind := dkind, fmt := bits ctrl 6 2,
    ndim := ndim, dstq := bits ctrl 13 10, eos := bits ctrl 14 14 == 1, ckind := bits ctrl 17 15, ectr := bits ctrl 19 18, pad := bits ctrl 63 32,
    caddr := w 3, cinc := w 4, dims := (List.range 5).map dim, next := w 28, own := w 29 % 2 == 1
    malformed :=
      decide (dkind = 3) || decide (19 < bits ctrl 6 2) || decide (ndim < 1) || decide (5 < ndim) || decide (3 < bits ctrl 17 15) ||
      decide (5 < bits ctrl 22 20) || (if dkind = 2 then decide (mcount = 0) else decide (mcount ≠ 0)) || decide (bits ctrl 31 25 ≠ 0) ||
      decide (1 < w 29) || decide (w 30 ≠ 0) || decide (w 31 ≠ 0) || (List.range 5).any (fun d => decide (bits (w (13 + d)) 63 32 ≠ 0)) ||
      (List.range 5).any fun d => decide (ndim ≤ d) && !unused d }

/-- Elements of a record, and of its nominal byte count (R261). -/
def CopyRec.count (r : CopyRec) : Nat := (r.dims.map fun d => d.len).foldl (· * ·) 1
def CopyRec.size (r : CopyRec) : Nat := tyBytes r.fmt
def CopyRec.nominal (r : CopyRec) : Nat := r.count * r.size

/-- The index of element n, dimension 0 innermost. -/
def copyIndex : List CopyDim → Nat → List Nat
  | [], _ => []
  | d :: rest, n => n % Nat.max 1 d.len :: copyIndex rest (n / Nat.max 1 d.len)

/-- Coordinates outside the tensor (R261). -/
def CopyRec.clipped (r : CopyRec) (i : List Nat) : Bool :=
  ((r.dims.zip i).take r.ndim).any fun p => decide (p.1.start + p.2 < 0) || decide ((p.1.ext : Int) ≤ p.1.start + p.2)
def addrPlus (a : Nat) (n : Int) : Nat := (wd a + BitVec.ofInt 64 n).toNat
def CopyRec.srcOf (r : CopyRec) (i : List Nat) : Nat :=
  addrPlus r.tbase (((r.dims.zip i).map fun p => (p.1.start + (p.2 : Int)) * p.1.src).foldl (· + ·) 0)
def CopyRec.dstOf (r : CopyRec) (dst : Nat) (i : List Nat) : Nat :=
  addrPlus dst (((r.dims.zip i).map fun p => (p.2 : Int) * p.1.dst).foldl (· + ·) 0)
/-- The pad element; a pair for the 4-bit types (R260). -/
def CopyRec.padBytes (r : CopyRec) : List Byte := trimT6 r.fmt (leBytes r.size r.pad)

def misaligned (a : Nat) : Trap := { cause := cAlignment, info := wd a, addr := wd a }

/-- The bytes of element n, none where it is clipped. -/
def copySource (s : State) (key : Nat) (c : Ctx) (r : CopyRec) (n : Nat) : Except Trap (Option (List Byte)) :=
  let i := copyIndex r.dims n
  if r.clipped i then .ok none
  else
    let a := r.srcOf i
    if a % r.size ≠ 0 then .error (misaligned a)
    else
      match agentRead s key c a r.size with
      | .error t => .error t
      | .ok bs => .ok (some bs)

/-! ## Moving a record to memory (R261) -/

/-- Write an element to one destination; a clipped element leaves DRAM as it is. In a copy of a redundant launch an element outside the regions
raises PROTECTION (R223). -/
def copyWrite (s : State) (key : Nat) (c : Ctx) (r : CopyRec) (a : Nat) (v : Option (List Byte)) : Except Trap State :=
  if v.isNone && !inAperture a then .ok s
  else if a % r.size ≠ 0 then .error (misaligned a)
  else
    let bs := v.getD r.padBytes
    match s.strayStore key a bs.length with
    | some t => .error t
    | none =>
      match agentWrite s key c a bs with
      | .error t => .error t
      | .ok s1 => .ok (s1.countStore key a bs.length)

/-- What is written for an element: nothing, the pad element or bytes. -/
inductive Moved where
  | nothing
  | value (v : Option (List Byte))
  deriving DecidableEq, Repr

/-- Write an element to every destination, numbered from k on; what was written before a fault stays. -/
def copyBranches (key : Nat) (c : Ctx) (r : CopyRec) (i : List Nat) (pick : Nat → Moved) : List Nat → Nat → State → State × Option Trap
  | [], _, s => (s, none)
  | d :: rest, k, s =>
    match pick k with
    | .nothing => copyBranches key c r i pick rest (k + 1) s
    | .value v =>
      match copyWrite s key c r (r.dstOf d i) v with
      | .error t => (s, some t)
      | .ok s1 => copyBranches key c r i pick rest (k + 1) s1

/-- Move elements one after another; `pick` gives what destination k gets of element n. -/
def copyElems (key : Nat) (c : Ctx) (r : CopyRec) (pick : Nat → Nat → Option (List Byte) → Moved) : List Nat → State → State × Option Trap
  | [], s => (s, none)
  | n :: rest, s =>
    match copySource s key c r n with
    | .error t => (s, some t)
    | .ok v =>
      match copyBranches key c r (copyIndex r.dims n) (fun k => pick n k v) r.dsts 0 s with
      | (s1, some t) => (s1, some t)
      | (s1, none) => copyElems key c r pick rest s1

/-- Where the bytes of an element lie: a place in DRAM, or behind 2^60 one in a bank; none where the address reaches nothing. -/
def elementAt (s : State) (key : Nat) (c : Ctx) (va n : Nat) (need : Right) : Option Nat :=
  match placeOf s key c va n need with
  | .ok (.dram pa) => some pa
  | .ok (.bank tile bank off) => some (2 ^ 60 + bankKey tile bank off)
  | .error _ => none

/-- Whether a record's destinations overlap its source (R261): by the bytes that their addresses reach, as two addresses may name one byte (R239). -/
def CopyRec.overlaps (r : CopyRec) (s : State) (key : Nat) (c : Ctx) : Bool :=
  let is := (List.range r.count).map (copyIndex r.dims)
  let srcs := is.filterMap fun i => if r.clipped i then none else elementAt s key c (r.srcOf i) r.size .r
  let dsts := r.dsts.flatMap fun d => is.filterMap fun i => elementAt s key c (r.dstOf d i) r.size .w
  dsts.any fun a => srcs.any fun b => decide (a < b + r.size) && decide (b < a + r.size)

/-- The values of the source elements that a record reads. -/
def CopyRec.sources (s : State) (key : Nat) (c : Ctx) (r : CopyRec) : List (List Byte) :=
  (List.range r.count).filterMap fun n => match copySource s key c r n with | .ok v => v | .error _ => none

/-- Move a record's elements from a number on. Where destinations overlap the source, each destination element is left, by a free choice, with its
old value or with the value of one of the record's source elements as they were (R8, R261). [DEDUCED, unsafe, log 69] -/
def moveRecord (s : State) (key : Nat) (c : Ctx) (r : CopyRec) (done : Nat) : State × Option Trap :=
  let ns := List.range r.count
  if r.overlaps s key c then
    let sources := r.sources s key c
    let pick (n k : Nat) (_ : Option (List Byte)) : Moved :=
      match sources[(Config.freeWord (s.drawn + 4 * n + k)).toNat % (sources.length + 1)]? with
      | some bs => .value (some bs)
      | none => .nothing
    copyElems key c r pick ns { s with drawn := s.drawn + 4 * r.count }
  else copyElems key c r (fun _ _ v => .value v) (ns.drop done) s

/-- Move the next n elements of a record whose destinations do not overlap its source. -/
def moveSome (s : State) (key : Nat) (c : Ctx) (r : CopyRec) (done n : Nat) : State × Option Trap :=
  if r.overlaps s key c then (s, none) else copyElems key c r (fun _ _ v => .value v) (((List.range r.count).drop done).take n) s

/-- The tile that a destination in the aperture names for a context. -/
def tileNamed (key va : Nat) : Nat := if bits va 29 21 = 511 then tileOf key else bits va 29 21

/-- The checks of a record before it moves anything (R261, R264); with DKIND 2 of every destination of every element. [DESIGN CHOICE, unsafe, log 66] -/
def checkRecord (s : State) (key : Nat) (c : Ctx) (r : CopyRec) (at_ : Nat) : Option Trap :=
  if r.malformed then some { cause := cIllegalEncoding, free := true, addr := wd at_ }
  else if r.dkind = 2 then
    ((r.dsts ++ r.dsts.flatMap fun d => (List.range r.count).map fun n => r.dstOf d (copyIndex r.dims n)).find? fun d => !inAperture d || decide (384 ≤ tileNamed key d) || dieOfTile (tileNamed key d) != dieOf key).map
      fun d => { cause := cProtection, info := wd d, addr := wd at_ }
  else if r.dkind = 1 then
    if !(c.rq r.dstq).isOut then some (queueTrap r.dstq 1)
    else if s.outFormat key c r.dstq ≠ r.fmt then some (queueTrap r.dstq 12)
    else none
  else none

/-! ## Pushing as an agent of a context (R149, R261) -/

/-- Push a token through a stream register of a context. -/
def agentPush (s : State) (key : Nat) (c : Ctx) (n : Nat) (eos : Bool) (words : List LinkWord) : Except Trap Pushed :=
  match c.rq n with
  | .home a _ =>
    if words.length ≠ 4 then .error (queueTrap n 18)
    else if s.redundant key then .error { cause := cProtection, free := true }
    else
      match s.subq? a with
      | none => .error (queueTrap n 1)
      | some q =>
        if q.size ≤ q.queued then .ok .wait
        else
          match (s.noteSpawn key q).appendRecord q (words.flatMap fun w => leBytes 32 w.data.toNat) with
          | .error t => .error t
          | .ok s1 => .ok (.done (s1.progress c.graph))
  | .output _ tmpl =>
    match s.outPort key c n with
    | none => .ok .wait
    | some p =>
      if p.depth < slotsOf words.length then .error (queueTrap n 3)
      else
        match p.consumer with
        | none => .ok .wait
        | some o => .ok (s.push key n c p o false { header := setEos (setFmt (setL (templateBits tmpl) words.length) p.fmt) eos, words := words })
  | _ => .error (queueTrap n 1)

/-- Elements in a token of a record: eight link words; a 4-bit type counts pairs (R261). -/
def CopyRec.perToken (r : CopyRec) : Nat := 8 * perWord r.fmt / (if tyNibble r.fmt then 2 else 1)
/-- Tokens that a record pushes: one without link words for an end of stream that moves no data (R263). -/
def CopyRec.tokens (r : CopyRec) : Nat :=
  if r.count = 0 then b2n r.eos else (r.count + r.perToken - 1) / r.perToken

/-- The codes of an element as link words carry them. -/
def CopyRec.codes (r : CopyRec) (bs : List Byte) : List Nat :=
  if tyNibble r.fmt then [leNat bs % 16, leNat bs / 16 % 16] else [leNat bs]

/-- The codes of elements n and on. -/
def copyCodes (s : State) (key : Nat) (c : Ctx) (r : CopyRec) : List Nat → Except Trap (List Nat)
  | [] => .ok []
  | n :: rest =>
    match copySource s key c r n with
    | .error t => .error t
    | .ok v =>
      match copyCodes s key c r rest with
      | .error t => .error t
      | .ok cs => .ok (r.codes (v.getD r.padBytes) ++ cs)

/-! ## Issue (R265, R266) -/

/-- The copy engines that serve a context: those of its cluster, or of its System Tile. [DEDUCED, unsafe, log 71] -/
def copyGroup (key : Nat) : Nat := if onSystemTile key then 48 + (tileOf key - 384) else clusterOfTile (tileOf key)

/-- Hand a record or a chain to a copy engine, once every older access of the context has arrived (R265).
[DEDUCED, unsafe, log 15; DEDUCED, unsafe, log 71] -/
def issueCopy (f : MForm) (chain : Bool) (ev : Nat) : M Unit := do
  let key ← curKey
  let a := (← opG .b).toNat
  if a % 64 ≠ 0 then raise cAlignment (wd a)
  if 64 ≤ ((← get).copies.filter fun r => copyGroup r.ctx == copyGroup key).length then stall .engine
  if (← get).accessing key then stall .memory
  let e ← issuing
  let asid := (← curCtx).asid
  modify fun s =>
    let s1 := s.writeBack (tileOf key) fun _ => true
    let run : CopyRun :=
      { id := s1.fresh, ctx := key, asid := asid, pc := e.pc, word := e.word, record := a, chain := chain, ev := ev, scope := f.sc.toNat, ord := f.ord.toNat }
    { s1 with fresh := s1.fresh + 1, copies := s1.copies ++ [run] }

/-- COPY (R265). -/
def execCopy (f : MForm) (s : State) : Result := runInstr (.copy f) (mAsk .scalar f [mBase f] []) (issueCopy f false 0) s
/-- CHAIN (R266). -/
def execChain (f : MForm) (s : State) : Result :=
  runInstr (.chain f) (mAsk .scalar f [mBase f] []) (issueCopy f true (f.ds.toNat % 4)) s

/-! ## Work (R262 to R266) -/

def State.dropCopy (s : State) (id : Nat) : State := ({ s with copies := s.copies.filter fun r => r.id != id } : State).wakeAll
def State.modCopy (s : State) (r : CopyRun) : State := { s with copies := s.copies.map fun x => if x.id = r.id then r else x }

/-- A record has failed: its fault goes to the issuer with the record's address, and nothing is credited (R264). The warnings of what the instruction has
done until then are dropped: they are set when it completes (R55), and an instruction that faults raises nothing (R310). [DESIGN CHOICE, unsafe, log 118] -/
def State.failCopy (s : State) (r : CopyRun) (t : Trap) : State :=
  (s.dropCopy r.id).asyncFault r.ctx { t with addr := wd r.record } r.pc r.word

/-- The record that a run is at. [DEDUCED, unsafe, log 71] -/
def readRecord (s : State) (r : CopyRun) (c : Ctx) : Except Trap CopyRec :=
  match agentWords s r.ctx c r.record 32 with
  | .error t => .error t
  | .ok ws => .ok (copyRecOf ws)

/-- The banks that a record moves bytes from or to, numbered 24 × tile + bank, each with an address in it (R242). -/
def CopyRec.banks (r : CopyRec) (key : Nat) : List (Nat × Nat) :=
  let at_ (va : Nat) : Option (Nat × Nat) := if inAperture va then some (24 * tileNamed key va + bits va 20 16, va) else none
  (List.range r.count).flatMap fun n =>
    let i := copyIndex r.dims n
    (if r.clipped i then none else at_ (r.srcOf i)).toList ++ (if r.dkind = 1 then [] else r.dsts.filterMap fun d => at_ (r.dstOf d i))

/-- The context for which a run moves its bytes, with the ASID of the issue (R357). -/
def CopyRun.issuer (r : CopyRun) (c : Ctx) : Ctx := { c with asid := r.asid }

/-- A record of a run is in progress from its first element on; from then on a switch of one of its banks ends it (R242). -/
def CopyRun.begun (r : CopyRun) (x : CopyRec) : CopyRun := if r.banks.isEmpty then { r with banks := x.banks r.ctx } else r

/-- A copy under way does what `f` says with its record; it waits while a repair of its context is open or a bank or way is busy (R407), and fails on a record that is not in order or
whose bank has been switched (R242, R258, R264). A chain at a record that it does not own does what `stop` says (R266). -/
def State.withRecord (s : State) (id : Nat) (f : CopyRun → Ctx → CopyRec → State) (stop : CopyRun → State) : State :=
  match s.copies.find? fun r => r.id == id with
  | none => s
  | some r =>
    match (s.owner? r.ctx).map r.issuer with
    | none => s.dropCopy id
    | some c =>
      if (s.repairs.any fun p => p.2.2.op.ctx == r.ctx) || s.storageBusy then s
      else
        match r.cut with
        | some va => s.failCopy r { cause := cProtection, info := wd va }
        | none =>
          match readRecord s r c with
          | .error t => s.failCopy r t
          | .ok x =>
            if r.chain && !x.own then stop r
            else
              match checkRecord s r.ctx c x r.record with
              | some t => s.failCopy r t
              | none => f r c x

/-- A COPY that has completed sets its warnings in the same step; a chain's records leave theirs to the chain (R55). [DESIGN CHOICE, unsafe, log 118] -/
def State.copyWarns (s : State) (r : CopyRun) (warn : Word) : State := if r.chain then s else s.modOwner r.ctx fun c => c.warns (r.warn ||| warn)

/-- What CKIND names at the completion of a record, with the clip warning (R55, R261, R262). [DESIGN CHOICE, unsafe, log 72] -/
def completeKind (s : State) (r : CopyRun) (c : Ctx) (x : CopyRec) (warn : Word) : Except Trap State :=
  match x.ckind with
  | 1 =>
    match agentAdd s r.ctx c x.caddr x.cinc with
    | .error t => .error t
    | .ok s1 => .ok ((s1.countAdd r.ctx).copyWarns r warn)
  | 2 =>
    let words : List Nat :=
      if x.dkind = 2 then x.dsts.map fun d => x.caddr - bits x.caddr 29 21 * 2 ^ 21 + tileNamed r.ctx d * 2 ^ 21 else [x.caddr]
    match words.foldl (fun acc a => match acc with
        | .error t => .error t
        | .ok s1 => updateArrival s1 r.ctx c a fun aw => creditWord aw x.nominal) (Except.ok s) with
    | .error t => .error t
    | .ok s1 => .ok (s1.copyWarns r warn)
  | 3 => .ok (s.asyncComplete r.ctx (some x.ectr) (if r.chain then 0 else r.warn ||| warn) 0)
  | _ => .ok (s.copyWarns r warn)

/-- A record of a run is done: a chain clears OWN and goes on to NEXT or stops and counts (R266). [DESIGN CHOICE, unsafe, log 118] -/
def State.advanceChain (s : State) (r : CopyRun) (c : Ctx) (x : CopyRec) (warn : Word) : State :=
  if !r.chain then s.dropCopy r.id
  else
    match agentWrite s r.ctx c (r.record + 8 * 29) (leBytes 8 0) with
    | .error t => s.failCopy r t
    | .ok s1 =>
      let r1 := { r with done := r.done + 1, pushed := 0, moved := 0, banks := [], warn := r.warn ||| warn }
      if x.next = 0 then (s1.dropCopy r.id).asyncComplete r.ctx (some r.ev) r1.warn 0
      else if x.next % 64 ≠ 0 then s1.failCopy r (misaligned x.next)
      else s1.modCopy { r1 with record := x.next }

/-- COPY_TOKEN_PUSH: the engine pushes the next token of a record whose destination is a port (R261, R263). -/
def execCopyTokenPush (id : Nat) (s : State) : Result :=
  runEvent (fun s => s.withRecord id (fun r c x =>
    if x.dkind ≠ 1 ∨ x.tokens ≤ r.pushed then s
    else
      let ns := (List.range (Nat.min x.perToken (x.count - r.pushed * x.perToken))).map fun j => r.pushed * x.perToken + j
      match copyCodes s r.ctx c x ns with
      | .error t => s.failCopy r t
      | .ok cs =>
        match agentPush s r.ctx c x.dstq (x.eos && r.pushed + 1 == x.tokens) (linkWords x.fmt cs) with
        | .error t => s.failCopy r t
        | .ok .wait => s
        | .ok (.done s1) => s1.modCopy { r.begun x with pushed := r.pushed + 1, warn := r.warn ||| s.spillWarn s1 }) fun _ => s) s

/-- A copy engine moves the next n elements of a record whose destination is memory (R261); those written before a fault stay (R264). -/
def State.moveOn (s : State) (id n : Nat) : State :=
  s.withRecord id (fun r c x =>
    if x.dkind = 1 ∨ x.overlaps s r.ctx c then s
    else
      match moveSome s r.ctx c x r.moved n with
      | (s1, some t) => s1.failCopy r t
      | (s1, none) => s1.modCopy { r.begun x with moved := Nat.min x.count (r.moved + n) }) fun _ => s

/-- COPY_RECORD_COMPLETION: every element has been moved, and the record completes, fails, or ends its chain (R262 to R266). -/
def execCopyRecordCompletion (id : Nat) (s : State) : Result :=
  runEvent (fun s => s.withRecord id (fun r c x =>
    if x.dkind = 1 ∧ r.pushed < x.tokens then s
    else
      let (s1, bad) := if x.dkind = 1 then (s, none) else moveRecord s r.ctx c x r.moved
      match bad with
      | some t => s1.failCopy r t
      | none =>
        let warn : Word := if (List.range x.count).any fun n => x.clipped (copyIndex x.dims n) then wClip else 0
        match completeKind s1 r c x warn with
        | .error t => s1.failCopy r t
        | .ok s2 => s2.advanceChain r c x warn) fun r => (s.dropCopy id).asyncComplete r.ctx (some r.ev) r.warn 0) s

end Sys2Proof.Machine
end

