-- ==== Sys2Proof/Machine/QueueEvents.lean ====
section
/-! DEFINITION. What happens to tokens between their push and their pop: arrival and adapters (R112, R143), credits on their way back (R146), the
draining of spill rings (R148), the forwarding engine of proxy queues (R150, R151), and the deadlock detector (R169, R170). -/

namespace Sys2Proof.Machine

/-! ## Arrival, credits and rings -/

/-- TOKEN_ARRIVAL: the oldest token on its way to a queue arrives (R112, R143, R145). -/
def execTokenArrival (queue : Nat) (s : State) : Result :=
  runEvent (fun s => match s.queues[queue]? with
    | none => s
    | some q =>
      match q.transit with
      | [] => s
      | t :: rest => (s.modQueue q.graph q.edge q.consumer fun x => { x with transit := rest }).arrive q t) s

/-- CREDIT_RETURN: freed credits arrive back at the producer (R146). -/
def execCreditReturn (queue : Nat) (s : State) : Result :=
  runEvent (fun s => match s.queues[queue]? with
    | none => s
    | some q =>
      if q.returning = 0 then s
      else (s.modQueue q.graph q.edge q.consumer fun x => { x with credits := x.credits + x.returning, returning := 0 }).progress q.graph) s

/-- SPILL_RING_DRAIN: the oldest token of the ring moves to the FIFO once the credits it needs are free and every older token has arrived
(R145, R148). -/
def execSpillRingDrain (queue : Nat) (s : State) : Result :=
  runEvent (fun s => match s.queues[queue]? with
    | none => s
    | some q =>
      match q.ring with
      | [] => s
      | t :: rest =>
        if q.transit.isEmpty && decide (t.slots ≤ q.credits) then
          (s.modQueue q.graph q.edge q.consumer fun x => { x with ring := rest, credits := x.credits - t.slots }).arrive q t
        else s) s

/-! ## Proxy queues (R150, R151) -/

/-- The entries from the head of a shadow that one fabric write of n link words can carry. -/
def batchOf : Nat → List ShadowEntry → List ShadowEntry
  | _, [] => []
  | n, e :: rest => if e.token.slots ≤ n then e :: batchOf (n - e.token.slots) rest else []

/-- The consumer that a shadow entry goes to, and its token: one that its push routed by owner goes to the present owner of its partition id, whose
tag it then carries; none while the owner is being moved (R151). -/
def State.routeEntry (s : State) (graph edge : Nat) (e : ShadowEntry) : Option (Nat × Token) :=
  if e.owner then
    match (s.graph? graph).bind fun g => g.edges[edge]? with
    | none => none
    | some d => (s.ownerOf graph d.cact (bits e.token.header.toNat 19 0)).map fun o => (o, { e.token with header := setTag e.token.header (slotOf o) })
  else some (e.consumer, e.token)

/-- Move the entries of a batch in order, as far as the true queues accept them: each leaves the shadow and its credit returns. -/
def State.forward (s : State) (graph edge producer : Nat) : List ShadowEntry → State
  | [] => s
  | e :: rest =>
    match s.routeEntry graph edge e with
    | none => s
    | some (o, t) =>
      match s.queue? graph edge o with
      | none => s
      | some q =>
        let need := deliveredSlots q.outFmt q.inFmt t
        if need ≤ q.credits then
          let s1 := s.modShadow graph edge producer fun x => { x with entries := x.entries.tail, credits := x.credits + e.token.slots }
          let s2 := (s1.modQueue graph edge o fun x => { x with credits := x.credits - need, producer := some producer }).sendToken graph edge o t
          (s2.progress graph).forward graph edge producer rest
        else s

/-- One batch of a shadow, by its index. -/
def State.forwardShadow (s : State) (n : Nat) : State :=
  match s.shadows[n]? with
  | none => s
  | some x => s.forward x.graph x.edge x.producer (batchOf 64 x.entries)

/-- PROXY_FORWARD_BATCH (R150). -/
def execProxyForwardBatch (queue : Nat) (s : State) : Result := runEvent (fun s => s.forwardShadow queue) s

/-- PROXY_BATCH_TIMEOUT: a partial batch is sent (R150). -/
def execProxyBatchTimeout (queue : Nat) (s : State) : Result := runEvent (fun s => s.forwardShadow queue) s

/-! ## The deadlock detector (R169, R170) -/

/-- The contexts of a graph. -/
def State.instances (s : State) (graph : Nat) : List (Nat × Ctx) := s.ctxs.filter fun e => e.2.graph == graph && graph != 0

/-- The instances of a graph, in slots and written out to images (R18). -/
def State.allInstances (s : State) (graph : Nat) : List (Nat × Ctx) :=
  s.instances graph ++ (s.images.filter fun i => i.ctx.graph == graph && graph != 0).map fun i => (i.key, i.ctx)

/-- Whether a queue is blocked: tokens buffered in its FIFO, ring or shadows, or held slots (R169). -/
def State.blocked (s : State) (q : Queue) : Bool :=
  !q.fifo.isEmpty || !q.ring.isEmpty || !q.held.isEmpty ||
  s.shadows.any fun x => x.graph == q.graph && x.edge == q.edge && x.entries.any fun e => e.consumer == q.consumer

/-- Whether a context has an asynchronous instruction that has not completed, a BLEND that waits for a hold slot among them (R113, R169, R250). -/
def State.asyncBusy (s : State) (key : Nat) : Bool :=
  s.copies.any (fun r => r.ctx == key) || s.asyncDone.any (fun d => d.ctx == key) || s.ops.any (fun o => o.ctx == key && o.kind == .blend) ||
  s.repairs.any (fun r => r.2.2.op.ctx == key) ||
  s.engines.any fun e => e.2.cmds.any (fun x => x.ctx == key) || e.2.ops.any fun x => x.ctx == key

/-- Whether an instruction in flight has still to write a register of a context. -/
def State.awaits (s : State) (key : Nat) (vec : Bool) (n : Nat) : Bool :=
  s.ops.any fun o => o.ctx == key && if vec then o.dstV.contains n else o.dstG.contains n

/-- Whether an instance makes the timer of its graph stand still: it is in WAIT, waits on a lease, an engine, memory or a long-latency producer, or
holds an asynchronous instruction that has not completed (R169). -/
def State.holdsTimer (s : State) (key : Nat) (c : Ctx) : Bool :=
  s.asyncBusy key ||
  (match c.firing with
   | none => false
   | some f =>
     match f.stall with
     | .waiting => true
     | .lease => true
     | .engine => true
     | .memory => true
     | .operand vec n _ => s.awaits key vec n
     | _ => false)

/-- Whether the stillness timer of a graph stands still: for an instance, for an entry of a proxy queue on its way to the true queue, or for a
checkpoint of its partition (R169, R413). -/
def State.timerStands (s : State) (g : Graph) : Bool :=
  (s.part g.part).paused || (s.instances g.handle).any (fun e => s.holdsTimer e.1 e.2) ||
  s.queues.any fun q => q.graph == g.handle && q.proxy && !q.transit.isEmpty

/-- The guard conditions of a context that concern a port: entry and kind. -/
def guardsOn (c : Ctx) (q : Nat) : List (Nat × Nat) :=
  (List.range 16).flatMap fun n =>
    let e := c.guard n
    if entryV e.1 then
      [cond0 e.2, cond1 e.2].filterMap fun k => if condKind k ≠ 0 ∧ condQ k = q then some (n, k) else none
    else []

/-- The condition of an instance as regards a queue at its stream register (R170); `space` for its producer side. Its guards are tested on committed state
(R134). -/
def condCode (s : State) (key : Nat) (c : Ctx) (q : Option Nat) (space : Bool) (held : Bool) : Nat :=
  match q with
  | none => 0
  | some n =>
    let stalled : Bool :=
      match c.firing with
      | none => false
      | some f =>
        match f.stall with
        | .tokens m _ => !space && m == n
        | .space m _ => space && m == n
        | _ => false
    if stalled then (if space then 5 else 4)
    else if !space && held && c.firing.isNone then 6
    else
      let gs := guardsOn c n
      let v := s.committed key c
      if gs.isEmpty then 0
      else if gs.all fun g => !condTrue v.1 key v.2 g.2 then (if space then 2 else 1)
      else if (selectedEntry v.1 key v.2).isNone then 3 else 0

/-- The stream register of a context bound to a port. -/
def Ctx.portReg (c : Ctx) (port : Nat) : Option Nat := (List.range 16).find? fun n => (c.rq n).isPort port

/-- The lowest-numbered instance of an actor: by tile, strand and slot. -/
def State.firstInstance (s : State) (graph actor : Nat) : Option Nat :=
  ((s.instances graph).filter fun e => e.2.actor == actor).foldl (fun m e =>
    let rank (k : Nat) : Nat := tileOf k * 32 + strandOf k * 8 + slotOf k
    match m with
    | none => some e.1
    | some k => if rank e.1 < rank k then some e.1 else some k) none

/-- A number that saturates at n bits. -/
def satBits (w n : Nat) : Nat := Nat.min (2 ^ w - 1) n

/-- The two words of a report for a blocked queue (R170). [DESIGN CHOICE, unsafe, log 137] -/
def State.reportRecord (s : State) (g : Graph) (q : Queue) : List Nat :=
  let d := g.edges.getD q.edge { pact := 255, pq := 0, cact := 0, cq := 0, queue := 0, owner := false }
  let inShadow := (s.shadows.filter fun x => x.graph == q.graph && x.edge == q.edge).flatMap fun x => x.entries.filter fun e => e.consumer == q.consumer
  let tokens := q.fifo.length + q.ring.length + inShadow.length
  let producer : Option Nat :=
    match q.producer with
    | some p => some p
    | none => if d.pact = 255 then none else s.firstInstance g.handle d.pact
  let side (key : Option Nat) (port : Nat) (space : Bool) : Nat :=
    match key with
    | none => 0
    | some k =>
      match s.ctx? k with
      | none => 0
      | some c => condCode s k c (c.portReg port) space (!q.held.isEmpty)
  let place (key : Option Nat) : Nat × Nat × Nat :=
    match key with
    | none => (0, 0, 0)
    | some k => (tileOf k, strandOf k, slotOf k)
  let p := place producer
  let c := place (some q.consumer)
  [ q.edge % 2 ^ 16 + satBits 16 tokens * 2 ^ 16 + (q.depth - q.credits) % 2 ^ 16 * 2 ^ 32 + q.depth % 2 ^ 16 * 2 ^ 48,
    side producer d.pq true + side (some q.consumer) d.cq false * 2 ^ 8 + p.1 * 2 ^ 16 + c.1 * 2 ^ 25 + p.2.1 * 2 ^ 34 + c.2.1 * 2 ^ 36 +
      p.2.2 * 2 ^ 38 + c.2.2 * 2 ^ 41 ]

/-- The blocked queues of a graph in ascending edge number. -/
def State.blockedQueues (s : State) (g : Graph) : List Queue :=
  (List.range g.edges.length).flatMap fun e => s.queues.filter fun q => q.graph == g.handle && q.edge == e && s.blocked q

/-- The words of the report (R170). -/
def State.report (s : State) (g : Graph) : List Nat :=
  let qs := s.blockedQueues g
  let shown := qs.take 254
  [ s.ticks % 2 ^ 64,
    shown.length + g.edges.length % 2 ^ 16 * 2 ^ 16 + g.asid * 2 ^ 32 + g.part * 2 ^ 45 + b2n (decide (254 < qs.length)) * 2 ^ 51,
    g.timer, g.va ] ++ shown.flatMap (s.reportRecord g)

/-- Write words through an ASID of a partition at their homes, as far as the translation allows. -/
def State.writeWordsAs (s : State) (asid part va : Nat) : List Nat → State
  | [] => s
  | w :: rest =>
    match translateAs s noTile asid part va .w with
    | .error _ => s
    | .ok pa => (s.dramWrite pa (leBytes 8 w)).writeWordsAs asid part (va + 8) rest

/-- Whether the detector of a graph fires (R169). -/
def State.detects (s : State) (g : Graph) : Bool :=
  decide (g.thresh ≠ 0) && !g.fired && decide (g.thresh < g.timer) && !(s.blockedQueues g).isEmpty

/-- DEADLOCK_DETECTION: the report is written and DEADLOCK raised in the supervisor (R170). [DESIGN CHOICE, unsafe, log 137] -/
def execDeadlockDetection (graph : Nat) (s : State) : Result :=
  runEvent (fun s => match s.graph? graph with
    | none => s
    | some g =>
      if s.detects g then
        let s1 := if g.report = 0 then s else s.writeWordsAs g.asid g.part g.report (s.report g)
        (s1.modGraph graph fun g => { g with fired := true }).queueFault (supervisorOf g.part)
          { cause := cDeadlock, info := wd g.report, fpc := 0, fword := 0, addr := wd g.report }
      else s) s

end Sys2Proof.Machine
end

