-- ==== Sys2Proof/Machine/Leases.lean ====
section
/-! DEFINITION. Leases and the power budget: requests, handles and refusals (R171 to R176), grants (R177 to R179), evictions (R180 to R186), and the
instructions LEASE to EVACK (R187 to R192). -/

namespace Sys2Proof.Machine

/-! ## Engines (R15, R172) -/

/-- Engines of each class in a cluster, and their lease units (R15). -/
def classCount (cls : Nat) : Nat := [8, 4, 1, 2, 1].getD cls 0
def classLu (cls : Nat) : Nat := [10, 3, 4, 2, 2].getD cls 0
/-- The first number of a class among the sixteen engines of a cluster. -/
def classBase (cls : Nat) : Nat := [0, 8, 12, 13, 15].getD cls 16
/-- Ticks that the wake from gated takes (R15). -/
def wakeTicks (cls : Nat) : Nat := [180, 120, 90, 60, 60].getD cls 0
def engineKey (cls cluster index : Nat) : Nat := 16 * cluster + classBase cls + index
def engineCluster (e : Nat) : Nat := e / 16
def engineClass (e : Nat) : Nat :=
  if e % 16 < 8 then 0 else if e % 16 < 12 then 1 else if e % 16 < 13 then 2 else if e % 16 < 15 then 3 else 4
def engineIndex (e : Nat) : Nat := e % 16 - classBase (engineClass e)
def engineLu (e : Nat) : Nat := classLu (engineClass e)
/-- The die of a cluster. -/
def dieOfCluster (cl : Nat) : Nat := cl / 12
/-- The engines of a class in a cluster, in ascending index. -/
def enginesOf (cls cluster : Nat) : List Nat := (List.range (classCount cls)).map fun i => engineKey cls cluster i

/-- Whether an engine is lit, waking or dozing (R16). -/
def Power.isLit : Power → Bool
  | .gated => false
  | _ => true
def Power.isDozing : Power → Bool
  | .dozing _ => true
  | _ => false
/-- Whether an engine counts as free (R177). -/
def Power.isFree : Power → Bool
  | .gated => true
  | .dozing _ => true
  | _ => false

/-- Lit LU of the engines that satisfy p, with or without the dozing ones. -/
def State.litLu (s : State) (dozing : Bool) (p : Nat → Bool) : Nat :=
  (s.engines.filterMap fun e => if e.2.power.isLit && (dozing || !e.2.power.isDozing) && p e.1 then some (engineLu e.1) else none).foldl (· + ·) 0
def State.clusterLu (s : State) (cl : Nat) (dozing : Bool) : Nat := s.litLu dozing fun e => engineCluster e == cl
def State.packageLu (s : State) (dozing : Bool) : Nat := s.litLu dozing fun _ => true

def safeBudget : Nat := 1100
/-- The effective budget (R203). -/
def State.effBudget (s : State) : Nat := if s.running then s.budget else safeBudget

/-- Whether a cluster counts as ON (R176). -/
def State.clusterOpen (s : State) (cl : Nat) : Bool := (s.cluster cl).state == .on && (s.cluster cl).op != some .quiesce

/-! ## Handles (R172, R185, R189) -/

def handleOfLease (cls cluster index ectr serial : Nat) : Word :=
  wd (2 ^ 63 + cls * 2 ^ 60 + cluster * 2 ^ 54 + index * 2 ^ 51 + ectr * 2 ^ 49 + serial % 2 ^ 16 * 2 ^ 32)
def handleClass (h : Word) : Nat := bits h.toNat 62 60
/-- The engine that a handle names, when there is one. -/
def handleEngine (h : Word) : Option Nat :=
  let cls := handleClass h
  let cl := bits h.toNat 59 54
  let i := bits h.toNat 53 51
  if cls < 5 ∧ cl < 48 ∧ i < classCount cls then some (engineKey cls cl i) else none

/-- The engine of a handle that is live for a context (R185). -/
def State.liveLease (s : State) (c : Ctx) (h : Word) : Option Nat :=
  match handleEngine h with
  | none => none
  | some e => if c.leases.any fun r => r.handle == h && r.grantSerial == (s.engine e).serial then some e else none

def leaseLost (h : Word) : Trap := { cause := cLeaseLost, info := h }

/-- The engine of a lease that an instruction names, or its fault (R185, R189). -/
def leaseOf (s : State) (key : Nat) (c : Ctx) (h : Word) : Except Trap Nat :=
  if !h.getLsbD 63 || h.getLsbD 48 || bits h.toNat 31 0 != 0 then .error { cause := cProtection, free := true }
  else
    match s.liveLease c h with
    | some e => .ok e
    | none =>
      if s.ctxs.any fun x => x.1 != key && (s.liveLease x.2 h).isSome then .error { cause := cProtection, free := true }
      else .error (leaseLost h)

/-- The engine of a lease of a class that takes new work (R185, R193, R347). -/
def engineFor (s : State) (key : Nat) (c : Ctx) (h : Word) (cls : Nat) : Except Trap Nat :=
  match leaseOf s key c h with
  | .error t => .error t
  | .ok e =>
    if engineClass e ≠ cls then .error { cause := cProtection, free := true }
    else if (s.engine e).closed then .error (leaseLost h)
    else .ok e

/-- %holdcap of the holder's partition and the grace period in ticks; firmware, which has no partition, goes by the reset values (R181, R182).
[DESIGN CHOICE, unsafe, log 23] -/
def State.holdCap (s : State) (c : Ctx) : Nat := if c.priv = .f then 100000 else (s.part c.part).holdcap
/-- [DESIGN CHOICE, unsafe, log 23] -/
def State.graceTicks (s : State) (c : Ctx) : Nat := 100 * (if c.priv = .f then 8 else (s.part c.part).grace)

/-! ## Waiting (R177, R178) -/

/-- What a request waits on. [DESIGN CHOICE, unsafe, log 57] -/
inductive Reason where
  | none | engine | ceiling | budget
  /-- Its cluster grants nothing: it is not ON, or its die is too hot (R200, R205). -/
  | held
  deriving DecidableEq, Repr

/-- The reason of a request of a class in a cluster, tested in the order of R177. [DESIGN CHOICE, unsafe, log 57] -/
def State.waitsOn (s : State) (cls cl : Nat) (only : Option Nat) : Reason :=
  if !s.clusterOpen cl || s.hot.getLsbD (dieOfCluster cl) then .held
  else if !((match only with | some e => [e] | none => enginesOf cls cl).any fun e => (s.engine e).power.isFree) then .engine
  else if 60 < s.clusterLu cl false + classLu cls then .ceiling
  else if s.effBudget < s.packageLu false + classLu cls then .budget
  else .none

def LeaseReq.engineOnly (r : LeaseReq) : Option Nat := r.only.map fun x => x.1
def State.reasonOf (s : State) (r : LeaseReq) : Reason := s.waitsOn r.cls r.cluster r.engineOnly

/-- The order of issue: by tick, then cluster, then class (R178). -/
def LeaseReq.before (w x : LeaseReq) : Bool :=
  decide (w.tick < x.tick) || (w.tick == x.tick && (decide (w.cluster < x.cluster) || (w.cluster == x.cluster &&
    (decide (w.cls < x.cls) || (w.cls == x.cls && decide (w.id < x.id))))))

/-- Whether a waiting request blocks another (R178). [DESIGN CHOICE, unsafe, log 57] -/
def State.blocks (s : State) (w x : LeaseReq) : Bool :=
  w.id != x.id && decide (x.prio ≤ w.prio) && w.before x &&
  (match s.reasonOf w with
   | .engine => w.cls == x.cls && w.cluster == x.cluster
   | .ceiling => w.cluster == x.cluster
   | .budget => true
   | _ => false)
def State.isBlocked (s : State) (x : LeaseReq) : Bool := s.requests.any fun w => s.blocks w x

/-! ## Dozing, release and notices -/

/-- The dozing engine that was released first among those that satisfy p. [DESIGN CHOICE, unsafe, log 135] -/
def State.oldestDozing (s : State) (p : Nat → Bool) : Option Nat :=
  (s.engines.foldl (fun (m : Option (Nat × Nat)) e =>
    match e.2.power with
    | .dozing t =>
      if p e.1 then
        match m with
        | none => some (t, e.1)
        | some (u, _) => if t < u then some (t, e.1) else m
      else m
    | _ => m) none).map fun x => x.2

/-- Gate dozing engines, the oldest release first, until the excess is met (R16). -/
def State.gateDozing (s : State) (p : Nat → Bool) : Nat → Int → State
  | 0, _ => s
  | fuel + 1, excess =>
    if excess ≤ 0 then s
    else
      match s.oldestDozing p with
      | none => s
      | some e => (s.setEngine e { s.engine e with power := .gated }).gateDozing p fuel (excess - engineLu e)

/-- A lease is under notice: f7 is set, its event counter advances and the grace period starts (R182). -/
def State.sendNotice (s : State) (e grace : Nat) : State :=
  let g := s.engine e
  match g.holder, g.notice with
  | some k, none =>
    (s.setEngine e { g with notice := some (s.ticks + grace) }).modOwner k fun c => (c.raiseFlag 7).countCompletion g.ectr
  | _, _ => s
def State.noticeOf (s : State) (e : Nat) : State :=
  match (s.engine e).holder.bind s.owner? with
  | some c => s.sendNotice e (s.graceTicks c)
  | none => s

/-- The lease record that names an engine at its present serial. -/
def Ctx.recordOf (c : Ctx) (e : Nat) (serial : BitVec 16) : Option LeaseRecord :=
  c.leases.find? fun r => handleEngine r.handle == some e && r.grantSerial == serial

/-- Commands and macro-ops that an engine has not completed. -/
def Engine.inflight (g : Engine) : Nat := g.cmds.length + g.ops.length

/-- An abandoned operation's long-latency destination is delivered LEASE_LOST; nothing else of it ever completes (R184). -/
def State.abandonOps (s : State) (e : Nat) (h : Word) : State :=
  { s with ops := s.ops.map fun o => if o.kind = .engine e then { o with kind := .fault cLeaseLost h 0 } else o }

/-- What becomes of an engine when its lease has gone: its internal state is discarded; an MX dozes, any other engine is gated (R174, R183). -/
def Engine.afterRelease (g : Engine) (cls now : Nat) : Engine :=
  { power := match g.power with
      | .waking t => .waking t
      | _ => if cls = 0 then .dozing now else .gated
    serial := g.serial, request := g.request }

/-- Release a lease; the work it has not completed is abandoned (R183, R184, R190, R192). -/
def State.releaseLease (s : State) (e : Nat) (drained : Nat) : State :=
  let g := s.engine e
  match g.holder with
  | none => s
  | some k =>
    let h := (((s.owner? k).bind fun c => c.recordOf e g.serial).map (·.handle)).getD 0
    let s1 := s.modOwner k fun c => { c with leases := c.leases.filter fun r => !(handleEngine r.handle == some e && r.grantSerial == g.serial) }
    let s2 := (s1.abandonOps e h).setEngine e (g.afterRelease (engineClass e) s.ticks)
    let done := s2.ops.filter fun o => o.kind == .evack e
    (done.foldl (fun s o => s.finishOp o (wd drained) []) s2).wakeAll

/-- A closed lease is released when its last work has completed (R185, R190, R192): a read ordered after the result of an EVACK .drain sees the warnings of
that work, as the result waits for its completions (R55). And an engine whose lease was lost when it has finished the record
that it was at (R183). -/
def State.settleLease (s : State) (e : Nat) : State :=
  let g := s.engine e
  if g.inflight ≠ 0 then s
  else if g.holder.isSome then (if g.closed then (s.absorbAll (g.holder.getD 0)).releaseLease e 1 else s)
  else if g.power = .lit then (s.setEngine e (g.afterRelease (engineClass e) s.ticks)).wakeAll
  else s

/-- Whether the grace period of a lease is over: its engine begins no further step or record (R183). A lease that LFREE has released before is not lost:
what issued before the LFREE runs on (R185, R190). [DEDUCED, unsafe, log 131] -/
def Engine.lost (g : Engine) (now : Nat) : Bool := !g.freed && (g.notice.map fun t => decide (t ≤ now)).getD false

/-! ## Grants (R178, R399) -/

/-- The engine that a grant takes: a dozing one first, then the lowest index (R178). -/
def State.pickEngine (s : State) (r : LeaseReq) : Option Nat :=
  let es := match r.engineOnly with
    | some e => [e]
    | none => enginesOf r.cls r.cluster
  match es.find? fun e => (s.engine e).power.isDozing with
  | some e => some e
  | none => es.find? fun e => (s.engine e).power.isFree

/-- Gate the dozing engines whose LU the grant of a class in a cluster needs: first those of the cluster for its limit, then those of the package for
what the budget still lacks (R16). -/
def State.makeRoom (s : State) (cls cl : Nat) : State :=
  let s1 := s.gateDozing (fun x => engineCluster x == cl) 768 ((s.clusterLu cl true + classLu cls : Nat) - 60)
  s1.gateDozing (fun _ => true) 768 ((s1.packageLu true + classLu cls : Nat) - (s1.effBudget : Int))

/-- Grant a request: the serial advances, the engine is cleared, or restored for a reloaded context, and starts to wake (R172, R174, R175, R399).
[DEDUCED, safe, log 54] -/
def State.grant (s : State) (r : LeaseReq) : State :=
  match s.pickEngine r, s.owner? r.ctx with
  | some e, some c =>
    let g := s.engine e
    let fromDoze := g.power.isDozing
    let s1 := if fromDoze then s else s.makeRoom r.cls r.cluster
    let serial := g.serial + 1
    let base : Engine := match r.only with
      | some (_, _, saved) => saved
      | none => {}
    let hold := Nat.min r.hold (s.holdCap c)
    let g' : Engine :=
      { base with
        power := .waking (s.ticks + (if fromDoze then 6 else wakeTicks r.cls)), serial := serial, holder := some r.ctx, ectr := r.ectr, prio := r.prio
        hold := r.hold, holdEnd := s.ticks + hold, holding := true, grantedAt := s.ticks, request := r.id, notice := none, closed := false }
    let h := match r.only with
      | some (_, saved, _) => saved
      | none => handleOfLease r.cls r.cluster (engineIndex e) r.ectr serial.toNat
    let s2 := (s1.setEngine e g').modOwner r.ctx fun c => { c with leases := c.leases ++ [{ handle := h, grantSerial := serial }] }
    { s2 with
      requests := s2.requests.filter fun x => x.id != r.id
      ops := s2.ops.map fun o => if o.kind = .lease r.id then { o with kind := .handle h e } else o }
  | _, _ => s

/-- Whether a request fits and nothing blocks it. [DESIGN CHOICE, unsafe, log 57] -/
def State.fits (s : State) (r : LeaseReq) : Bool := s.reasonOf r == .none && !s.isBlocked r

/-- Whether a request is the next to be granted: of those that fit and nothing blocks, the one that the order of issue puts first (R178).
[DESIGN CHOICE, unsafe, log 139] -/
def State.grantable (s : State) (r : LeaseReq) : Bool := s.fits r && !s.requests.any fun w => w.id != r.id && s.fits w && w.before r

/-- The grants that a cycle owes to requests issued before: each in the order of issue, at most one for a class in a cluster (R178). -/
def State.grantDue (s : State) : Nat → List (Nat × Nat) → State × List (Nat × Nat)
  | 0, done => (s, done)
  | fuel + 1, done =>
    match s.requests.find? fun r => s.grantable r && !done.contains (r.cls, r.cluster) with
    | none => (s, done)
    | some r => (s.grant r).grantDue fuel ((r.cls, r.cluster) :: done)

/-- LEASE_GRANT (R178). -/
def execLeaseGrant (request : Nat) (s : State) : Result :=
  runEvent (fun s => match s.requests.find? fun r => r.id == request with
    | some r => if s.grantable r then s.grant r else s
    | none => s) s

/-- ENGINE_WAKE_END: the handle is full; a lease lost while the engine woke leaves a dead handle and a released engine (R174). -/
def execEngineWakeEnd (engine : Nat) (s : State) : Result :=
  runEvent (fun s =>
    let g := s.engine engine
    match g.power with
    | .waking t =>
      if t ≤ s.ticks then
        let g' := match g.holder with
          | some _ => { g with power := .lit }
          | none => ({ g with power := .lit } : Engine).afterRelease (engineClass engine) s.ticks
        let s1 := s.setEngine engine g'
        let s2 := (s1.ops.filter fun o => match o.kind with | .handle _ e => e == engine | _ => false).foldl (fun s o =>
          match o.kind with
          | .handle h _ => s.finishOp o h []
          | _ => s) s1
        (s2.settleLease engine).wakeAll
      else s
    | _ => s) s

/-! ## Evictions (R180, R186) -/

/-- Put an entry into an ordered list. -/
def insertBy {α : Type} (before : α → α → Bool) (x : α) : List α → List α
  | [] => [x]
  | y :: rest => if before x y then x :: y :: rest else y :: insertBy before x rest

/-- Order a list. -/
def sortBy {α : Type} (before : α → α → Bool) (l : List α) : List α := l.foldr (insertBy before) []

/-- Held leases that satisfy p, the lowest priority first and among equals the most recent grant first. [DEDUCED, unsafe, log 56] -/
def State.evictionOrder (s : State) (p : Nat → Engine → Bool) : List Nat :=
  let es := s.engines.filter fun e => e.2.holder.isSome && e.2.notice.isNone && p e.1 e.2
  let before (a b : Nat × Engine) : Bool :=
    decide (a.2.prio < b.2.prio) || (a.2.prio == b.2.prio && (decide (b.2.grantedAt < a.2.grantedAt) ||
      (a.2.grantedAt == b.2.grantedAt && decide (b.2.request ≤ a.2.request))))
  (sortBy before es).map fun e => e.1

/-- Send notices in order until the LU under notice cover the excess. [DEDUCED, unsafe, log 56] -/
def State.noticeUntil (s : State) (grace : Option Nat) : List Nat → Int → State
  | [], _ => s
  | e :: rest, need =>
    if need ≤ 0 then s
    else
      let s1 := match grace with
        | some g => s.sendNotice e g
        | none => s.noticeOf e
      s1.noticeUntil grace rest (need - engineLu e)

/-- LU of the leases under notice that satisfy p. [DEDUCED, unsafe, log 56] -/
def State.noticedLu (s : State) (p : Nat → Bool) : Nat :=
  (s.engines.filterMap fun e => if e.2.notice.isSome && p e.1 then some (engineLu e.1) else none).foldl (· + ·) 0

/-- A budget emergency: dozing engines are gated, then leases are evicted without regard to hold (R186). -/
def State.budgetEmergency (s : State) : State :=
  let excess : Int := (s.packageLu true : Int) - s.effBudget
  if excess ≤ 0 then s
  else
    let s1 := s.gateDozing (fun _ => true) 768 excess
    let rest : Int := (s1.packageLu true : Int) - s1.effBudget - s1.noticedLu fun _ => true
    s1.noticeUntil none (s1.evictionOrder fun _ _ => true) rest

/-- Whether an engine bears on the reason of a request (R180). -/
def bears (r : LeaseReq) (w : Reason) (e : Nat) : Bool :=
  match w with
  | .engine =>
    (match r.engineOnly with
     | some x => e == x
     | none => engineCluster e == r.cluster && engineClass e == r.cls)
  | .ceiling => engineCluster e == r.cluster
  | .budget => true
  | _ => false

/-- What a request that forces eviction still needs beyond the leases under notice: engines for ENGINE, otherwise LU (R180). -/
def State.evictionNeed (s : State) (r : LeaseReq) (w : Reason) : Int :=
  match w with
  | .engine => 1 - ((s.engines.filter fun e => e.2.notice.isSome && bears r w e.1).length : Int)
  | .ceiling => (s.clusterLu r.cluster false + classLu r.cls : Nat) - 60 - (s.noticedLu (bears r w) : Int)
  | .budget => (s.packageLu false + classLu r.cls : Nat) - (s.effBudget : Int) - s.noticedLu (bears r w)
  | _ => 0

/-- The next lease that a request evicts: of lower priority, its hold ended (R180). [DEDUCED, unsafe, log 56] -/
def State.nextVictim (s : State) (r : LeaseReq) : Option Nat :=
  let w := s.reasonOf r
  if s.isBlocked r || decide (s.evictionNeed r w ≤ 0) then none
  else (s.evictionOrder fun e g => bears r w e && decide (g.prio < r.prio) && !g.holding).head?

/-- EVICTION_NOTICE: some waiting request evicts the lease of the engine, once the dozing engines that would help are gated (R180, R182). -/
def execEvictionNotice (engine : Nat) (s : State) : Result :=
  runEvent (fun s => match s.requests.find? fun r => s.nextVictim r == some engine with
    | some r => (s.gateDozing (bears r (s.reasonOf r)) 768 100000).noticeOf engine
    | none => s) s

/-- HOLD_END (R181). -/
def execHoldEnd (engine : Nat) (s : State) : Result :=
  runEvent (fun s =>
    let g := s.engine engine
    if g.holder.isSome && g.holding && decide (g.holdEnd ≤ s.ticks) then s.setEngine engine { g with holding := false } else s) s

/-- DOZE_EXPIRY: a dozing MX is gated after 20 µs (R174). -/
def execDozeExpiry (engine : Nat) (s : State) : Result :=
  runEvent (fun s => match (s.engine engine).power with
    | .dozing t => if t + 2000 ≤ s.ticks then s.setEngine engine { s.engine engine with power := .gated } else s
    | _ => s) s

/-! ## LEASE (R171, R173, R176, R188) -/

def refusal (why : Nat) : Word := wd why

/-- Whether a request word is malformed (R171). -/
def badRequest (w : Word) : Bool :=
  decide (4 < bits w.toNat 2 0) || bits w.toNat 4 3 == 3 || bits w.toNat 15 8 != 0 || bits w.toNat 63 48 != 0

/-- The clusters that a request considers, the issuing one first (R176). [DEDUCED, unsafe, log 55] -/
def State.considered (s : State) (key : Nat) (c : Ctx) (scope : Nat) : List Nat :=
  let own : List Nat := if onSystemTile key then [] else [clusterOfTile (tileOf key)]
  let inScope := (List.range 48).filter fun cl => scope == 2 || dieOfCluster cl == dieOf key
  let ok (cl : Nat) : Bool :=
    s.clusterOpen cl && (c.priv == .f || (List.range 8).any fun t => Map.get 0 s.tileOwner (8 * cl + t) == c.part + 1)
  if scope = 0 then own.filter s.clusterOpen else (own ++ inScope.filter fun cl => !own.contains cl).filter ok

/-- The effective priority (R176). -/
def State.effPrio (s : State) (key prio : Nat) : Nat :=
  match s.launchOf key with
  | some (_, l) => Nat.min prio l.prio
  | none => prio

/-- What LEASE decides at issue: a refusal, or the request with whether it can be granted at once. [DEDUCED, safe, log 54; DEDUCED, unsafe, log 55] -/
def State.leaseRequest (s : State) (key : Nat) (c : Ctx) (w : Word) (ectr : Nat) : Except Nat LeaseReq :=
  let cls := bits w.toNat 2 0
  let scope := bits w.toNat 4 3
  if badRequest w then .error 2
  else if scope = 0 ∧ onSystemTile key then .error 4
  else
    let cs := s.considered key c scope
    match (match cs.find? fun cl => s.waitsOn cls cl none == .none with
      | some cl => some cl
      | none => cs.head?) with
    | none => .error 6
    | some cl =>
      if 64 ≤ (s.requests.filter fun r => r.cls == cls && r.cluster == cl).length then .error 1
      else
        .ok { id := s.fresh, ctx := key, cls := cls, cluster := cl, prio := s.effPrio key (bits w.toNat 7 5), hold := bits w.toNat 47 16,
              ectr := ectr, tick := s.ticks }

/-- LEASE (R188). [DEDUCED, safe, log 54] -/
def execLease (f : SForm) (s : State) : Result :=
  runInstr (.lease f) (sAsk f [sA f] [gDst f.d.toNat]) (do
    let key ← curKey
    let c ← curCtx
    match (← get).leaseRequest key c (← opG .a) (sImm f % 4) with
    | .error why => writeG f.d.toNat (refusal why)
    | .ok r =>
      let s ← get
      let (due, served) := if f.cnd = 1 then s.grantDue s.requests.length [] else (s, [])
      set due
      if f.cnd = 1 && (!due.grantable r || served.contains (r.cls, r.cluster)) then writeG f.d.toNat (refusal 5)
      else
        set { due with fresh := due.fresh + 1, requests := due.requests ++ [r] }
        let _ ← issueOp (.lease r.id) [f.d.toNat] [] 0 0 0
        if f.cnd = 1 then modify fun s => s.grant r) s

/-- LRENEW (R189). -/
def execLrenew (f : SForm) (s : State) : Result :=
  runInstr (.lrenew f) (sAsk f [sA f, sB .g f] []) (do
    let key ← curKey
    let c ← curCtx
    let h ← opG .a
    let b ← opG .b
    let e ← orTrap (leaseOf (← get) key c h)
    let g := (← get).engine e
    if g.closed then throw (.trap (leaseLost h))
    if g.notice.isNone then
      modify fun s => s.setEngine e
        { g with holdEnd := s.ticks + Nat.min (if b = 0 then g.hold else b.toNat) (s.holdCap c), holding := true }) s

/-- LFREE .held (R190). -/
def execLfreeHeld (f : SForm) (s : State) : Result :=
  runInstr (.lfreeHeld f) (sAsk f [sA f] []) (do
    let c ← curCtx
    match (← get).liveLease c (← opG .a) with
    | none => pure ()
    | some e => modify fun s =>
        let g := s.engine e
        (s.setEngine e { g with closed := true, freed := g.freed || !g.lost s.ticks }).settleLease e) s

/-- LFREE .pend withdraws a request that is still waiting (R190). -/
def execLfreePend (f : SForm) (s : State) : Result :=
  runInstr (.lfreePend f) (sAsk f [] []) (do
    let key ← curKey
    let s ← get
    match s.ops.find? fun o => o.ctx == key && o.dstG == [f.a.toNat] && (match o.kind with | .lease _ => true | _ => false) with
    | some o =>
      match o.kind with
      | .lease r => set ({ s with requests := s.requests.filter fun x => x.id != r }.finishOp o (refusal 3) [])
      | _ => pure ()
    | none => pure ()) s

/-- The word of LQRY .lease (R191). -/
def State.leaseStatus (s : State) (c : Ctx) (h : Word) : Word :=
  match s.liveLease c h with
  | none => 0
  | some e =>
    let g := s.engine e
    let left := g.holdEnd - s.ticks
    wd ((if g.notice.isSome then 2 else 1) + b2n (decide (0 < left)) * 4 + g.prio % 8 * 8 + Nat.min 255 g.inflight * 2 ^ 8 +
      Nat.min 65535 ((g.notice.getD s.ticks) - s.ticks) * 2 ^ 16 + Nat.min (2 ^ 32 - 1) left * 2 ^ 32)

/-- LQRY .lease (R191). -/
def execLqryLease (f : SForm) (s : State) : Result :=
  runInstr (.lqryLease f) (sAsk f [sA f] [gDst f.d.toNat]) (do
    let c ← curCtx
    let h ← opG .a
    writeG f.d.toNat ((← get).leaseStatus c h)) s

/-- The word of LQRY .cls (R191). -/
def State.classStatus (s : State) (key cls : Nat) : Word :=
  let package := s.packageLu true % 2 ^ 13 * 2 ^ 20 + s.effBudget % 2 ^ 13 * 2 ^ 33
  if onSystemTile key then wd package
  else
    let cl := clusterOfTile (tileOf key)
    wd (((enginesOf cls cl).filter fun e => (s.engine e).power.isFree).length +
      (s.requests.filter fun r => r.cls == cls && r.cluster == cl).length % 128 * 2 ^ 4 + s.clusterLu cl true % 256 * 2 ^ 12 + package)

/-- LQRY .cls (R191). -/
def execLqryCls (f : SForm) (s : State) : Result :=
  runInstr (.lqryCls f) (sAsk f [] [gDst f.d.toNat]) (do
    let key ← curKey
    writeG f.d.toNat ((← get).classStatus key (sImm f % 8))) s

/-- EVACK .drain (R192). -/
def execEvackDrain (f : SForm) (s : State) : Result :=
  runInstr (.evackDrain f) (sAsk f [sA f] [gDst f.d.toNat]) (do
    let key ← curKey
    let c ← curCtx
    let e ← orTrap (leaseOf (← get) key c (← opG .a))
    if ((← get).engine e).notice.isSome then
      let _ ← issueOp (.evack e) [f.d.toNat] [] 0 0 0
      modify fun s => (s.setEngine e { s.engine e with closed := true }).settleLease e
    else issueValue f.d.toNat 2) s

end Sys2Proof.Machine
end

