-- ==== Sys2Proof/Machine/Engines.lean ====
section
/-! DEFINITION. The engine commands RAST, TRACE, SAMPLE and CODEC (R193 to R197): what they check at issue, what each record gives, and how their
tokens are pushed. -/

namespace Sys2Proof.Machine

/-! ## f32 arithmetic, one rounding for each operation -/

def f32r (v : Val) : Val := decodeVal 10 (encodeVal 10 0 0 false v).code
def f32add (a b : Val) : Val := f32r (addVal 0 a b).val
def f32sub (a b : Val) : Val := f32r (addVal 0 a b.neg).val
def f32mul (a b : Val) : Val := f32r (mulVal a b).val
/-- The code of a quotient in a type, rounded rne. -/
def quotCode (ty : Nat) (a b : Val) : Nat :=
  match a, b with
  | .fin n1 m1 e1, .fin n2 m2 e2 =>
    if m2 = 0 then (encodeVal ty 0 0 false (if m1 = 0 then .nan false else .inf (n1 != n2))).code
    else if m1 = 0 then (encodeVal ty 0 0 false (.fin (n1 != n2) 0 0)).code
    else
      match binaryOf ty with
      | none => 0
      | some f =>
        let k := 400 + Nat.log2 m2
        (encodeMag f ty 0 0 false 0 (n1 != n2) (m1 * 2 ^ k / m2) (e1 - e2 - k) (m1 * 2 ^ k % m2 != 0)).code
  | .inf n1, .fin n2 _ _ => (encodeVal ty 0 0 false (.inf (n1 != n2))).code
  | .fin n1 _ _, .inf n2 => (encodeVal ty 0 0 false (.fin (n1 != n2) 0 0)).code
  | _, _ => (encodeVal ty 0 0 false (.nan false)).code
def f32div (a b : Val) : Val := decodeVal 10 (quotCode 10 a b)
def f32code (v : Val) : Nat := (encodeVal 10 0 0 false v).code
def Val.le (a b : Val) : Bool := a.lt b || a.eq b
def Val.max (a b : Val) : Val := if a.lt b then b else a
def Val.min (a b : Val) : Val := if b.lt a then b else a
/-- floor of a finite value. [DESIGN CHOICE, safe, log 65] -/
def floorVal (neg : Bool) (m : Nat) (e : Int) : Int := (roundToInt 3 neg m e).1

/-! ## Records -/

/-- Bytes lo to lo + n − 1 of a record as a number. -/
def field (bs : List Byte) (lo n : Nat) : Nat := leNat ((bs.drop lo).take n)
def fieldF32 (bs : List Byte) (lo : Nat) : Val := decodeVal 10 (field bs lo 4)

/-- A record that holds a nonzero reserved field or a reserved value (R193). [DESIGN CHOICE, unsafe, log 66] -/
def badRecord (a : Nat) : Trap := { cause := cIllegalEncoding, free := true, addr := wd a }

/-- What the records of a command need of the machine: a read of n bytes at an address. -/
abbrev Reader := Nat → Nat → Except Trap (List Byte)

/-- A token of a command: metadata, sequence tag and link words. -/
def resultToken (meta_ seq : Nat) (words : List Nat) : Token :=
  { header := wd (meta_ % 2 ^ 35 + seq % 2 ^ 16 * 2 ^ 48), words := words.map fun w => { data := BitVec.ofNat 256 w } }

/-! ## RAST (R194) -/

/-- A coordinate in units of 1/256 pixel, or none when it drops the record. -/
def snapCoord (code : Nat) : Option Int :=
  match decodeVal 10 code with
  | .fin neg m e =>
    let n := (roundToInt 0 neg m (e + 8)).1
    if n.natAbs ≤ 16384 * 256 then some n else none
  | _ => none

/-- An edge of a triangle: its start, its direction, and whether a centre on it is covered. -/
structure RastEdge where
  x : Int
  y : Int
  dx : Int
  dy : Int
  topLeft : Bool
  deriving DecidableEq, Repr

def rastEdge (area xa ya xb yb yc : Int) : RastEdge :=
  let dx := xb - xa
  let dy := yb - ya
  { x := xa, y := ya, dx := dx, dy := dy,
    topLeft := if dy = 0 then decide (ya < yc) else if 0 < area then decide (dy < 0) else decide (0 < dy) }

/-- The edge function of a centre. -/
def RastEdge.at (e : RastEdge) (px py : Int) : Int := e.dx * (py - e.y) - e.dy * (px - e.x)
/-- Whether a centre passes the test of an edge. -/
def RastEdge.passes (e : RastEdge) (area px py : Int) : Bool :=
  let v := e.at px py
  (if 0 < area then decide (0 < v) else decide (v < 0)) || (decide (v = 0) && e.topLeft)

/-- An exact weight num ÷ den as f16. -/
def weightCode (num den : Int) : Nat := if num = 0 then 0 else quotCode 8 (intVal num) (intVal den)

/-- The tokens of a RAST record. -/
def rastRecord (bs : List Byte) (mode a : Nat) : Except Trap (List Token) :=
  let w := field bs 28 4
  if bits w 31 21 ≠ 0 then .error (badRecord a)
  else
    match snapCoord (field bs 0 4), snapCoord (field bs 4 4), snapCoord (field bs 8 4), snapCoord (field bs 12 4), snapCoord (field bs 16 4),
      snapCoord (field bs 20 4) with
    | some x0, some y0, some x1, some y1, some x2, some y2 =>
      let area := (x1 - x0) * (y2 - y0) - (x2 - x0) * (y1 - y0)
      if area = 0 ∨ (bits w 20 20 = 1 ∧ 0 < area) then .ok []
      else
        let e01 := rastEdge area x0 y0 x1 y1 y2
        let e12 := rastEdge area x1 y1 x2 y2 y0
        let e20 := rastEdge area x2 y2 x0 y0 y1
        let tx := bits w 9 0
        let ty := bits w 19 10
        let prim := field bs 26 2
        let seq := field bs 24 2
        .ok ((List.range 16).filterMap fun (y : Nat) =>
          let py : Int := (16 * ty + y : Nat) * 256 + 128
          let px (x : Nat) : Int := (16 * tx + x : Nat) * 256 + 128
          let covered (x : Nat) : Bool := e01.passes area (px x) py && e12.passes area (px x) py && e20.passes area (px x) py
          let mask := ((List.range 16).filter covered).foldl (fun m x => m + 2 ^ x) 0
          if mask = 0 then none
          else
            let weights (e : RastEdge) : Nat := packCodes 16 ((List.range 16).map fun x => if covered x then weightCode (e.at (px x) py) area else 0)
            let words := [mask + prim * 2 ^ 16] ++ (if mode = 1 then [weights e20, weights e01] else [])
            some (resultToken (tx + ty * 2 ^ 10 + y * 2 ^ 20 + prim % 2 ^ 11 * 2 ^ 24) seq words))
    | _, _, _, _, _, _ => .ok []

/-! ## TRACE (R195) -/

/-- A point or a direction. -/
structure Vec3 where
  x : Val
  y : Val
  z : Val
  deriving DecidableEq, Repr

def Vec3.sub (a b : Vec3) : Vec3 := { x := f32sub a.x b.x, y := f32sub a.y b.y, z := f32sub a.z b.z }
def Vec3.dot (a b : Vec3) : Val := f32add (f32add (f32mul a.x b.x) (f32mul a.y b.y)) (f32mul a.z b.z)
def Vec3.cross (a b : Vec3) : Vec3 :=
  { x := f32sub (f32mul a.y b.z) (f32mul a.z b.y)
    y := f32sub (f32mul a.z b.x) (f32mul a.x b.z)
    z := f32sub (f32mul a.x b.y) (f32mul a.y b.x) }
def vec3At (bs : List Byte) (lo : Nat) : Vec3 := { x := fieldF32 bs lo, y := fieldF32 bs (lo + 4), z := fieldF32 bs (lo + 8) }

/-- A ray: origin, direction and TMAX. -/
structure Ray where
  o : Vec3
  d : Vec3
  tmax : Val
  deriving DecidableEq, Repr

/-- One axis of the slab test: none when the box is missed, otherwise the near and far values where the axis counts. [PRESUMED, unsafe, log 63] -/
def slabAxis (lo hi o d : Val) : Option (Option (Val × Val)) :=
  if d.isZero then (if lo.le o && o.le hi then some none else none)
  else
    let a := f32div (f32sub lo o) d
    let b := f32div (f32sub hi o) d
    if a.isNan || b.isNan then none else some (some (a.min b, a.max b))

/-- The slab test: the near value of an accepted box (R195). [PRESUMED, unsafe, log 63; DESIGN CHOICE, unsafe, log 64] -/
def slabTest (r : Ray) (box : List Nat) : Option Val :=
  let c (n : Nat) : Val := decodeVal 8 (box.getD n 0)
  match slabAxis (c 0) (c 3) r.o.x r.d.x, slabAxis (c 1) (c 4) r.o.y r.d.y, slabAxis (c 2) (c 5) r.o.z r.d.z with
  | some x, some y, some z =>
    let near := ([x, y, z].filterMap fun a => a.map (·.1)).foldl Val.max (.inf true)
    let far := ([x, y, z].filterMap fun a => a.map (·.2)).foldl Val.min (.inf false)
    if near.le far && (Val.fin false 0 0).le far && near.lt r.tmax then some near else none
  | _, _, _ => none

/-- A hit: t, u, v, PRIM and the triangle's index. -/
structure Hit where
  t : Val
  u : Val
  v : Val
  prim : Nat
  index : Nat
  deriving DecidableEq, Repr

/-- The Möller-Trumbore test of a triangle. [PRESUMED, unsafe, log 63] -/
def triangleHit (r : Ray) (bs : List Byte) (index : Nat) : Option Hit :=
  let v0 := vec3At bs 0
  let e1 := (vec3At bs 12).sub v0
  let e2 := (vec3At bs 24).sub v0
  let p := r.d.cross e2
  let det := e1.dot p
  if det.isZero then none
  else
    let inv := f32div (.fin false 1 0) det
    let s := r.o.sub v0
    let u := f32mul (s.dot p) inv
    let q := s.cross e1
    let v := f32mul (r.d.dot q) inv
    let t := f32mul (e2.dot q) inv
    let zero : Val := .fin false 0 0
    if zero.le u && zero.le v && (f32add u v).le (.fin false 1 0) && zero.le t && t.lt r.tmax then
      some { t := t, u := u, v := v, prim := field bs 36 4, index := index }
    else none

/-- The better of two hits: least t, then lower PRIM, then lower index. [PRESUMED, unsafe, log 63] -/
def Hit.better (a : Hit) : Option Hit → Hit
  | none => a
  | some b =>
    if a.t.lt b.t then a else if b.t.lt a.t then b
    else if a.prim < b.prim then a else if b.prim < a.prim then b
    else if a.index < b.index then a else b

/-- What a traversal has found: the best hit, the accepted exits, the nodes still to visit and those seen. -/
structure Walk where
  hit : Option Hit := none
  exits : List (Nat × Val) := []
  todo : List Nat := [0]
  seen : List Nat := [0]
  deriving DecidableEq, Repr

/-- The triangles of a leaf. -/
def walkLeaf (rd : Reader) (tris : Nat) (r : Ray) (rec : Nat) : Nat → Nat → Option Hit → Except Trap (Option Hit)
  | 0, _, h => .ok h
  | n + 1, i, h =>
    match rd (tris + 48 * i) 48 with
    | .error t => .error t
    | .ok bs =>
      if field bs 40 8 ≠ 0 then .error (badRecord rec)
      else
        walkLeaf rd tris r rec n (i + 1) (match triangleHit r bs i with
          | none => h
          | some x => some (x.better h))

/-- The children of a node. -/
def walkChildren (rd : Reader) (tris : Nat) (r : Ray) (rec : Nat) (bs : List Byte) : List Nat → Walk → Except Trap Walk
  | [], w => .ok w
  | c :: rest, w =>
    let ref := field bs (48 + 4 * c) 4
    let box := (List.range 6).map fun j => field bs (12 * c + 2 * j) 2
    match bits ref 31 30 with
    | 0 => walkChildren rd tris r rec bs rest w
    | k =>
      match slabTest r box with
      | none => walkChildren rd tris r rec bs rest w
      | some near =>
        if k = 1 then
          let n := bits ref 29 0
          walkChildren rd tris r rec bs rest (if w.seen.contains n then w else { w with todo := w.todo ++ [n], seen := n :: w.seen })
        else if k = 2 then
          match walkLeaf rd tris r rec (bits ref 29 24 + 1) (bits ref 23 0) w.hit with
          | .error t => .error t
          | .ok h => walkChildren rd tris r rec bs rest { w with hit := h }
        else walkChildren rd tris r rec bs rest { w with exits := w.exits ++ [(bits ref 19 0, near)] }

/-- Visit nodes until none is left; a node is visited once, and there are 2^30 of them at most. [PRESUMED, unsafe, log 63; DESIGN CHOICE, unsafe, log 64] -/
def walkNodes (rd : Reader) (root tris : Nat) (r : Ray) (rec : Nat) : Nat → Walk → Except Trap Walk
  | 0, w => .ok w
  | fuel + 1, w =>
    match w.todo with
    | [] => .ok w
    | n :: rest =>
      match rd (root + 64 * n) 64 with
      | .error t => .error t
      | .ok bs =>
        match walkChildren rd tris r rec bs [0, 1, 2, 3] { w with todo := rest } with
        | .error t => .error t
        | .ok w1 => walkNodes rd root tris r rec fuel w1

/-- The exit that counts: least near value below the hit or TMAX, then the lower partition. -/
def bestExit (limit : Val) (es : List (Nat × Val)) : Option (Nat × Val) :=
  es.foldl (fun m e =>
    if e.2.lt limit then
      match m with
      | none => some e
      | some b => if e.2.lt b.2 then some e else if b.2.lt e.2 then some b else if e.1 < b.1 then some e else some b
    else m) none

/-- The token of a TRACE record. [DESIGN CHOICE, unsafe, log 64] -/
def traceRecord (rd : Reader) (block n a : Nat) (bs : List Byte) : Except Trap (List Token) :=
  match rd block 32 with
  | .error t => .error t
  | .ok hd =>
    let root := field hd 0 8
    let tris := field hd 8 8
    let part := bits (field hd 16 4) 19 0
    if bits (field hd 16 4) 31 20 ≠ 0 ∨ field hd 20 12 ≠ 0 then .error (badRecord a)
    else if root % 64 ≠ 0 then .error { cause := cAlignment, info := wd root, addr := wd a }
    else if tris % 16 ≠ 0 then .error { cause := cAlignment, info := wd tris, addr := wd a }
    else
      let r : Ray := { o := vec3At bs 0, d := vec3At bs 12, tmax := fieldF32 bs 24 }
      match walkNodes rd root tris r a (2 ^ 30) {} with
      | .error t => .error t
      | .ok w =>
        let ex := bestExit (match w.hit with | some h => h.t | none => r.tmax) w.exits
        let out (k : Nat) (x : Nat) : Nat := x * 2 ^ (32 * k)
        let hitPart := match w.hit with
          | some h => out 2 (f32code h.t) + out 3 (f32code h.u) + out 4 (f32code h.v) + out 5 h.prim
          | none => 0
        let exitPart := match ex with
          | some e => out 6 (f32code e.2) + out 7 e.1
          | none => 0
        let pid := match ex with
          | some e => e.1
          | none => part
        .ok [resultToken (pid + n * 2 ^ 20) 0
          [field bs 28 4 + out 1 (b2n w.hit.isSome + 2 * b2n ex.isSome) + hitPart + exitPart]]

/-! ## SAMPLE (R196) -/

/-- A texture descriptor. -/
structure Texture where
  base : Nat
  width : Nat
  height : Nat
  fmt : Nat
  wrap : Nat
  pitch : Nat
  deriving DecidableEq, Repr

/-- Read a descriptor's fields; none when it is not valid. -/
def textureOf (bs : List Byte) : Option Texture :=
  let t : Texture := { base := field bs 0 8, width := field bs 8 2, height := field bs 10 2, fmt := field bs 12 1, wrap := field bs 13 1,
                       pitch := field bs 16 4 }
  let size := if t.fmt = 0 then 4 else 8
  if t.base % 16 ≠ 0 ∨ t.width = 0 ∨ 16384 < t.width ∨ t.height = 0 ∨ 16384 < t.height ∨ 1 < t.fmt ∨ 1 < t.wrap ∨ field bs 14 2 ≠ 0 ∨
    t.pitch % size ≠ 0 ∨ t.pitch < t.width * size ∨ field bs 20 12 ≠ 0 then none
  else some t

/-- An index under the wrap mode. -/
def Texture.wrapIndex (t : Texture) (n : Nat) (i : Int) : Nat :=
  if t.wrap = 0 then (i % n).toNat else if i < 0 then 0 else Nat.min i.toNat (n - 1)

/-- The four channels of a texel. -/
def texel (rd : Reader) (t : Texture) (i j : Int) : Except Trap (List Val) :=
  let size := if t.fmt = 0 then 4 else 8
  match rd (t.base + t.wrapIndex t.height j * t.pitch + t.wrapIndex t.width i * size) size with
  | .error e => .error e
  | .ok bs =>
    .ok ((List.range 4).map fun c =>
      if t.fmt = 0 then f32div (.fin false (field bs c 1) 0) (.fin false 255 0) else decodeVal 8 (field bs (2 * c) 2))

/-- Interpolate between two values (R196). -/
def lerp (a : Val) (x y : Val) : Val := f32add (f32mul x (f32sub (.fin false 1 0) a)) (f32mul y a)

def zip4 (f : Val → Val → Val) (a b : List Val) : List Val := (a.zip b).map fun p => f p.1 p.2

/-- A coordinate times a size; a NaN coordinate is 0. -/
def scaled (u : Val) (n : Nat) : Val := f32mul (if u.isNan then .fin false 0 0 else u) (.fin false n 0)

/-- The f16 codes of one request; none where a coordinate is infinite, for which the manual states no texel. [DESIGN CHOICE, safe, log 65] -/
def sampleOne (rd : Reader) (t : Texture) (mode : Nat) (u v : Val) : Except Trap (Option (List Nat)) :=
  let codes (vs : List Val) : Option (List Nat) := some (vs.map fun x => (encodeVal 8 0 0 false x).code)
  if mode = 0 then
    match scaled u t.width, scaled v t.height with
    | .fin n1 m1 e1, .fin n2 m2 e2 =>
      match texel rd t (floorVal n1 m1 e1) (floorVal n2 m2 e2) with
      | .error e => .error e
      | .ok vs => .ok (codes vs)
    | _, _ => .ok none
  else
    let half : Val := .fin false 1 (-1)
    let corners (i j : Int) : Except Trap (List Val × List Val × List Val × List Val) := do
      return (← texel rd t i j, ← texel rd t (i + 1) j, ← texel rd t i (j + 1), ← texel rd t (i + 1) (j + 1))
    match f32sub (scaled u t.width) half, f32sub (scaled v t.height) half with
    | .fin n1 m1 e1, .fin n2 m2 e2 =>
      let i0 := floorVal n1 m1 e1
      let j0 := floorVal n2 m2 e2
      let a := f32sub (.fin n1 m1 e1) (intVal i0)
      let b := f32sub (.fin n2 m2 e2) (intVal j0)
      match corners i0 j0 with
      | .error e => .error e
      | .ok (t00, t10, t01, t11) => .ok (codes (zip4 (lerp b) (zip4 (lerp a) t00 t10) (zip4 (lerp a) t01 t11)))
    | _, _ => .ok none

/-- The word of a SAMPLE record, four requests in order; `draw` gives the free channels of a request whose texel is not stated. -/
def sampleWord (rd : Reader) (t : Texture) (mode : Nat) (bs : List Byte) (draw : Nat → Nat) : List Nat → Except Trap (List Nat)
  | [] => .ok []
  | r :: rest =>
    match sampleOne rd t mode (fieldF32 bs (8 * r)) (fieldF32 bs (8 * r + 4)) with
    | .error e => .error e
    | .ok x =>
      match sampleWord rd t mode bs draw rest with
      | .error e => .error e
      | .ok ws => .ok ((match x with | some cs => packCodes 16 cs | none => draw r % 2 ^ 64) :: ws)

/-- The token of a SAMPLE record. -/
def sampleRecord (rd : Reader) (block mode n a : Nat) (bs : List Byte) (draw : Nat → Nat) : Except Trap (List Token) :=
  match rd block 32 with
  | .error t => .error t
  | .ok hd =>
    match textureOf hd with
    | none => .error { cause := cProtection, info := wd block, addr := wd a }
    | some t =>
      match sampleWord rd t mode bs draw [0, 1, 2, 3] with
      | .error e => .error e
      | .ok ws => .ok [resultToken n 0 [packCodes 64 ws]]

/-! ## CODEC (R197) -/

/-- Bytes in blocks of 128. -/
def compressBlocks (bs : List Byte) : List Byte :=
  (chunk 128 (bs.length / 128 + 1) bs).flatMap fun b =>
    leBytes 16 ((b.zipIdx.filter fun p => p.1 != 0).foldl (fun m p => m + 2 ^ p.2) 0) ++ b.filter fun x => x != 0

/-- Put the nonzero bytes of a block where its mask has ones. -/
def expandBlock (mask : Nat) : Nat → List Byte → List Byte
  | 0, _ => []
  | n + 1, bs =>
    if mask / 2 ^ (127 - n) % 2 = 1 then bs.headD 0 :: expandBlock mask n bs.tail else 0 :: expandBlock mask n bs

/-- Expand n blocks from a stream in memory. -/
def expandStream (rdBytes : Nat → Nat → Except Trap (List Byte)) : Nat → Nat → Except Trap (List Byte)
  | 0, _ => .ok []
  | n + 1, a =>
    match rdBytes a 16 with
    | .error t => .error t
    | .ok m =>
      let mask := leNat m
      let k := ((List.range 128).filter fun i => mask / 2 ^ i % 2 == 1).length
      match rdBytes (a + 16) k with
      | .error t => .error t
      | .ok bs =>
        match expandStream rdBytes n (a + 16 + k) with
        | .error t => .error t
        | .ok rest => .ok (expandBlock mask 128 bs ++ rest)

/-- What a CODEC record writes, and its token; no bytes when LEN is refused. -/
def codecRecord (rdBytes : Nat → Nat → Except Trap (List Byte)) (mode n a : Nat) (bs : List Byte) : Except Trap (Nat × List Byte × List Token) :=
  if field bs 20 12 ≠ 0 then .error (badRecord a)
  else
    let src := field bs 0 8
    let dst := field bs 8 8
    let len := field bs 16 4
    let token (status count : Nat) : List Token := [resultToken n 0 [status + count * 2 ^ 32]]
    if len % 128 ≠ 0 ∨ len = 0 ∨ 2 ^ 24 < len then .ok (dst, [], token 1 0)
    else if mode = 0 then
      match rdBytes src len with
      | .error t => .error t
      | .ok xs =>
        let out := compressBlocks xs
        .ok (dst, out, token 0 out.length)
    else
      match expandStream rdBytes (len / 128) src with
      | .error t => .error t
      | .ok out => .ok (dst, out, token 0 len)

/-! ## Commands (R193) -/

/-- The class of an engine command, by its MIN, and whether a port's format is its result format. -/
def cmdFormat (cls fmt : Nat) : Bool :=
  match cls with
  | 1 => fmt == 6
  | 2 => fmt == 5 || fmt == 8
  | 3 => fmt == 8
  | _ => fmt == 6

/-- Submit a command (R193). The engine sees the stores that precede it: they have arrived, and the tile's dirty bytes are written back.
[DEDUCED, unsafe, log 15] -/
def submitCommand (f : SForm) (cls : Nat) : M Unit := do
  let key ← curKey
  let c ← curCtx
  let h ← opG .a
  let block := (← opG .b).toNat
  let e ← orTrap (engineFor (← get) key c h cls)
  if block % 32 ≠ 0 then raise cAlignment (wd block)
  if !(c.rq (sP f)).isOut then raiseQ (sP f) 1
  if !cmdFormat cls ((← get).outFormat key c (sP f)) then raiseQ (sP f) 12
  if (← get).accessing key then stall .memory
  modify fun s => s.writeBack (tileOf key) fun _ => true
  if cls = 3 then
    match agentRead (← get) key c block 32 with
    | .ok bs => if (textureOf bs).isNone then raiseFree cProtection
    | .error _ => pure ()
  let fr ← curFiring
  let en ← issuing
  modify fun s =>
    let cmd : EngineCmd :=
      { id := s.fresh, ctx := key, asid := c.asid, serial := fr.serial, word := en.word, pc := en.pc, q := sP f, bind := c.rq (sP f), block := block,
        count := sImm f + 1, ev := sCnd f % 4, mode := sCnd f / 4 }
    { s with fresh := s.fresh + 1 }.setEngine e { s.engine e with cmds := (s.engine e).cmds ++ [cmd] }

/-- RAST (R193, R194). -/
def execRast (f : SForm) (s : State) : Result := runInstr (.rast f) (sAsk f [sA f, sB .g f] []) (submitCommand f 2) s
/-- TRACE (R193, R195). -/
def execTrace (f : SForm) (s : State) : Result := runInstr (.trace f) (sAsk f [sA f, sB .g f] []) (submitCommand f 1) s
/-- SAMPLE (R193, R196). -/
def execSample (f : SForm) (s : State) : Result := runInstr (.sample f) (sAsk f [sA f, sB .g f] []) (submitCommand f 3) s
/-- CODEC (R193, R197). -/
def execCodec (f : SForm) (s : State) : Result := runInstr (.codec f) (sAsk f [sA f, sB .g f] []) (submitCommand f 4) s

/-- The address of a command's next record: TRACE and SAMPLE blocks begin with a header of 32 bytes. -/
def EngineCmd.recordAt (m : EngineCmd) (cls : Nat) : Nat := m.block + 32 * m.done + (if cls = 1 ∨ cls = 3 then 32 else 0)

/-- The tokens of a command's next record, with what it writes. -/
def commandRecord (s : State) (cls : Nat) (m : EngineCmd) (c : Ctx) : Except Trap (Nat × List Byte × List Token) :=
  let a := m.recordAt cls
  let rd : Reader := fun va n => agentBytes s m.ctx c va n
  match rd a 32 with
  | .error t => .error { t with addr := wd a }
  | .ok bs =>
    let plain (r : Except Trap (List Token)) : Except Trap (Nat × List Byte × List Token) :=
      match r with
      | .error t => .error { t with addr := wd a }
      | .ok ts => .ok (0, [], ts)
    match cls with
    | 1 => plain (traceRecord rd m.block m.done a bs)
    | 2 => plain (rastRecord bs m.mode a)
    | 3 => plain (sampleRecord rd m.block m.mode m.done a bs fun r => (Config.freeWord (s.drawn + r)).toNat)
    | _ =>
      match codecRecord rd m.mode m.done a bs with
      | .error t => .error { t with addr := wd a }
      | .ok x => .ok x

/-- A record has failed: the fault is that of an asynchronous instruction, and the rest of the command is abandoned (R193).
[DESIGN CHOICE, unsafe, log 66] -/
def State.failCommand (s : State) (e : Nat) (m : EngineCmd) (t : Trap) : State :=
  (((s.setEngine e { s.engine e with cmds := (s.engine e).cmds.tail }).asyncFault m.ctx t m.pc m.word).settleLease e).wakeAll

/-- The context for which a command works: the port of its issue and the ASID of its issue (R193, R357). -/
def EngineCmd.issuer (m : EngineCmd) (c : Ctx) : Ctx := { c.wq m.q m.bind with asid := m.asid }

/-- Count a write of an engine or a copy to DRAM, byte range by byte range. -/
def State.countWrite (s : State) (key va n : Nat) : State := if n = 0 then s else s.countStore key va n

/-- A command with these tokens of its present record still to push; without any the record is done. -/
def EngineCmd.left (m : EngineCmd) (ts : List Token) : EngineCmd :=
  if ts.isEmpty then { m with tokens := none, done := m.done + 1 } else { m with tokens := some ts }

/-- A command begins its next record. An engine write in a copy of a redundant launch that falls outside the regions raises PROTECTION (R223). -/
def State.beginRecord (s : State) (e : Nat) (m : EngineCmd) (c : Ctx) : State :=
  match commandRecord s (engineClass e) m c with
  | .error t => s.failCommand e m t
  | .ok (dst, bs, ts) =>
    let (s1, bad) :=
      match (if bs.isEmpty then none else s.strayStore m.ctx dst bs.length) with
      | some t => (s, some t)
      | none => agentStore { s with drawn := s.drawn + 4 } m.ctx c dst bs
    match bad with
    | some t => s1.failCommand e m { t with addr := wd (m.recordAt (engineClass e)) }
    | none =>
      let s2 := s1.countWrite m.ctx dst bs.length
      s2.setEngine e { s2.engine e with cmds := m.left ts :: (s2.engine e).cmds.tail }

/-- A command whose lease has been lost is abandoned once the record that it was at is finished (R183, R184). [DEDUCED, unsafe, log 131] -/
def State.endRecord (s : State) (e : Nat) : State :=
  let g := s.engine e
  if g.holder.isNone ∧ (g.cmds.head?.bind fun m => m.tokens) = none then (s.setEngine e { g with cmds := [] }).settleLease e else s

/-- ENGINE_RESULT_PUSH: the engine works on its oldest command: it begins a record, unless its grace period is over, or pushes its next token; with the
last one the record is done (R183, R193). An engine that is finishing a record for a context which has gone drops it. -/
def execEngineResultPush (engine : Nat) (s : State) : Result :=
  runEvent (fun s =>
    let g := s.engine engine
    match g.cmds with
    | [] => s
    | m :: rest =>
      if g.power ≠ .lit ∨ m.count ≤ m.done ∨ s.storageBusy then s
      else
        match s.ctx? m.ctx with
        | none => if g.holder.isNone && (s.owner? m.ctx).isNone then (s.setEngine engine { g with cmds := [] }).settleLease engine else s
        | some c0 =>
          let c := m.issuer c0
          match m.tokens with
          | none => if g.lost s.ticks then s else s.beginRecord engine m c
          | some [] => s
          | some (t :: ts) =>
            match s.outPort m.ctx c m.q with
            | none => s
            | some p =>
              if p.depth < slotsOf t.words.length then s.failCommand engine m (queueTrap m.q 3)
              else
                match p.consumer with
                | none => s
                | some o =>
                  let h := setFmt (setL (t.header ||| (p.template &&& 0x0000E00000000000)) t.words.length) p.fmt
                  match s.push m.ctx m.q c p o false { t with header := h } with
                  | .wait => s
                  | .done s1 =>
                    let m1 := { m.left ts with warn := m.warn ||| s.spillWarn s1 }
                    (s1.setEngine engine { s1.engine engine with cmds := m1 :: rest }).endRecord engine) s

/-- ENGINE_COMMAND_COMPLETION (R193, R190). -/
def execEngineCommandCompletion (engine : Nat) (s : State) : Result :=
  runEvent (fun s =>
    let g := s.engine engine
    match g.cmds with
    | [] => s
    | m :: rest =>
      if m.count ≤ m.done then
        (((s.setEngine engine { g with cmds := rest }).asyncComplete m.ctx (some m.ev) m.warn 0).settleLease engine).wakeAll
      else s) s

end Sys2Proof.Machine
end

