-- ==== Sys2Proof/Machine/Modules.lean ====
section
/-! DEFINITION. Code modules at MAJ 0x03 (R82, R83, R93 to R95, R248, R373): MODBIND, MODFREE and MODQ, and how bindings take effect and drain. -/

namespace Sys2Proof.Machine

/-- The byte at a physical address as an acquire load of a tile would read it: a dirty byte of the tile's own ways, else the home (R248, R280). -/
def State.acquiredByte (s : State) (tile pa : Nat) : Byte :=
  match s.cached? tile pa with
  | some (b, true) => b
  | _ => Memory.read s.mem pa

/-- The bytes of an image that are not 0, page by page through the translation for execution; the first page that fails ends the reading. `fuel`
counts pages. [DEDUCED, safe, log 42] -/
def imageFrom (s : State) (key : Nat) (c : Ctx) (base len : Nat) : Nat → Nat → Map Byte → Except Trap (Map Byte)
  | 0, _, m => .ok m
  | fuel + 1, off, m =>
    if len ≤ off then .ok m
    else
      match translateFor s key c (base + off) .x with
      | .error t => .error t
      | .ok pa =>
        let n := Nat.min (65536 - (base + off) % 65536) (len - off)
        if s.dramBad pa n then .error (badDataTrap (base + off))
        else imageFrom s key c base len fuel (off + n) ((List.range n).foldl (fun m j => Map.set 0 m (off + j) (s.acquiredByte (tileOf key) (pa + j))) m)

/-- Whether some firing of an ASID holds a reference to a binding (R83): a firing in flight, speculative or not, an interrupted one, or one written
out. -/
def State.referenced (s : State) (asid slot gen : Nat) : Bool :=
  let holds (c : Ctx) : Bool :=
    (c.firing.toList ++ c.frames.filterMap fun f => f.firing).any fun f => f.refs.contains { asid := asid, slot := slot, gen := gen }
  s.ctxs.any (fun e => holds e.2) || s.images.any (fun i => holds i.ctx) || s.specs.any fun x => holds x.view

/-- Drop a released binding. -/
def State.dropBinding (s : State) (asid slot gen : Nat) : State :=
  { s with bindings := s.bindings.filter fun b => !(b.asid == asid && b.slot == slot && b.gen == gen && b.released) }

/-- MODBIND: the value checks are precise, and the image is read at issue (R93, R248); a failed translation is a long-latency fault.
[DEDUCED, unsafe, log 41] -/
def execModbind (f : RForm) (s : State) : Result :=
  runInstr (.modbind f) (rAsk f [rA .g f, rB .g f, rC .g f] [gDst f.d.toNat]) (do
    let base ← opG .a
    let slot ← opG .b
    let len ← opG .c
    if base.toNat % 128 ≠ 0 ∨ len = 0 ∨ len.toNat % 8 ≠ 0 then raiseFree cAlignment
    if 15 < slot.toNat ∨ 2 ^ 48 < len.toNat then raiseFree cProtection
    let key ← curKey
    let c ← curCtx
    let s ← get
    if s.accessing key then stall .memory
    match imageFrom s key c base.toNat len.toNat (len.toNat / 65536 + 2) 0 [] with
    | .error t => issueFault t [f.d.toNat] []
    | .ok image =>
      let tag := 2 ^ 48 + s.fresh
      let _ ← issueOp (.modbind c.asid slot.toNat tag) [f.d.toNat] [] 0 0 0
      modify fun s => { s with bindings := s.bindings ++
        [{ asid := c.asid, slot := slot.toNat, gen := tag, base := base.toNat, len := len.toNat, image := image,
           digest := Config.shake256 ((List.range len.toNat).map fun j => Map.get 0 image j) }] }) s

/-- MODFREE: unbinds at once; gD becomes full when the old binding has drained (R93). -/
def execModfree (f : RForm) (s : State) : Result :=
  runInstr (.modfree f) (rAsk f [rA .g f] [gDst f.d.toNat]) (do
    let slot := (← opG .a).toNat
    if 15 < slot then raiseFree cProtection
    let c ← curCtx
    match (← get).boundNow c.asid slot with
    | none => writeG f.d.toNat 0
    | some b =>
      let _ ← issueOp (.modfree c.asid slot b.gen) [f.d.toNat] [] 0 0 0
      modify fun s =>
        let a := s.asid c.asid
        ({ s with bindings := s.bindings.map fun x =>
            if x.asid = b.asid ∧ x.slot = slot ∧ x.gen = b.gen then { x with released := true } else x } : State).setAsid c.asid
          { a with bound := setBit a.bound slot false }) s

/-- The released bindings of a slot that nothing refers to any more. -/
def State.drainedBindings (s : State) (asid slot : Nat) : List Binding :=
  s.bindings.filter fun b => b.asid == asid && b.slot == slot && b.released && !s.referenced asid slot b.gen

/-- MODQ. Whether the lines of a released binding without references have left the caches is not stated: either may be read, and a binding whose
lines have left is gone (R93). -/
def execModq (f : RForm) (s : State) : Result :=
  runInstr (.modq f) (rAsk f [rA .g f] [gDst f.d.toNat]) (do
    let slot := (← opG .a).toNat
    if 15 < slot then raiseFree cProtection
    let c ← curCtx
    let s ← get
    if !(s.drainedBindings c.asid slot).isEmpty then
      let (gone, s1) := s.drawChoice
      set (if gone then (s1.drainedBindings c.asid slot).foldl (fun s b => s.dropBinding c.asid slot b.gen) s1 else s1)
    let s ← get
    let a := s.asid c.asid
    let draining := s.bindings.any fun b => b.asid == c.asid && b.slot == slot && b.released
    writeG f.d.toNat (wd (b2n (a.bound.getLsbD slot) + b2n draining * 2 + Map.get 0 a.gens slot * 2 ^ 16))) s

/-- BINDING_TAKES_EFFECT (R93). -/
def execBindingTakesEffect (id : Nat) (s : State) : Result :=
  runEvent (fun s => match s.op? id with
    | some o =>
      match o.kind with
      | .modbind asid slot tag =>
        let (gen, s1) := s.applyBind asid slot tag
        s1.finishOp o (wd gen) []
      | _ => s
    | none => s) s

/-- MODFREE_DRAIN_COMPLETE: no firing refers to the old binding and its lines have left the caches (R85, R93). -/
def execModfreeDrainComplete (id : Nat) (s : State) : Result :=
  runEvent (fun s => match s.op? id with
    | some o =>
      match o.kind with
      | .modfree asid slot gen => if s.referenced asid slot gen then s else (s.dropBinding asid slot gen).finishOp o (wd gen) []
      | _ => s
    | none => s) s

/-! ## IPF (R91) -/

/-- The lines of an IPF that lie within the binding and whose translation holds (R91). [DESIGN CHOICE, unsafe, log 124] -/
def ipfLines (s : State) (key : Nat) (c : Ctx) (f : JForm) (pc : Word) (b : Binding) : Nat :=
  let first : Int := (relTarget pc (offBytes f)).offset / 128
  ((List.range (bits f.mod.toNat 6 0 + 1)).filter fun (n : Nat) =>
    let line := first + (n : Int)
    decide (0 ≤ line) && decide (line * 128 < b.len) &&
      (match translateFor s key { c with asid := b.asid } (b.base + 128 * line.toNat) .x with | .ok _ => true | .error _ => false)).length

/-- IPF fills instruction lines, those of its range that the cache does not hold: no state that programs see changes but the count of lines filled (R91). -/
def execIpf (f : JForm) (s : State) : Result :=
  runInstr (.ipf f) (jAsk f [] []) (do
    let c ← curCtx
    let fr ← curFiring
    let pc ← curPc
    let key ← curKey
    match (← get).enterBinding c.asid fr (cpSlot pc) with
    | some b =>
      let (w, s1) := (← get).drawWord
      set (s1.countEvent key 0x30 (w.toNat % (ipfLines s1 key c f pc b + 1)))
    | none => pure ()) s

end Sys2Proof.Machine
end

