-- ==== Sys2Proof/Machine/Speculation.lean ====
section
/-! DEFINITION. The trigger unit's speculation (R126 to R134): the predicted state on which a context with firings in flight is evaluated, END with the
test that commits the next speculative firing or squashes it, and which instructions a speculative firing executes. A speculative firing works on a
private view; when it becomes non-speculative, all that it has executed takes effect at once and in program order, on the committed state. -/

namespace Sys2Proof.Machine

/-! ## Prediction (R126) -/

/-- The n-th bit field of three bits of a free word. -/
def guess (w : Word) (n : Nat) : Nat := w.toNat / 8 ^ (n % 16) % 8

/-- The context as its firings in flight are predicted to leave it: flags that are known once the youngest has ended and free before, and
reservations in which QRES and pushes still to come are free. -/
def predictedCtx (flags resv : Word) (base : Ctx) (ended : Bool) : Ctx :=
  if ended then base
  else
    { base with
      flags := BitVec.ofNat 8 flags.toNat
      resv := (List.range 16).foldl (fun m q =>
        match guess resv q with
        | 0 => Map.set 0 m q 0
        | 1 => Map.set 0 m q (Map.get 0 m q + 1)
        | _ => m) base.resv }

/-- The tokens that speculative firings have popped from an edge's port. -/
def popsMade (specs : List Spec) (edge : Nat) : Nat := specs.foldl (fun n x => n + Map.get 0 x.pops edge) 0

/-- The predicted state of a context: its ports less the pops that its firings in flight have made, and a free number that they are predicted to make;
its flags and reservations as predicted (R126). How the device predicts is not architectural. [DEDUCED, unsafe, log 13] -/
def State.predicted (s : State) (key : Nat) (c : Ctx) : State × Ctx :=
  let specs := s.specsOf key
  let word (n : Nat) : Word := Config.freeWord (s.drawn + 3 * slotOf key + n)
  let base := match specs.getLast? with | some x => x.view | none => c
  let ended := match specs.getLast? with | some x => x.ended | none => false
  ({ s with queues := s.queues.map fun q =>
      if q.consumer = key then { q with fifo := q.fifo.drop (popsMade specs q.edge + guess (word 0) q.edge) } else q },
    predictedCtx (word 1) (word 2) { base with guards := c.guards, firing := c.firing, stamp := c.stamp } ended)

/-- Whether a context with a firing in flight may have another one dispatched behind it: fewer than four in flight, and no table of GUARD or UNGUARD put
aside (R120, R136). [DEDUCED, unsafe, log 13] -/
def State.roomy (s : State) (key : Nat) (c : Ctx) : Bool :=
  !c.parked && !c.aborted && c.frames.isEmpty && c.pending.isEmpty && c.guardsHeld.isNone && decide ((s.specsOf key).length < 3) &&
  (match c.firing with | some f => !f.handler | none => false)

/-- The binding that an entry of a context's table leads to: none for a slot without one or an offset beyond it (R123). -/
def State.entryBinding (s : State) (c : Ctx) (n : Nat) : Option Binding :=
  let pc := (c.guard n).1 &&& 0x000FFFFFFFFFFFFF
  (s.boundNow c.asid (cpSlot pc)).filter fun b => decide (cpOffset pc < b.len)

/-- The entry that a speculative evaluation selects; one that leads to no binding dispatches nothing (R123, R126). -/
def State.predictedEntry (s : State) (key : Nat) (c : Ctx) : Option Nat :=
  (selectedEntry (s.predicted key c).1 key (s.predicted key c).2).filter fun n => (s.entryBinding c n).isSome

/-- Dispatch a speculative firing from an entry of a context's table: its view begins as the predicted state (R122, R126). [DEDUCED, unsafe, log 13] -/
def State.dispatchSpec (s : State) (key : Nat) (c : Ctx) (n : Nat) : State :=
  match s.entryBinding c n with
  | none => s
  | some b =>
    let pc := (c.guard n).1 &&& 0x000FFFFFFFFFFFFF
    let (p, pc0) := s.predicted key c
    let f : Firing := { pc := pc, serial := s.fresh, entry := n, refs := [b.ref] }
    let x : Spec :=
      { key := key, start := pc, ref := b.ref, view := { pc0 with firing := some f }
        queues := p.queues.filter fun q => q.consumer == key || q.graph == c.graph
        shadows := p.shadows.filter fun x => x.graph == c.graph }
    (({ s with fresh := s.fresh + 1, drawn := s.drawn + 24, specs := s.specs ++ [x] } : State).setCtx key { c with stamp := s.cycle }).countEvent key 2 1

/-! ## Commitment (R127) -/

/-- Whether a context may dispatch a firing on committed state: resident, with none in flight, no frame and no pending fault. -/
def Ctx.ready (c : Ctx) : Bool := !c.parked && !c.aborted && c.firing.isNone && c.frames.isEmpty && c.pending.isEmpty

/-- The context with a firing in flight that begins at a code pointer, and the committed state that it has not yet changed (R122, R126). -/
def Ctx.begin (c : Ctx) (f : Firing) : Ctx :=
  { c with stoppedAt := none, firing := some f, past := if c.inFlight then c.past else some { flags := c.flags, resv := c.resv } }

/-- The context's oldest speculative firing becomes non-speculative: the instructions that it has executed are now due to take effect in program order, on
the committed state, before it issues anything else (R125, R128). [DEDUCED, unsafe, log 13] -/
def State.commitSpec (s : State) (key : Nat) (c : Ctx) (x : Spec) : State :=
  let f : Firing :=
    { pc := x.start, serial := (x.view.firing.map fun f => f.serial).getD s.fresh, entry := (x.view.firing.map fun f => f.entry).getD 0, refs := [x.ref], ahead := x.issued }
  ({ s with specs := s.specs.eraseP fun y => y.key == key } : State).setCtx key (c.begin f)

/-- What follows the END of a context's non-speculative firing: the context is evaluated on its committed state, and when that selects the entry of the
oldest speculative firing, with the binding it holds, that one becomes non-speculative; otherwise every speculative firing is squashed (R127).
[DEDUCED, unsafe, log 13] -/
def State.afterEnd (s : State) (key : Nat) : State :=
  match s.specsOf key, s.ctx? key with
  | x :: _, some c =>
    let same := selectedEntry s key c == x.view.firing.map fun f => f.entry
    if c.ready && same && (s.boundNow c.asid (cpSlot x.start)).map Binding.ref == some x.ref then s.commitSpec key c x else s.squash key
  | _, _ => s

/-- The context when its firing has ended: the flag update, the guard changes in force, and, in a trap handler, the interrupted firing abandoned
with its frame (R89, R136, R382). [DEDUCED, unsafe, log 26] -/
def Ctx.endFiring (c : Ctx) (set clr : Byte) : Ctx :=
  let handler := match c.firing with | some f => f.handler | none => false
  { c with
    flags := endFlags c set clr, flagsHeld := 0, firing := none
    guards := c.guardsHeld.getD c.guards, guardsHeld := none
    frames := if handler then c.frames.tail else c.frames
    stoppedAt := c.firing.map fun f => f.pc }

/-- END: ends the firing and releases its binding references (R89); then the next one commits or is squashed (R127). -/
def execEndFiring (f : RForm) (s : State) : Result :=
  runControl (.endFiring f) { guard := .unguarded } (do
    let key ← curKey
    modCur fun c => c.endFiring (setField f) (clrField f)
    modify fun s => s.afterEnd key
    pure .ended) s

/-! ## What a speculative firing executes (R128) -/

/-- What an instruction does in a speculative firing. -/
inductive SpecClass where
  /-- It executes, in the firing's own view. -/
  | runs
  /-- It is a store: it executes, and its effect is held. -/
  | holds
  /-- It waits at issue until the firing is non-speculative. -/
  | waits
  deriving DecidableEq, Repr

/-- The class of an instruction by its first word: MAJ, MIN, the form, and for accesses an order of rlx (R128). -/
def specClass (w : Nat) : SpecClass :=
  let maj := bits w 63 56
  let min := bits w 55 50
  let runsIf (b : Bool) : SpecClass := if b then .runs else .waits
  match maj with
  | 0x02 => runsIf (min != 9)
  | 0xF0 => .runs
  | 0x10 => .runs
  | 0x11 => .runs
  | 0x12 => .runs
  | 0x80 => .runs
  | 0x81 => .runs
  | 0x82 => .runs
  | 0x83 => .runs
  | 0x13 => runsIf (min == 2 || (min == 3 && bits w 23 20 == 0))
  | 0x03 => runsIf (min == 2)
  | 0x40 => runsIf (2 ≤ min)
  | 0x50 => runsIf ([0, 1, 2, 3, 4, 5].contains min && bits w 16 15 == 0)
  | 0xD0 => runsIf (bits w 19 18 == 0)
  | 0xD1 => if bits w 19 18 = 0 then .holds else .waits
  | _ => .waits

end Sys2Proof.Machine
end

