-- ==== Sys2Proof/Machine/Firings.lean ====
section
/-! DEFINITION. How firings begin: the trigger unit's dispatch, of non-speculative and speculative firings (R119 to R123, R126), trap handlers (R382) and
the delivery of pending faults (R384). -/

namespace Sys2Proof.Machine

/-- The key of slot 0 of a strand by its number: 4 × tile + strand on compute tiles, then three strands for each System Tile. -/
def strandKey (n : Nat) : Nat :=
  if n < 1536 then mkKey (n / 4) (n % 4) 0 else mkKey (384 + (n - 1536) / 3) ((n - 1536) % 3) 0

/-- Whether a full switch has stopped dispatch on a tile (R400). -/
def State.switching (s : State) (tile : Nat) : Bool := s.fullSwitches.any fun w => w.tile == tile

/-- The entry from which a context would dispatch: selected on its committed state when none of its firings is in flight, and on the predicted state
when fewer than four are (R120, R126, R127). -/
def State.nextEntry (s : State) (key : Nat) (c : Ctx) : Option Nat :=
  if c.ready then selectedEntry s key c else if s.roomy key c then s.predictedEntry key c else none

/-- The contexts of a strand that the trigger unit considers, with their selected entries (R119, R120). -/
def State.candidates (s : State) (strand : Nat) : List (Nat × Ctx × Nat) :=
  (List.range 8).filterMap fun slot =>
    let key := strandKey strand + 2048 * slot
    match s.ctx? key with
    | none => none
    | some c => if s.switching (tileOf key) then none else (s.nextEntry key c).map fun n => (key, c, n)

/-- The candidate with the oldest stamp, the lower slot on ties (R120). -/
def oldest : List (Nat × Ctx × Nat) → Option (Nat × Ctx × Nat)
  | [] => none
  | x :: rest =>
    match oldest rest with
    | none => some x
    | some y => if y.2.1.stamp < x.2.1.stamp then some y else some x

/-- A fault of a dispatch or a fetch, whose instruction has no word: FWORD is a free value. [DEDUCED, unsafe, log 29] -/
def State.wordlessTrap (s0 : State) (key : Nat) (t : Trap) (pc rpc : Word) (entries : List ReplayEntry) : State :=
  let (w, s) := s0.drawWord
  s.deliverTrap key t pc w rpc entries false false

/-- Begin a non-speculative firing at a code pointer with its binding references (R83, R122); a dispatch is a progress event of the graph (R169). -/
def State.beginFiring (s : State) (key : Nat) (pc : Word) (entry : Nat) (handler : Bool) (refs : List BindRef) : State :=
  let f : Firing := { pc := pc, serial := s.fresh, entry := entry, handler := handler, refs := refs }
  let s1 := s.modCtx key fun c => { c.begin f with stamp := s.cycle }
  (({ s1 with fresh := s.fresh + 1 } : State).countEvent key 2 1).progress (((s.ctx? key).map (·.graph)).getD 0)

/-- The dispatch of a context from its selected entry: a speculative firing behind one that is in flight, or a non-speculative one (R122), or the
fault of an entry without code (R123). -/
def State.dispatchFrom (s : State) (key : Nat) (c : Ctx) (n : Nat) : State :=
  if c.firing.isSome then s.dispatchSpec key c n
  else
    let pc := (c.guard n).1 &&& 0x000FFFFFFFFFFFFF
    match s.boundNow c.asid (cpSlot pc) with
    | none => s.wordlessTrap key { cause := cModuleAbsent, free := true } pc 0 []
    | some b =>
      if b.len ≤ cpOffset pc then s.wordlessTrap key { cause := cProtection, info := pc } pc 0 []
      else s.beginFiring key pc n false [b.ref]

/-- A cycle of a strand's trigger unit: the firing with the oldest stamp dispatches, and the others have let an opportunity pass (R120, R139).
[DESIGN CHOICE, unsafe, log 126] -/
def State.dispatchStrand (s0 : State) (strand : Nat) : State :=
  let s : State := { s0 with cycle := s0.cycle + 1 }
  let all := s.candidates strand
  match oldest all with
  | none => s
  | some (key, c, n) =>
    let s1 := all.foldl (fun s e => if e.1 = key then s else s.modCtx e.1 fun c => { c with waited := Nat.min 255 (c.waited + 1) }) s
    s1.dispatchFrom key c n

/-- FIRING_DISPATCH (R119 to R123). -/
def execFiringDispatch (strand : Nat) (s : State) : Result := runEvent (fun s => s.dispatchStrand strand) s

/-! ## Trap handlers (R382) -/

/-- Whether a handler firing of a context is to be dispatched. -/
def Ctx.handlerDue (c : Ctx) : Bool :=
  !c.parked && !c.aborted && c.firing.isNone && (match c.frames with | f :: _ => f.user | [] => false)

/-- The handler firing starts at %trapvec with its own reference, to the present binding of that slot, and those of the interrupted firing (R83, R382). Where
that one holds an older binding of the slot, the handler holds both and fetches from its own. A %trapvec that is no multiple of 8 raises ALIGNMENT, as
nothing is fetched from there (R57). [DESIGN CHOICE, unsafe, log 125] -/
def State.dispatchHandler (s0 : State) (key : Nat) (c : Ctx) : State :=
  let s : State := { s0 with cycle := s0.cycle + 1 }
  let pc := c.trapvec &&& 0x000FFFFFFFFFFFFF
  let held : List BindRef := match c.frames with | f :: _ => (f.firing.map fun x => x.refs).getD [] | [] => []
  if pc.toNat % 8 ≠ 0 then s.wordlessTrap key { cause := cAlignment, free := true } pc 0 []
  else
  match s.boundNow c.asid (cpSlot pc) with
  | none => s.wordlessTrap key { cause := cModuleAbsent, free := true } pc 0 []
  | some b =>
    if b.len ≤ cpOffset pc then s.wordlessTrap key { cause := cProtection, info := pc } pc 0 []
    else s.beginFiring key pc 16 true (b.ref :: held.filter fun r => r != b.ref)

/-- TRAP_HANDLER_DISPATCH (R382). -/
def execTrapHandlerDispatch (ctx : Nat) (s : State) : Result :=
  runEvent (fun s => match s.ctx? ctx with
    | none => s
    | some c => if c.handlerDue && !inShadow ctx && !s.switching (tileOf ctx) then s.dispatchHandler ctx c else s) s

/-! ## Pending faults (R384) -/

/-- The oldest fault that waits at its agent for room in a context's pending list. [DEDUCED, unsafe, log 31] -/
def State.admitFault (s : State) (key : Nat) : State :=
  match s.faultsWaiting.find? fun e => e.1 == key with
  | none => s
  | some e => ({ s with faultsWaiting := s.faultsWaiting.eraseP fun x => x.1 == key } : State).queueFault key e.2

/-- Whether a pending fault of a context may be delivered: it is resident, active and not in a handler. -/
def Ctx.faultDue (c : Ctx) : Bool := !c.parked && !c.aborted && !c.inHandler && !c.pending.isEmpty

/-- Deliver the oldest pending fault of a context (R384). [DEDUCED, unsafe, log 31] -/
def State.deliverPending (s : State) (key : Nat) (c : Ctx) : State :=
  match c.pending with
  | [] => s
  | p :: rest =>
    let s1 := (s.setCtx key { c with pending := rest }).admitFault key
    let t : Trap := { cause := p.cause, info := p.info, syndrome := p.syndrome, addr := p.addr }
    match c.firing with
    | none => s1.deliverTrap key t p.fpc p.fword 0 [] false true
    | some f =>
      let (s2, entries) := s1.interruptOps key f.serial none
      s2.deliverTrap key t p.fpc p.fword f.pc (entries ++ c.replay) false true

/-- ASYNC_FAULT_DELIVERY (R384). -/
def execAsyncFaultDelivery (ctx : Nat) (s : State) : Result :=
  runEvent (fun s => match s.ctx? ctx with
    | none => s
    | some c => if c.faultDue && !inShadow ctx then s.deliverPending ctx c else s) s

end Sys2Proof.Machine
end

