-- ==== Sys2Proof/Machine/Descriptor.lean ====
section
/-! DEFINITION. Graph descriptors as GLOAD reads and checks them (R227, R228). -/

namespace Sys2Proof.Machine

/-- What a descriptor says. -/
structure GraphDesc where
  thresh : Nat
  actors : List ActorDesc
  queues : List QueueDesc
  edges : List EdgeDesc
  deriving DecidableEq, Repr

/-- Why a descriptor is refused: the edge, or none for a fault outside any edge, and WHY (R227). -/
structure Unarmed where
  edge : Option Nat
  why : Nat
  deriving DecidableEq, Repr

/-- A number of a list of words. -/
def wordAt (ws : List Nat) (n : Nat) : Nat := ws.getD n 0

/-! ## Records -/

/-- An actor record from its 40 words, at an address; and WHY it is refused, 0 when it is not. [DEDUCED, unsafe, log 81] -/
def actorOf (ws : List Nat) (at_ : Nat) : ActorDesc × Nat :=
  let w0 := wordAt ws 0
  let w1 := wordAt ws 1
  let portByte (n : Nat) : Nat := wordAt ws (2 + n / 8) / 2 ^ (8 * (n % 8)) % 256
  let ports := (List.range 16).map fun n => (portByte n % 32, bits (portByte n) 5 5 == 1, bits (portByte n) 7 7 == 1)
  let guards := pairWords (ws.drop 8)
  let growth := bits w0 28 16
  let mn := bits w1 15 0
  let ini := bits w1 31 16
  let mx := bits w1 47 32
  let broken : Bool :=
    bits w0 15 4 != 0 || bits w0 63 29 != 0 || bits w1 63 48 != 0 || (ws.drop 4).take 4 != [0, 0, 0, 0] ||
    (List.range 16).any (fun n => bits (portByte n) 6 6 == 1 || (bits (portByte n) 7 7 == 1 && decide (19 < portByte n % 32))) ||
    guards.any fun e => !entryValid e.1 e.2
  let range : Bool := decide (1 ≤ mn) && decide (mn ≤ ini) && decide (ini ≤ mx) && decide (mx ≤ 12288) && decide (1 ≤ growth) && decide (growth ≤ 4096)
  ({ slot := bits w0 3 0, growth := growth, min := mn, initial := ini, max := mx, ports := ports, guards := guards, guardAddr := at_ + 64 },
   if broken then 6 else if range then 0 else 5)

/-- A queue record from its four words, and whether it is well formed. [DESIGN CHOICE, unsafe, log 128] -/
def queueOf (ws : List Nat) : QueueDesc × Bool :=
  let w0 := wordAt ws 0
  let w1 := wordAt ws 1
  let depth := bits w0 15 2
  let spill := bits w0 17 17 == 1
  let ring := bits w1 24 0
  ({ proxy := bits w0 1 0 == 1, depth := depth, manual := bits w0 16 16 == 1, spill := spill, ring := if ring = 0 then 16 * depth else ring },
   decide (bits w0 1 0 ≤ 1) && decide (1 ≤ depth) && decide (depth ≤ 8192) && bits w0 63 18 == 0 && bits w1 63 25 == 0 &&
   wordAt ws 2 == 0 && wordAt ws 3 == 0 && (ring == 0 || (spill && decide (depth ≤ ring) && decide (ring ≤ 2 ^ 24))))

/-- An edge record from its two words, and whether its reserved fields are 0. -/
def edgeOf (ws : List Nat) : EdgeDesc × Bool :=
  let w := wordAt ws 0
  ({ pact := bits w 7 0, pq := bits w 11 8, cact := bits w 19 12, cq := bits w 23 20, queue := bits w 35 24, owner := bits w 36 36 == 1 },
   bits w 63 37 == 0 && wordAt ws 1 == 0)

/-! ## Agreement of an edge (R227) -/

/-- A port of an actor as declared: format and direction. -/
def portOf (actors : List (ActorDesc × Nat)) (actor port : Nat) : Option (Nat × Bool) :=
  match (actors[actor]?).bind fun a => a.1.ports[port]? with
  | some (ty, out, true) => some (ty, out)
  | _ => none

/-- WHY an edge does not agree, given the edges before it; 0 when it does. [DEDUCED, unsafe, log 81] -/
def edgeWhy (actors : List (ActorDesc × Nat)) (queues : List (QueueDesc × Bool)) (before : List EdgeDesc) (e : EdgeDesc × Bool) : Nat :=
  let d := e.1
  let start := d.pact == 255
  let q := queues[d.queue]?
  if !e.2 || !(start || decide (d.pact < actors.length)) || decide (actors.length ≤ d.cact) || !((q.map (·.2)).getD false) ||
      before.any (fun b => b.queue == d.queue) || (start && before.any fun b => b.pact == 255) ||
      (start && ((q.map fun x => decide (x.1.depth < 4)).getD true)) then 6
  else
    let why (a : Nat) : Nat := ((actors[a]?).map (·.2)).getD 0
    if !start && why d.pact != 0 then why d.pact
    else if why d.cact ≠ 0 then why d.cact
    else
      let p := if start then some (7, true) else portOf actors d.pact d.pq
      match p, portOf actors d.cact d.cq with
      | some (pf, true), some (cf, false) =>
        if before.any fun b => (b.cact == d.cact && b.cq == d.cq) || (!start && b.pact == d.pact && b.pq == d.pq) then 4
        else if d.owner && !((q.map (·.1.proxy)).getD false) then 3
        else if pf ≠ cf ∧ (start ∨ !adapterPair pf cf) then 1
        else 0
      | _, _ => 4

/-- The first edge that does not agree. [DEDUCED, unsafe, log 81] -/
def firstUnarmed (actors : List (ActorDesc × Nat)) (queues : List (QueueDesc × Bool)) :
    List (EdgeDesc × Bool) → List EdgeDesc → Option Unarmed
  | [], _ => none
  | e :: rest, before =>
    let w := edgeWhy actors queues before e
    if w ≠ 0 then some { edge := some before.length, why := w } else firstUnarmed actors queues rest (before ++ [e.1])

/-- Records of n words. -/
def records (n : Nat) (ws : List Nat) : List (List Nat) := chunk n ws.length ws

/-- Check the tables of a descriptor. [DEDUCED, unsafe, log 81] -/
def checkTables (thresh : Nat) (actors : List (ActorDesc × Nat)) (queues : List (QueueDesc × Bool)) (edges : List (EdgeDesc × Bool)) :
    Except Unarmed GraphDesc :=
  match firstUnarmed actors queues edges [] with
  | some u => .error u
  | none =>
    if !(edges.any fun e => e.1.pact == 255) || (List.range queues.length).any (fun n => !edges.any fun e => e.1.queue == n) then
      .error { edge := none, why := 6 }
    else
      match actors.find? fun a => a.2 != 0 with
      | some a => .error { edge := none, why := a.2 }
      | none => .ok { thresh := thresh, actors := actors.map (·.1), queues := queues.map (·.1), edges := edges.map (·.1) }

/-- Read and check the image at an address (R228): a fault of the reading, or the verdict. [DEDUCED, unsafe, log 81] -/
def readDescriptor (s : State) (key : Nat) (c : Ctx) (a : Nat) : Except Trap (Except Unarmed GraphDesc) :=
  match agentWords s key c a 8 with
  | .error t => .error t
  | .ok h =>
    let w0 := wordAt h 0
    let na := bits w0 31 16
    let nq := bits w0 47 32
    let ne := bits w0 63 48
    let thresh := bits (wordAt h 1) 31 0
    let badOffset (n : Nat) : Bool := wordAt h n % 64 != 0 || decide (wordAt h n < 64)
    if bits w0 15 0 ≠ 1 ∨ na = 0 ∨ 255 < na ∨ nq = 0 ∨ 4096 < nq ∨ ne = 0 ∨ 4096 < ne ∨ bits (wordAt h 1) 63 32 ≠ 0 ∨
        (0 < thresh ∧ thresh < 1000) ∨ badOffset 2 ∨ badOffset 3 ∨ badOffset 4 ∨ h.drop 5 ≠ [0, 0, 0] then
      .ok (.error { edge := none, why := 6 })
    else
      match agentWords s key c (a + wordAt h 2) (40 * na), agentWords s key c (a + wordAt h 3) (4 * nq),
          agentWords s key c (a + wordAt h 4) (2 * ne) with
      | .ok aw, .ok qw, .ok ew =>
        let actors := ((records 40 aw).zipIdx).map fun r => actorOf r.1 (a + wordAt h 2 + 320 * r.2)
        .ok (checkTables thresh actors ((records 4 qw).map queueOf) ((records 2 ew).map edgeOf))
      | .error t, _, _ => .error t
      | _, .error t, _ => .error t
      | _, _, .error t => .error t

end Sys2Proof.Machine
end

