-- ==== Sys2Proof/Machine/Power.lean ====
section
/-! DEFINITION. Power control: the cluster handshake block and its operations (R199 to R202, R418 to R421, R425 to R427), clocks, rails and droop (R203,
R204, R426), the package registers (R198, R203) and the thermal trip (R205). -/

namespace Sys2Proof.Machine

def State.modCluster (s : State) (cl : Nat) (f : Cluster → Cluster) : State := s.setCluster cl (f (s.cluster cl))

/-- An operation or the wake sequence runs (R199). -/
def Cluster.busy (c : Cluster) : Bool := c.op.isSome || c.waking
/-- A write that is refused sets ERR with its code and changes nothing else (R200). [DEDUCED, unsafe, log 59] -/
def Cluster.error (c : Cluster) (code : Nat) : Cluster := { c with err := true, errcode := code }
def Clpm.code : Clpm → Nat
  | .on => 0
  | .quiesced => 1
  | .away => 2
  | .clkoff => 3
  | .railoff => 4

/-- The tiles of a cluster. -/
def clusterTiles (cl : Nat) : List Nat := (List.range 8).map fun t => 8 * cl + t
def inCluster (cl tile : Nat) : Bool := decide (tile < 384) && tile / 8 == cl

/-! ## Clocks and rails (R199, R200, R204, R426) -/

/-- Whether the cluster's clock runs or is being brought up. -/
def Cluster.clocked (c : Cluster) : Bool :=
  match c.state with
  | .on => true
  | .quiesced => true
  | .away => true
  | .clkoff => c.op == some .clkungate
  | .railoff => false

/-- Store TARGET; while the clock runs, LOCK falls until the loop has settled (R426). -/
def Cluster.setTarget (c : Cluster) (t : Nat) : Cluster := { c with target := t, lock := if c.clocked then false else c.lock }

/-- The step that the FLL moves towards: TARGET less DROOPSTEPS; step 0 on a die that is too hot (R199, R205). -/
def State.fllGoal (s : State) (cl : Nat) : Nat :=
  if s.hot.getLsbD (dieOfCluster cl) then 0 else (s.cluster cl).target - (s.cluster cl).droopSteps

/-- PGOOD of a rail that is on: within 10 mV of the set-point, two codes (R199). -/
def railGood (code vset : Nat) : Bool := decide (code ≤ vset + 2) && decide (vset ≤ code + 2)

/-- A write of VSET: 20 to 100, other values are refused (R199). -/
def Cluster.setVset (c : Cluster) (v now : Nat) : Cluster :=
  if v < 20 ∨ 100 < v then c.error 6
  else if c.en && c.op != some .railOn then { c with vset := v, pgood := railGood c.railCode v, railStep := now }
  else { c with vset := v }

/-- VSET_WRITE (R199). [DESIGN CHOICE, safe, log 58] -/
def execVsetWrite (cluster : Nat) (value : BitVec 64) (s : State) : Result :=
  runEvent (fun s => s.modCluster cluster fun c => c.setVset (bits value.toNat 6 0) s.ticks) s

/-- RAIL_SLEW_STEP: the rail moves one code towards its set-point every 10 ticks (R199). -/
def execRailSlewStep (cluster : Nat) (s : State) : Result :=
  runEvent (fun s =>
    let c := s.cluster cluster
    if c.en && c.state != .railoff && c.railCode != c.vset && decide (c.railStep + 10 ≤ s.ticks) then
      let code := if c.railCode < c.vset then c.railCode + 1 else c.railCode - 1
      s.setCluster cluster { c with railCode := code, railStep := s.ticks, pgood := railGood code c.vset }
    else s) s

/-- A write of TARGET: 0 to 52, other values are refused (R199, R426). -/
def Cluster.writeTarget (c : Cluster) (v : Nat) : Cluster := if 52 < v then c.error 6 else c.setTarget v

/-- FLL_TARGET_WRITE (R426). -/
def execFllTargetWrite (cluster : Nat) (value : BitVec 64) (s : State) : Result :=
  runEvent (fun s => s.modCluster cluster fun c => c.writeTarget (bits value.toNat 5 0)) s

/-- FLL_STEP: one step of 25 MHz towards the goal every 50 ticks; LOCK once the loop has settled there (R200, R426). [DEDUCED, unsafe, log 59] -/
def execFllStep (cluster : Nat) (s : State) : Result :=
  runEvent (fun s =>
    let c := s.cluster cluster
    let goal := s.fllGoal cluster
    if !c.clocked then s
    else if c.current = goal then s.setCluster cluster { c with lock := decide (goal = c.target - c.droopSteps) }
    else if c.fllStep + 50 ≤ s.ticks then
      s.setCluster cluster { c with current := if c.current < goal then c.current + 1 else c.current - 1, fllStep := s.ticks, lock := false }
    else s) s

/-- One step down for droop, to at most four (R204). -/
def Cluster.droopDown (c : Cluster) (now : Nat) : Cluster :=
  if c.droopSteps < 4 then { c with droopSteps := c.droopSteps + 1, current := c.current - 1, lock := false, fllStep := now } else c

/-- DROOP_SAG: the clock is stretched and the FLL steps down at once (R204). -/
def execDroopSag (cluster : Nat) (s : State) : Result :=
  runEvent (fun s =>
    let c := s.cluster cluster
    if c.clocked && !c.stretch then s.setCluster cluster { c.droopDown s.ticks with stretch := true, droopSince := s.ticks } else s) s

/-- DROOP_STEP_DOWN: one more step for every further microsecond of sag (R204). -/
def execDroopStepDown (cluster : Nat) (s : State) : Result :=
  runEvent (fun s =>
    let c := s.cluster cluster
    if c.stretch && decide (c.droopSince + 100 ≤ s.ticks) then s.setCluster cluster { c.droopDown s.ticks with droopSince := s.ticks } else s) s

/-- DROOP_SAG_END (R204). -/
def execDroopSagEnd (cluster : Nat) (s : State) : Result :=
  runEvent (fun s =>
    let c := s.cluster cluster
    if c.stretch then s.setCluster cluster { c with stretch := false, droopSince := s.ticks } else s) s

/-- DROOP_RECOVERY_STEP: after 10 µs without sag, one step up every 50 ticks (R204). -/
def execDroopRecoveryStep (cluster : Nat) (s : State) : Result :=
  runEvent (fun s =>
    let c := s.cluster cluster
    if !c.stretch && decide (0 < c.droopSteps) && decide (c.droopSince + 1000 ≤ s.ticks) && decide (c.fllStep + 50 ≤ s.ticks) then
      let up := { c with droopSteps := c.droopSteps - 1, fllStep := s.ticks, lock := false }
      s.setCluster cluster { up with current := if c.current < c.target - up.droopSteps then c.current + 1 else c.current }
    else s) s

/-! ## Retention (R200, R201, R418, R425) -/

/-- The entries of a table whose keys belong to a cluster. -/
def ofCluster {α : Type} (m : Map α) (p : Nat → Bool) : Map α := m.filter fun e => p e.1
/-- A table with the entries of a cluster replaced. -/
def putCluster {α : Type} (m : Map α) (p : Nat → Bool) (new : Map α) : Map α :=
  new.foldl (fun m e => Map.insert m e.1 e.2) (m.filter fun e => !p e.1)
def bankOfCluster (cl n : Nat) : Bool := inCluster cl (n / 24)
def wayOfCluster (cl n : Nat) : Bool := n / 16 == cl

/-- What SAVE records (R200). -/
def State.retentionOf (s : State) (cl : Nat) : Retention :=
  let c := s.cluster cl
  { banks := ofCluster s.bankModes (bankOfCluster cl), wgEn := c.wgEn, minWays := c.minWays, missHi := c.missHi, missLo := c.missLo,
    mxcad := c.mxcad, target := c.target, retired := s.retired, tileOwners := ofCluster s.tileOwner (inCluster cl),
    wayOwners := ofCluster s.wayOwner (wayOfCluster cl), waysOn := c.waysOn }

/-- Tile SRAM and cache ways of a cluster's tiles are emptied. -/
def State.clearTiles (s : State) (cl : Nat) : State :=
  { s with
    scratch := s.scratch.filter fun e => !bankOfCluster cl (e.1 / 65536)
    holds := s.holds.filter fun e => !bankOfCluster cl (e.1 / 16)
    badSectors := s.badSectors.filter fun b => !(decide (2 ^ 47 ≤ b) && bankOfCluster cl ((b - 2 ^ 47) / 2048))
    tileCache := s.tileCache.filter fun e => !inCluster cl (sectorTile e.1)
    slices := s.slices.filter fun e => e.1 / 2 ^ 31 != cl }

/-- Whether a unit word names a unit of a cluster: a way by the cluster, a register file, a bank, a lane or a context by the tile (R406). -/
def unitOfCluster (cl u : Nat) : Bool := if u % 16 = 2 then bits u 12 4 == cl else u % 16 != 3 && u % 16 != 5 && u % 16 != 6 && inCluster cl (bits u 12 4)

/-- What RESTORE does once it ends: every bank is zero and every cache way and every TLB of the cluster invalid, and then the saved state is set, with the
retired units of the cluster (R418). -/
def State.restoreRetention (s : State) (cl : Nat) : State :=
  let r := (s.cluster cl).retention
  let s1 := s.clearTiles cl
  { s1 with
    bankModes := putCluster s1.bankModes (bankOfCluster cl) r.banks
    tileOwner := putCluster s1.tileOwner (inCluster cl) r.tileOwners
    wayOwner := putCluster s1.wayOwner (wayOfCluster cl) r.wayOwners
    tlb := s1.tlb.filter fun e => !inCluster cl e.tile
    retired := (s1.retired.filter fun u => !unitOfCluster cl u) ++ r.retired.filter (unitOfCluster cl) }.modCluster cl fun c =>
      { c with wgEn := r.wgEn, minWays := r.minWays, missHi := r.missHi, missLo := r.missLo, waysOn := r.waysOn, mxcad := r.mxcad }.setTarget
        r.target

/-- Whether SAVE, and RESTORE, may start (R425). -/
def Cluster.mayRetain (c : Cluster) : Bool := c.state == .away && !c.busy && c.retBusy.isNone
def Cluster.save (c : Cluster) : Cluster := if c.mayRetain then { c with retBusy := some true } else { c with retRefused := true }
def Cluster.restore (c : Cluster) : Cluster :=
  if c.mayRetain && c.railcyc && c.retValid then { c with retBusy := some false } else { c with retRefused := true }

/-- RETENTION_SAVE: SAVE is written (R199, R425). -/
def execRetentionSave (cluster : Nat) (s : State) : Result := runEvent (fun s => s.modCluster cluster Cluster.save) s
/-- RETENTION_RESTORE: RESTORE is written (R199, R425). -/
def execRetentionRestore (cluster : Nat) (s : State) : Result := runEvent (fun s => s.modCluster cluster Cluster.restore) s

/-! ## Operations (R200, R202, R419) -/

/-- The handshake operation that a step of the device begins. -/
def State.startOp (s : State) (cl : Nat) (op : ClpmOp) (req : Option Nat) : State :=
  s.modCluster cl fun c => { c with op := some op, opSince := s.ticks, req := req.getD c.req }

/-- Withdraw the requests of a cluster's queues with refusal 6 (R176). -/
def State.withdrawAll (s : State) (cl : Nat) : State :=
  let ids := (s.requests.filter fun r => r.cluster == cl).map fun r => r.id
  let s1 := { s with requests := s.requests.filter fun r => r.cluster != cl }
  (s1.ops.filter fun o => match o.kind with | .lease r => ids.contains r | _ => false).foldl (fun s o => s.finishOp o (refusal 6) []) s1

/-- QUIESCE starts: leases stop and every lease on the cluster gets its notice (R176, R200). -/
def State.startQuiesce (s : State) (cl : Nat) : State :=
  let s1 := (s.startOp cl .quiesce (some 1)).withdrawAll cl
  ((List.range 16).map fun i => 16 * cl + i).foldl (fun s e => s.noticeOf e) s1

/-- The next step of the wake sequence, or its end (R200, R419). -/
def State.wakeNext (s : State) (cl : Nat) : State :=
  let c := s.cluster cl
  match c.state with
  | .railoff => (s.startOp cl .railOn none).modCluster cl fun c => { c with en := true }
  | .clkoff => (s.startOp cl .clkungate (some 4)).modCluster cl fun c => { c with current := 0, lock := false, fllStep := s.ticks }
  | .away =>
    if c.railcyc then
      if c.retValid then s.modCluster cl fun c => { c with retBusy := some false }
      else s.modCluster cl fun c => { c with waking := false, ringPending := false }.error 3
    else s.startOp cl .resume (some 5)
  | .quiesced => s.startOp cl .resume (some 5)
  | .on => s.modCluster cl fun c => { c with waking := false, ringPending := false, done := true }

/-- Begin the wake sequence, or nothing in state ON (R200). -/
def State.beginWake (s : State) (cl : Nat) : State :=
  if (s.cluster cl).state = .on then s.modCluster cl fun c => { c with ringPending := false }
  else (s.modCluster cl fun c => { c with ringPending := true, waking := true }).wakeNext cl

/-- RING (R199, R200). [DEDUCED, unsafe, log 59] -/
def State.ring (s : State) (cl source : Nat) : State :=
  let c := s.cluster cl
  if c.busy || c.retBusy.isSome then s.modCluster cl fun c => { c with ringPending := true, source := source % 4 }
  else if c.state = .on then s
  else (s.modCluster cl fun c => { c with source := source % 4 }).beginWake cl

/-- WAKE_RING (R199, R200). -/
def execWakeRing (cluster source : Nat) (s : State) : Result := runEvent (fun s => s.ring cluster source) s

/-- The end of an operation in a state: DONE, or the next step of the wake sequence, or a RING that has waited (R200, R419). -/
def State.endOp (s : State) (cl : Nat) (st : Clpm) : State :=
  let s1 := s.modCluster cl fun c => { c with op := none, state := st }
  let c := s1.cluster cl
  if c.waking then s1.wakeNext cl
  else
    let s2 := s1.modCluster cl fun c => { c with done := true }
    if c.ringPending then s2.beginWake cl else s2

/-- The failure of an operation: ERR with its code; the cluster stays in the state that it had reached (R419). -/
def State.failOp (s : State) (cl code : Nat) : State :=
  let c := s.cluster cl
  let s1 := s.modCluster cl fun c => { c with op := none, waking := false, ringPending := c.ringPending && !c.waking }.error code
  if c.ringPending && !c.waking then s1.beginWake cl else s1

/-- A write of CLPM_REQ OP (R199, R200). [DEDUCED, unsafe, log 59] -/
def State.requestOp (s : State) (cl op : Nat) : State :=
  let c := s.cluster cl
  let bad (code : Nat) : State := s.modCluster cl fun c => c.error code
  if op = 0 then s
  else if 5 < op then bad 6
  else if op = 5 ∧ c.op = some .quiesce then (s.modCluster cl fun c => { c with req := 5 }).endOp cl .on
  else if c.busy then bad 2
  else
    match op, c.state with
    | 1, .on => s.startQuiesce cl
    | 2, .quiesced => s.startOp cl .handoff (some 2)
    | 3, st => if !c.retValid then bad 3 else if st = .away then s.startOp cl .clkgate (some 3) else bad 1
    | 4, .clkoff => (s.startOp cl .clkungate (some 4)).modCluster cl fun c => { c with current := 0, lock := false, fllStep := s.ticks }
    | 5, .away => if c.railcyc then bad 1 else s.startOp cl .resume (some 5)
    | 5, .quiesced => if c.railcyc then bad 1 else s.startOp cl .resume (some 5)
    | _, _ => bad 1

/-- QUIESCE (R200). -/
def execQuiesce (cluster : Nat) (s : State) : Result := runEvent (fun s => s.requestOp cluster 1) s
/-- HANDOFF (R200, R202, R421). -/
def execHandoff (cluster : Nat) (s : State) : Result := runEvent (fun s => s.requestOp cluster 2) s
/-- CLKGATE (R200). -/
def execClkgate (cluster : Nat) (s : State) : Result := runEvent (fun s => s.requestOp cluster 3) s
/-- CLKUNGATE (R200). -/
def execClkungate (cluster : Nat) (s : State) : Result := runEvent (fun s => s.requestOp cluster 4) s
/-- CLPM_RESUME (R200). -/
def execClpmResume (cluster : Nat) (s : State) : Result := runEvent (fun s => s.requestOp cluster 5) s

/-- A write of CLPM_RAIL: a change of EN that is not allowed changes nothing (R199, R200, R419). [DESIGN CHOICE, safe, log 58] -/
def State.writeRail (s : State) (cl v : Nat) : State :=
  let c := s.cluster cl
  let en := bits v 7 7 == 1
  if en = c.en then s.modCluster cl fun c => c.setVset (bits v 6 0) s.ticks
  else if c.busy then s.modCluster cl fun c => c.error 2
  else if c.state ≠ (if en then .railoff else .clkoff) then s.modCluster cl fun c => c.error 1
  else
    ((s.modCluster cl fun c => c.setVset (bits v 6 0) s.ticks).startOp cl (if en then .railOn else .railOff) none).modCluster cl fun c =>
      { c with en := en, pgood := false }

/-- RAIL_OFF: EN := 0 (R200). -/
def execRailOff (cluster : Nat) (s : State) : Result := runEvent (fun s => s.writeRail cluster (s.cluster cluster).vset) s
/-- RAIL_ON: EN := 1 (R200). -/
def execRailOn (cluster : Nat) (s : State) : Result := runEvent (fun s => s.writeRail cluster ((s.cluster cluster).vset + 128)) s

/-- Whether nothing is left on a cluster: no instance, lease or copy (R200). -/
def State.clusterEmpty (s : State) (cl : Nat) : Bool :=
  !(s.ctxs.any fun e => inCluster cl (tileOf e.1)) && !(s.copies.any fun r => inCluster cl (tileOf r.ctx)) &&
  s.engines.all fun e => engineCluster e.1 != cl || (e.2.holder.isNone && e.2.inflight == 0 && e.2.power.isFree)

/-- Cluster-cache ways of a cluster that self-test has gated for good (R408). [DESIGN CHOICE, unsafe, log 105] -/
def State.retiredWays (s : State) (cl : Nat) : Nat := (s.wayOwner.filter fun e => wayOfCluster cl e.1 && e.2 == 65).length

/-- QUIESCE_END; a cluster that is left with fewer than four ways goes on to HANDOFF (R200, R408). [DEDUCED, unsafe, log 62] -/
def execQuiesceEnd (cluster : Nat) (s : State) : Result :=
  runEvent (fun s =>
    if (s.cluster cluster).op = some .quiesce ∧ s.clusterEmpty cluster then
      let s1 := s.endOp cluster .quiesced
      if 12 < s.retiredWays cluster then s1.requestOp cluster 2 else s1
    else s) s

/-- HANDOFF_END: dirty sectors are written back, both caches are invalid, the copies of its lines elsewhere are recalled, and the backstop holds the home
role (R200, R245). [DEDUCED, unsafe, log 62] -/
def execHandoffEnd (cluster : Nat) (s : State) : Result :=
  runEvent (fun s =>
    if (s.cluster cluster).op = some .handoff then
      ((((clusterTiles cluster).foldl (fun s t => s.flushWays t fun _ => true) s).recall cluster).modCluster cluster
        fun c => { c with homeaway := true }).endOp cluster .away
    else s) s

/-- The engines of a cluster lose their contents; their serials never move backwards (R172, R200). -/
def State.gateEngines (s : State) (cl : Nat) : State :=
  { s with engines := s.engines.map fun e => if engineCluster e.1 == cl then (e.1, { serial := e.2.serial }) else e }

/-- CLPM_OPERATION_END: the operations that end at once (CLKGATE, rail off, RESUME), and CLKUNGATE once the FLL has locked (R200, R419).
[DEDUCED, unsafe, log 62] -/
def execClpmOperationEnd (cluster : Nat) (s : State) : Result :=
  runEvent (fun s =>
    let c := s.cluster cluster
    match c.op with
    | some .clkgate => (s.modCluster cluster fun c => { c with current := 0, lock := false, droopSteps := 0, stretch := false }).endOp cluster .clkoff
    | some .railOff =>
      (((s.clearTiles cluster).gateEngines cluster).modCluster cluster fun c => { c with railcyc := true, railCode := 0 }).endOp cluster .railoff
    | some .resume =>
      (((s.recall cluster).modCluster cluster fun c => { c with homeaway := false, retValid := false }).endOp cluster .on).wakeAll
    | some .clkungate => if c.lock then s.endOp cluster .away else s
    | _ => s) s

/-- RAIL_PGOOD: the rail is good within 50 µs and EN := 1 has ended (R419). [DEDUCED, unsafe, log 62] -/
def execRailPgood (cluster : Nat) (s : State) : Result :=
  runEvent (fun s =>
    if (s.cluster cluster).op = some .railOn ∧ s.ticks < (s.cluster cluster).opSince + 5000 then
      (s.modCluster cluster fun c => { c with pgood := true, railCode := c.vset }).endOp cluster .clkoff
    else s) s

/-- RAIL_PGOOD_TIMEOUT: the rail is not good within 50 µs (R199, R419). [DEDUCED, unsafe, log 62] -/
def execRailPgoodTimeout (cluster : Nat) (s : State) : Result :=
  runEvent (fun s =>
    let c := s.cluster cluster
    if c.op = some .railOn ∧ c.opSince + 5000 ≤ s.ticks then (s.modCluster cluster fun c => { c with en := false }).failOp cluster 5 else s) s

/-- FLL_LOCK_TIMEOUT: the FLL has not locked within 100 µs (R199, R419). [DEDUCED, unsafe, log 62] -/
def execFllLockTimeout (cluster : Nat) (s : State) : Result :=
  runEvent (fun s =>
    let c := s.cluster cluster
    if c.op = some .clkungate ∧ c.lock = false ∧ c.opSince + 10000 ≤ s.ticks then s.failOp cluster 4 else s) s

/-- RETENTION_SAVE_END; a RING that has waited for it begins its sequence (R199, R200). -/
def execRetentionSaveEnd (cluster : Nat) (s : State) : Result :=
  runEvent (fun s =>
    if (s.cluster cluster).retBusy = some true then
      let s1 := s.modCluster cluster fun c => { c with retBusy := none, retValid := true, retention := s.retentionOf cluster }
      if (s1.cluster cluster).ringPending then s1.beginWake cluster else s1
    else s) s

/-- RETENTION_RESTORE_END (R418); in a wake sequence the next step follows. -/
def execRetentionRestoreEnd (cluster : Nat) (s : State) : Result :=
  runEvent (fun s =>
    if (s.cluster cluster).retBusy = some false then
      let s1 := (s.restoreRetention cluster).modCluster cluster fun c => { c with retBusy := none, railcyc := false }
      let c := s1.cluster cluster
      if c.waking then s1.wakeNext cluster else if c.ringPending then s1.beginWake cluster else s1
    else s) s

/-! ## Package registers (R198, R203) -/

/-- PMBUDGET_WRITE: values above 1,600 are taken as 1,600; a budget below the lit LU is an emergency (R186, R198). [DEDUCED, unsafe, log 24] -/
def State.writeBudget (s : State) (v : Nat) : State := ({ s with budget := Nat.min (bits v 12 0) 1600 } : State).budgetEmergency
def execPmbudgetWrite (value : BitVec 64) (s : State) : Result := runEvent (fun s => s.writeBudget value.toNat) s

/-- PMCOMMIT latches every TARGET, VSET, CAD and BUDGET (R198). -/
def State.commitPower (s : State) : State :=
  { s with
    latched := true, comBudget := s.budget
    clusters := s.clusters.map fun e => (e.1, { e.2 with comTarget := e.2.target, comVset := e.2.vset, comCad := e.2.mxcad }) }
def execPmcommit (s : State) : Result := runEvent State.commitPower s

/-- A KICK restarts the watchdog, and RUNNING is 1 at the Puppeteer's, except while a live update is verified; a BUDGET below the lit LU that comes into
force with it is an emergency (R186, R203, R416). -/
def State.kick (s : State) (puppeteer : Bool) : State :=
  ({ s with kickedAt := s.ticks, running := s.running || (puppeteer && !(s.mgmt.busy && s.mgmt.live)) } : State).budgetEmergency
/-- WATCHDOG_KICK: the Puppeteer's (R203). -/
def execWatchdogKick (s : State) : Result := runEvent (fun s => s.kick true) s

/-- A firmware context is reset to its entry (R203, R381). -/
def State.resetFirmware (s : State) (key : Nat) : State :=
  match s.ctx? key with
  | none => s
  | some c =>
    let gone := s.ops.filter fun o => o.ctx == key && o.counted
    ({ s with ops := s.ops.filter fun o => !(gone.any fun p => p.id == o.id) } : State).restartFirmware key c

/-- Every cluster takes the committed set (R203). [DESIGN CHOICE, safe, log 61] -/
def State.restoreCommitted (s : State) : State :=
  if s.latched then
    { s with
      budget := s.comBudget
      clusters := s.clusters.map fun e => (e.1, ({ (e.2.setVset e.2.comVset s.ticks) with mxcad := e.2.comCad } : Cluster).setTarget e.2.comTarget) }
  else s

/-- WATCHDOG_EXPIRY: 10 ms without a KICK (R203, R186). -/
def execWatchdogExpiry (s : State) : Result :=
  runEvent (fun s =>
    if s.running && decide (s.kickedAt + 1000000 ≤ s.ticks) then
      ((({ s with running := false, expired := true } : State).resetFirmware (firmwareOf 0)).restoreCommitted).budgetEmergency
    else s) s

/-- A code of %mxcad with a lower code taken as FUSE (R198). [DESIGN CHOICE, safe, log 7] -/
def fuseCad (cl : Nat) (v : BitVec 32) : BitVec 32 :=
  BitVec.ofNat 32 ((List.range 8).foldl (fun m n => m + Nat.max (v.toNat / 16 ^ n % 16) (Config.fuse cl).toNat * 16 ^ n) 0)

/-- MXCAD_WRITE (R198, R204). [DEDUCED, unsafe, log 24] -/
def State.writeCad (s : State) (cl v : Nat) : State := s.modCluster cl fun c => { c with mxcad := fuseCad cl (BitVec.ofNat 32 v) }
def execMxcadWrite (cluster : Nat) (value : BitVec 64) (s : State) : Result := runEvent (fun s => s.writeCad cluster value.toNat) s

/-- The cadence code of an MX: the greater of CAD and the committed CAD while RUNNING is 0, and never below FUSE (R198, R203). -/
def State.cadence (s : State) (cl n : Nat) : Nat :=
  let c := s.cluster cl
  let cad := c.mxcad.toNat / 16 ^ n % 16
  let com := c.comCad.toNat / 16 ^ n % 16
  Nat.max (if s.running then cad else Nat.max cad com) (Config.fuse cl).toNat

/-- The code in force at an MX from a row-group boundary on (R204). -/
def State.latchCadence (s : State) (cl n : Nat) : State :=
  s.modCluster cl fun c =>
    let old := c.cadence.toNat
    { c with cadence := BitVec.ofNat 32 (old - old / 16 ^ n % 16 * 16 ^ n + s.cadence cl n % 16 * 16 ^ n) }

/-- A write of %wgcfg: MINWAYS below 4 is taken as 4, and the ways kept on are powered (R198). [DEDUCED, unsafe, log 24] -/
def Cluster.writeWg (c : Cluster) (v : Nat) : Cluster :=
  let m := Nat.max (bits v 4 1) 4
  { c with wgEn := bits v 0 0 == 1, minWays := m, missHi := bits v 12 5, missLo := bits v 20 13, waysOn := Nat.max c.waysOn m }

/-- Whether the misses have been below MISSLO for 100 µs, and whether those of the last 10 µs exceed MISSHI (R198). [DESIGN CHOICE, unsafe, log 60] -/
def Cluster.quietMisses (c : Cluster) (now : Nat) : Bool := decide ((c.roll now).lowSince + 10000 ≤ now)
/-- [DESIGN CHOICE, unsafe, log 60] -/
def Cluster.manyMisses (c : Cluster) (now : Nat) : Bool := now / 1000 == c.missWin + 1 && decide (c.missHi * c.missAcc < 1024 * c.misses)

/-- WAY_GATE: after 100 µs of few misses the highest powered way goes off, its dirty sectors written back, unless it is the last powered way of its owner
(R198, R204, R369). [DESIGN CHOICE, unsafe, log 60] -/
def execWayGate (cluster : Nat) (s : State) : Result :=
  runEvent (fun s =>
    let c := s.cluster cluster
    let owner (w : Nat) : Nat := s.wayOwnerOf cluster w
    let top := c.waysOn - 1
    if c.state == .on && c.wgEn && decide (c.minWays < c.waysOn) && c.quietMisses s.ticks &&
        (owner top == 0 || (List.range top).any fun w => owner w == owner top) then
      (s.dropLines fun cl _ l => cl == cluster && l.way == top).setCluster cluster { c.roll s.ticks with waysOn := top, lowSince := s.ticks }
    else s) s

/-- WAY_REOPEN: one way goes on after 10 µs of many misses (R198). [DESIGN CHOICE, unsafe, log 60] -/
def execWayReopen (cluster : Nat) (s : State) : Result :=
  runEvent (fun s =>
    let c := s.cluster cluster
    if c.state == .on && c.wgEn && decide (c.waysOn < 16) && c.manyMisses s.ticks then
      s.setCluster cluster { c.roll s.ticks with waysOn := c.waysOn + 1 }
    else s) s

/-! ## The thermal trip (R205) -/

def State.interrupt (s : State) (i : HostIrq) : State := { s with irqs := s.irqs ++ [i] }

/-- A lease is evicted with a grace period: it gets its notice, or one that it has already is cut down to that period (R205). -/
def State.evictWithin (s : State) (e grace : Nat) : State :=
  match (s.engine e).notice with
  | some t => s.setEngine e { s.engine e with notice := some (Nat.min t (s.ticks + grace)) }
  | none => s.sendNotice e grace

/-- THERMAL_TRIP: the die's clusters go to 400 MHz, its leases are evicted with a grace of 2 µs, nothing is granted on it, and the host is
interrupted (R186, R205). -/
def execThermalTrip (die : Nat) (s : State) : Result :=
  runEvent (fun s =>
    if s.hot.getLsbD (die % 4) then s
    else
      let cls := (List.range 12).map fun i => 12 * (die % 4) + i
      let s1 := cls.foldl (fun s cl => s.modCluster cl fun c => { c with current := 0, lock := false }) { s with hot := setBit s.hot (die % 4) true }
      let es := (s1.engines.filter fun e => dieOfCluster (engineCluster e.1) == die % 4).map fun e => e.1
      (es.foldl (fun s e => s.evictWithin e 200) s1).interrupt (.thermal (die % 4))) s

/-- THERMAL_RECOVERY: the junction is below 95 °C (R205). -/
def execThermalRecovery (die : Nat) (s : State) : Result :=
  runEvent (fun s => { s with hot := setBit s.hot (die % 4) false }) s

/-! ## The registers of the block (R198, R199) -/

/-- A read of a register of a cluster. [DESIGN CHOICE, unsafe, log 133] -/
def State.readCluster (s : State) (cl reg : Nat) : Nat :=
  let c := s.cluster cl
  match reg with
  | 0x100 => c.req
  | 0x101 =>
    c.state.code + b2n c.busy * 2 ^ 3 + b2n c.done * 2 ^ 4 + b2n c.err * 2 ^ 5 + c.errcode * 2 ^ 6 + b2n c.retValid * 2 ^ 10 +
    b2n c.homeaway * 2 ^ 11 + b2n c.railcyc * 2 ^ 12 + b2n (c.stretch || decide (0 < c.droopSteps)) * 2 ^ 13 + s.clusterLu cl true % 128 * 2 ^ 14
  | 0x102 => b2n c.retValid * 4 + b2n c.retBusy.isSome * 8 + b2n c.retRefused * 16
  | 0x103 => c.vset + b2n c.en * 2 ^ 7 + b2n c.pgood * 2 ^ 8
  | 0x104 => c.target + c.current * 2 ^ 6 + b2n c.lock * 2 ^ 12 + c.droopSteps * 2 ^ 13 + b2n c.stretch * 2 ^ 16
  | 0x105 => b2n c.ringPending * 2 + c.source * 4 + b2n c.senable * 16
  | 0x200 => c.mxcad.toNat + (Config.fuse cl).toNat * 2 ^ 32
  | _ => b2n c.wgEn + c.minWays * 2 + c.missHi * 2 ^ 5 + c.missLo * 2 ^ 13 + c.waysOn * 2 ^ 21

/-- A write of a register of a cluster by firmware of a die (R199, R200, R420). [DESIGN CHOICE, safe, log 58] -/
def State.writeCluster (s : State) (cl reg v die : Nat) : State :=
  match reg with
  | 0x100 => s.requestOp cl (bits v 2 0)
  | 0x101 => s.modCluster cl fun c => { c with done := c.done && bits v 4 4 == 0, err := c.err && bits v 5 5 == 0 }
  | 0x102 =>
    s.modCluster cl fun c =>
      let c1 := if bits v 4 4 = 1 then { c with retRefused := false } else c
      match bits v 1 0 with
      | 0 => c1
      | 1 => c1.save
      | 2 => c1.restore
      | _ => { c1 with retRefused := true }
  | 0x103 => s.writeRail cl v
  | 0x104 => s.modCluster cl fun c => c.writeTarget (bits v 5 0)
  | 0x105 =>
    let s1 := s.modCluster cl fun c => { c with senable := bits v 4 4 == 1 }
    if bits v 0 0 = 1 then s1.ring cl (if die = 0 then 1 else 2) else s1
  | 0x200 => s.writeCad cl v
  | _ => s.modCluster cl fun c => c.writeWg v

end Sys2Proof.Machine
end

