-- ==== Sys2Proof/Machine/Instances.lean ====
section
/-! DEFINITION. Instances of actors: where they are placed, created and retired (R111, R113, R220, R240), how producers are paired with consumers
(R221), how a graph is drained (R230), and the Curator. -/

namespace Sys2Proof.Machine

/-! ## The graph control block (R226) -/

/-- The instances of a graph, in slots and written out. -/
def State.population (s : State) (h : Nat) : Nat := (s.instances h).length + (s.images.filter fun i => i.ctx.graph == h && h != 0).length

/-- STATE of a GCB. -/
def GraphState.code : GraphState → Nat
  | .empty => 0
  | .loaded => 1
  | .unarmed => 2
  | .armed => 3
  | .draining => 4
  | .drained => 5

/-- Word 0 of a GCB. -/
def State.graphWord (s : State) (g : Graph) : Nat :=
  g.state.code + b2n g.running.isSome * 8 + s.population g.handle % 2 ^ 16 * 16 + g.edges.length % 2 ^ 16 * 2 ^ 20

/-- Write words 0 and 1 of a GCB; its address is the handle less one. -/
def State.commitGraph (s : State) (h : Nat) : State :=
  match s.graph? h with
  | none => s
  | some g => s.dramWrite (h - 1) (leBytes 8 (s.graphWord g) ++ leBytes 8 g.asid)

/-! ## Choices -/

/-- An element of a list where the manual leaves the choice to the device: none of an empty list, else one that a free value picks.
[DESIGN CHOICE, safe, log 2] -/
def State.pick {α : Type} (s : State) (l : List α) : Option α × State :=
  match l with
  | [] => (none, s)
  | [x] => (some x, s)
  | x :: rest => let (w, s1) := s.drawWord; ((x :: rest)[w.toNat % (rest.length + 1)]?, s1)

/-! ## Room (R111, R145, R220, R240) -/


/-- A tile that a second lasting fault has removed from placement (R408). -/
def State.tileOut (s : State) (tile : Nat) : Bool := s.tilesOut.contains tile

/-- The free slots of a tile. -/
def State.freeSlots (s : State) (tile : Nat) : List Nat :=
  (List.range 32).filterMap fun n =>
    let key := mkKey tile (n / 8) (n % 8)
    if (s.ctx? key).isSome then none else some key

/-- Queue banks that the partition has marked on a tile (R240, R377). [DESIGN CHOICE, unsafe, log 50] -/
def State.markedBanks (s : State) (tile : Nat) : List Nat :=
  (List.range 24).filter fun b => (Map.get 0 s.queueBanks tile).getLsbD b

/-- Banks that an instance of an actor needs: its input queues, and the shadows of its proxy outputs. -/
def Graph.banksFor (g : Graph) (actor : Nat) : Nat :=
  g.edges.foldl (fun n d =>
    let depth := ((g.queues[d.queue]?).map (·.depth)).getD 0
    let proxy := ((g.queues[d.queue]?).map (·.proxy)).getD false
    n + (if d.cact = actor then banksOf depth else 0) + (if d.pact = actor && proxy then banksOf depth else 0)) 0

/-- Banks in use on a tile by the queues and shadows of any graph. -/
def State.usedBanks (s : State) (tile : Nat) : Nat :=
  (s.queues.filter fun q => tileOf q.consumer == tile).foldl (fun n q => n + banksOf q.depth) 0 +
  (s.shadows.filter fun x => tileOf x.producer == tile).foldl (fun n x => n + banksOf (s.edgeDepth x.graph x.edge)) 0

/-- Actors that a link queue joins to an actor (R21). -/
def Graph.linked (g : Graph) (actor : Nat) : List Nat :=
  g.edges.filterMap fun d =>
    if ((g.queues[d.queue]?).map (·.proxy)).getD false || d.pact == 255 then none
    else if d.pact = actor then some d.cact
    else if d.cact = actor then some d.pact
    else none

/-- Whether the die of a tile has an instance of every actor that link queues join to this one, as far as it has instances at all (R21).
[DESIGN CHOICE, unsafe, log 82] -/
def State.nearLinks (s : State) (g : Graph) (actor tile : Nat) : Bool :=
  (g.linked actor).all fun a =>
    let es := (s.instances g.handle).filter fun e => e.2.actor == a
    es.isEmpty || es.any fun e => dieOf e.1 == dieOfTile tile

/-- Whether a tile takes an instance of an actor. [DESIGN CHOICE, unsafe, log 82] -/
def State.hasRoom (s : State) (g : Graph) (actor tile : Nat) : Bool :=
  Map.get 0 s.tileOwner tile == g.part + 1 && s.clusterOpen (clusterOfTile tile) && !s.tileOut tile && !(s.freeSlots tile).isEmpty &&
  decide (s.usedBanks tile + g.banksFor actor ≤ (s.markedBanks tile).length)

/-- Of two tiles the one with more free slots, the lower number on ties (R220). [DESIGN CHOICE, unsafe, log 82] -/
def State.roomier (s : State) (tiles : List Nat) : Option Nat :=
  tiles.foldl (fun best t =>
    match best with
    | none => some t
    | some b => if (s.freeSlots b).length < (s.freeSlots t).length then some t else some b) none

/-- The tile of a new instance: the pinned one, or else the hinted one, or else the partition's tile with the most free slots, on a die where its
link queues have their other ends as long as one has room (R21, R220, R232). [DESIGN CHOICE, unsafe, log 82] -/
def State.chooseTile (s : State) (g : Graph) (actor : Nat) : Option Nat :=
  match Map.find? g.pins actor with
  | some t => if s.hasRoom g actor t then some t else none
  | none =>
    let open_ := (List.range 384).filter fun t => s.hasRoom g actor t
    let near := open_.filter fun t => s.nearLinks g actor t
    let anywhere := s.roomier (if near.isEmpty then open_ else near)
    match Map.find? g.hints actor with
    | some t => if s.hasRoom g actor t then some t else anywhere
    | none => anywhere

/-- Switch marked banks of a tile to FIFO mode until n are; which of them is the Curator's choice (R240, R241).
[DESIGN CHOICE, safe, log 2; DESIGN CHOICE, unsafe, log 50] -/
def State.fifoUpTo (tile n : Nat) : Nat → State → State
  | 0, s => s
  | fuel + 1, s =>
    if n ≤ s.fifoBanks tile then s
    else
      match s.pick ((s.markedBanks tile).filter fun b => s.bankMode tile b != 2) with
      | (none, s1) => s1
      | (some b, s1) => State.fifoUpTo tile n fuel (s1.switchBank tile b 2)

/-! ## Creation (R33, R111) -/

/-- The stream bindings of a new instance: every declared port at its own register. -/
def portBindings (a : ActorDesc) : Map PortBind :=
  (a.ports.zipIdx).foldl (fun m p =>
    if p.1.2.2 then Map.set .unbound m p.2 (if p.1.2.1 then .output p.2 0 else .input p.2) else m) []

/-- The queue of a new consumer instance on an edge; the first one takes the ring that a drain left (R145, R148). [DEDUCED, unsafe, log 84] -/
def Graph.newQueue (g : Graph) (e : Nat) (d : EdgeDesc) (key : Nat) : Queue :=
  let q := g.queues.getD d.queue { proxy := false, depth := 0, manual := false, spill := false, ring := 0 }
  let old := ((g.rings.find? fun r => r.edge == e).map (·.tokens)).getD []
  { graph := g.handle, edge := e, consumer := key, depth := q.depth, proxy := q.proxy, manual := q.manual, spill := q.spill, ringCap := q.ring,
    outFmt := g.outFmtOf d, inFmt := g.inFmtOf d, credits := q.depth,
    ring := old.map fun t => { t with header := setTag t.header (slotOf key) } }

/-- The edges of a graph with their numbers, where p holds. -/
def Graph.edgesWhere (g : Graph) (p : EdgeDesc → Bool) : List (Nat × EdgeDesc) := (g.edges.zipIdx.filter fun e => p e.1).map fun e => (e.2, e.1)

/-- [DESIGN CHOICE, safe, log 140] -/
def Graph.isProxy (g : Graph) (d : EdgeDesc) : Bool := ((g.queues[d.queue]?).map (·.proxy)).getD false

/-- Give an instance its input queues and the shadows of its proxy outputs. -/
def State.addPorts (s : State) (g : Graph) (actor key : Nat) : State :=
  let ins := g.edgesWhere fun d => d.cact == actor
  let s1 : State :=
    { s with
      queues := s.queues ++ ins.map fun e => g.newQueue e.1 e.2 key
      shadows := s.shadows ++ (g.edgesWhere fun d => d.pact == actor && g.isProxy d).map fun e =>
        { graph := g.handle, edge := e.1, producer := key, credits := s.edgeDepth g.handle e.1 } }
  s1.modGraph g.handle fun g => { g with rings := g.rings.filter fun r => !ins.any fun e => e.1 == r.edge }

/-- A new instance's context (R33, R111). [DESIGN CHOICE, unsafe, log 4] -/
def State.newInstance (s : State) (g : Graph) (a : ActorDesc) (actor : Nat) : Ctx :=
  { priv := .u, asid := g.asid, part := g.part, graph := g.handle, actor := actor, born := s.fresh, q := portBindings a,
    guardtab := wd a.guardAddr, modtab := Config.modtab g.asid, guards := guardMap a.guards }

/-- A tile takes part in the running launch of a graph from now on: what its dependence test acquired holds for the firings there too (R279, R283). -/
def State.joinTile (s : State) (h tile : Nat) : State :=
  match s.graph? h with
  | none => s
  | some g =>
    match g.running with
    | none => s
    | some _ =>
      let joined (l : Launch) : Launch := if l.tiles.contains tile then l else { l with tiles := l.tiles ++ [tile] }
      (s.dropClean tile fun _ => true).modGraph h fun g => { g with running := g.running.map joined }

/-- The copy of a redundant launch in which an instance on a die runs: that of the instances there; none of the three on another die (R223).
[DESIGN CHOICE, unsafe, log 90] -/
def State.copyFor (s : State) (g : Graph) (die : Nat) : Nat :=
  if ((g.running.map fun l => (l.words.getD 1 0).getLsbD 3).getD false) then
    (((s.allInstances g.handle).find? fun e => dieOf e.1 == die).map fun e => e.2.copy).getD 3
  else 0

/-- Create an instance in a slot. -/
def State.create (s : State) (h actor key : Nat) : State :=
  match s.graph? h with
  | none => s
  | some g =>
    match g.actors[actor]? with
    | none => s
    | some a =>
      let tile := tileOf key
      let s1 := State.fifoUpTo tile (s.usedBanks tile + g.banksFor actor) 24 s
      ((({ s1.setCtx key { s1.newInstance g a actor with copy := s1.copyFor g (dieOf key) } with fresh := s1.fresh + 1 } : State).renew key).addPorts g actor key).joinTile h tile

/-- Place one new instance of an actor, where some tile has room. [DESIGN CHOICE, safe, log 2; DESIGN CHOICE, unsafe, log 82] -/
def State.place (s : State) (h actor : Nat) : Option State :=
  match s.graph? h with
  | none => none
  | some g =>
    match s.chooseTile g actor with
    | none => none
    | some t =>
      match s.pick (s.freeSlots t) with
      | (some key, s1) => some (s1.create h actor key)
      | (none, _) => none

/-- Place n instances of an actor, or none. -/
def State.placeN (h actor : Nat) : Nat → State → Option State
  | 0, s => some s
  | n + 1, s => (s.place h actor).bind (State.placeN h actor n)

/-- Place the initial instances of every actor from number n on. -/
def State.placeAll (h : Nat) : List ActorDesc → Nat → State → Option State
  | [], _, s => some s
  | a :: rest, n, s => (State.placeN h n a.initial s).bind (State.placeAll h rest (n + 1))

/-! ## Pairing (R221) -/

/-- The instances of an actor in order of creation; in a redundant launch those of one copy alone (R223). -/
def State.instancesOf (s : State) (h actor : Nat) (copy : Option Nat) : List Nat :=
  (sortBy (fun a b => decide (a.2.born ≤ b.2.born))
    ((s.instances h).filter fun e => e.2.actor == actor && (match copy with | some n => e.2.copy == n | none => true))).map fun e => e.1

/-- Whether the running launch of a graph is redundant. -/
def Graph.redundant (g : Graph) : Bool := (g.running.map fun l => (l.words.getD 1 0).getLsbD 3).getD false

/-- The consumer that round robin pairs a producer with on an edge; a link queue joins two tiles of one die (R21, R221). [DESIGN CHOICE, unsafe, log 82] -/
def State.partnerOf (s : State) (g : Graph) (d : EdgeDesc) (producer : Nat) (c : Ctx) : Option Nat :=
  let copy := if g.redundant then some c.copy else none
  let near (k : Nat) : Bool := g.isProxy d || dieOf k == dieOf producer
  let ps := (s.instancesOf g.handle d.pact copy).filter near
  let cs := (s.instancesOf g.handle d.cact copy).filter near
  if cs.isEmpty then none else (indexOf (fun k => k == producer) ps 0).bind fun i => cs[i % cs.length]?

/-- Set the context tag in the template of a port. -/
def Ctx.retag (c : Ctx) (port tag : Nat) : Ctx :=
  { c with q := c.q.map fun e => match e.2 with
    | .output p t => if p = port then (e.1, .output p (setTag t tag)) else e
    | _ => e }

/-- The pairings of a graph without that of a producer on an edge. -/
def Graph.unpaired (g : Graph) (edge producer : Nat) : List (Nat × Nat × Nat) := g.pairs.filter fun p => !(p.1 == edge && p.2.1 == producer)

/-- Pair a producer on one edge and rewrite the tag of its template; without a consumer that it may be paired with it has none. What is so already stays as
it is (R21, R221). -/
def State.pairEdge (s : State) (h : Nat) (key : Nat) (e : Nat × EdgeDesc) : State :=
  match s.graph? h, s.ctx? key with
  | some g, some c =>
    match s.partnerOf g e.2 key c with
    | none => if (g.pairOf e.1 key).isNone then s else s.modGraph h fun g => { g with pairs := g.unpaired e.1 key }
    | some o =>
      if g.pairOf e.1 key = some o then s
      else (s.modGraph h fun g => { g with pairs := g.unpaired e.1 key ++ [(e.1, key, o)] }).modCtx key fun c => c.retag e.2.pq (slotOf o)
  | _, _ => s

/-- Rewrite the output templates of a producer that has no firing in flight (R221). -/
def State.rewrite (s : State) (key : Nat) : State :=
  match s.ctx? key with
  | none => s
  | some c =>
    match s.graph? c.graph with
    | none => s
    | some g => if c.inFlight then s else (g.edgesWhere fun d => d.pact == c.actor).foldl (fun s e => s.pairEdge g.handle key e) s

/-- TEMPLATE_REWRITE (R221). -/
def execTemplateRewrite (ctx : Nat) (s : State) : Result := runEvent (fun s => s.rewrite ctx) s

/-- Pair every producer of a graph that has no firing in flight. -/
def State.pairAll (s : State) (h : Nat) : State := (s.instances h).foldl (fun s e => s.rewrite e.1) s

/-! ## Retirement (R113) -/

/-- Whether an input queue holds a token: queued, in the ring, held, or on its way. -/
def Queue.holds (q : Queue) : Bool := !q.fifo.isEmpty || !q.ring.isEmpty || !q.held.isEmpty || !q.transit.isEmpty

/-- Whether an instance is idle in every respect of R113. [DESIGN CHOICE, unsafe, log 83; DEDUCED, unsafe, log 88] -/
def State.idle (s : State) (key : Nat) (c : Ctx) : Bool :=
  !c.inFlight && !c.parked && c.pending.isEmpty && c.replay.isEmpty && !(s.queues.any fun q => q.consumer == key && q.holds) &&
  c.resv.isEmpty && c.leases.isEmpty && !s.asyncBusy key && !(s.ops.any fun o => o.ctx == key)

/-- Whether an instance may be retired: it is idle, its shadows are empty, and no producer that its pairing must be taken from has a firing in
flight (R221). [DESIGN CHOICE, unsafe, log 83] -/
def State.retirable (s : State) (g : Graph) (key : Nat) (c : Ctx) : Bool :=
  s.idle key c && !(s.shadows.any fun x => x.producer == key && !x.entries.isEmpty) &&
  !(g.pairs.any fun p => p.2.2 == key && ((s.ctx? p.2.1).map Ctx.inFlight).getD false)

/-- Take an instance away: its pairings, its ownerships, its queues and its slot (R113, R221). [DESIGN CHOICE, unsafe, log 83] -/
def State.retire (s : State) (h key : Nat) : State :=
  { ((s.squash key).modGraph h fun g =>
      { g with pairs := g.pairs.filter fun p => p.2.1 != key && p.2.2 != key
               owners := g.owners.filter fun o => o.2.2 != key }) with
    ctxs := Map.erase s.ctxs key
    queues := s.queues.filter fun q => !(q.graph == h && q.consumer == key)
    shadows := s.shadows.filter fun x => !(x.graph == h && x.producer == key)
    ops := s.ops.filter fun o => o.ctx != key
    faultsWaiting := s.faultsWaiting.filter fun f => f.1 != key }

/-! ## Stopping an instance (R219, R230, R283) -/

/-- The state after an event row. -/
def State.after (s : State) (f : State → Result) : State :=
  match f s with
  | .next t => t
  | _ => s

/-- Perform the accesses of a context that are on their way, oldest first: a load whose firing has been stopped is not made, and a write that faults
or whose page a repair holds is left. -/
def State.settleAccesses (s : State) (key : Nat) : State :=
  (s.ops.filter fun o => o.ctx == key).foldl (fun s o =>
    match o.kind with
    | .load => s.dropOp o.id
    | .counterRead => s.dropOp o.id
    | .store => s.after (execPostedWriteArrival o.id)
    | .awarm => s.after (execPostedWriteArrival o.id)
    | .awcred => s.after (execArrivalWordCredit o.id)
    | .atomic => s.after (execAtomicApply o.id)
    | .counterAdd => s.after (execMonotonicCounterAdd o.id)
    | .blend => s.after (execBlendAtBank o.id)
    | .seqret => s.after (execSeqretAtBank o.id)
    | _ => s) s

/-- Bring a copy to its end, as far as it goes on without a push; a chain of records ends after a number of them. -/
def State.settleCopy (id : Nat) : Nat → State → State
  | 0, s => s
  | fuel + 1, s =>
    match s.copies.find? fun r => r.id == id with
    | none => s
    | some r =>
      let s1 := s.after (execCopyRecordCompletion id)
      if (s1.copies.find? fun x => x.id == id) == some r then s else State.settleCopy id fuel s1

/-- Perform the copies of a context (R283). [DESIGN CHOICE, unsafe, log 85] -/
def State.settleCopies (s : State) (key : Nat) : State :=
  (s.copies.filter fun r => r.ctx == key).foldl (fun s r => State.settleCopy r.id 65536 s) s

/-- Release the leases of a context and withdraw its requests. -/
def State.dropLeases (s : State) (key : Nat) : State :=
  let held := (s.engines.filter fun e => e.2.holder == some key).map fun e => e.1
  let s1 : State := { s with requests := s.requests.filter fun r => r.ctx != key }
  held.foldl (fun s e => s.releaseLease e 0) s1

/-- Stop everything that a context has under way: its accesses are performed, its copies and engine work abandoned, its leases released.
[DESIGN CHOICE, unsafe, log 85] -/
def State.stopWork (s : State) (key : Nat) : State :=
  let s1 := ((s.squash key).settleAccesses key).dropLeases key
  { s1 with
    ops := s1.ops.filter fun o => o.ctx != key
    copies := s1.copies.filter fun r => r.ctx != key
    asyncDone := s1.asyncDone.filter fun d => d.ctx != key
    repairs := s1.repairs.filter fun r => r.2.2.op.ctx != key
    faultsWaiting := s1.faultsWaiting.filter fun f => f.1 != key }

/-- Tokens that a drain discards on a queue, and those that it moves to a ring. -/
def Queue.buffered (q : Queue) : Nat := q.fifo.length + q.transit.length + (if q.spill then 0 else q.ring.length)

/-- Whether the queue of an edge is declared to spill. -/
def State.spillEdge (s : State) (h edge : Nat) : Bool :=
  (((s.graph? h).bind fun g => (g.edges[edge]?).bind fun d => g.queues[d.queue]?).map (·.spill)).getD false

/-- Tokens that a drain of the graph discards: those buffered on edges that do not spill (R230). -/
def State.discardable (s : State) (h : Nat) : Nat :=
  ((s.queues.filter fun q => q.graph == h && !q.spill).foldl (fun n q => n + q.buffered) 0) +
  (s.shadows.filter fun x => x.graph == h && !s.spillEdge h x.edge).foldl (fun n x => n + x.entries.length) 0

/-- The rings that a drain leaves: the tokens still buffered on spill edges, in order (R148, R230). [DEDUCED, unsafe, log 84] -/
def State.leftRings (s : State) (g : Graph) : List EdgeRing :=
  ((List.range g.edges.length).filterMap fun e =>
    let ts := ((s.queues.filter fun q => q.graph == g.handle && q.edge == e && q.spill).flatMap fun q => q.fifo ++ q.transit ++ q.ring) ++
      (if s.spillEdge g.handle e then
        (s.shadows.filter fun x => x.graph == g.handle && x.edge == e).flatMap fun x => x.entries.map fun t => t.token
       else [])
    if ts.isEmpty then none else some { edge := e, tokens := ts }) ++ g.rings

/-- Retire every instance of a graph, wherever it is. [DEDUCED, unsafe, log 84] -/
def State.retireAll (s : State) (h : Nat) : State :=
  let s1 := (s.instances h).foldl (fun s e => (s.stopWork e.1).retire h e.1) s
  { s1 with images := s1.images.filter fun i => i.ctx.graph != h
            queues := s1.queues.filter fun q => q.graph != h
            shadows := s1.shadows.filter fun x => x.graph != h }

/-- The drain of a graph once no launch runs: instances retired, tokens discarded or moved to their rings, DRAINED, and the count delivered to
the GDRAIN that waits (R230). -/
def State.finishDrain (s : State) (h : Nat) : State :=
  match s.graph? h with
  | none => s
  | some g =>
    let n := s.discardable h
    let rings := s.leftRings g
    let s1 := (s.retireAll h).modGraph h fun g =>
      { g with state := .drained, drainBy := none, rings := rings, pairs := [], owners := [], loads := g.loads + 1 }
    let s2 := s1.commitGraph h
    (s2.ops.filter fun o => o.kind == .gdrain h).foldl (fun s o => s.finishOp o (wd n) []) s2

/-! ## The Curator (R220) -/

/-- Tokens waiting on the input ports of the instances of an actor, in their FIFOs and rings (R160, R220). -/
def State.waiting (s : State) (g : Graph) (actor : Nat) : Nat :=
  (s.queues.filter fun q => q.graph == g.handle && ((g.edges[q.edge]?).map fun d => d.cact == actor).getD false).foldl
    (fun n q => n + q.fifo.length + q.ring.length) 0

/-- The instances of an actor, in slots and written out (R18). -/
def State.actorCount (s : State) (h actor : Nat) : Nat := ((s.allInstances h).filter fun e => e.2.actor == actor).length

/-- Whether an instance stands where its actor may not: on a cluster that is being quiesced, or off the pinned tile (R200, R232). -/
def State.misplaced (s : State) (g : Graph) (actor key : Nat) : Bool :=
  !s.clusterOpen (clusterOfTile (tileOf key)) || (match Map.find? g.pins actor with | some t => t != tileOf key | none => false)

/-- Replace an idle misplaced instance; without room elsewhere it is retired alone while the minimum is kept. [DESIGN CHOICE, unsafe, log 83] -/
def State.relocate (s : State) (h actor min key : Nat) : State :=
  match s.graph? h, s.ctx? key with
  | some g, some c =>
    if s.retirable g key c then
      match s.place h actor with
      | some s1 => s1.retire h key
      | none => if min < s.actorCount h actor then s.retire h key else s
    else s
  | _, _ => s

/-- Create up to n instances of an actor, as far as there is room. -/
def State.grow (h actor : Nat) : Nat → State → State
  | 0, s => s
  | n + 1, s =>
    match s.place h actor with
    | some s1 => State.grow h actor n s1
    | none => s

/-- Retire idle instances, newest first, down to a target. -/
def State.shrink (h actor target : Nat) : List Nat → State → State
  | [], s => s
  | key :: rest, s =>
    match s.graph? h, s.ctx? key with
    | some g, some c =>
      if target < s.actorCount h actor && s.retirable g key c then State.shrink h actor target rest (s.retire h key)
      else State.shrink h actor target rest s
    | _, _ => State.shrink h actor target rest s

/-- The Curator's work on one actor. [DESIGN CHOICE, unsafe, log 83] -/
def State.curateActor (s : State) (h actor : Nat) (a : ActorDesc) : State :=
  match s.graph? h with
  | none => s
  | some g =>
    let s1 := ((s.instancesOf h actor none).filter fun k => s.misplaced g actor k).foldl (fun s k => s.relocate h actor a.min k) s
    let target := Nat.min (Nat.max ((s1.waiting g actor + a.growth - 1) / a.growth) a.min) a.max
    let now := s1.instancesOf h actor none
    let n := s1.actorCount h actor
    if n < target then State.grow h actor (Nat.min (target - n) 8) s1
    else State.shrink h actor target now.reverse s1

/-- CURATOR_INTERVAL, once every 10 µs: every actor of every ARMED graph, then the pairings (R220, R221). -/
def execCuratorInterval (s : State) : Result :=
  runEvent (fun s =>
    if s.ticks < s.curated + 1000 then s
    else s.graphs.foldl (fun s g =>
      if g.state = .armed then
        (((g.actors.zipIdx).foldl (fun s a => s.curateActor g.handle a.2 a.1) s).pairAll g.handle).commitGraph g.handle
      else s) { s with curated := s.ticks }) s

end Sys2Proof.Machine
end

