-- ==== Sys2Proof/Machine/Launches.lean ====
section
/-! DEFINITION. Submission queues and launches (R206 to R219, R223, R224, R283, R410 to R412): notifies, mapping, fetching, the choice of a launch,
its start tokens, its end, its replay, and the copies of a redundant launch. -/

namespace Sys2Proof.Machine

/-! ## Notifies and mapping (R208 to R211) -/

/-- A host write to the NOTIFY register of a doorbell (R207, R208, R210); ignored where no live host-fed QSB names the doorbell (R371).
[DEDUCED, unsafe, log 48] -/
def State.applyNotify (s : State) (doorbell tail : Nat) : State :=
  match s.subqs.find? fun q => !q.deviceFed && q.doorbell == doorbell with
  | none => s
  | some q =>
    let t := tail % 2 ^ 32
    if q.size < (t + 2 ^ 32 - q.head) % 2 ^ 32 then
      ((s.modSubq q.addr fun x => { x with error := true }).commitSubq q.addr).interrupt (.notifyRange doorbell)
    else
      let d := (t + 2 ^ 32 - q.tail) % 2 ^ 32
      let late := q.slot.isNone || (s.part q.part).paused
      (({ s with fresh := s.fresh + 1 } : State).modSubq q.addr fun x =>
        { x with tail := if 0 < d ∧ d < 2 ^ 31 then t else x.tail
                 pending := x.pending || late
                 pendingAt := if x.pending then x.pendingAt else s.fresh }).commitSubq q.addr

/-- NOTIFY (R208). -/
def execNotify (doorbell tail : Nat) (s : State) : Result := runEvent (fun s => s.applyNotify doorbell tail) s

/-- Whether a queue waits to be mapped (R210, R211). -/
def Subq.wantsSlot (q : Subq) : Bool := q.slot.isNone && q.pending && q.tail != q.head && q.tear == 0

/-- The resident slots that are free (R209). -/
def State.freeQueueSlots (s : State) : List Nat := (List.range 256).filter fun n => !s.subqs.any fun q => q.slot == some n

/-- QUEUE_MAP: the queue whose PENDING was set first is mapped into a free slot, which PENDING clears in the same commit (R210, R211).
[DESIGN CHOICE, safe, log 2; DEDUCED, unsafe, log 48] -/
def execQueueMap (qsb : Nat) (s : State) : Result :=
  runEvent (fun s => match s.subq? qsb with
    | none => s
    | some q =>
      if q.wantsSlot && !s.subqs.any (fun x => x.wantsSlot && decide (x.pendingAt < q.pendingAt)) then
        match s.pick s.freeQueueSlots with
        | (some n, s1) =>
          (({ s1 with fresh := s1.fresh + 1 } : State).modSubq qsb fun x =>
            { x with slot := some n, pending := false, idleSince := s1.fresh }).commitSubq qsb
        | (none, _) => s
      else s) s

/-- Whether a queue may be unmapped (R211). -/
def Subq.unmappable (q : Subq) : Bool := q.slot.isSome && q.tail == q.head && q.window.isEmpty

/-- QUEUE_UNMAP: the longest idle of the empty resident queues is unmapped (R211). [DEDUCED, unsafe, log 48] -/
def execQueueUnmap (qsb : Nat) (s : State) : Result :=
  runEvent (fun s => match s.subq? qsb with
    | none => s
    | some q =>
      if q.unmappable && !s.subqs.any (fun x => x.unmappable && decide (x.idleSince < q.idleSince)) then
        (s.modSubq qsb fun x => { x with slot := none }).commitSubq qsb
      else s) s

/-! ## Memory as the scheduler uses it -/

/-- A word read at its home through an ASID. -/
def wordAs (s : State) (asid part va : Nat) : Except Trap Nat :=
  match translateAs s noTile asid part va .r with
  | .error t => .error t
  | .ok pa => if s.dramBad pa 8 then .error (badDataTrap va) else .ok (leNat (Memory.readBytes s.mem pa 8))

/-- n bytes through an ASID; none where one cannot be read. -/
def bytesAs (s : State) (asid part va n : Nat) : Option (List Byte) :=
  (List.range n).mapM fun j =>
    match translateAs s noTile asid part (va + j) .r with
    | .error _ => none
    | .ok pa => if s.dramBad pa 1 then none else some (Memory.read s.mem pa)

/-- Add to a counter at its home through an ASID; an add that would carry the counter past 2^64 - 1, or that cannot reach it, changes nothing.
[DEDUCED, unsafe, log 89] -/
def State.addAs (s : State) (asid part va n : Nat) : State :=
  if va % 8 ≠ 0 then s
  else
    match translateAs s noTile asid part va .w with
    | .error _ => s
    | .ok pa =>
      match addAtHome s va pa n with
      | .error _ => s
      | .ok (_, s1) => s1

/-! ## Launch records (R212, R213) -/

def Launch.word (l : Launch) (n : Nat) : Nat := (l.words.getD n 0).toNat
def Launch.ndep (l : Launch) : Nat := bits (l.word 1) 8 6
def Launch.redundant (l : Launch) : Bool := (l.words.getD 1 0).getLsbD 3

/-- Write the status record of a launch (R213). -/
def State.writeStatus (s : State) (l : Launch) (status cause chosen effects : Nat) : State :=
  s.writeWordsAs l.asid l.part (l.word 12) [status + cause * 2 ^ 8, chosen, effects, 0]

/-- Advance DONECTR by DONEINC (R213, R218). [DEDUCED, unsafe, log 89] -/
def State.advanceDone (s : State) (l : Launch) : State :=
  if l.word 10 = 0 then s else (s.addAs l.asid l.part (l.word 10) (l.word 11)).wakeAll

/-- The graph that a launch names, in its queue's ASID. -/
def State.graphOf (s : State) (l : Launch) : Option Graph :=
  match translateAs s noTile l.asid l.part (l.word 0) .r with
  | .error _ => none
  | .ok pa => s.graph? (pa + 1)

/-- The cause for which a record is never dispatched (R213). [DEDUCED, unsafe, log 87] -/
def State.recordCause (s : State) (l : Launch) : Option (BitVec 8) :=
  let addrs : List (Nat × Nat × Right) :=
    [(l.word 0, 256, .r), (l.word 12, 32, .w)] ++ (List.range l.ndep).map (fun j => (l.word (2 + 2 * j), 8, .r)) ++
    (if l.word 10 = 0 then [] else [(l.word 10, 8, .w)]) ++ (if l.word 14 = 0 then [] else [(l.word 14, 8, .r)])
  if bits (l.word 1) 31 9 ≠ 0 ∨ 4 < l.ndep ∨ l.word 15 / 256 ≠ 0 ∨ 64 < l.word 15 % 256 then some cIllegalEncoding
  else if ((s.graphOf l).map fun g => g.asid != l.asid).getD false then some cProtection
  else if addrs.any fun a => a.1 % a.2.1 != 0 then some cAlignment
  else addrs.findSome? fun a => match translateAs s noTile l.asid l.part a.1 a.2.2 with | .error t => some t.cause | .ok _ => none

/-- RECORD_FETCH: the record at HEAD enters the window, or ends at once when it may never be dispatched (R213, R214).
[DESIGN CHOICE, unsafe, log 86; DEDUCED, unsafe, log 87] -/
def execRecordFetch (qsb : Nat) (s : State) : Result :=
  runEvent (fun s => match s.subq? qsb with
    | none => s
    | some q =>
      if q.slot.isSome && q.tear == 0 && decide (q.window.length < 16) && q.head != q.tail then
        let rec_ : Option (List Word) :=
          (List.range 16).mapM fun j =>
            match wordAs s q.asid q.part (q.base + 128 * (q.head % q.size) + 8 * j) with
            | .ok w => some (wd w)
            | .error _ => none
        let advance (s : State) : State :=
          ((({ s with fresh := s.fresh + 1 } : State).modSubq qsb fun x =>
            { x with head := (x.head + 1) % 2 ^ 32, idleSince := s.fresh, withdrawn := x.withdrawn.filter fun n => n != q.head }).commitSubq
            qsb).wakeAll
        match rec_ with
        | none => advance s
        | some ws =>
          let l : Launch :=
            { words := ws, qsb := qsb, index := q.head, part := q.part, asid := q.asid
              prio := Nat.min (bits (ws.getD 1 0).toNat 2 0) q.maxprio, order := s.fresh }
          if q.withdrawn.contains q.head then advance s
          else
            match s.recordCause l with
            | some cause => ((advance s).writeStatus l 2 cause.toNat 0 0).advanceDone l
            | none =>
              advance ({ s.modSubq qsb fun x => { x with window := x.window ++ [l] } with fresh := s.fresh + 1 } : State)
      else s) s

/-! ## Choosing a launch (R215, R216) -/

/-- Whether the dependences of a launch have reached their thresholds. [DESIGN CHOICE, unsafe, log 86] -/
def State.depsMet (s : State) (l : Launch) : Bool :=
  (List.range l.ndep).all fun j =>
    match wordAs s l.asid l.part (l.word (2 + 2 * j)) with
    | .ok v => decide (l.word (3 + 2 * j) ≤ v)
    | .error _ => false

/-- The dies on which every actor of a graph has an instance, in ascending order: a redundant launch runs one copy on each (R223).
[DESIGN CHOICE, unsafe, log 90] -/
def State.copyDies (s : State) (g : Graph) : List Nat :=
  (List.range 4).filter fun d => (List.range g.actors.length).all fun a => (s.instances g.handle).any fun e => e.2.actor == a && dieOf e.1 == d

/-- Whether a launch is dispatchable (R215). [DESIGN CHOICE, unsafe, log 91] -/
def State.dispatchable (s : State) (l : Launch) : Bool :=
  match s.graphOf l with
  | none => false
  | some g =>
    g.asid == l.asid && g.state == .armed && g.running.isNone && s.depsMet l && !(s.part l.part).paused &&
    (!l.redundant || decide (2 ≤ (s.copyDies g).length))

/-- The launches that may be dispatched. -/
def State.dispatchables (s : State) : List Launch := (s.subqs.flatMap fun q => q.window).filter s.dispatchable

def listMax (l : List Nat) : Nat := l.foldl Nat.max 0

/-- The partition whose turn it is among those with candidates, and what it has served in this round (R216). -/
def State.turn (s : State) (parts : List Nat) : Nat × Nat :=
  let weight := Nat.max 1 ((s.part s.rrPart).weight)
  if parts.contains s.rrPart && decide (s.rrServed < weight) then (s.rrPart, s.rrServed)
  else
    match (List.range 64).find? fun p => decide (s.rrPart < p) && parts.contains p with
    | some p => (p, 0)
    | none => (((List.range 64).find? fun p => parts.contains p).getD 0, 0)

/-- The launch that is dispatched next, with the round robin that it leaves. -/
def State.chosen (s : State) : Option (Launch × Nat × Nat) :=
  let all := s.dispatchables
  let top := all.filter fun l => l.prio == listMax (all.map fun l => l.prio)
  let (p, served) := s.turn (top.map fun l => l.part)
  match sortBy (fun a b => decide (a.order ≤ b.order)) (top.filter fun l => l.part == p) with
  | [] => none
  | l :: _ => some (l, p, served + 1)

/-! ## Dispatch (R217, R223, R279) -/

/-- The start token of a launch for an instance (R217). -/
def startToken (l : Launch) (key copy : Nat) : Token :=
  { header := setTag (wd (7 * 2 ^ 40 + 4 * 2 ^ 35 + l.word 1 / 2 ^ 32 * 4 + copy)) (slotOf key), slots := 4
    words := (List.range 4).map fun j =>
      { data := BitVec.ofNat 256 (packCodes 64 ((List.range 4).map fun i => l.word (4 * j + i))) } }

/-- Push the start token to the instances that receive the start edge, where p holds of the instance's copy. -/
def State.startInstances (s : State) (g : Graph) (l : Launch) (p : Nat → Bool) : State :=
  (g.edgesWhere fun d => d.pact == 255).foldl (fun s e =>
    ((s.allInstances g.handle).filter fun i => i.2.actor == e.2.cact && p i.2.copy).foldl (fun s i =>
      s.modQueue g.handle e.1 i.1 fun q =>
        { q with credits := q.credits + q.returning - 4, returning := 0, transit := q.transit ++ [startToken l i.1 i.2.copy] }) s) s

/-- The copy that each instance of a graph runs in: its die's place among the dies of a redundant launch. [DESIGN CHOICE, unsafe, log 90] -/
def State.assignCopies (s : State) (g : Graph) (redundant : Bool) : State :=
  let dies := s.copyDies g
  (s.allInstances g.handle).foldl (fun s e =>
    s.modOwner e.1 fun c => { c with copy := if redundant then (indexOf (fun d => d == dieOf e.1) dies 0).getD 3 else 0 }) s

/-- Dispatch a launch on its graph: the running mark, STATUS 0 and the start tokens. The firings acquire at scope system (R279). -/
def State.startLaunch (s : State) (g : Graph) (l : Launch) : State :=
  let tiles := ((s.instances g.handle).map fun e => tileOf e.1).eraseDups
  let s1 := (s.assignCopies g l.redundant).modGraph g.handle fun g => { g with running := some { l with tiles := tiles } }
  let s2 := if l.redundant then s1.pairAll g.handle else s1
  let s3 := tiles.foldl (fun s t => s.dropClean t fun _ => true) s2
  ((s3.startInstances g l fun c => decide (c < 2)).commitGraph g.handle).progress g.handle

/-- The effect on a running launch of the dispatch of a record: a record that it appended is now a push that cannot be taken back (R411). -/
def Launch.countPush (r : Launch) (qsb index : Nat) : Launch :=
  if r.spawned.contains (qsb, index) then
    { r with pushes := satCount r.pushes, spawned := r.spawned.filter fun x => x != (qsb, index) }
  else r
def State.countPushes (s : State) (l : Launch) : State :=
  { s with graphs := s.graphs.map fun g => { g with running := g.running.map fun r => r.countPush l.qsb l.index } }

/-- LAUNCH_DISPATCH (R215 to R217). -/
def execLaunchDispatch (s : State) : Result :=
  runEvent (fun s => match s.chosen with
    | none => s
    | some (l, p, served) =>
      match s.graphOf l with
      | none => s
      | some g =>
        let s1 := (({ s with rrPart := p, rrServed := served, fresh := s.fresh + 1 } : State).modSubq l.qsb fun q =>
          { q with window := q.window.filter fun x => x.order != l.order, idleSince := s.fresh }).countPushes l
        ((s1.writeWordsAs l.asid l.part (l.word 12) [0]).startLaunch g { l with loadedAt := g.loads })) s

/-! ## The end of a launch (R218, R219, R283) -/

/-- The tiles on which the running launch of a graph has run. -/
def State.launchTiles (s : State) (h : Nat) : List Nat :=
  ((((s.graph? h).bind fun g => g.running).map fun l => l.tiles).getD [] ++ (s.instances h).map fun e => tileOf e.1).eraseDups

/-- What the device does before it writes the status record: the accesses and copies of the launch are performed, those of instances that are written out
too, and the ways of every tile on which it ran are written back and invalidated (R283). [DESIGN CHOICE, unsafe, log 85] -/
def State.settleLaunch (s : State) (h : Nat) : State :=
  let keys := (s.allInstances h).map fun e => e.1
  let s1 := keys.foldl (fun s k => (s.settleAccesses k).settleCopies k) s
  (s.launchTiles h).foldl (fun s t => s.flushWays t fun _ => true) s1

/-- Whether an access is a write that has left its strand: it takes effect whatever becomes of its context (R275). -/
def Op.posted (o : Op) : Bool := o.isAccess && o.kind != .load && o.kind != .counterRead

/-- Whether the end of a launch waits: a write of an instance cannot be performed yet, as a repair holds it or its page, a BLEND has no slot, or a unit is
under test (R250, R258, R283, R407). [DESIGN CHOICE, unsafe, log 85] -/
def State.unsettled (s : State) (h : Nat) : Bool :=
  let s1 := s.settleLaunch h
  (s1.allInstances h).any fun e =>
    s1.repairs.any (fun r => r.2.2.op.ctx == e.1) || s1.ops.any (fun o => o.ctx == e.1 && o.posted) ||
    (s1.storageBusy && s1.copies.any fun r => r.ctx == e.1)

/-- Clear the running mark. -/
def State.clearRunning (s : State) (h : Nat) : State :=
  match s.graph? h with
  | none => s
  | some g =>
    let s1 := s.modGraph h fun g => { g with running := none }
    let s2 := if g.redundant then (s1.assignCopies g false).pairAll h else s1
    s2.commitGraph h

/-- The running launch of a graph as it stands, which is `l` where there is none. -/
def State.launchNow (s : State) (h : Nat) (l : Launch) : Launch := ((s.graph? h).bind fun g => g.running).getD l

/-- A launch ends with a status (R213, R218); DONECTR is advanced unless it ends REPLAY_UNSAFE (R410). The counts are those after its last accesses have
been performed (R283, R411). -/
def State.endWith (s : State) (h : Nat) (l0 : Launch) (status cause chosen : Nat) : State :=
  let s0 := s.settleLaunch h
  let l := s0.launchNow h l0
  let effects := if status = 4 then l.atomics + l.adds * 2 ^ 16 + l.pushes * 2 ^ 32 + l.stores * 2 ^ 48 else 0
  let s1 := s0.writeStatus l status cause chosen effects
  let s2 := if status = 4 then s1.interrupt (.replayUnsafe h) else s1.advanceDone l
  s2.clearRunning h

/-- An instance as newly created, in its slot or its image, its queues empty. [DESIGN CHOICE, unsafe, log 85] -/
def State.remake (s : State) (g : Graph) (key : Nat) : State :=
  match s.owner? key with
  | none => s
  | some c =>
    match g.actors[c.actor]? with
    | none => s
    | some a =>
      let s0 := s.stopWork key
      let s1 : State := { s0 with images := s0.images.map fun i => if i.key = key then { i with leases := [] } else i }
      let new : Ctx := { s1.newInstance g a c.actor with born := c.born }
      let s2 := ({ (s1.modOwner key fun _ => new) with fresh := s1.fresh + 1 } : State).renew key
      { s2 with
        queues := s2.queues.map fun q =>
          if q.graph = g.handle ∧ q.consumer = key then
            { q with credits := q.depth, transit := [], fifo := [], taken := 0, held := [], ring := [], returning := 0, producer := none }
          else q
        shadows := s2.shadows.map fun x =>
          if x.graph = g.handle ∧ x.producer = key then { x with credits := s2.edgeDepth g.handle x.edge, entries := [] } else x }

/-- Stop the instances of a launch that has ended before its time: nothing more is dispatched for it, and its tokens are gone (R219).
[DESIGN CHOICE, unsafe, log 85] -/
def State.stopLaunch (s : State) (h : Nat) : State :=
  match s.graph? h with
  | none => s
  | some g => (((s.allInstances h).foldl (fun s e => s.remake g e.1) s).pairAll h).commitGraph h

/-- The oldest cause among the faulted contexts of a graph that are parked (R410). -/
def State.oldestFault (s : State) (h : Nat) : Option (BitVec 8) :=
  let fs := (s.allInstances h).filterMap fun e => if e.2.parked then e.2.frames.find? (fun f => f.cause != 0) else none
  match sortBy (fun a b => decide (a.since ≤ b.since)) fs with
  | [] => none
  | f :: _ => some f.cause

/-- Abort the running launch of a graph at the limit of its drain (R219, R230, R410). [DESIGN CHOICE, unsafe, log 85] -/
def State.abortLaunch (s : State) (h : Nat) : State :=
  match (s.graph? h).bind fun g => g.running with
  | none => s
  | some l =>
    match s.oldestFault h with
    | some cause => s.endWith h l 2 cause.toNat 0
    | none => s.endWith h l 3 0 0

/-! ## Redundant launches (R223, R224) -/

/-- One bit of CRC-64 with the ECMA-182 polynomial, the most significant bit first. -/
def crcBit (crc : Word) (b : Bool) : Word :=
  let x := crc <<< 1
  if crc.getLsbD 63 != b then x ^^^ 0x42F0E1EBA9EA3693 else x
def crcByte (crc : Word) (b : Byte) : Word := [7, 6, 5, 4, 3, 2, 1, 0].foldl (fun c n => crcBit c (b.getLsbD n)) crc
/-- CRC-64 with initial value and final XOR all ones. [DESIGN CHOICE, unsafe, log 90] -/
def crc64 (bs : List Byte) : Word := (bs.foldl crcByte (BitVec.allOnes 64)) ^^^ BitVec.allOnes 64

/-- The withheld adds of a copy, sorted by address and then by addend. -/
def Launch.addsOf (l : Launch) (copy : Nat) : List (Nat × Word × Word) :=
  sortBy (fun a b => decide (a.2.1.toNat < b.2.1.toNat) || (a.2.1 == b.2.1 && decide (a.2.2.toNat ≤ b.2.2.toNat)))
    (l.withheld.filter fun a => a.1 == copy)

/-- The signature of a copy (R224); none where a region cannot be read, or holds uncorrectable data (R31). [DESIGN CHOICE, unsafe, log 90] -/
def State.signature (s : State) (l : Launch) (copy : Nat) : Option Word :=
  let table := l.word 14
  let n := if table = 0 then 0 else l.word 15 % 256
  let region (j : Nat) : Option (List Byte) :=
    match wordAs s l.asid l.part (table + 32 * j), wordAs s l.asid l.part (table + 32 * j + 8 + 8 * copy) with
    | .ok len, .ok base => bytesAs s l.asid l.part base len
    | _, _ => none
  ((List.range n).mapM region).map fun rs =>
    crc64 (rs.flatten ++ (l.addsOf copy).flatMap fun a => leBytes 8 a.2.1.toNat ++ leBytes 8 a.2.2.toNat)

/-- Whether two copies have signatures, and the same (R224). [DESIGN CHOICE, unsafe, log 90] -/
def agree (a b : Option Word) : Bool := a.isSome && a == b

/-- End a redundant launch with a copy's adds applied and CHOSEN at its bases. [DESIGN CHOICE, safe, log 2; DESIGN CHOICE, unsafe, log 90] -/
def State.choose (s : State) (h : Nat) (l : Launch) (copy : Nat) : State :=
  let s1 := (l.addsOf copy).foldl (fun s a => s.addAs l.asid l.part a.2.1.toNat a.2.2.toNat) s
  s1.endWith h l 1 0 (if l.word 14 = 0 then 0 else l.word 14 + 8 + 8 * copy)

/-- The comparison of the copies of a redundant launch, all of which are idle (R224). [DESIGN CHOICE, unsafe, log 90] -/
def State.judgeCopies (s0 : State) (g : Graph) (l : Launch) : State :=
  let s := s0.settleLaunch g.handle
  let sig := s.signature l
  if !l.third then
    if agree (sig 0) (sig 1) then s.choose g.handle l 0
    else if 3 ≤ (s.copyDies g).length then
      let s1 := s.modGraph g.handle fun g => { g with running := some { l with third := true } }
      s1.startInstances g l fun c => c == 2
    else s.endWith g.handle l 5 0 0
  else if agree (sig 2) (sig 0) || agree (sig 2) (sig 1) then
    let other := if agree (sig 2) (sig 0) then 0 else 1
    let (b, s1) := s.drawChoice
    s1.choose g.handle l (if b then other else 2)
  else s.endWith g.handle l 5 0 0

/-! ## Replay (R410 to R412) -/

/-- Withdraw the records that a launch appended and that have not been dispatched (R411). -/
def State.withdraw (s : State) (l : Launch) : State :=
  l.spawned.foldl (fun s r => s.modSubq r.1 fun q =>
    if q.window.any fun w => w.index == r.2 then { q with window := q.window.filter fun w => w.index != r.2 }
    else { q with withdrawn := q.withdrawn ++ [r.2] }) s

/-- Replay a launch: drain its graph, rings and all, place its instances again and dispatch the same record; while there is no room it waits
(R412). An effect that was on its way at the fault and has been applied since makes the replay unsafe (R410, R411). [DEDUCED, unsafe, log 30] -/
def State.replayLaunch (s0 : State) (g : Graph) (l0 : Launch) : State :=
  let s := s0.settleLaunch g.handle
  let l := s.launchNow g.handle l0
  if g.state ≠ .armed ∨ g.loads ≠ l.loadedAt then (s.endWith g.handle l 2 cReplayMismatch.toNat 0)
  else if l.irrevocable && !l.idempotent then (s.endWith g.handle l 4 0 0).stopLaunch g.handle
  else
    let s1 := (s.withdraw l).retireAll g.handle
    let s2 := s1.modGraph g.handle fun g => { g with rings := [], pairs := [], owners := [] }
    let l' := { l with replays := l.replays + 1, replayDue := false, spawned := [], withheld := [], third := false }
    match State.placeAll g.handle g.actors 0 s2 with
    | none => s2.commitGraph g.handle
    | some s3 => (s3.pairAll g.handle).startLaunch g l'

/-! ## LAUNCH_END -/

/-- Whether every instance of a graph is idle, one that is written out too, with no guard that its next evaluation would accept, and every queue empty,
with no proxy entry in flight and no credit on its way back (R113, R119, R218, R236). [DEDUCED, unsafe, log 88] -/
def State.quiet (s : State) (h : Nat) : Bool :=
  (s.allInstances h).all (fun e => s.idle e.1 e.2 && (selectedEntry s e.1 e.2).isNone) &&
  !(s.images.any fun i => i.ctx.graph == h && h != 0 && !i.leases.isEmpty) &&
  !(s.queues.any fun q => q.graph == h && (q.holds || q.returning != 0)) && !(s.shadows.any fun x => x.graph == h && !x.entries.isEmpty)

/-- Complete a drain whose launch has ended (R230). -/
def State.drainAfter (s : State) (h : Nat) : State :=
  match s.graph? h with
  | none => s
  | some g => if g.state = .draining ∧ g.running = none then s.finishDrain h else s

/-- The launch of a graph is aborted by the teardown of its queue: its contexts dispatch nothing more, and it ends when the firings that run have come to
their next dispatch boundary, which is their end (R219). [DESIGN CHOICE, unsafe, log 85] -/
def State.beginAbort (s : State) (h : Nat) : State :=
  let s1 := s.modGraph h fun g => { g with running := g.running.map fun l => { l with aborted := true } }
  (s1.allInstances h).foldl (fun s e => (s.squash e.1).modOwner e.1 fun c => { c with aborted := true }) s1

/-- Whether a firing of a graph still runs in a slot. -/
def State.firingRuns (s : State) (h : Nat) : Bool := (s.instances h).any fun e => e.2.firing.isSome

/-- The end of a launch, for the reason that holds (R218, R219, R224, R283, R410). [DEDUCED, unsafe, log 30] -/
def State.tryEnd (s : State) (g : Graph) (l : Launch) : State :=
  if s.unsettled g.handle then s
  else if l.replayDue then s.replayLaunch g l
  else if l.aborted then (if s.firingRuns g.handle then s else (s.endWith g.handle l 3 0 0).stopLaunch g.handle)
  else if l.unsafeEnd then (s.endWith g.handle l 4 0 0).stopLaunch g.handle
  else
    match l.failed with
    | some cause => (s.endWith g.handle l 2 cause.toNat 0).stopLaunch g.handle
    | none =>
      if s.quiet g.handle then
        (if l.redundant then s.judgeCopies g l else s.endWith g.handle l 1 0 0)
      else s

/-- LAUNCH_END (R218). [DEDUCED, unsafe, log 88] -/
def execLaunchEnd (graph : Nat) (s : State) : Result :=
  runEvent (fun s => match s.graph? graph with
    | none => s
    | some g =>
      match g.running with
      | none => s
      | some l => (s.tryEnd g l).drainAfter graph) s

/-- GRAPH_DRAIN_LIMIT_EXPIRY: the launch is aborted and the drain completes (R230). -/
def execGraphDrainLimitExpiry (graph : Nat) (s : State) : Result :=
  runEvent (fun s => match s.graph? graph with
    | none => s
    | some g =>
      match g.drainBy with
      | none => s
      | some t =>
        if g.state = .draining ∧ t ≤ s.ticks ∧ !(s.part g.part).paused ∧ !s.unsettled graph then (s.abortLaunch graph).finishDrain graph else s) s

end Sys2Proof.Machine
end

