-- ==== Sys2Proof/Machine/Graphs.lean ====
section
/-! DEFINITION. The graph group at MAJ 0x70 (R225 to R233): SPAWN, GLOAD, GARM, GDRAIN, GSTART, PLACE and LSTAT. -/

namespace Sys2Proof.Machine

/-- Wait until the accesses of the issuing context that are on their way have been performed. [DEDUCED, unsafe, log 15] -/
def drainAccesses : M Unit := do
  let key ← curKey
  if (← get).accessing key then stall .memory

/-- An instruction whose D is a long-latency producer: its result or its fault is delivered later (R39, R225, R374). The first component of the
body's value is the state that it leaves. -/
def deliverLater (d : Nat) (r : State × Except Trap Word) : M Unit := do
  set r.1
  match r.2 with
  | .ok x => issueValue d x
  | .error t => issueFault t [d] []

/-- QUEUE_STATE of a graph in the wrong state; no stream register is concerned (R154, R227). [DEDUCED, unsafe, log 80] -/
def wrongState : Trap := queueTrap 0 15

/-- A graph handle as its issuer names it: misaligned ALIGNMENT, else its physical address (R226). [DEDUCED, unsafe, log 80] -/
def handlePa (s : State) (key : Nat) (c : Ctx) (h : Word) : Except Trap Nat :=
  if h.toNat % 256 ≠ 0 then .error { cause := cAlignment, info := h, addr := h }
  else translateFor s key c h.toNat .w

/-- The graph at a handle, which must be of the issuer's partition: one of another raises PROTECTION (R230, R389, R395). Firmware belongs to none: it names
any, as with SWAP. [DEDUCED, unsafe, log 80] -/
def graphAt (s : State) (key : Nat) (c : Ctx) (h : Word) : Except Trap (Nat × Option Graph) :=
  match handlePa s key c h with
  | .error t => .error t
  | .ok pa =>
    match s.graph? (pa + 1) with
    | none => .ok (pa, none)
    | some g => if c.priv = .f ∨ g.part = c.part then .ok (pa, some g) else .error { cause := cProtection, info := h, addr := h }

/-- The graph at a handle for an instruction of the graph group, which firmware does not issue on the graph of a partition (R230).
[DEDUCED, unsafe, log 80] -/
def ownGraph (s : State) (key : Nat) (c : Ctx) (h : Word) : Except Trap (Nat × Option Graph) :=
  match graphAt s key c h with
  | .error t => .error t
  | .ok r => if c.priv = .f then .error { cause := cProtection, info := h, addr := h } else .ok r

/-! ## SPAWN (R231) -/

/-- The submission queue that SPAWN names. -/
def spawnQueue (s : State) (key : Nat) (c : Ctx) (a : Word) : Except Trap Subq :=
  match translateFor s key c a.toNat .r with
  | .error t => .error t
  | .ok pa =>
    match s.subq? pa with
    | none => .error { cause := cProtection, info := a, addr := a }
    | some q =>
      if q.asid ≠ c.asid then .error { cause := cProtection, info := a, addr := a }
      else if !q.deviceFed then .error (queueTrap 0 14)
      else .ok q

/-- SPAWN of a record to a queue with room: the claimed index. -/
def spawnRecord (s : State) (key : Nat) (c : Ctx) (a : Nat) (q : Subq) : State × Except Trap Word :=
  match loadWords s key c a 16 with
  | .error t => (s, .error t)
  | .ok (ws, s1) =>
    match (s1.noteSpawn key q).appendRecord q (ws.flatMap fun w => leBytes 8 w) with
    | .error t => (s, .error t)
    | .ok s2 => (s2, .ok (wd q.tail))

/-- SPAWN (R231). -/
def execSpawn (f : SForm) (s : State) : Result :=
  runInstr (.spawn f) (sAsk f [sA f, sB .g f] [gDst f.d.toNat]) (do
    let a ← opG .a
    let b ← opG .b
    let key ← curKey
    let c ← curCtx
    drainAccesses
    let s ← get
    if a.toNat % 128 ≠ 0 ∨ b.toNat % 128 ≠ 0 then
      deliverLater f.d.toNat (s, .error { cause := cAlignment, info := if a.toNat % 128 ≠ 0 then a else b })
    else if s.redundant key then deliverLater f.d.toNat (s, .error { cause := cProtection, free := true })
    else
      match spawnQueue s key c b with
      | .error t => deliverLater f.d.toNat (s, .error t)
      | .ok q =>
        if q.size ≤ q.queued then stall .memory
        let s1 := if f.ord = 2 then s.releaseWays key f.sc.toNat else s
        deliverLater f.d.toNat (spawnRecord s1 key c a.toNat q)) s

/-! ## GLOAD (R227, R228) -/

/-- GLOAD of an image to a graph. The state is left UNARMED where an edge does not agree. -/
def loadGraph (s0 : State) (key : Nat) (c : Ctx) (image handle : Word) : State × Except Trap Word :=
  let s := s0.writeBack (tileOf key) fun _ => true
  if image.toNat % 64 ≠ 0 then (s0, .error { cause := cAlignment, info := image, addr := image })
  else
    match ownGraph s key c handle with
    | .error t => (s0, .error t)
    | .ok (pa, old) =>
      let g := old.getD { handle := pa + 1, va := handle.toNat, asid := c.asid, part := c.part }
      if g.state ≠ .empty ∧ g.state ≠ .unarmed ∧ g.state ≠ .drained then (s0, .error wrongState)
      else
        match readDescriptor s key c image.toNat with
        | .error t => (s0, .error t)
        | .ok verdict =>
          let put (g : Graph) : State :=
            ({ s with graphs := (s.graphs.filter fun x => x.handle != pa + 1) ++ [g] } : State).commitGraph (pa + 1)
          match verdict with
          | .error u =>
            let (w, s1) := (put { g with state := .unarmed, edges := [] }).drawWord
            match u.edge with
            | some e => (s1, .error { cause := cGraphUnarmed, info := wd (e + u.why * 2 ^ 16) })
            | none => (s1, .error { cause := cGraphUnarmed, info := wd (w.toNat % 2 ^ 16 + u.why * 2 ^ 16) })
          | .ok d =>
            (put { g with state := .loaded, va := handle.toNat, asid := c.asid, thresh := d.thresh, actors := d.actors, queues := d.queues, edges := d.edges,
                          rings := [], pins := [], hints := [], owners := [], pairs := [], timer := 0, fired := false, loads := g.loads + 1 },
              .ok (wd d.edges.length))

/-- GLOAD (R227). -/
def execGload (f : SForm) (s : State) : Result :=
  runInstr (.gload f) { sAsk f [sA f, sB .g f] [gDst f.d.toNat] with priv := .s } (do
    let a ← opG .a
    let b ← opG .b
    let key ← curKey
    let c ← curCtx
    drainAccesses
    deliverLater f.d.toNat (loadGraph (← get) key c a b)) s

/-! ## GARM and GSTART (R229) -/

/-- Place the instances of a graph that must be in state `from_`, and arm it with a report buffer. -/
def armGraph (s : State) (key : Nat) (c : Ctx) (handle report : Word) (from_ : GraphState) : State × Except Trap Word :=
  match ownGraph s key c handle with
  | .error t => (s, .error t)
  | .ok (_, none) => (s, .error wrongState)
  | .ok (_, some g) =>
    if g.state ≠ from_ then (s, .error wrongState)
    else if report.toNat % 4096 ≠ 0 then (s, .error { cause := cAlignment, info := report, addr := report })
    else
      match (if report = 0 then .ok 0 else translateAs s (tileOf key) g.asid g.part report.toNat .w) with
      | .error t => (s, .error t)
      | .ok _ =>
        match State.placeAll g.handle g.actors 0 s with
        | none => (s, .ok 0)
        | some s1 =>
          let s2 := (s1.modGraph g.handle fun g => { g with state := .armed, report := report.toNat }).pairAll g.handle
          ((s2.commitGraph g.handle).progress g.handle, .ok (wd (s2.population g.handle)))

/-- GARM: from LOADED (R229). -/
def execGarm (f : SForm) (s : State) : Result :=
  runInstr (.garm f) { sAsk f [sA f, sB .g f] [gDst f.d.toNat] with priv := .s } (do
    let a ← opG .a
    let b ← opG .b
    let c ← curCtx
    deliverLater f.d.toNat (armGraph (← get) (← curKey) c a b .loaded)) s

/-- GSTART: from DRAINED (R229). -/
def execGstart (f : SForm) (s : State) : Result :=
  runInstr (.gstart f) { sAsk f [sA f, sB .g f] [gDst f.d.toNat] with priv := .s } (do
    let a ← opG .a
    let b ← opG .b
    let c ← curCtx
    deliverLater f.d.toNat (armGraph (← get) (← curKey) c a b .drained)) s

/-! ## GDRAIN (R219, R230) -/

/-- GDRAIN .graph: DRAINING at once; gD waits for the running launch, if there is one (R230). On a graph that is draining, as when RESUME issues the
instruction again, it waits for that drain. [DEDUCED, unsafe, log 80] -/
def execGdrainGraph (f : SForm) (s : State) : Result :=
  runInstr (.gdrainGraph f) { sAsk f [sA f, sB .g f] [gDst f.d.toNat] with priv := .s } (do
    let a ← opG .a
    let limit ← opG .b
    let c ← curCtx
    let s ← get
    match ownGraph s (← curKey) c a with
    | .error t => deliverLater f.d.toNat (s, .error t)
    | .ok (_, none) => deliverLater f.d.toNat (s, .error wrongState)
    | .ok (_, some g) =>
      if g.state = .draining then
        let _ ← issueOp (.gdrain g.handle) [f.d.toNat] [] 0 0 0
      else if g.state ≠ .armed then deliverLater f.d.toNat (s, .error wrongState)
      else
        modify fun s => (s.modGraph g.handle fun g => { g with state := .draining, drainBy := some (s.ticks + limit.toNat) }).commitGraph g.handle
        let _ ← issueOp (.gdrain g.handle) [f.d.toNat] [] 0 0 0
        modify fun s => s.drainAfter g.handle) s

/-- Tear down a submission queue: no more fetching, its queued records discarded, unmapped, HEAD = TAIL (R219). [DESIGN CHOICE, unsafe, log 86] -/
def State.tearDown (s : State) (q : Subq) (mode : Nat) : State :=
  (s.modSubq q.addr fun x =>
    { x with tear := mode, window := [], withdrawn := [], head := x.tail, slot := none, pending := false }).commitSubq q.addr

/-- The graphs whose running launch came from a queue. -/
def State.launchedFrom (s : State) (qsb : Nat) : List Nat :=
  (s.graphs.filter fun g => (g.running.map fun l => l.qsb == qsb).getD false).map fun g => g.handle

/-- GDRAIN .qdrain and .qabort: the records discarded. [DESIGN CHOICE, unsafe, log 86] -/
def tearQueue (s : State) (key : Nat) (c : Ctx) (a : Word) (mode : Nat) : State × Except Trap Word :=
  if a.toNat % 128 ≠ 0 then (s, .error { cause := cAlignment, info := a, addr := a })
  else
    match translateFor s key c a.toNat .r with
    | .error t => (s, .error t)
    | .ok pa =>
      match s.subq? pa with
      | none => (s, .error { cause := cProtection, info := a, addr := a })
      | some q =>
        if c.priv = .f ∨ q.part ≠ c.part then (s, .error { cause := cProtection, info := a, addr := a })
        else
          let n := q.window.length + q.queued
          let s1 := (s.tearDown q mode).wakeAll
          let s2 := if mode = 2 then (s1.launchedFrom q.addr).foldl (fun s h => s.beginAbort h) s1 else s1
          (s2, .ok (wd n))

/-- GDRAIN .qdrain (R219). -/
def execGdrainQdrain (f : SForm) (s : State) : Result :=
  runInstr (.gdrainQdrain f) { sAsk f [sA f] [gDst f.d.toNat] with priv := .s } (do
    let a ← opG .a
    let c ← curCtx
    deliverLater f.d.toNat (tearQueue (← get) (← curKey) c a 1)) s

/-- GDRAIN .qabort (R219). -/
def execGdrainQabort (f : SForm) (s : State) : Result :=
  runInstr (.gdrainQabort f) { sAsk f [sA f] [gDst f.d.toNat] with priv := .s } (do
    let a ← opG .a
    let c ← curCtx
    deliverLater f.d.toNat (tearQueue (← get) (← curKey) c a 2)) s

/-! ## PLACE (R232) -/

/-- The graph of the issuer, which must have the actor named. -/
def placeGraph (actor : Nat) : M Graph := do
  let c ← curCtx
  match (← get).graph? c.graph with
  | none => raiseFree cProtection
  | some g => if actor < g.actors.length then pure g else raiseFree cProtection

/-- A tile that PLACE names: it must be the partition's (R232). -/
def placeTile (b : Word) : M Nat := do
  let c ← curCtx
  let t := b.toNat % 512
  if 383 < t ∨ Map.get 0 (← get).tileOwner t ≠ c.part + 1 then raiseFree cProtection
  pure t

/-- PLACE .pin (R232). -/
def execPlacePin (f : SForm) (s : State) : Result :=
  runInstr (.placePin f) (sAsk f [sB .g f] []) (do
    let t ← placeTile (← opG .b)
    let g ← placeGraph (sImm f % 256)
    modify fun s => s.modGraph g.handle fun g => { g with pins := Map.insert g.pins (sImm f % 256) t }) s

/-- PLACE .hint (R232). -/
def execPlaceHint (f : SForm) (s : State) : Result :=
  runInstr (.placeHint f) (sAsk f [sB .g f] []) (do
    let t ← placeTile (← opG .b)
    let g ← placeGraph (sImm f % 256)
    modify fun s => s.modGraph g.handle fun g => { g with hints := Map.insert g.hints (sImm f % 256) t }) s

/-- PLACE .free (R232). -/
def execPlaceFree (f : SForm) (s : State) : Result :=
  runInstr (.placeFree f) (sAsk f [] []) (do
    let g ← placeGraph (sImm f % 256)
    modify fun s => s.modGraph g.handle fun g =>
      { g with pins := Map.erase g.pins (sImm f % 256), hints := Map.erase g.hints (sImm f % 256) }) s

/-- PLACE .own: the instance at tile [8:0], strand [10:9] and context [13:11] of gB owns partition gA[19:0] of its actor (R151, R232). -/
def execPlaceOwn (f : SForm) (s : State) : Result :=
  runInstr (.placeOwn f) (sAsk f [sA f, sB .g f] []) (do
    let pid := (← opG .a).toNat % 2 ^ 20
    let key := (← opG .b).toNat % 2 ^ 14
    let c ← curCtx
    match (← get).ctx? key, (← get).graph? c.graph with
    | some o, some g =>
      if o.graph ≠ g.handle ∨ Map.get 0 (← get).tileOwner (tileOf key) ≠ c.part + 1 then raiseFree cProtection
      modify fun s => s.modGraph g.handle fun g =>
        { g with owners := (g.owners.filter fun x => !(x.1 == o.actor && x.2.1 == pid)) ++ [(o.actor, pid, key)] }
    | _, _ => raiseFree cProtection) s

/-! ## LSTAT (R233) -/

/-- LSTAT .launch: word 0 of a status record, as an acquire load at scope system (R233). -/
def execLstatLaunch (f : SForm) (s : State) : Result :=
  runInstr (.lstatLaunch f) (sAsk f [sA f] [gDst f.d.toNat]) (do
    let a ← opG .a
    let key ← curKey
    let c ← curCtx
    drainAccesses
    let s ← get
    let s1 := s.acquireWays key 5
    deliverLater f.d.toNat (
      if a.toNat % 8 ≠ 0 then (s, .error { cause := cAlignment, info := a, addr := a })
      else
        match loadAt s1 key c a.toNat 8 with
        | .error t => (s, .error t)
        | .ok (bs, s2) => (s2, .ok (wd (leNat bs))))) s

/-- LSTAT .graph: word 0 of a GCB, which is the state of a graph that the device holds (R226, R233). -/
def execLstatGraph (f : SForm) (s : State) : Result :=
  runInstr (.lstatGraph f) (sAsk f [sA f] [gDst f.d.toNat]) (do
    let a ← opG .a
    let key ← curKey
    let c ← curCtx
    drainAccesses
    let s ← get
    deliverLater f.d.toNat (
      if a.toNat % 8 ≠ 0 then (s, .error { cause := cAlignment, info := a, addr := a })
      else
        match placeOf s key c a.toNat 8 .r with
        | .error t => (s, .error t)
        | .ok p =>
          match (match p with | .dram pa => s.graph? (pa + 1) | .bank _ _ _ => none) with
          | some g => (s, .ok (wd (s.graphWord g)))
          | none =>
            match readPlace s key a.toNat 8 p with
            | .error t => (s, .error t)
            | .ok (bs, s1) => (s1, .ok (wd (leNat bs))))) s

end Sys2Proof.Machine
end

