-- ==== Sys2Proof/Machine/Isolation.lean ====
section
/-! DEFINITION. The system group at MAJ 0xE0 (R365 to R379): ASSET, TLBINV, PARTCFG, QUOTE and SVC, the completion of a shootdown, and the host's
windows (R371). -/

namespace Sys2Proof.Machine

/-- The target partition of the group. -/
def targetPart (f : SForm) : Nat := f.imm.toNat % 64

/-- A context at S may name its own partition alone (R374). [DESIGN CHOICE, unsafe, log 92] -/
def foreign (c : Ctx) (p : Nat) : Bool := c.priv != .f && c.part != p

/-- A refusal: PROTECTION, whose %trapinfo the manual does not state (R375, R377). [DESIGN CHOICE, unsafe, log 92] -/
def refused : Trap := { cause := cProtection, free := true }

/-- An instruction of the group whose D is written: its body gives the state and the result or the fault (R374). -/
def systemOp (i : Instr) (f : SForm) (priv : Priv) (srcs : List Src) (body : State → Ctx → Nat → Nat → State × Except Trap Word) (s : State) : Result :=
  runInstr i { sAsk f srcs [gDst f.d.toNat] with priv := priv } (do
    let a ← if srcs.any (fun r => r.slot = .a) then opG .a else pure 0
    let b ← if srcs.any (fun r => r.slot = .b) then opG .b else pure 0
    let c ← curCtx
    drainAccesses
    let s ← get
    if foreign c (targetPart f) then deliverLater f.d.toNat (s, .error refused)
    else deliverLater f.d.toNat (body s c a.toNat b.toNat)) s

/-! ## ASSET (R358, R375) -/

/-- Live ASIDs of a partition besides its supervisor's. -/
def State.liveAsids (s : State) (p : Nat) : Nat := (s.asids.filter fun e => decide (e.1 < 8128) && e.2.live && e.2.part == p).length

def State.asidOf (s : State) (asid part : Nat) : Bool := (s.asid asid).live && (s.asid asid).part == part

/-- ASSET .make. [DESIGN CHOICE, unsafe, log 74] -/
def assetMake (s : State) (asid root part : Nat) : State × Except Trap Word :=
  if root % 4096 ≠ 0 then (s, .error { cause := cAlignment, free := true })
  else if 8128 ≤ asid ∨ (s.asid asid).live ∨ !(s.part part).isOpen ∨ (s.part part).quota ≤ s.liveAsids part then (s, .error refused)
  else (s.setAsid asid { live := true, part := part, root := root }, .ok (wd asid))

/-- ASSET .root. [DEDUCED, unsafe, log 40] -/
def assetRoot (s : State) (asid root part : Nat) : State × Except Trap Word :=
  if root % 4096 ≠ 0 then (s, .error { cause := cAlignment, free := true })
  else if !s.asidOf asid part then (s, .error refused)
  else (s.setAsid asid { s.asid asid with root := root }, .ok (wd asid))

/-- Whether a context, a live graph, or a QSB carries an ASID; leases are held by contexts. -/
def State.asidInUse (s : State) (asid : Nat) : Bool :=
  s.ctxs.any (fun e => e.2.asid == asid) || s.images.any (fun i => i.ctx.asid == asid) || s.subqs.any (fun q => q.asid == asid) ||
  s.graphs.any fun g => g.asid == asid && g.state != .empty && g.state != .drained

/-- Free an ASID: its bindings, but for those that a firing still refers to (R83), its translations and its graphs are gone. [DEDUCED, unsafe, log 94] -/
def State.dropAsid (s : State) (asid : Nat) : State :=
  { s.setAsid asid {} with
    bindings := (s.bindings.filter fun b => b.asid != asid || s.referenced asid b.slot b.gen).map fun b =>
      if b.asid = asid then { b with released := true } else b
    tlb := s.tlb.filter fun e => e.asid != asid
    graphs := s.graphs.filter fun g => g.asid != asid }

/-- ASSET .kill. [DEDUCED, unsafe, log 94] -/
def assetKill (s : State) (asid part : Nat) : State × Except Trap Word :=
  if 8128 ≤ asid ∨ !s.asidOf asid part ∨ s.asidInUse asid then (s, .error refused)
  else (s.dropAsid asid, .ok (wd asid))

/-- ASSET .make (R375). -/
def execAssetMake (f : SForm) (s : State) : Result :=
  systemOp (.assetMake f) f .s [sA f, sB .g f] (fun s _ a b => assetMake s (a % 8192) b (targetPart f)) s
/-- ASSET .root (R375). -/
def execAssetRoot (f : SForm) (s : State) : Result :=
  systemOp (.assetRoot f) f .s [sA f, sB .g f] (fun s _ a b => assetRoot s (a % 8192) b (targetPart f)) s
/-- ASSET .kill (R375). -/
def execAssetKill (f : SForm) (s : State) : Result :=
  systemOp (.assetKill f) f .s [sA f] (fun s _ a _ => assetKill s (a % 8192) (targetPart f)) s

/-- ASSET .self: writes no register; what issued before, the add of a TLBINV among it, is translated first; firmware carries no ASID (R357, R375).
[DEDUCED, unsafe, log 94] -/
def execAssetSelf (f : SForm) (s : State) : Result :=
  runInstr (.assetSelf f) { sAsk f [sA f] [] with priv := .s } (do
    let asid := (← opG .a).toNat % 8192
    let c ← curCtx
    drainAccesses
    if (← get).ops.any (fun o => o.kind == .tlbinv && some o.ctx == s.cur) then stall .memory
    if foreign c (targetPart f) ∨ c.priv = .f ∨ !(← get).asidOf asid (targetPart f) then throw (.trap refused)
    modCur fun c => { c with asid := asid }) s

/-! ## TLBINV (R365, R376) -/

/-- Put a TLBINV in flight; the checks of its operands are precise. [DESIGN CHOICE, unsafe, log 92] -/
def issueTlbinv (f : SForm) (byAsid : Bool) : M Unit := do
  let a ← opG .a
  let b ← opG .b
  let ctr ← opG .c
  let c ← curCtx
  if foreign c (targetPart f) then throw (.trap refused)
  if a.toNat % 65536 ≠ 0 then raise cAlignment a
  if bits b.toNat 31 13 ≠ 0 then throw (.trap refused)
  if byAsid ∧ !(← get).asidOf (b.toNat % 8192) (targetPart f) then throw (.trap refused)
  let _ ← issueOp .tlbinv [] [] ctr.toNat f.sc.toNat 2

def tlbinvAsk (f : SForm) (a : Bool) : Ask := { sAsk f (sD f :: sB .g f :: (if a then [sA f] else [])) [] with priv := .s }

/-- TLBINV .va (R376). -/
def execTlbinvVa (f : SForm) (s : State) : Result := runInstr (.tlbinvVa f) (tlbinvAsk f true) (issueTlbinv f true) s
/-- TLBINV .asid (R376). -/
def execTlbinvAsid (f : SForm) (s : State) : Result := runInstr (.tlbinvAsid f) (tlbinvAsk f true) (issueTlbinv f true) s
/-- TLBINV .ipa (R376). -/
def execTlbinvIpa (f : SForm) (s : State) : Result := runInstr (.tlbinvIpa f) (tlbinvAsk f true) (issueTlbinv f false) s
/-- TLBINV .part (R376). -/
def execTlbinvPart (f : SForm) (s : State) : Result := runInstr (.tlbinvPart f) (tlbinvAsk f true) (issueTlbinv f false) s

/-- Whether two ranges meet. -/
def rangesMeet (a n b m : Nat) : Bool := decide (a < b + m) && decide (b < a + n)

/-- Whether a TLBINV covers a cached translation (R376). [DEDUCED, safe, log 93] -/
def covers (o : Op) (e : TlbEntry) : Bool :=
  let f := SForm.ofWord o.word.toNat
  let a := (o.opA.extractLsb' 0 64).toNat
  let b := (o.opB.extractLsb' 0 64).toNat
  let n := 65536 * Nat.max 1 (b / 2 ^ 32)
  match f.cnd.toNat with
  | 0 => e.asid == b % 8192 && rangesMeet a n e.va (2 ^ e.log)
  | 1 => e.asid == b % 8192
  | 2 => e.part == targetPart f && rangesMeet a n e.ipa (2 ^ e.log)
  | _ => e.part == targetPart f

/-- Whether an access on its way may use a translation that it found before the removal: a store keeps the translation of its issue (R253), and a MODBIND has
read its image under it (R366). [DEDUCED, unsafe, log 16; DEDUCED, safe, log 93] -/
def State.usesOld (s : State) (o p : Op) : Bool :=
  let f := SForm.ofWord o.word.toNat
  let early := match p.kind with
    | .store => true
    | .modbind _ _ _ => true
    | _ => false
  match early, s.owner? p.ctx with
  | true, some c =>
    c.priv != .f && (if f.cnd.toNat < 2 then c.asid == (o.opB.extractLsb' 0 64).toNat % 8192 else c.part == targetPart f)
  | _, _ => false

/-- The dirty sectors of every tile go home: what any of them has stored is then performed at scope package (R365). [DESIGN CHOICE, unsafe, log 17] -/
def State.writeBackAll (s : State) : State :=
  ((s.tileCache.map fun e => sectorTile e.1).eraseDups).foldl (fun s t => s.writeBack t fun _ => true) s

/-- TLBINV_COMPLETION: the translations are gone, every access that used one has been performed, and the counter advances (R365).
[DESIGN CHOICE, safe, log 18; DESIGN CHOICE, unsafe, log 92; DEDUCED, safe, log 93] -/
def execTlbinvCompletion (id : Nat) (s : State) : Result :=
  runEvent (fun s => match s.op? id with
    | none => s
    | some o =>
      if o.kind = .tlbinv ∧ s.mayPerform o ∧ !(s.ops.any fun p => s.usesOld o p) then
        let s1 : State := { s with tlb := s.tlb.filter fun e => !covers o e }
        match s1.owner? o.ctx with
        | none => s1.dropOp id
        | some c =>
          match agentAdd s1.writeBackAll o.ctx c o.addr 1 with
          | .error t => (s1.opFault o t).wake o.ctx
          | .ok s2 => ((s2.dropOp id).wakeAll)
      else s) s

/-! ## PARTCFG (R367 to R370, R377) -/

/-- The quotas of the open partitions. -/
def State.quotas (s : State) : Nat := s.parts.foldl (fun n e => if e.2.isOpen then n + e.2.quota else n) 0

/-- The context of a supervisor as PARTCFG .open makes it: q15 is bound to its record queue (R357, R388).
[DESIGN CHOICE, unsafe, log 4; DESIGN CHOICE, unsafe, log 11; DESIGN CHOICE, unsafe, log 39] -/
def newSupervisor (s : State) (p : Nat) : Ctx :=
  { priv := .s, asid := 8128 + p, part := p, born := s.fresh, q := [(15, .records)], modtab := Config.modtab (8128 + p) }

/-- The record queue of a supervisor or firmware context: 128 slots (R388). [DESIGN CHOICE, unsafe, log 39] -/
def recordQueue (key : Nat) : Queue := { graph := 0, edge := 0, consumer := key, depth := 128, credits := 128 }

/-- PARTCFG .open. [DESIGN CHOICE, unsafe, log 39; DEDUCED, unsafe, log 40] -/
def partOpen (s : State) (p root gb : Nat) : State × Except Trap Word :=
  if root % 4096 ≠ 0 then (s, .error { cause := cAlignment, free := true })
  else if (s.part p).isOpen ∨ 8128 < s.quotas + gb % 8192 then (s, .error refused)
  else
    let key := supervisorOf p
    let s1 := s.setPart p { s.part p with isOpen := true, root := root, quota := gb % 8192, hostwin := bits gb 13 13 == 1 }
    let s2 := s1.setAsid (8128 + p) { live := true, part := p }
    (({ s2.setCtx key (newSupervisor s p) with
        fresh := s.fresh + 1
        queues := (s2.queues.filter fun q => q.consumer != key) ++ [recordQueue key] } : State).renew key, .ok 1)

/-- Remove a context of a System Tile with everything it has under way. -/
def State.removeContext (s : State) (key : Nat) : State :=
  let s1 := s.stopWork key
  { s1 with ctxs := Map.erase s1.ctxs key, queues := s1.queues.filter fun q => q.consumer != key,
            records := s1.records.filter fun r => r.target != key }

/-- Whether a partition owns a tile or a way. -/
def State.owns (s : State) (p : Nat) : Bool := s.tileOwner.any (fun e => e.2 == p + 1) || s.wayOwner.any fun e => e.2 == p + 1

/-- Close a partition. [DESIGN CHOICE, unsafe, log 39] -/
def State.closePart (s : State) (p : Nat) : State :=
  let s1 := (s.removeContext (supervisorOf p)).dropAsid (8128 + p)
  { s1.setPart p {} with tlb := s1.tlb.filter fun e => e.part != p }

/-- PARTCFG .shut. -/
def partShut (s : State) (p : Nat) : State × Except Trap Word :=
  if !(s.part p).isOpen ∨ s.owns p ∨ s.liveAsids p ≠ 0 then (s, .error refused)
  else (s.closePart p, .ok 1)

/-- Clear a tile before it is given or taken (R368): its ways, its banks and their modes. It holds no context. -/
def State.clearTile (s : State) (tile : Nat) : State :=
  let s1 := s.flushWays tile fun _ => true
  let s2 := (List.range 24).foldl (fun s b => (s.zeroBank tile b).setBankMode tile b (resetBankMode b)) s1
  { s2 with queueBanks := Map.set 0 s2.queueBanks tile 0 }

/-- Whether a tile holds an instance, a shadow context, a swap in progress or an image scratchpad switch. -/
def State.tileBusy (s : State) (tile : Nat) : Bool :=
  s.ctxs.any (fun e => tileOf e.1 == tile) || s.swaps.any (fun w => w.strand / 4 == tile) || s.switching tile

/-- PARTCFG .assign; it is refused where it would take a bank out of FIFO mode that backs a live queue (R240, R241). -/
def partAssign (s : State) (p tile : Nat) (give : Bool) : State × Except Trap Word :=
  let owner := Map.get 0 s.tileOwner tile
  if 384 ≤ tile ∨ (owner ≠ 0 ∧ owner ≠ p + 1) ∨ s.tileBusy tile ∨ s.tileOut tile ∨ (0 < s.fifoBanks tile ∧ 0 < s.liveBanks tile) then (s, .error refused)
  else
    let s1 := s.clearTile tile
    ({ s1 with tileOwner := Map.set 0 s1.tileOwner tile (if give then p + 1 else 0) }, .ok 1)

/-- PARTCFG .ways: a way that moves is written back and invalidated; one that self-test has retired stays nobody's (R369, R408). -/
def partWays (s : State) (p cl gb : Nat) : State × Except Trap Word :=
  if 48 ≤ cl then (s, .error refused)
  else
    let new := if bits gb 16 16 = 1 then 0 else p + 1
    ({ s with wayOwner := (List.range 16).foldl (fun m w =>
        if gb / 2 ^ w % 2 = 1 ∧ Map.get 0 m (16 * cl + w) ≠ 65 then Map.set 0 m (16 * cl + w) new else m) s.wayOwner }.dropLines
      fun c _ l => c == cl && gb / 2 ^ l.way % 2 == 1, .ok 1)

/-- PARTCFG .share. -/
def partShare (s : State) (p ga : Nat) : State × Except Trap Word :=
  let share := bits ga 7 0
  let weight := bits ga 14 8
  let sum := s.parts.foldl (fun n e => if e.1 != p then n + e.2.share else n) 0
  if weight = 0 ∨ 64 < weight ∨ 256 < sum + share then (s, .error refused)
  else (s.setPart p { s.part p with share := share, weight := weight }, .ok 1)

/-- PARTCFG .gang: the block is read as firmware reads memory. [DESIGN CHOICE, unsafe, log 74] -/
def partGang (s : State) (key : Nat) (c : Ctx) (p a : Nat) : State × Except Trap Word :=
  if a % 8 ≠ 0 then (s, .error { cause := cAlignment, info := wd a, addr := wd a })
  else
    match loadWords s key c a 2 with
    | .error t => (s, .error t)
    | .ok (ws, s1) =>
      let epoch := wordAt ws 0
      let slice := wordAt ws 1
      if (slice ≠ 0 ∧ (slice < 500 ∨ 100000 < slice)) then (s, .error refused)
      else (s1.setPart p { s1.part p with gang := if slice = 0 then none else some (epoch, slice), gangDone := gangPast epoch slice s.ptp }, .ok 1)

/-- PARTCFG .qbank. -/
def partQbank (s : State) (p tile gb : Nat) : State × Except Trap Word :=
  if 384 ≤ tile ∨ Map.get 0 s.tileOwner tile ≠ p + 1 ∨ (List.range 24).any (fun b => gb / 2 ^ b % 2 == 0 && s.bankMode tile b == 2) then
    (s, .error refused)
  else ({ s with queueBanks := Map.set 0 s.queueBanks tile (BitVec.ofNat 24 gb) }, .ok 1)

/-- The QSB that a program has written, when every check of R206 and R377 passes; PART is set, and HEAD, TAIL and the flags are zeroed whatever the block
holds. -/
def newSubq (s : State) (p pa : Nat) (ws : List Nat) : Option Subq :=
  let w2 := wordAt ws 2
  let q : Subq :=
    { addr := pa, base := wordAt ws 0, logsize := bits w2 4 0, maxprio := bits w2 17 15, part := p, asid := bits w2 36 24
      deviceFed := bits w2 37 37 == 1, doorbell := bits (wordAt ws 3) 15 0 }
  if q.logsize = 0 ∨ 16 < q.logsize ∨ q.base % 128 ≠ 0 ∨ bits w2 63 41 ≠ 0 ∨
      bits (wordAt ws 3) 63 16 ≠ 0 ∨ (ws.drop 4).any (fun w => w != 0) ∨ !s.asidOf q.asid p ∨ (s.subq? pa).isSome ∨
      (!q.deviceFed ∧ s.subqs.any fun x => !x.deviceFed && x.doorbell == q.doorbell) then none
  else some q

/-- PARTCFG .qsb. [DESIGN CHOICE, unsafe, log 74] -/
def partQsb (s : State) (key : Nat) (c : Ctx) (p a : Nat) : State × Except Trap Word :=
  if a % 128 ≠ 0 then (s, .error { cause := cAlignment, info := wd a, addr := wd a })
  else
    match translateFor s key c a .w with
    | .error t => (s, .error t)
    | .ok pa =>
      if s.dramBad pa 128 then (s, .error (badDataTrap a)) else
      match newSubq s p pa ((List.range 16).map fun j => leNat (Memory.readBytes s.mem (pa + 8 * j) 8)) with
      | none => (s, .error refused)
      | some q => (({ s with subqs := s.subqs ++ [q] } : State).commitSubq pa, .ok 1)

/-- PARTCFG .qdel. -/
def partQdel (s : State) (key : Nat) (c : Ctx) (p a : Nat) : State × Except Trap Word :=
  if a % 128 ≠ 0 then (s, .error { cause := cAlignment, info := wd a, addr := wd a })
  else
    match translateFor s key c a .w with
    | .error t => (s, .error t)
    | .ok pa =>
      match s.subq? pa with
      | none => (s, .error refused)
      | some q =>
        if q.part ≠ p ∨ q.tail ≠ q.head ∨ q.slot.isSome then (s, .error refused)
        else ({ s with subqs := s.subqs.filter fun x => x.addr != pa }, .ok 1)

/-- PARTCFG .hostwin. -/
def partHostwin (s : State) (p gb : Nat) : State × Except Trap Word :=
  ({ s.setPart p { s.part p with hostwin := gb % 2 == 1 } with tlb := s.tlb.filter fun e => e.part != p }, .ok 1)

/-- PARTCFG .open (R377). [DEDUCED, unsafe, log 40] -/
def execPartcfgOpen (f : SForm) (s : State) : Result :=
  systemOp (.partcfgOpen f) f .f [sA f, sB .g f] (fun s _ a b => partOpen s (targetPart f) a b) s
/-- PARTCFG .shut (R377). -/
def execPartcfgShut (f : SForm) (s : State) : Result :=
  systemOp (.partcfgShut f) f .f [] (fun s _ _ _ => partShut s (targetPart f)) s
/-- PARTCFG .assign (R368, R377). -/
def execPartcfgAssign (f : SForm) (s : State) : Result :=
  systemOp (.partcfgAssign f) f .f [sA f, sB .g f] (fun s _ a b => partAssign s (targetPart f) a (b % 2 == 1)) s
/-- PARTCFG .ways (R369, R377). -/
def execPartcfgWays (f : SForm) (s : State) : Result :=
  systemOp (.partcfgWays f) f .f [sA f, sB .g f] (fun s _ a b => partWays s (targetPart f) a b) s
/-- PARTCFG .share (R370, R377). -/
def execPartcfgShare (f : SForm) (s : State) : Result :=
  systemOp (.partcfgShare f) f .f [sA f] (fun s _ a _ => partShare s (targetPart f) a) s
/-- PARTCFG .gang (R222, R377). -/
def execPartcfgGang (f : SForm) (s : State) : Result :=
  systemOp (.partcfgGang f) f .f [sA f] (fun s c a _ => partGang s (s.cur.getD 0) c (targetPart f) a) s
/-- PARTCFG .qbank (R240, R377). -/
def execPartcfgQbank (f : SForm) (s : State) : Result :=
  systemOp (.partcfgQbank f) f .s [sA f, sB .g f] (fun s _ a b => partQbank s (targetPart f) a b) s
/-- PARTCFG .qsb (R206, R377). -/
def execPartcfgQsb (f : SForm) (s : State) : Result :=
  systemOp (.partcfgQsb f) f .s [sA f] (fun s c a _ => partQsb s (s.cur.getD 0) c (targetPart f) a) s
/-- PARTCFG .qdel (R377). -/
def execPartcfgQdel (f : SForm) (s : State) : Result :=
  systemOp (.partcfgQdel f) f .s [sA f] (fun s c a _ => partQdel s (s.cur.getD 0) c (targetPart f) a) s
/-- PARTCFG .hostwin (R371, R377). -/
def execPartcfgHostwin (f : SForm) (s : State) : Result :=
  systemOp (.partcfgHostwin f) f .f [sB .g f] (fun s _ _ b => partHostwin s (targetPart f) b) s

/-! ## QUOTE (R378) -/

/-- Set the bits of a mask at the numbers that satisfy p. -/
def bitsWhere (n : Nat) (p : Nat → Bool) : Nat := (List.range n).foldl (fun m j => if p j then m + 2 ^ j else m) 0

/-- The configuration record of a partition, 176 bytes. [DEDUCED, unsafe, log 95] -/
def configRecord (s : State) (p : Nat) : List Byte :=
  let x := s.part p
  let ways (cl : Nat) : List Byte := leBytes 2 (bitsWhere 16 fun w => Map.get 0 s.wayOwner (16 * cl + w) == p + 1)
  let gang := x.gang.getD (0, 0)
  leBytes 48 (bitsWhere 384 fun t => Map.get 0 s.tileOwner t == p + 1) ++ (List.range 48).flatMap ways ++
  leBytes 8 (x.share + x.weight * 2 ^ 8) ++ leBytes 8 (x.quota + b2n x.hostwin * 2 ^ 13) ++ leBytes 8 gang.1 ++ leBytes 8 gang.2

/-- What MODDIGEST is taken over. [DEDUCED, unsafe, log 95] -/
def moduleRecord (s : State) (p : Nat) : List Byte :=
  (s.asids.filter fun e => e.2.live && e.2.part == p).flatMap fun e =>
    (List.range 16).flatMap fun slot =>
      match s.boundNow e.1 slot with
      | none => []
      | some b => leBytes 2 e.1 ++ leBytes 1 slot ++ leBytes 6 b.gen ++ leBytes 64 b.digest.toNat

/-- Bytes 0 to 287 of a quote. [DESIGN CHOICE, unsafe, log 8; DEDUCED, unsafe, log 95] -/
def quoteBody (s : State) (p : Nat) (nonce : List Byte) : List Byte :=
  leBytes 8 (1 + p * 2 ^ 16) ++ nonce ++ leBytes 64 s.fwdigest.toNat ++ leBytes 64 (Config.shake256 (configRecord s p)).toNat ++
  leBytes 64 (Config.shake256 (moduleRecord s p)).toNat ++ leBytes 8 s.ptp ++ leBytes 16 0

/-- The signature padded to 1,280 bytes. [DESIGN CHOICE, unsafe, log 8] -/
def signatureBytes (body : List Byte) : List Byte := ((Config.falconSign body) ++ List.replicate 1280 0).take 1280

/-- QUOTE of a partition: 1,568 bytes are written, or none. [DESIGN CHOICE, unsafe, log 74; DESIGN CHOICE, unsafe, log 96] -/
def quoteTo (s : State) (key : Nat) (c : Ctx) (p a b : Nat) : State × Except Trap Word :=
  if a % 64 ≠ 0 ∨ b % 64 ≠ 0 then
    let x := if a % 64 ≠ 0 then a else b
    (s, .error { cause := cAlignment, info := wd x, addr := wd x })
  else
    match loadWords s key c a 8 with
    | .error t => (s, .error t)
    | .ok (ws, s1) =>
      let body := quoteBody s1 p (ws.flatMap fun w => leBytes 8 w)
      match agentStore s1 key c b (body ++ signatureBytes body) with
      | (s2, none) => (s2, .ok 1568)
      | (_, some t) => (s, .error t)

/-- QUOTE (R378). -/
def execQuote (f : SForm) (s : State) : Result :=
  systemOp (.quote f) f .s [sA f, sB .g f] (fun s c a b => quoteTo s (s.cur.getD 0) c (targetPart f) a b) s

/-! ## SVC (R379) -/

/-- Whether SVC has been carried out between two states: its context has a frame of SOFTWARE more, or is firmware that has started again. -/
def State.svcDone (s t : State) : Bool :=
  match s.cur.bind s.ctx?, s.cur.bind t.ctx? with
  | some c, some d =>
    (decide (c.frames.length < d.frames.length) && ((d.frames.head?.map fun r => r.cause) == some cSoftware)) ||
      (c.priv == .f && d.frames.isEmpty && (d.firing.map fun r => r.serial) != (c.firing.map fun r => r.serial))
  | _, _ => false

/-- SVC: earlier accesses are performed at scope package, then SOFTWARE is raised; the supervisor supplies gD (R379). It stands in its frame as the
youngest entry, so that it waits where there would be a seventeenth (R385, R392). -/
def execSvc (f : SForm) (s : State) : Result :=
  match runInstr (.svc f) (sAsk f [sA f, sB .g f] [gDst f.d.toNat]) (do
      let a ← opG .a
      let b ← opG .b
      drainAccesses
      if (← get).fullFlight (← curKey) (← curFiring).serial then stall .memory
      throw (.trap { cause := cSoftware, info := wd (f.imm.toNat + 2 ^ 12), addr := a, gb := some b, after := true, svc := true,
                     svcDst := f.d.toNat })) s with
  | .next t => .next (if s.svcDone t then t.releaseWays (s.cur.getD 0) 4 else t)
  | r => r

/-! ## The host's windows (R371) -/

/-- The partition and the IPA of a host address. -/
def hostPart (a : Nat) : Nat := bits a 53 48
def hostIpa (a : Nat) : Nat := bits a 47 0

/-- The physical addresses of n bytes of a host window, or none where the access completes with an error response. [DESIGN CHOICE, unsafe, log 96] -/
def hostPas (s : State) (a n : Nat) (need : Right) : Option (List Nat) :=
  let p := hostPart a
  if 2 ^ 54 ≤ a ∨ !(s.part p).isOpen ∨ !(s.part p).hostwin then none
  else
    (List.range n).mapM fun j =>
      if 2 ^ 48 ≤ hostIpa a + j then none
      else match translateHost s p (hostIpa a + j) need with
        | .ok pa => some pa
        | .error _ => none

/-- Report an error to the firmware context of a die: a record of KIND 4 (R406). -/
def State.logError (s : State) (die cls unit addr : Nat) : State :=
  s.sendRecord (firmwareOf die) [wd (4 * 2 ^ 16 + cls * 2 ^ 24), 0, 0, 0, 0, wd unit, wd addr, wd s.ticks]

/-- The unit word of an error in a GDDR-7 device, whose device number the manual does not tie to an address: a free value. -/
def State.dramUnit (s0 : State) : Nat × State := let (w, s) := s0.drawWord; (3 + bits w.toNat 17 4 * 16, s)

end Sys2Proof.Machine
end

