-- ==== Sys2Proof/Machine/Recovery.lean ====
section
/-! DEFINITION. The recovery group at MAJ 0xE8 (R390 to R394): TRAP, RESUME, RQRD, RQWR and CKPT; pre-emption frames (R386, R396) and the delivery of
fault records (R388). -/

namespace Sys2Proof.Machine

/-! ## TRAP (R391) -/

/-- TRAP raises SOFTWARE after it has completed (R391). -/
def execTrap (f : SForm) (s : State) : Result :=
  runInstr (.trap f) (sAsk f [] []) (throw (.trap { cause := cSoftware, info := wd f.imm.toNat, after := true })) s

/-! ## Frames -/

/-- Stop the firing of a context at an instruction boundary with a pre-emption frame that continues at a point (R385, R386, R396).
[DEDUCED, unsafe, log 29] -/
def State.preemptAt (s : State) (key : Nat) (rpc : Word) : State :=
  match (s.ctx? key).bind fun c => c.firing with
  | none => s
  | some f =>
    let (s1, entries) := (s.squash key).interruptOps key f.serial none
    s1.modCtx key fun c =>
      { c with
        frames := { cause := 0, rpc := rpc, since := s.ticks, entries := entries ++ c.replay,
                    firing := some { f with wait := f.wait.map fun w => { w with seen := 0 }, stall := .none } } :: c.frames
        firing := none, replay := [] }

/-- Stop the firing of a context, if it has one, where it is. [DEDUCED, unsafe, log 29] -/
def State.preempt (s : State) (key : Nat) : State :=
  match (s.ctx? key).bind fun c => c.firing with
  | none => s
  | some f => s.preemptAt key f.pc

/-- A context that is active again resumes its pre-emption frame as RESUME would. [DEDUCED, unsafe, log 33] -/
def Ctx.activate (c : Ctx) : Ctx :=
  match c.frames with
  | f :: rest => if f.cause = 0 ∧ !c.parked then c.resumeFrame f rest else c
  | [] => c

/-- A context enters an active slot: it goes on where it was stopped, with a new age stamp (R120, R396). -/
def State.activate (s : State) (key : Nat) : State := (s.modCtx key Ctx.activate).renew key

/-- A handler that leaves no firing behind it: flags set from outside and guard changes take effect, as no firing is in flight (R132, R136).
[DEDUCED, unsafe, log 34] -/
def Ctx.calm (c : Ctx) : Ctx :=
  if c.inFlight then c
  else { c with flags := c.flags ||| c.flagsHeld, flagsHeld := 0, guards := c.guardsHeld.getD c.guards, guardsHeld := none }

/-! ## RESUME (R392) -/

/-- RESUME .self: the handler ends and the interrupted firing continues (R392). [DEDUCED, unsafe, log 34] -/
def execResumeSelf (f : SForm) (s : State) : Result :=
  runControl (.resumeSelf f) { guard := .unguarded } (do
    let fr ← curFiring
    let c ← curCtx
    if !fr.handler then raiseFree cProtection
    match c.frames with
    | [] => raiseFree cProtection
    | top :: rest =>
      modCur fun c => (c.resumeFrame top rest).calm
      pure .ended) s

/-- The parked context that a handle names for a context (R389). [DESIGN CHOICE, unsafe, log 32] -/
def State.parkedBy (s : State) (c : Ctx) (h : Word) : Option (Nat × Ctx) :=
  let key := h.toNat % 32768
  match s.ctx? key with
  | some x => if x.parked && handleOf key x == h && (c.priv == .f || c.part == x.part) then some (key, x) else none
  | none => none

/-- A parked context is resident again and continues from its innermost frame; it acquires at scope package (R392). [DEDUCED, unsafe, log 33] -/
def State.resumeParked (s : State) (key : Nat) (c : Ctx) : State :=
  let s1 := s.acquireWays key 4
  match c.frames with
  | [] => (s1.setCtx key { c with parked := false }).renew key
  | top :: rest => (s1.setCtx key { (c.resumeFrame top rest).calm with parked := false }).renew key

/-- RESUME .ctx (R392). [DESIGN CHOICE, unsafe, log 32] -/
def execResumeCtx (f : SForm) (s : State) : Result :=
  runInstr (.resumeCtx f) { sAsk f [sA f] [] with priv := .s, guard := .unguarded } (do
    let h ← opG .a
    let c ← curCtx
    let key ← curKey
    match (← get).parkedBy c h with
    | none => raiseFree cProtection
    | some (k, x) =>
      drainAccesses
      modify fun s => (s.releaseWays key 4).resumeParked k x) s

/-! ## RQRD and RQWR (R393) -/

/-- Whether a field of a frame is read and written through a v register. -/
def fieldIsV (n : Nat) : Bool := n == 11 || n == 12 || n == 13 || n == 15
/-- OTHER and ENTRY. -/
def rqOther (f : SForm) : Bool := f.imm.getLsbD 4
def rqEntry (f : SForm) : Nat := f.imm.toNat % 16

/-- The context and the innermost frame that RQRD or RQWR acts on. [DESIGN CHOICE, unsafe, log 32] -/
def rqFrame (f : SForm) : M (Nat × Ctx × Frame) := do
  let key ← curKey
  let c ← curCtx
  let (k, x) ← if rqOther f then (do
      match (← get).parkedBy c (← opG .a) with
      | none => raiseFree cProtection
      | some r => pure r)
    else pure (key, c)
  match x.frames with
  | [] => raiseFree cProtection
  | top :: _ => if 5 ≤ f.cnd.toNat ∧ top.entries.length ≤ rqEntry f then raiseFree cProtection else pure (k, x, top)

/-- An operand of an entry: one that the instruction does not read reads as 0 (R428). [DEDUCED, unsafe, log 35] -/
def ReplayEntry.shown (e : ReplayEntry) (n : Nat) : VWord :=
  if e.reads.getLsbD n || e.reads.getLsbD (n + 3) then e.op (match n with | 0 => .a | 1 => .b | _ => .c) else 0

/-- A field of a frame or of its entry (R393). -/
def Frame.field (fr : Frame) (inner : Bool) (e : ReplayEntry) (n : Nat) : VWord :=
  match n with
  | 0 => (fr.summary inner).setWidth 1024
  | 1 => fr.fpc.setWidth 1024
  | 2 => fr.fword.setWidth 1024
  | 3 => fr.info.setWidth 1024
  | 4 => fr.rpc.setWidth 1024
  | 5 => e.word.setWidth 1024
  | 6 => e.pc.setWidth 1024
  | 7 => (wd (e.mode.toNat + b2n e.faulted * 4)).setWidth 1024
  | 8 => (e.shown 0).extractLsb' 0 64 |>.setWidth 1024
  | 9 => (e.shown 1).extractLsb' 0 64 |>.setWidth 1024
  | 10 => (e.shown 2).extractLsb' 0 64 |>.setWidth 1024
  | 11 => e.shown 0
  | 12 => e.shown 1
  | 13 => e.shown 2
  | 14 => e.supplyG.setWidth 1024
  | _ => e.supplyV

/-- RQRD (R393). [DESIGN CHOICE, unsafe, log 32] -/
def execRqrd (f : SForm) (s : State) : Result :=
  let v := fieldIsV f.cnd.toNat
  runInstr (.rqrd f)
    { sAsk f (if rqOther f then [sA f] else []) [if v then vDst f.d.toNat else gDst f.d.toNat] with priv := if rqOther f then .s else .u } (do
    let (_, x, top) ← rqFrame f
    let y := top.field (decide (1 < x.frames.length)) (top.entries.getD (rqEntry f) { word := 0, pc := 0 }) f.cnd.toNat
    if v then writeV f.d.toNat y else writeG f.d.toNat (y.setWidth 64)) s

/-- Write an operand of an entry: the whole register or its low 64 bits; one that the instruction does not read is left. [DEDUCED, unsafe, log 35] -/
def ReplayEntry.putOp (e : ReplayEntry) (n : Nat) (whole : Bool) (x : VWord) : ReplayEntry :=
  let slot : Slot := match n with | 0 => .a | 1 => .b | _ => .c
  let low : VWord := (x.setWidth 64).setWidth 1024
  if e.reads.getLsbD (n + 3) then
    e.setOp slot (if whole then x else (e.op slot >>> 64) <<< 64 ||| low)
  else if e.reads.getLsbD n then e.setOp slot low
  else e

/-- An entry with a field written (R387, R393). [DEDUCED, unsafe, log 35] -/
def ReplayEntry.put (e : ReplayEntry) (n : Nat) (x : VWord) : ReplayEntry :=
  match n with
  | 7 => { e with mode := BitVec.ofNat 2 x.toNat }
  | 8 => e.putOp 0 false x
  | 9 => e.putOp 1 false x
  | 10 => e.putOp 2 false x
  | 11 => e.putOp 0 true x
  | 12 => e.putOp 1 true x
  | 13 => e.putOp 2 true x
  | 14 => { e with supplyG := x.setWidth 64 }
  | 15 => { e with supplyV := x }
  | _ => e

/-- An entry of a list changed. -/
def putEntry (n field : Nat) (x : VWord) : List ReplayEntry → List ReplayEntry
  | [] => []
  | e :: rest => match n with
    | 0 => e.put field x :: rest
    | m + 1 => e :: putEntry m field x rest

/-- RQWR (R393). [DESIGN CHOICE, unsafe, log 32; DEDUCED, unsafe, log 35] -/
def execRqwr (f : SForm) (s : State) : Result :=
  let v := fieldIsV f.cnd.toNat
  runInstr (.rqwr f)
    { sAsk f ((if rqOther f then [sA f] else []) ++ [sB (if v then .v else .g) f]) [] with priv := if rqOther f then .s else .u } (do
    let b ← opV .b
    let (k, x, top) ← rqFrame f
    let top' ← if f.cnd = 4 then (do
        let rpc := wd ((b.setWidth 64 : Word).toNat % 2 ^ 52)
        if rpc.toNat % 8 ≠ 0 then raise cAlignment rpc
        let s ← get
        let inside : Bool := match top.firing with
          | none => false
          | some fr => match s.heldBinding fr (cpSlot rpc) with
            | none => false
            | some bd => decide (cpOffset rpc < bd.len)
        if !inside then raise cProtection rpc
        pure { top with rpc := rpc, firing := top.firing.map fun fr => { fr with wait := none } })
      else (do
        if f.cnd = 7 ∧ b.toNat % 4 = 3 then raiseFree cProtection
        pure { top with entries := putEntry (rqEntry f) f.cnd.toNat b top.entries })
    modify fun s => s.setCtx k { x with frames := top' :: x.frames.tail }) s

/-! ## CKPT (R394) -/

/-- CKPT: the checkpoint table; while a full switch waits on the tile the firing stops here (R394, R400). [DEDUCED, unsafe, log 36] -/
def execCkpt (f : SForm) (s : State) : Result :=
  runControl (.ckpt f) (sAsk f [sA f] []) (do
    let a ← opG .a
    let key ← curKey
    let pc ← curPc
    if a.toNat % 16 ≠ 0 then raise cAlignment a
    modCur fun c => { c with ckpt := a }
    if (← get).switching (tileOf key) then
      modify fun s => (s.preemptAt key (pc + 8)).modCtx key fun c => { c with stoppedAt := some pc }
      pure .ended
    else pure .seq) s

/-! ## Fault records (R388, R406) -/

/-- A record as a token: w64, two link words, the tag of the target's slot (R388). [DEDUCED, unsafe, log 103] -/
def recordToken (target : Nat) (ws : List Word) : Token :=
  { header := setTag (wd (7 * 2 ^ 40 + 2 * 2 ^ 35)) (slotOf target), slots := 2
    words := (List.range 2).map fun j =>
      { data := BitVec.ofNat 256 (packCodes 64 ((List.range 4).map fun i => (ws.getD (4 * j + i) 0).toNat)) } }

/-- The interrupt by which firmware forwards a record of class 2 or 3 to the host (R406). [DEDUCED, unsafe, log 103] -/
def State.forwardRecord (s : State) (target : Nat) (ws : List Word) : State :=
  let w0 := (ws.getD 0 0).toNat
  let cls := bits w0 31 24
  if bits w0 23 16 = 4 ∧ 2 ≤ cls ∧ strandOf target = 0 then s.interrupt (.errorLog cls (ws.getD 5 0).toNat) else s

/-- FAULT_RECORD_DELIVERY: the oldest record for a supervisor or firmware context enters its queue, once there is room (R388). [DEDUCED, unsafe, log 103] -/
def execFaultRecordDelivery (target : Nat) (s : State) : Result :=
  runEvent (fun s => match s.records.find? fun r => r.target == target with
    | none => s
    | some r =>
      match s.queue? 0 0 target with
      | none => s
      | some _ =>
        if s.recordWaits target then s
        else
          (({ s with records := s.records.eraseP fun x => x.target == target } : State).modQueue 0 0 target fun q =>
            { q with credits := q.credits + q.returning - 2, returning := 0, fifo := q.fifo ++ [recordToken target r.words] }).forwardRecord
            target r.words) s

end Sys2Proof.Machine
end

