-- ==== Sys2Proof/Machine/Switching.lean ====
section
/-! DEFINITION. Switching (R395 to R401): the exchange of a strand's banks, the Archivist's write-outs and loads with the leases of contexts, full
switches, gang instants (R222), and saving queues (R402). A context keeps what it has under way through a change of its number. -/

namespace Sys2Proof.Machine

/-! ## A change of numbers -/

def Engine.rename (g : Engine) (r : Nat → Nat) : Engine :=
  { g with holder := g.holder.map r
           cmds := g.cmds.map fun m => { m with ctx := r m.ctx }
           ops := g.ops.map fun m => { m with ctx := r m.ctx } }

def Queue.rename (q : Queue) (r : Nat → Nat) : Queue := { q with consumer := r q.consumer, producer := q.producer.map r }
def Shadow.rename (x : Shadow) (r : Nat → Nat) : Shadow :=
  { x with producer := r x.producer, entries := x.entries.map fun e => { e with consumer := r e.consumer } }
/-- Whether a pairing stands after a change of numbers: a link queue joins two contexts of one die, and the tag in the template of its producer is that of
its consumer's slot; TEMPLATE_REWRITE makes the others anew (R21, R221). [DESIGN CHOICE, unsafe, log 82] -/
def Graph.pairStands (g : Graph) (r : Nat → Nat) (p : Nat × Nat × Nat) : Bool :=
  slotOf (r p.2.2) == slotOf p.2.2 &&
  (((g.edges[p.1]?).map fun d => g.isProxy d).getD false || dieOf (r p.2.1) == dieOf (r p.2.2))
def Graph.rename (g : Graph) (r : Nat → Nat) : Graph :=
  { g with owners := g.owners.map fun o => (o.1, o.2.1, r o.2.2)
           pairs := (g.pairs.filter fun p => g.pairStands r p).map fun p => (p.1, r p.2.1, r p.2.2) }
def QueueImage.rename (i : QueueImage) (r : Nat → Nat) : QueueImage :=
  { i with queues := i.queues.map fun q => q.rename r, shadows := i.shadows.map fun x => x.rename r, resv := i.resv.map fun e => (r e.1, e.2) }

/-- Contexts take new numbers, and everything that names them follows. -/
def State.rename (s : State) (r : Nat → Nat) : State :=
  { s with
    ctxs := s.ctxs.foldl (fun m e => Map.insert m (r e.1) e.2) []
    specs := s.specs.filter fun x => r x.key == x.key
    ops := s.ops.map fun o => { o with ctx := r o.ctx }
    copies := s.copies.map fun c => { c with ctx := r c.ctx }
    asyncDone := s.asyncDone.map fun d => { d with ctx := r d.ctx }
    faultsWaiting := s.faultsWaiting.map fun f => (r f.1, f.2)
    repairs := s.repairs.map fun e => (e.1, e.2.1, { e.2.2 with op := { e.2.2.op with ctx := r e.2.2.op.ctx } })
    queues := s.queues.map fun q => q.rename r
    shadows := s.shadows.map fun x => x.rename r
    graphs := s.graphs.map fun g => g.rename r
    engines := s.engines.map fun e => (e.1, e.2.rename r)
    requests := s.requests.map fun q => { q with ctx := r q.ctx, only := q.only.map fun o => (o.1, o.2.1, o.2.2.rename r) }
    images := s.images.map fun i => { i with leases := i.leases.map fun l => (l.1, l.2.1, l.2.2.1, l.2.2.2.rename r) }
    queueImages := s.queueImages.map fun i => i.rename r }

/-- One number for another. -/
def swapFor (old new n : Nat) : Nat := if n = old then new else n

/-! ## The exchange (R396) -/

/-- A slot's number in the other bank of its strand. -/
def otherBank (base n : Nat) : Nat :=
  if n < 32768 ∧ sameStrand n base then (if inShadow n then n - 16384 else n + 16384) else n

/-- The active slots of a strand. -/
def activeKeys (base : Nat) : List Nat := (List.range 8).map fun slot => base + 2048 * slot

/-- Every firing of a strand stops with a pre-emption frame, the banks are exchanged, and what has become active goes on. [DESIGN CHOICE, unsafe, log 98] -/
def State.exchange (s : State) (strand : Nat) : State :=
  let base := strandKey strand
  let s1 := ((activeKeys base).foldl (fun s k => s.preempt k) s).rename (otherBank base)
  (activeKeys base).foldl State.activate s1

/-- What is left of the Archivist's work on a strand when an exchange comes: loads that have begun go on into the active bank; work that has not
started is abandoned (R222, R396, R397). [DESIGN CHOICE, unsafe, log 98] -/
def afterExchange (strand : Nat) (jobs : List SwapJob) : List SwapJob :=
  (jobs.filter fun j => j.strand != strand || (j.writing.isEmpty && !j.live)).map fun j => if j.strand = strand then { j with live := true } else j

/-- Exchange a strand and give the Archivist its descriptors. [DESIGN CHOICE, unsafe, log 98] -/
def State.swapStrand (s : State) (job : SwapJob) : State :=
  let s1 := s.exchange job.strand
  { s1 with swaps := afterExchange job.strand s1.swaps ++ [job], staged := s1.staged.filter fun j => j.strand != job.strand }

/-- The work that an exchange gives: eight slots to write out, and eight to load. -/
def SwapJob.whole (issuer strand incoming outgoing : Nat) (masks : List (Nat × Word × Word)) : SwapJob :=
  { issuer := issuer, strand := strand, incoming := incoming, outgoing := outgoing, writing := List.range 8, loading := List.range 8, masks := masks }

/-! ## SWAP (R395 to R397) -/

/-- The strand or tile, checked, with the descriptors: incoming, outgoing (R395). [DESIGN CHOICE, unsafe, log 97] -/
def swapOperands (tileOnly : Bool) : M (Nat × Nat × Nat) := do
  let n := (← opG .a).toNat
  let out := (← opG .b).toNat
  let inc := (← opG .c).toNat
  let c ← curCtx
  let tile := if tileOnly then n else n / 4
  let owner := Map.get 0 (← get).tileOwner tile
  if 384 ≤ tile ∨ (c.priv ≠ .f ∧ owner ≠ c.part + 1) ∨ out % 128 ≠ 0 ∨ inc % 128 ≠ 0 then raiseFree cProtection
  drainAccesses
  pure (n, inc, out)

def swapAsk (f : SForm) : Ask := { sAsk f [sA f, sB .g f, sD f] [] with priv := .s, guard := .unguarded }

/-- SWAP .now (R396). [DESIGN CHOICE, unsafe, log 97] -/
def execSwapNow (f : SForm) (s : State) : Result :=
  runInstr (.swapNow f) (swapAsk f) (do
    let (n, inc, out) ← swapOperands false
    let key ← curKey
    modify fun s => s.swapStrand (SwapJob.whole key n inc out [])) s

/-- SWAP .stage: the descriptors of the next exchange; the Archivist loads the shadow bank ahead of it (R222, R396). [DESIGN CHOICE, unsafe, log 97] -/
def execSwapStage (f : SForm) (s : State) : Result :=
  runInstr (.swapStage f) (swapAsk f) (do
    let (n, inc, out) ← swapOperands false
    let key ← curKey
    let job := SwapJob.whole key n inc out []
    let begun (j : SwapJob) : Bool := j.strand != n || j.live || !j.writing.isEmpty || decide (j.loading.length < 8)
    modify fun s =>
      { s with staged := (s.staged.filter fun j => j.strand != n) ++ [job], swaps := s.swaps.filter begun ++ [{ job with writing := [] }] }) s

/-- The deadline of a full switch in ticks (R401). [DESIGN CHOICE, unsafe, log 23] -/
def State.ckptTicks (s : State) (c : Ctx) : Nat := 100 * (if c.priv = .f then 20 else (s.part c.part).ckptdl)

/-- SWAP .full: dispatch on the tile stops (R400). [DESIGN CHOICE, unsafe, log 97] -/
def execSwapFull (f : SForm) (s : State) : Result :=
  runInstr (.swapFull f) (swapAsk f) (do
    let (tile, inc, out) ← swapOperands true
    let key ← curKey
    let c ← curCtx
    modify fun s =>
      { s with fullSwitches := (s.fullSwitches.filter fun w => w.tile != tile || w.checkpoint) ++
          [{ issuer := key, tile := tile, incoming := inc, outgoing := out, deadline := s.ticks + s.ckptTicks c }] }) s

/-- The active slots of a tile. -/
def tileKeys (tile : Nat) : List Nat := (List.range 32).map fun n => mkKey tile (n / 8) (n % 8)

/-- Whether some active context of a tile has a firing running. -/
def State.tileRuns (s : State) (tile : Nat) : Bool := (tileKeys tile).any fun k => ((s.ctx? k).map fun c => c.firing.isSome).getD false

/-- FULL_SWITCH_DEADLINE: every firing still in flight stops with a pre-emption frame (R400, R401). -/
def execFullSwitchDeadline (tile : Nat) (s : State) : Result :=
  runEvent (fun s =>
    if s.fullSwitches.any fun w => w.tile == tile && decide (w.deadline ≤ s.ticks) then (tileKeys tile).foldl (fun s k => s.preempt k) s else s) s

/-! ## The Archivist's access to memory (R397) -/

/-- A word through an issuing supervisor's translation. -/
def issuerWord (s : State) (issuer va : Nat) : Except Trap Nat :=
  match s.ctx? issuer with
  | none => .error { cause := cProtection, free := true }
  | some c => agentWord s issuer c va

/-- The physical address of an image through an issuing supervisor's translation; an image that is not aligned fails with PROTECTION.
[DESIGN CHOICE, unsafe, log 99] -/
def imagePlace (s : State) (issuer va align : Nat) (need : Right) : Except Trap Nat :=
  match s.ctx? issuer with
  | none => .error { cause := cProtection, free := true }
  | some c => if va % align ≠ 0 then .error { cause := cProtection, info := wd va } else translateFor s issuer c va need

/-- A record of KIND 3: a failure of the Archivist (R388, R398). [DESIGN CHOICE, unsafe, log 99] -/
def State.archivistFails (s0 : State) (issuer : Nat) (t : Trap) (handle va : Nat) : State :=
  let (w, sw) := s0.drawWord
  let s := if t.free then sw else s0
  s.sendRecord issuer [wd (t.cause.toNat + 3 * 2 ^ 16), wd handle, if t.free then w else t.info, 0, 0, t.syndrome, wd va, wd s.ticks]

/-- Add 1 to the counter that a descriptor names, with release at scope package (R397). -/
def State.creditDescriptor (s : State) (issuer desc : Nat) : State :=
  match s.ctx? issuer, issuerWord s issuer (desc + 64) with
  | some c, .ok ctr =>
    if ctr = 0 then s
    else match agentAdd s issuer c ctr 1 with
      | .ok s1 => s1.wakeAll
      | .error t => s.archivistFails issuer t 0 ctr
  | _, .error t => s.archivistFails issuer t 0 (desc + 64)
  | none, _ => s

/-- Bytes that the manual leaves open: free values. [DESIGN CHOICE, unsafe, log 100] -/
def State.freeBytes (s : State) (words : Nat) : List Byte × State :=
  ((List.range words).flatMap fun j => leBytes 8 (Config.freeWord (s.drawn + j)).toNat, { s with drawn := s.drawn + words })

/-- Free values into n pages of 64 KiB, where they can be written. [DESIGN CHOICE, unsafe, log 101] -/
def State.scribble (issuer va : Nat) : Nat → State → State
  | 0, s => s
  | n + 1, s =>
    let s1 := match (s.ctx? issuer).map fun c => translateFor s issuer c va .w with
      | some (.ok pa) => let (bs, s2) := s.freeBytes 8192; s2.dramWrite pa bs
      | _ => s
    State.scribble issuer (va + 65536) n s1

/-! ## Writing out (R398, R399) -/

/-- The engines that a context holds. -/
def State.heldEngines (s : State) (key : Nat) : List Nat := (s.engines.filter fun e => e.2.holder == some key).map fun e => e.1

/-- Whether the engines of a context allow it to be written out: an engine other than an MX has completed its commands, none wakes, and none is
about to be released. [DEDUCED, safe, log 102] -/
def State.mayWriteOut (s : State) (key : Nat) : Bool :=
  (s.heldEngines key).all fun e =>
    let g := s.engine e
    (engineClass e == 0 || g.cmds.isEmpty) && !g.closed && (match g.power with | .waking _ => false | _ => true)

/-- A saved lease: handle, effective priority, time left of the hold, and the engine's state. [DEDUCED, safe, log 102] -/
def State.saveLease (s : State) (c : Ctx) (e : Nat) : Word × Nat × Nat × Engine :=
  let g := s.engine e
  (((c.recordOf e g.serial).map (·.handle)).getD 0, g.prio, g.holdEnd - s.ticks, { g with notice := none })

/-- Release an engine whose state has been saved: nothing of its work is abandoned. [DEDUCED, safe, log 102] -/
def State.parkEngine (s : State) (e : Nat) : State := s.setEngine e ((s.engine e).afterRelease (engineClass e) s.ticks)

/-- g and v registers outside the masks of a checkpoint table are 0 and full (R400). -/
def Ctx.masked (c : Ctx) (m : Option (Word × Word)) : Ctx :=
  match m with
  | none => c
  | some (gm, vm) =>
    { c with g := c.g.filter fun e => gm.getLsbD e.1, gEmpty := c.gEmpty &&& gm, gBad := c.gBad &&& gm, v := c.v.filter fun e => vm.getLsbD e.1, vEmpty := c.vEmpty &&& vm,
             vBad := c.vBad &&& vm }

/-- The parts of an image whose layout the manual does not give hold free values; reserved bytes hold 0 (R398). [DESIGN CHOICE, unsafe, log 100] -/
def State.imageRest (s0 : State) (i : CtxImage) : State :=
  let (slots, s1) := s0.freeBytes 8
  let (middle, s2) := s1.freeBytes 80
  let (times, s3) := s2.freeBytes i.leases.length
  let (frames, s4) := s3.freeBytes 2320
  let records := (i.leases.zipIdx).flatMap fun l => leBytes 8 l.1.1.toNat ++ (times.drop (8 * l.2)).take 8
  let put (s : State) (at_ : Nat) (bs : List Byte) : State := s.dramWrite (i.addr + at_) bs
  let s5 := put (put (put s4 9040 slots) 9136 middle) 9776 (leBytes 8 i.ctx.mxsave.toNat ++ leBytes 8 i.leases.length)
  put (put (put (put s5 9792 ((records ++ List.replicate 2048 0).take 2048)) 11840 (List.replicate 448 0)) 12288 frames) 30848 (List.replicate 1920 0)

/-- The number of a context while it is written out to an address. -/
def imageKey (addr key : Nat) : Nat := 32768 * (1 + addr / 32768) + key % 32768

/-- Move a context from its slot to an image; its leases are released and saved with it (R398, R399). [DESIGN CHOICE, unsafe, log 100] -/
def State.toImage (s : State) (key addr : Nat) (c : Ctx) : State :=
  let held := s.heldEngines key
  let i : CtxImage :=
    { addr := addr, key := imageKey addr key, part := c.part, ctx := { c with leases := [] }, leases := held.map fun e => s.saveLease c e }
  let s1 := held.foldl (fun s e => s.parkEngine e) s
  let s2 : State := { s1 with ctxs := Map.erase s1.ctxs key, images := (s1.images.filter fun x => x.addr != addr) ++ [i] }
  ({ s2 with mem := i.store i.ctx s2.mem } : State).rename (swapFor key i.key)

/-- The MXSAVE address, which the supervisor has put into the image before the context is written out to it; it is a multiple of 64 KiB (R398).
[DEDUCED, unsafe, log 115] -/
def mxsaveAt (s : State) (addr : Nat) : Word := wd (leNat (Memory.readBytes s.mem (addr + 9776) 8)) &&& ~~~(0xFFFF#64)

/-- Write a context out to the image at a physical address of DRAM. [DEDUCED, unsafe, log 115] -/
def State.writeOut (s : State) (issuer key addr : Nat) (c0 : Ctx) : State :=
  let c := { c0 with mxsave := mxsaveAt s addr }
  let s1 := s.toImage key addr c
  match s1.images.find? fun i => i.addr == addr with
  | none => s1
  | some i =>
    let mx := ((List.range (i.leases.filter fun l => handleClass l.1 == 0).length)).foldl
      (fun s n => State.scribble issuer (c.mxsave.toNat + 786432 * n) 12 s) (s1.imageRest i)
    mx.wakeAll

/-- The first job of a strand that satisfies p, changed or removed. -/
def modJob (strand : Nat) (p : SwapJob → Bool) (f : SwapJob → Option SwapJob) : List SwapJob → List SwapJob
  | [] => []
  | j :: rest => if j.strand = strand ∧ p j then (f j).toList ++ rest else j :: modJob strand p f rest

/-- One slot of a write-out is done; after the last the outgoing descriptor's counter advances (R397). -/
def State.wroteSlot (s : State) (j : SwapJob) : State :=
  let rest := j.writing.tail
  let next (x : SwapJob) : Option SwapJob := if rest.isEmpty && x.loading.isEmpty then none else some { x with writing := rest }
  let s1 : State := { s with swaps := modJob j.strand (fun x => !x.writing.isEmpty) next s.swaps }
  if rest.isEmpty then s1.creditDescriptor j.issuer j.outgoing else s1

/-- The write-out of the next slot of a job (R397, R398). -/
def State.writeSlot (s : State) (j : SwapJob) (slot : Nat) : State :=
  let key := strandKey j.strand + 2048 * slot + 16384
  match s.ctx? key with
  | none => s.wroteSlot j
  | some c =>
    if 128 < c.leases.length then s.wroteSlot j
    else if !s.mayWriteOut key then s
    else
      match issuerWord s j.issuer (j.outgoing + 8 * slot) with
      | .error t => (s.archivistFails j.issuer t (handleOf key c).toNat (j.outgoing + 8 * slot)).wroteSlot j
      | .ok va =>
        if va = 0 then s.wroteSlot j
        else
          match imagePlace s j.issuer va 32768 .w with
          | .error t => (s.archivistFails j.issuer t (handleOf key c).toNat va).wroteSlot j
          | .ok pa =>
            (s.writeOut j.issuer key pa (c.masked ((j.masks.find? fun m => m.1 == slot).map fun m => m.2))).wroteSlot j

/-! ## Loading (R398, R399) -/

/-- Whether every lease of an image is held again by engines that are awake. [DESIGN CHOICE, unsafe, log 99] -/
def State.leasesBack (s : State) (key : Nat) : Bool :=
  !(s.requests.any fun r => r.ctx == key && r.only.isSome) &&
  (s.heldEngines key).all fun e => match (s.engine e).power with | .waking _ => false | _ => true

/-- Request the engines of an image again, each for itself alone (R399). -/
def State.requestLeases (s : State) (i : CtxImage) : State :=
  let s1 := i.leases.foldl (fun s l =>
    match handleEngine l.1 with
    | none => s
    | some e =>
      { s with
        fresh := s.fresh + 1
        requests := s.requests ++ [{ id := s.fresh, ctx := i.key, cls := engineClass e, cluster := engineCluster e, prio := l.2.1, hold := l.2.2.1,
                                     ectr := bits l.1.toNat 50 49, tick := s.ticks, only := some (e, l.1, l.2.2.2) }] }) s
  { s1 with images := s1.images.map fun x => if x.key = i.key then { x with leases := [] } else x }

/-- Put the context of an image into a slot (R398). [DESIGN CHOICE, unsafe, log 100] -/
def State.install (s : State) (i : CtxImage) (key : Nat) : State :=
  let c := i.read s.mem
  let s1 := ({ s with images := s.images.filter fun x => x.key != i.key } : State).rename (swapFor i.key key)
  let s2 := (s1.setCtx key c).joinTile c.graph (tileOf key)
  if inShadow key then s2.renew key else s2.activate key

/-- The leases of a context image in memory: the handles of its records, with their priority and time as free values (R398).
[DESIGN CHOICE, unsafe, log 100] -/
def State.imageLeases (s : State) (pa : Nat) : List (Word × Nat × Nat × Engine) :=
  (List.range (Nat.min 128 (leNat (Memory.readBytes s.mem (pa + 9784) 8)))).map fun n =>
    let w := Config.freeWord (s.drawn + 16 + n)
    (wd (leNat (Memory.readBytes s.mem (pa + 9792 + 16 * n) 8)), bits w.toNat 5 0, bits w.toNat 40 6, {})

/-- The context that the bytes at an address hold which no context of this device is written out to: the registers, full/empty bits and guards that stand
there; what the manual gives no place within its part of the image is a free value; it has no frame and no pending fault (R398).
[DESIGN CHOICE, unsafe, log 100] -/
def State.foreignImage (s : State) (pa slot : Nat) : CtxImage × State :=
  let w (n : Nat) : Word := Config.freeWord (s.drawn + n)
  let word (at_ : Nat) : Word := wd (leNat (Memory.readBytes s.mem (pa + at_) 8))
  let c : Ctx :=
    { priv := .u, asid := bits (w 0).toNat 12 0, part := bits (w 1).toNat 5 0
      gEmpty := ~~~(word 8768), vEmpty := ~~~(word 8776)
      guards := (List.range 16).foldl (fun m n => Map.set (0, 0) m n (word (8784 + 16 * n), word (8792 + 16 * n))) []
      e := (List.range 4).foldl (fun m n => Map.set 0 m n (word (9104 + 8 * n))) []
      flags := BitVec.ofNat 8 (w 2).toNat, warn := w 3, fpflags := w 4, trapvec := w 5, guardtab := w 6, modtab := w 7, ckpt := w 8
      pmsel := (List.range 4).foldl (fun m n => Map.set 0 m n (w (9 + n))) [], mxsave := mxsaveAt s pa }
  ({ addr := pa, key := imageKey pa slot, part := c.part, ctx := c, leases := s.imageLeases pa }, { s with drawn := s.drawn + 160 })

/-- What stands in the way of a load: none, or the cause (R398). [DESIGN CHOICE, unsafe, log 99] -/
def loadCheck (s : State) (issuer : Nat) (i : CtxImage) : Bool :=
  let c := s.ctx? issuer
  let part := (c.map fun c => if c.priv = .f then i.part else c.part).getD 64
  i.part == part && s.asidOf i.ctx.asid part && ((List.range 448).all fun j => Memory.read s.mem (i.addr + 11840 + j) == 0) &&
  (List.range 1920).all fun j => Memory.read s.mem (i.addr + 30848 + j) == 0

/-- One slot of a load is done; after the last the incoming descriptor's counter advances (R397). -/
def State.loadedSlot (s : State) (j : SwapJob) : State :=
  let rest := j.loading.tail
  let next (x : SwapJob) : Option SwapJob := if rest.isEmpty then none else some { x with loading := rest }
  let s1 : State := { s with swaps := modJob j.strand (fun x => x.writing.isEmpty) next s.swaps }
  if rest.isEmpty then s1.creditDescriptor j.issuer j.incoming else s1

/-- The next step of the load of an image into a slot: its leases, and then the context once they are back and the slot is free.
[DESIGN CHOICE, unsafe, log 99] -/
def State.loadStep (s : State) (i : CtxImage) (key : Nat) (done : State → State) : State :=
  if !i.leases.isEmpty then s.requestLeases i
  else if !s.leasesBack i.key ∨ (s.ctx? key).isSome then s
  else done (s.install i key)

/-- The load of the next slot of a job (R397, R398). -/
def State.loadSlot (s : State) (j : SwapJob) (slot : Nat) : State :=
  let key := strandKey j.strand + 2048 * slot + (if j.live then 0 else 16384)
  let fail (t : Trap) (va : Nat) : State := (s.archivistFails j.issuer t 0 va).loadedSlot j
  match issuerWord s j.issuer (j.incoming + 8 * slot) with
  | .error t => fail t (j.incoming + 8 * slot)
  | .ok va =>
    if va = 0 then s.loadedSlot j
    else
      match imagePlace s j.issuer va 32768 .r with
      | .error t => fail t va
      | .ok pa =>
        if s.dramBad pa 32768 then fail (badDataTrap va) va
        else
        match s.images.find? fun i => i.addr == pa with
        | none =>
          let (i, s1) := s.foreignImage pa key
          if loadCheck s1 j.issuer i then { s1 with images := s1.images ++ [i] } else fail { cause := cProtection, free := true } va
        | some i =>
          if loadCheck s j.issuer i then s.loadStep i key fun s => s.loadedSlot j
          else fail { cause := cProtection, free := true } va

/-! ## Full switches (R400) -/

/-- Whether an entry of a live-range table covers an offset. [DEDUCED, unsafe, log 36] -/
def entryCovers (e : List Nat) (off : Nat) : Bool := decide (wordAt e 0 ≤ off) && decide (off ≤ wordAt e 1)

/-- A range of a live-range entry: bank, start and length in bytes. [DEDUCED, unsafe, log 36] -/
def liveRange (w : Nat) : Option (Nat × Nat × Nat) := if w % 2 = 0 then none else some (bits w 5 1, bits w 21 6, bits w 38 22)

/-- The entry of a context's checkpoint table for the point at which it stopped: masks and ranges; none when it stopped elsewhere or the table cannot
be read. [DEDUCED, unsafe, log 36] -/
def State.liveEntry (s : State) (key : Nat) (c : Ctx) : Option (Option (Word × Word) × List (Nat × Nat × Nat)) :=
  match c.stoppedAt with
  | none => none
  | some p =>
    if c.ckpt = 0 ∨ c.firing.isSome then none
    else
      match agentWord s key c c.ckpt.toNat with
      | .error _ => none
      | .ok w =>
        match (List.range (w % 65536)).mapM fun n => (agentWords s key c (c.ckpt.toNat + 16 + 48 * n) 6).toOption with
        | none => none
        | some es =>
          match es.find? fun e => entryCovers e (cpOffset p) with
          | none => some (none, [])
          | some e => some (some (wd (wordAt e 2), wd (wordAt e 3)), [wordAt e 4, wordAt e 5].filterMap liveRange)

/-- The live entries of every outgoing context of a tile, or none when one has none. -/
def State.liveEntries (s : State) (tile : Nat) : Option (List (Nat × Option (Word × Word) × List (Nat × Nat × Nat))) :=
  ((tileKeys tile).filter fun k => (s.ctx? k).isSome).mapM fun k => ((s.ctx? k).bind fun c => s.liveEntry k c).map fun e => (k, e)

/-- The bytes of a scratchpad image: those of bank b from 65,536 × b on, zeros where nothing is saved, and then the 24 modes, a byte each. The manual
gives the image's contents and no layout. [DESIGN CHOICE, unsafe, log 101] -/
def ScratchImage.toBytes (i : ScratchImage) : List Byte :=
  (List.range 1572864).map (fun n => Map.get 0 i.bytes n) ++ (List.range 24).map fun b => BitVec.ofNat 8 (Map.get 0 i.modes b)

/-- The scratchpad image that bytes hold which no full switch has written as they are: modes and bytes. [DESIGN CHOICE, unsafe, log 101] -/
def ScratchImage.ofBytes (bs : List Byte) : ScratchImage :=
  { modes := (((bs.drop 1572864).zipIdx).map fun e => (e.2, e.1.toNat)).filter fun e => decide (e.2 < 3)
    bytes := (((bs.take 1572864).zipIdx).map fun e => (e.2, e.1)).filter fun e => e.2 != 0
    holds := [] }

/-- The scratchpad image of a tile: every SCRATCH bank whole, or the ranges given. -/
def State.scratchImage (s : State) (tile : Nat) (ranges : Option (List (Nat × Nat × Nat))) : ScratchImage :=
  let keep (n : Nat) : Bool :=
    let bank := n / 65536
    s.bankMode tile bank == 1 &&
    (match ranges with
     | none => true
     | some rs => rs.any fun r => r.1 == bank && decide (r.2.1 ≤ n % 65536) && decide (n % 65536 < r.2.1 + r.2.2))
  { modes := (List.range 24).map fun b => (b, s.bankMode tile b)
    bytes := (s.scratch.filter fun e => e.1 / 65536 / 24 == tile && keep (e.1 - 24 * tile * 65536)).map fun e => (e.1 - 24 * tile * 65536, e.2)
    holds := (s.holds.filter fun e => e.1 / 16 / 24 == tile).map fun e => (e.1 - 24 * tile * 16, e.2)
    bad := (s.badSectors.filter fun b => decide (bankSector tile 0 0 ≤ b) && decide (b < bankSector (tile + 1) 0 0) && keep ((b - bankSector tile 0 0) * 32)).map
      fun b => b - bankSector tile 0 0 }

/-- Save the scratchpad of a tile to an address of the issuer's. [DESIGN CHOICE, unsafe, log 101] -/
def State.saveScratch (s : State) (w : FullSwitch) (ranges : Option (List (Nat × Nat × Nat))) : State :=
  match issuerWord s w.issuer (w.outgoing + 72) with
  | .error t => s.archivistFails w.issuer t 0 (w.outgoing + 72)
  | .ok va =>
    if va = 0 then s
    else
      match imagePlace s w.issuer va 1 .w with
      | .error t => s.archivistFails w.issuer t 0 va
      | .ok _ =>
        let i := s.scratchImage w.tile ranges
        match s.ctx? w.issuer with
        | none => s
        | some c =>
          match agentStore s w.issuer c va i.toBytes with
          | (s1, none) => { s1 with scratchImages := (s1.scratchImages.filter fun x => x != i) ++ [i] }
          | (s1, some t) => s1.archivistFails w.issuer t 0 va

/-- Set the modes of an image, FIFO banks left alone, and copy its bytes in. [DESIGN CHOICE, unsafe, log 101] -/
def State.putScratch (s : State) (tile : Nat) (i : ScratchImage) : State :=
  let s1 := (List.range 24).foldl (fun s b =>
    let m := Map.get (s.bankMode tile b) i.modes b
    if m = 2 ∨ s.bankMode tile b = 2 ∨ m = s.bankMode tile b then s else s.switchBank tile b m) s
  { s1 with
    scratch := i.bytes.foldl (fun m e => Map.set 0 m (24 * tile * 65536 + e.1) e.2) s1.scratch
    badSectors := i.bad.foldl (fun l b => if l.contains (bankSector tile 0 0 + b) then l else l ++ [bankSector tile 0 0 + b]) s1.badSectors
    holds := i.holds.foldl (fun m e => Map.insert m (24 * tile * 16 + e.1) e.2) s1.holds }

/-- Zero-fill the SCRATCH banks of a tile and copy the incoming image in. [DESIGN CHOICE, unsafe, log 101] -/
def State.fillScratch (s : State) (w : FullSwitch) : State :=
  let s1 := (List.range 24).foldl (fun s b => if s.bankMode w.tile b = 1 then s.zeroBank w.tile b else s) s
  match issuerWord s1 w.issuer (w.incoming + 72) with
  | .error t => s1.archivistFails w.issuer t 0 (w.incoming + 72)
  | .ok va =>
    if va = 0 then s1
    else
      match imagePlace s1 w.issuer va 1 .r with
      | .error t => s1.archivistFails w.issuer t 0 va
      | .ok _ =>
        match s1.ctx? w.issuer with
        | none => s1
        | some c =>
          match agentBytes s1 w.issuer c va 1572888 with
          | .error t => s1.archivistFails w.issuer t 0 va
          | .ok bs => s1.putScratch w.tile ((s1.scratchImages.find? fun i => i.toBytes == bs).getD (ScratchImage.ofBytes bs))

/-- The masks by slot of a strand: those of every context that has an entry, whether the others have one or not (R400, R424). [DEDUCED, unsafe, log 36] -/
def State.masksOf (s : State) (base : Nat) : List (Nat × Word × Word) :=
  (activeKeys base).filterMap fun k => (((s.ctx? k).bind fun c => s.liveEntry k c).bind fun e => e.1).map fun m => (slotOf k, m)

/-- Steps 3 to 5 of a full switch, once nothing runs on the tile (R400). -/
def State.finishFull (s : State) (w : FullSwitch) : State :=
  let entries := s.liveEntries w.tile
  let s1 := s.saveScratch w (entries.map fun es => es.flatMap fun e => e.2.2)
  let s2 := (List.range 4).foldl (fun s n =>
    let strand := 4 * w.tile + n
    let masks := s.masksOf (strandKey strand)
    s.swapStrand (SwapJob.whole w.issuer strand (w.incoming + 128 * n) (w.outgoing + 128 * n) masks)) s1
  let s3 := s2.fillScratch w
  { s3 with fullSwitches := s3.fullSwitches.filter fun x => x.tile != w.tile || x.checkpoint }

/-- ARCHIVIST_WRITE_OUT: the full switch of the strand's tile once its firings have stopped, or the next slot to write out (R397 to R400). -/
def execArchivistWriteOut (strand : Nat) (s : State) : Result :=
  runEvent (fun s =>
    match s.fullSwitches.find? fun w => w.tile == strand / 4 && !w.checkpoint && !s.tileRuns w.tile with
    | some w => s.finishFull w
    | none =>
      match s.swaps.find? fun j => j.strand == strand && !j.writing.isEmpty with
      | none => s
      | some j => s.writeSlot j (j.writing.headD 0)) s

/-- The context image of a restored checkpoint that waits for a slot of a strand (R414). -/
def State.safeLoad (s : State) (strand : Nat) : Option CtxImage :=
  s.images.find? fun i => decide (2 ^ 38 ≤ i.addr) && sameStrand (i.key % 32768) (strandKey strand)

/-- ARCHIVIST_LOAD: the next step of the load of the next slot (R397 to R399, R414). -/
def execArchivistLoad (strand : Nat) (s : State) : Result :=
  runEvent (fun s =>
    match s.safeLoad strand with
    | some i => s.loadStep i (i.key % 32768) fun s => s
    | none =>
      match s.swaps.find? fun j => j.strand == strand && j.writing.isEmpty with
      | none => s
      | some j => s.loadSlot j (j.loading.headD 0)) s

/-! ## Gang slices (R222) -/

/-- The exchange of a strand at a gang instant, with the descriptors staged for it. [DESIGN CHOICE, unsafe, log 98] -/
def State.gangStrand (s : State) (strand : Nat) : State :=
  match s.staged.find? fun j => j.strand == strand with
  | some j => s.swapStrand { j with loading := [] }
  | none => let s1 := s.exchange strand; { s1 with swaps := afterExchange strand s1.swaps }

/-- GANG_SLICE_INSTANT: at epoch + k × slice every strand of the gang's tiles swaps, within a microsecond of the instant; instants that have gone by are
over (R222). [DESIGN CHOICE, unsafe, log 98] -/
def execGangSliceInstant (part : Nat) (s : State) : Result :=
  runEvent (fun s =>
    let p := s.part part
    match p.gang with
    | none => s
    | some (epoch, slice) =>
      let k := (s.ptp - epoch) / (slice * 1000)
      if s.ptp < epoch + p.gangDone * slice * 1000 then s
      else
        let tiles := (s.tileOwner.filter fun e => e.2 == part + 1).map fun e => e.1
        let due := p.isOpen && !p.paused && decide (s.ptp ≤ epoch + k * slice * 1000 + 1000)
        let s1 := if due then tiles.foldl (fun s t => (List.range 4).foldl (fun s n => s.gangStrand (4 * t + n)) s) s else s
        s1.setPart part { p with gangDone := k + 1 }) s

/-- PTP_LOCK_LOSS: the host is interrupted, and the chip keeps switching on its own %ptp (R222). [DEDUCED, safe, log 116] -/
def execPtpLockLoss (s : State) : Result :=
  runEvent (fun s => s.interrupt .lockLoss) s

/-! ## SPILLQ (R402) -/

/-- Whether a graph is too busy for SPILLQ: an instance in an active slot has a firing in flight, or an engine command on its ports is incomplete. -/
def State.spillBusy (s : State) (h : Nat) : Bool :=
  (s.instances h).any (fun e => !inShadow e.1 && e.2.inFlight) ||
  s.engines.any fun e =>
    (e.2.cmds.any fun m => ((s.owner? m.ctx).map fun c => c.graph == h).getD false) ||
    e.2.ops.any fun m => (m.control != .unbound || m.stream != .unbound) && ((s.owner? m.ctx).map fun c => c.graph == h).getD false

/-- The queues of an edge in the order of their consumers' numbers, with the tokens in queue order. -/
def State.edgeTokens (s : State) (h e : Nat) : List Token :=
  (s.queues.filter fun q => q.graph == h && q.edge == e).flatMap (fun q => q.fifo) ++
  (s.shadows.filter fun x => x.graph == h && x.edge == e).flatMap fun x => x.entries.map fun t => t.token

/-- The image of a token: its header, a sideband word with ADJ and COUNT of link word j in byte j (R140), and its link words.
[DESIGN CHOICE, unsafe, log 52] -/
def Token.image (t : Token) : List Byte :=
  leBytes 8 t.header.toNat ++ ((List.range 8).map fun j => ((t.words[j]?).map fun w => BitVec.ofNat 8 (b2n w.adj + 2 * w.count)).getD 0) ++
  t.words.flatMap fun w => leBytes 32 w.data.toNat

/-- The reservations that instances of a graph hold on an edge, by slot, a byte each. [DESIGN CHOICE, unsafe, log 52] -/
def State.edgeResv (s : State) (g : Graph) (e : Nat) : List Byte :=
  (List.range 8).map fun slot => BitVec.ofNat 8 ((s.instances g.handle).foldl (fun n x =>
    match g.edges[e]? with
    | some d => if slotOf x.1 = slot ∧ x.2.actor = d.pact then n + Map.get 0 x.2.resv d.pq else n
    | none => n) 0)

/-- The record of an edge with its tokens: EDGE and TOKENS, HELD, the reservations by slot and the number of tokens in the spill ring, a word each.
[DESIGN CHOICE, unsafe, log 52] -/
def State.edgeImage (s : State) (g : Graph) (e : Nat) : List Byte :=
  let qs := s.queues.filter fun q => q.graph == g.handle && q.edge == e
  let ts := s.edgeTokens g.handle e
  leBytes 4 e ++ leBytes 4 ts.length ++ leBytes 8 (qs.foldl (fun n q => n + q.held.length) 0) ++ s.edgeResv g e ++
  leBytes 8 (qs.foldl (fun n q => n + q.ring.length) 0) ++ ts.flatMap Token.image

/-- The bytes of the image of a graph's queues (R402). [DESIGN CHOICE, unsafe, log 52] -/
def State.spillImage (s : State) (g : Graph) (handle : Word) : List Byte :=
  let edges := (List.range g.edges.length).filter fun e => s.queues.any fun q => q.graph == g.handle && q.edge == e && s.blocked q
  let body := edges.flatMap fun e => s.edgeImage g e
  leBytes 8 handle.toNat ++ leBytes 8 edges.length ++ leBytes 8 (64 + body.length) ++ List.replicate 40 0 ++ body

/-- Every queue of a graph empty with full credits; the rings stay in memory (R402). -/
def State.emptyQueues (s : State) (h : Nat) : State :=
  { s with
    queues := s.queues.map fun q => if q.graph = h then { q with fifo := [], taken := 0, held := [], credits := q.depth, returning := 0 } else q
    shadows := s.shadows.map fun x => if x.graph = h then { x with entries := [], credits := s.edgeDepth h x.edge } else x
    ctxs := s.ctxs.map fun e => if e.2.graph = h ∧ h ≠ 0 then (e.1, { e.2 with resv := [] }) else e }

/-- SPILLQ .save of a graph that is quiet. [DESIGN CHOICE, unsafe, log 52] -/
def spillSave (s : State) (key : Nat) (c : Ctx) (g : Graph) (handle : Word) (a : Nat) : State × Except Trap Word :=
  match translateFor s key c a .w with
  | .error t => (s, .error t)
  | .ok _ =>
    let bs := s.spillImage g handle
    match agentStore s key c a bs with
    | (_, some t) => (s, .error t)
    | (s2, none) =>
      let i : QueueImage :=
        { image := bs, graph := g.handle, queues := s.queues.filter fun q => q.graph == g.handle, shadows := s.shadows.filter fun x => x.graph == g.handle
          resv := (s.instances g.handle).map fun e => (e.1, e.2.resv) }
      (({ s2 with queueImages := (s2.queueImages.filter fun x => x.image != bs) ++ [i] } : State).emptyQueues g.handle, .ok (wd bs.length))

/-- Put saved queues, shadows and reservations back. -/
def State.refill (s : State) (i : QueueImage) : State :=
  let s1 : State :=
    { s with
      queues := s.queues.map fun q =>
        match i.queues.find? fun x => x.graph == q.graph && x.edge == q.edge && x.consumer == q.consumer with
        | some x => { q with fifo := x.fifo, taken := x.taken, held := x.held, credits := x.credits, returning := x.returning }
        | none => q
      shadows := s.shadows.map fun y =>
        match i.shadows.find? fun x => x.graph == y.graph && x.edge == y.edge && x.producer == y.producer with
        | some x => x
        | none => y }
  i.resv.foldl (fun s r => s.modOwner r.1 fun c => { c with resv := r.2 }) s1

/-- Whether bytes stand at an address of a context's. -/
def standsAt (s : State) (key : Nat) (c : Ctx) (a : Nat) (bs : List Byte) : Bool :=
  match agentBytes s key c a bs.length with
  | .error _ => false
  | .ok x => x == bs

/-- SPILLQ .restore: the image is one that was saved, wherever its bytes stand now. [DESIGN CHOICE, unsafe, log 52] -/
def spillRestore (s : State) (key : Nat) (c : Ctx) (g : Graph) (handle : Word) (a : Nat) : State × Except Trap Word :=
  match agentWord s key c a with
  | .error t => (s, .error t)
  | .ok w =>
    match s.queueImages.find? fun i => i.graph == g.handle && standsAt s key c a i.image with
    | none => (s, .error wrongState)
    | some i =>
      if w ≠ handle.toNat ∨ (s.queues.any fun q => q.graph == g.handle && !(q.fifo.isEmpty && q.held.isEmpty)) ∨
          (s.shadows.any fun x => x.graph == g.handle && !x.entries.isEmpty) then (s, .error wrongState)
      else
        (s.refill i, .ok (wd (i.queues.foldl (fun n q => n + q.fifo.length) 0 + i.shadows.foldl (fun n x => n + x.entries.length) 0)))

/-- What SAVE and RESTORE have in common: the graph, the image address and the quiet state (R395, R402). [DESIGN CHOICE, unsafe, log 52] -/
def spillq (i : Instr) (f : SForm) (act : State → Nat → Ctx → Graph → Word → Nat → State × Except Trap Word) (s : State) : Result :=
  runInstr i { sAsk f [sA f, sB .g f] [gDst f.d.toNat] with priv := .s } (do
    let a ← opG .a
    let b ← opG .b
    let key ← curKey
    let c ← curCtx
    drainAccesses
    let s ← get
    if b.toNat % 128 ≠ 0 then deliverLater f.d.toNat (s, .error { cause := cProtection, info := b, addr := b })
    else
      match graphAt s key c a with
      | .error t => deliverLater f.d.toNat (s, .error t)
      | .ok (_, none) => deliverLater f.d.toNat (s, .error wrongState)
      | .ok (_, some g) =>
        if s.spillBusy g.handle then deliverLater f.d.toNat (s, .error wrongState)
        else
          if s.queues.any fun q => q.graph == g.handle && !q.transit.isEmpty then stall .memory
          deliverLater f.d.toNat (act s key c g a b.toNat)) s

/-- SPILLQ .save (R402). -/
def execSpillqSave (f : SForm) (s : State) : Result := spillq (.spillqSave f) f spillSave s
/-- SPILLQ .restore (R402). -/
def execSpillqRestore (f : SForm) (s : State) : Result := spillq (.spillqRestore f) f spillRestore s

end Sys2Proof.Machine
end

