-- ==== Sys2Proof/Machine/Errors.lean ====
section
/-! DEFINITION. Errors and recovery of the device: the error log (R406), link retries (R403), self-test and retirement (R407 to R409), device and warm
reset (R201, R417), the firmware image (R372, R415, R416), and device checkpoints (R413, R414). -/

namespace Sys2Proof.Machine

/-! ## The error log and self-test (R403, R406 to R408) -/

/-- Whether an error in a unit is followed by a test of it (R407). [DESIGN CHOICE, safe, log 104] -/
def unitTested (u : Nat) : Bool := [1, 2, 4, 5, 6].contains (unitType u)

/-- A sector fails its check code: DRAM by PA / 32, scratchpad above 2^47 (R404). -/
def State.spoil (s : State) (sector : Nat) : State :=
  if s.badSectors.contains sector then s else { s with badSectors := s.badSectors ++ [sector] }

/-- An error in a cache way. A clean copy is dropped, to be fetched again; dirty data goes home with its failing code (R403, R404). -/
def State.spoilWay (s : State) (tile pa : Nat) : State :=
  let dirty := s.dirtySector tile pa
  let s1 := s.flushSector tile pa
  if dirty then s1.spoil (pa / 32) else s1

/-- An error in a way of a cluster cache, as in a way of a tile (R403, R404). -/
def State.spoilLine (s : State) (cl pa : Nat) : State :=
  match Map.find? s.slices (sliceKey cl pa) with
  | none => s
  | some l =>
    if l.dirty.getLsbD (sectorOf pa) then s.spoil (pa / 32) else { s with slices := Map.erase s.slices (sliceKey cl pa) }

/-- An error in a FIFO bank: a link word of a token that waits in a queue of the tile fails, which one the address does not say (R405).
[DESIGN CHOICE, unsafe, log 113] -/
def State.spoilWord (s : State) (tile : Nat) : State :=
  let (q, s1) := s.pick (s.queues.filter fun q => tileOf q.consumer == tile && q.fifo.any fun t => !t.words.isEmpty)
  match q with
  | none => s1
  | some q =>
    let (n, s2) := s1.pick ((List.range q.fifo.length).filter fun n => ((q.fifo[n]?).map fun t => !t.words.isEmpty).getD false)
    let (j, s3) := s2.pick (List.range (((n.bind fun n => q.fifo[n]?).map fun t => t.words.length).getD 0))
    s3.modQueue q.graph q.edge q.consumer fun q =>
      { q with fifo := q.fifo.zipIdx.map fun t =>
          if some t.2 = n then { t.1 with words := t.1.words.zipIdx.map fun w => if some w.2 = j then { w.1 with bad := true } else w.1 } else t.1 }

/-- A register of the form of R405 fails. -/
def Ctx.spoilReg (c : Ctx) (form : Nat) : Ctx :=
  if bits form 8 8 = 1 then { c with vBad := setBit c.vBad (form % 64) true } else { c with gBad := setBit c.gBad (form % 64) true }

/-- A context without its guard table, whose words are then free, its wait slots or its replay queue (R405). [DESIGN CHOICE, unsafe, log 113] -/
def Ctx.lose (c : Ctx) (which : Nat) (word : Nat → Word) : Ctx :=
  { c with
    guards := if which = 0 then (List.range 16).foldl (fun m n => Map.set (0, 0) m n (word (2 * n), word (2 * n + 1))) [] else c.guards
    guardsHeld := if which = 0 then none else c.guardsHeld
    slots := if which = 1 then [] else c.slots
    replay := if which = 2 then [] else c.replay
    frames := if which = 2 then c.frames.map fun f => { f with entries := [] } else c.frames }

/-- The state of a context fails: it is parked without that state, and a record goes to its supervisor (R405). [DESIGN CHOICE, unsafe, log 113] -/
def State.spoilCtx (s0 : State) (key : Nat) : State :=
  match s0.ctx? key with
  | none => s0
  | some c =>
    let s : State := { s0 with drawn := s0.drawn + 35 }
    let word (n : Nat) : Word := Config.freeWord (s0.drawn + n)
    let broken (s : State) : State := s.modCtx key fun c => c.lose ((word 34).toNat % 3) word
    if c.parked then
      broken (s.sendRecord (recordTarget c key) [wd cMemUncorrectable.toNat, handleOf key c, word 32, 0, 0, 0, 0, wd s.ticks])
    else
      let pc := (c.firing.map fun f => f.pc).getD 0
      let (s1, entries) := match c.firing with
        | some f => s.interruptOps key f.serial none
        | none => (s, [])
      broken (s1.deliverTrap key { cause := cMemUncorrectable, info := word 32, park := true } pc (word 33) pc (entries ++ c.replay) false false)

/-- What an uncorrectable error that the log reports leaves behind: the storage that the record names fails from then on (R403 to R405). The records of a
register, of a lane and of the state of a context name the tile, and the context, or for a lane its strand, is one of it by a free choice; a lane holds a
slice of every v register (R408). [DESIGN CHOICE, unsafe, log 113] -/
def State.strike (s : State) (unit addr : Nat) : State :=
  let (key, s1) := s.pick ((s.ctxs.map fun e => e.1).filter fun k => tileOf k == unitPlace unit)
  match unitType unit with
  | 0 => match key with | some k => s1.modCtx k fun c => c.spoilReg addr | none => s1
  | 1 =>
    match s.bankMode (unitPlace unit) (unitPart unit) with
    | 0 => s.spoilWay (unitPlace unit) (addr % 2 ^ 38)
    | 1 => s.spoil (2 ^ 47 + bankKey (unitPlace unit) (unitPart unit) (addr % 65536) / 32)
    | _ => s.spoilWord (unitPlace unit)
  | 2 => s.spoilLine (unitPlace unit) (addr % 2 ^ 38)
  | 3 => s.spoil (addr % 2 ^ 38 / 32)
  | 4 =>
    match key with
    | some k => { s1 with ctxs := s1.ctxs.map fun e => if sameStrand e.1 k then (e.1, { e.2 with vBad := BitVec.allOnes 64 }) else e }
    | none => s1
  | 7 => match key with | some k => s1.spoilCtx k | none => s1
  | _ => s

/-- The die concerned by an error: that of its cluster, of its tile or of the memory device's address; that of a port is the event's (R244, R406). -/
def errorDie (u addr die : Nat) : Nat :=
  match unitType u with
  | 2 => dieOfCluster (unitPlace u)
  | 3 => bits addr 37 36
  | 5 => die % 4
  | _ => dieOfTile (unitPlace u)

/-- ERROR_LOG_RECORD: a record of KIND 4 goes to the die's firmware context, and the unit is to be tested (R406, R407); an uncorrectable
error stays where it is (R404, R405). [DESIGN CHOICE, safe, log 104] -/
def execErrorLogRecord (die cls unit addr : Nat) (s : State) : Result :=
  runEvent (fun s =>
    let u := unit % 2 ^ 18
    let s1 := (if cls % 4 = 1 then s.strike u addr else s).logError (errorDie u addr die) (cls % 4) u addr
    if unitTested u && !s.testDue.contains u && !s.testing.contains u then { s1 with testDue := s1.testDue ++ [u] } else s1) s

/-- The die of a unit; the manual ties no die to a port or a device, whose die is a free value. [DESIGN CHOICE, safe, log 104] -/
def State.unitDie (s0 : State) (u : Nat) : Nat × State :=
  let (w, s) := s0.drawWord
  match unitType u with
  | 2 => (dieOfCluster (unitPlace u), s0)
  | 3 => (w.toNat % 4, s)
  | 5 => (w.toNat % 4, s)
  | _ => (dieOfTile (unitPlace u), s0)

/-- LINK_FLIT_RETRY: a flit that fails its CRC is sent again, which is a corrected error of the link, and after eight failures of one flit the link is to be
tested (R403, R406). Whether the flit that failed before has got through since is a free choice. [DESIGN CHOICE, safe, log 106] -/
def execLinkFlitRetry (link : Nat) (s : State) : Result :=
  runEvent (fun s =>
    let u := unitWord 5 (link % 512) 0
    let (same, s0) := s.drawChoice
    let n := (if same then Map.get 0 s.flitRetries link else 0) + 1
    let (die, s1) := s0.unitDie u
    let s2 := s1.logError die 0 u 0
    if n < 8 then { s2 with flitRetries := Map.set 0 s.flitRetries link n }
    else
      { s2 with flitRetries := Map.set 0 s.flitRetries link 0
                testDue := if s.testDue.contains u then s.testDue else s.testDue ++ [u] }) s

/-- SELF_TEST: the test of a unit begins; it changes no value that a program can observe (R407). -/
def execSelfTest (unit : Nat) (s : State) : Result :=
  runEvent (fun s =>
    if s.testDue.contains unit then { s with testDue := s.testDue.filter fun u => u != unit, testing := s.testing ++ [unit] } else s) s

/-- The lanes of a link after a lasting fault: 8, 4, 2, and then the port is disabled (R408). [DESIGN CHOICE, unsafe, log 105] -/
def narrowed (lanes : Nat) : Nat := if lanes = 2 then 0 else lanes / 2

/-- The spare of a parent stands in for a failed part; where it does so already, the tile is removed from placement (R408).
[DESIGN CHOICE, unsafe, log 105] -/
def State.useSpare (s : State) (parent tile : Nat) : State :=
  if !s.spares.contains parent then { s with spares := s.spares ++ [parent] }
  else if s.tilesOut.contains tile then s
  else { s with tilesOut := s.tilesOut ++ [tile] }

/-- Whether a walker is one of the last eight of the 64 of its die, which are not withdrawn (R364, R408). -/
def State.lastWalkers (s : State) (u : Nat) : Bool :=
  unitType u == 6 && decide (56 ≤ (s.retired.filter fun x => unitType x == 6 && dieOfTile (unitPlace x) == dieOfTile (unitPlace u)).length)

/-- What the retirement of a unit changes besides the map (R408). A bank or a lane is replaced by the spare of its tile or strand, and a second one takes
the tile out of placement; the strand of a lane, which the unit word does not name, is a free choice. [DESIGN CHOICE, unsafe, log 105] -/
def State.dropUnit (s : State) (u : Nat) : State :=
  match unitType u with
  | 1 => s.useSpare (unitPlace u) (unitPlace u)
  | 4 =>
    let (w, s1) := s.drawWord
    s1.useSpare (512 + 4 * unitPlace u + w.toNat % 4) (unitPlace u)
  | 2 =>
    let cl := unitPlace u
    let s1 : State := { s with wayOwner := Map.set 0 s.wayOwner (16 * cl + unitPart u % 16) 65 }.dropLines
      fun c _ l => c == cl && l.way == unitPart u % 16
    if 12 < s1.retiredWays cl then s1.requestOp cl 1 else s1
  | 5 =>
    if unitPlace u < 16 then { s with linkLanes := Map.insert s.linkLanes (unitPlace u) (narrowed ((Map.find? s.linkLanes (unitPlace u)).getD 8)) }
    else if !s.spares.contains (4096 + unitPlace u) then { s with spares := s.spares ++ [4096 + unitPlace u] }
    else if s.modulesOff.contains (unitPlace u) then s
    else { s with modulesOff := s.modulesOff ++ [unitPlace u] }
  | _ => s

/-- A lasting fault: the unit is retired at once and a record of CLASS 3 is sent (R408). [DESIGN CHOICE, unsafe, log 105] -/
def State.retireUnit (s : State) (u : Nat) : State :=
  let (die, s1) := s.unitDie u
  if s.lastWalkers u then s1
  else
    let s2 : State := { s1.dropUnit u with retired := if s.retired.contains u then s.retired else s.retired ++ [u] }
    s2.logError die 3 u 0

/-- Ticks of one hour (R408). -/
def hourTicks : Nat := 360000000000

/-- SELF_TEST_END: a unit that passed had a transient error, the fourth of which within an hour is lasting; one that failed is retired (R408). -/
def execSelfTestEnd (unit : Nat) (passed : Bool) (s : State) : Result :=
  runEvent (fun s =>
    if s.testing.contains unit then
      let s1 : State := ({ s with testing := s.testing.filter fun u => u != unit } : State).wakeAll
      if passed then
        let recent := (s1.transients.filter fun t => decide (s1.ticks < t.tick + hourTicks)) ++ [{ unit := unit, tick := s1.ticks }]
        let s2 : State := { s1 with transients := recent }
        if 4 ≤ (recent.filter fun t => t.unit == unit).length then s2.retireUnit unit else s2
      else s1.retireUnit unit
    else s) s

/-! ## Resets (R201, R409, R415, R417) -/

/-- DEVICE_RESET: everything returns to its value at reset; the safe tier and what the host has been told lie outside the device.
[DESIGN CHOICE, unsafe, log 5; DESIGN CHOICE, unsafe, log 107] -/
def execDeviceReset (s : State) : Result :=
  runEvent (fun s => { State.reset with safe := s.safe, irqs := s.irqs, drawn := s.drawn, inputs := s.inputs }) s

/-- WARM_RESET: the compute dies reset, every partition is closed and the boot ROM runs; GDDR-7 keeps its contents, and the host its registers
(R415, R417). [DESIGN CHOICE, unsafe, log 107] -/
def State.warmReset (s : State) : State :=
  { State.reset with
    safe := s.safe, irqs := s.irqs, drawn := s.drawn, inputs := s.inputs, mem := s.mem, ticks := s.ticks, ptp := s.ptp, ptpset := s.ptpset
    badSectors := s.badSectors.filter fun b => decide (b < 2 ^ 47)
    mgmt := { s.mgmt with inrom := true, busy := false, ckptBusy := false, pushWaits := none } }
def execWarmReset (s : State) : Result := runEvent State.warmReset s

/-! ## The firmware image (R372, R415, R416) -/

/-- FIRMWARE_PUSH: the image is refused for its length, or its verification begins; a live push takes RUNNING away, and waits while a checkpoint
runs (R203, R415, R416). [DESIGN CHOICE, unsafe, log 108] -/
def State.pushImage (s : State) (addr len : Nat) (live : Bool) : State :=
  let m := s.mgmt
  if m.busy then s
  else if live && m.ckptBusy then { s with mgmt := { m with pushWaits := some (addr, len) } }
  else if 2 ^ 26 < len then
    { s with mgmt := { m with live := live, fwaddr := addr, fwlen := len % 2 ^ 32, fail := true, why := 3 } }
  else
    let s1 : State := { s with mgmt := { m with live := live, fwaddr := addr, fwlen := len, busy := true, fail := false, why := 0 } }
    if live && !m.inrom then ({ s1 with running := false } : State).budgetEmergency else s1
/-- What the host writes into the registers of the management window before a PUSH. -/
def MgmtWindow.pushRegs (m : MgmtWindow) (addr len : Nat) (live : Bool) : MgmtWindow :=
  { m with regLive := live, regAddr := BitVec.ofNat 64 addr, regLen := BitVec.ofNat 32 len }
/-- [DESIGN CHOICE, unsafe, log 11] -/
def execFirmwarePush (addr len : Nat) (live : Bool) (s : State) : Result :=
  runEvent (fun s => ({ s with mgmt := s.mgmt.pushRegs addr len live } : State).pushImage addr len live) s

/-- Why an image is refused: 0 accepted, 1 the digest of its root key is not the one in the ROM, 2 its signature does not verify (R372, R415).
[DESIGN CHOICE, unsafe, log 9] -/
def firmwareWhy (image : List Byte) : Nat :=
  if Config.shake256 (Config.rootKey image) ≠ Config.romDigest then 1
  else if Config.falconVerify (Config.rootKey image) image then 0 else 2

/-- The bytes of the image that was pushed. [DESIGN CHOICE, unsafe, log 9] -/
def firmwareImage (m : MgmtWindow) : List Byte := (List.range m.fwlen).map (Config.firmwareByte m.fwaddr)

/-- Bind the firmware's slot 0 to the image that the boot ROM has loaded. [DESIGN CHOICE, unsafe, log 8] -/
def State.bindFirmware (s : State) (digest : BitVec 512) : State :=
  let image := firmwareImage s.mgmt
  let a := s.asid firmwareAsid
  let gen := Map.get 0 a.gens 0 + 1
  let b : Binding :=
    { asid := firmwareAsid, slot := 0, gen := gen, base := Config.firmwareBase, len := image.length, digest := digest
      image := (image.zipIdx).foldl (fun m e => Map.set 0 m e.2 e.1) [] }
  ({ s with bindings := (s.bindings.filter fun x => !(x.asid == firmwareAsid && x.slot == 0)) ++ [b], fwdigest := digest } : State).setAsid
    firmwareAsid { a with gens := Map.set 0 a.gens 0 gen, bound := setBit a.bound 0 true } |>.dramWrite Config.firmwareBase image

/-- Start or restart the firmware context of a die at the entry of the image (R372, R416). [DESIGN CHOICE, unsafe, log 11; DESIGN CHOICE, unsafe, log 108] -/
def State.startFirmware (s : State) (die : Nat) : State :=
  let key := firmwareOf die
  let entry := codePtr 0 Config.firmwareEntry
  match s.ctx? key with
  | some c => (s.setCtx key { c with entry := entry }).resetFirmware key
  | none =>
    let c : Ctx := { priv := .f, asid := firmwareAsid, part := 0, entry := entry, q := [(15, .records)], modtab := Config.modtab firmwareAsid, born := s.fresh }
    let s1 := s.restartFirmware key c
    { s1 with queues := (s1.queues.filter fun q => q.consumer != key) ++ [recordQueue key] }

/-- The units of the map that the host hands over at boot (R409). [DESIGN CHOICE, unsafe, log 9] -/
def bootMap (m : MgmtWindow) : List Nat := (List.range (2 ^ 18)).filter (Config.retiredInMap m.retmap)

/-- The units of the map that the host handed over are retired again (R409). -/
def State.takeMap (s : State) (units : List Nat) : State := units.foldl (fun s u => s.dropUnit u) { s with retired := units }

/-- FIRMWARE_VERIFY_END: an image that verifies is started, or replaces the running one; one that does not leaves FAIL. The digest is that of the
image (R32, R372, R416). [DESIGN CHOICE, unsafe, log 9; DESIGN CHOICE, unsafe, log 11; DESIGN CHOICE, unsafe, log 108] -/
def execFirmwareVerifyEnd (digest : BitVec 512) (s : State) : Result :=
  runEvent (fun s =>
    let m := s.mgmt
    if !m.busy then s
    else
      let why := firmwareWhy (firmwareImage m)
      if why ≠ 0 then { s with mgmt := { m with busy := false, fail := true, why := why } }
      else if digest ≠ Config.shake256 (firmwareImage m) then s
      else
        let s1 : State := { s with mgmt := { m with busy := false, inrom := false } }
        (List.range 4).foldl (fun s d => s.startFirmware d) ((if m.inrom then s1.takeMap (bootMap m) else s1).bindFirmware digest)) s

/-! ## Device checkpoints (R413, R414) -/

/-- The open partitions that a mask names. -/
def State.maskParts (s : State) (mask : Nat) : List Nat := (List.range 64).filter fun p => mask / 2 ^ p % 2 == 1 && (s.part p).isOpen

/-- The compute tiles of partitions. -/
def State.tilesOf (s : State) (ps : List Nat) : List Nat := (s.tileOwner.filter fun e => ps.contains (e.2 - 1)).map fun e => e.1

/-- A command that is refused (R415). [DESIGN CHOICE, unsafe, log 109] -/
def State.ckptError (s : State) (code : Nat) : State := { s with mgmt := { s.mgmt with ckptErr := true, ckptErrcode := code } }

/-- Dispatch of launches stops in partitions, or goes on; limits in ticks do not count the time between (R413). -/
def State.pauseParts (s : State) (ps : List Nat) : State :=
  ps.foldl (fun s p => s.setPart p { s.part p with paused := true, pausedSince := s.ticks }) s
def State.unpauseParts (s : State) (ps : List Nat) : State :=
  let shift (g : Graph) : Graph := { g with drainBy := g.drainBy.map fun t => t + (s.ticks - (s.part g.part).pausedSince) }
  let s1 : State := { s with graphs := s.graphs.map fun g => if ps.contains g.part then shift g else g }
  ps.foldl (fun s p => s.setPart p { s.part p with paused := false }) s1

/-- The ranges of physical memory that the tables of a stage 2 map, from a table of a level down (R361, R413). -/
def mappedFrom (s : State) : Nat → Nat → Nat → List (Nat × Nat)
  | 0, _, _ => []
  | fuel + 1, level, table =>
    if 2 ^ 38 ≤ table then []
    else
      (List.range (if level = 3 then 32 else 512)).flatMap fun n =>
        let d := descriptorAt s (table + 8 * n)
        if d % 2 = 0 ∨ badDescriptor 2 level d then []
        else if d / 2 % 2 = 1 then [(bits d 51 8 * 256, 2 ^ levelLog level)]
        else mappedFrom s fuel (level + 1) (bits d 51 8 * 256)

def inRange (rs : List (Nat × Nat)) (a : Nat) : Bool := rs.any fun r => decide (r.1 ≤ a) && decide (a < r.1 + r.2)

/-- The bytes of ranges of pages, of which MW_CKPTPROG counts those copied so far (R415). -/
def rangeBytes (rs : List (Nat × Nat)) : Nat := rs.foldl (fun n r => n + r.2) 0

/-- CHECKPOINT_SAVE: dispatch stops in the partitions named, and their tiles stop as for a full switch (R413). [DESIGN CHOICE, unsafe, log 109] -/
def State.beginSave (s : State) (mask base : Nat) : State :=
  if s.mgmt.ckptBusy then s.ckptError 1
  else if !Config.safeTierReached base then s.ckptError 2
  else
    let ps := s.maskParts mask
    let stops := ps.flatMap fun p => (s.tilesOf [p]).map fun t =>
      ({ issuer := supervisorOf p, tile := t, incoming := 0, outgoing := 0, deadline := s.ticks + 100 * (s.part p).ckptdl, checkpoint := true } : FullSwitch)
    { s.pauseParts ps with
      fullSwitches := s.fullSwitches ++ stops
      mgmt := { s.mgmt with ckptBusy := true, ckptRestore := false, ckptMask := BitVec.ofNat 64 mask, ckptBase := base / 4096 * 4096, ckptProg := 0,
                            ckptTotal := rangeBytes (ps.flatMap fun p => mappedFrom s 4 0 (s.part p).root) } }
/-- What the host writes into the registers of the management window before a SAVE or a RESTORE. -/
def MgmtWindow.ckptRegs (m : MgmtWindow) (mask base : Nat) : MgmtWindow :=
  { m with regMask := BitVec.ofNat 64 mask, regBase := BitVec.ofNat 64 (base / 4096 * 4096) }
def execCheckpointSave (mask base : Nat) (s : State) : Result :=
  runEvent (fun s => ({ s with mgmt := s.mgmt.ckptRegs mask base } : State).beginSave mask base) s

/-- The contexts of tiles, in both banks. -/
def State.ctxsOn (s : State) (tiles : List Nat) : List (Nat × Ctx) := s.ctxs.filter fun e => tiles.contains (tileOf e.1)

/-- An address beyond DRAM for the image of a context that a checkpoint writes out. -/
def safeAddr (key : Nat) : Nat := 2 ^ 60 + 32768 * key

/-- What the safe tier holds of a context. [DEDUCED, unsafe, log 110] -/
def State.safeContext (s : State) (e : Nat × Ctx) : CtxImage :=
  { addr := safeAddr e.1, key := imageKey (safeAddr e.1) e.1, part := e.2.part, ctx := { e.2 with leases := [] }
    leases := (s.heldEngines e.1).map fun n => s.saveLease e.2 n }

/-- The image of partitions as the device stands. [DEDUCED, unsafe, log 110] -/
def State.safeImage (s : State) (base : Nat) (ps : List Nat) : SafeImage :=
  let tiles := s.tilesOf ps
  let written := s.images.filter fun i => ps.contains i.part
  let mapped := ps.flatMap fun p => mappedFrom s 4 0 (s.part p).root
  let ranges := mapped ++ ((written.map fun i => i.addr / 65536 * 65536).dedup.filter fun a => !inRange mapped a).map fun a => (a, 65536)
  let asids := s.asids.filter fun e => e.2.live && ps.contains e.2.part
  let graphs := s.graphs.filter fun g => ps.contains g.part
  let mine (h : Nat) : Bool := graphs.any fun g => g.handle == h
  { base := base, mask := BitVec.ofNat 64 (bitsWhere 64 fun p => ps.contains p), digest := s.fwdigest, ranges := ranges
    pages := s.mem.filter fun c => inRange ranges c.1
    bad := s.badSectors.filter fun b => decide (b < 2 ^ 47) && inRange ranges (32 * b)
    badBanks := s.badSectors.filter fun b => decide (2 ^ 47 ≤ b) && tiles.contains ((b - 2 ^ 47) / 2048 / 24)
    written := written, queueBanks := s.queueBanks.filter fun e => tiles.contains e.1
    parts := (ps.map fun p => (p, { s.part p with paused := false }))
    asids := asids, bindings := s.bindings.filter fun b => asids.any fun a => a.1 == b.asid
    graphs := graphs.map fun g => { g with drainBy := g.drainBy.map fun t => t - (s.part g.part).pausedSince }
    subqs := s.subqs.filter fun q => ps.contains q.part
    queues := s.queues.filter fun q => mine q.graph, shadows := s.shadows.filter fun x => mine x.graph
    contexts := (s.ctxsOn tiles).map fun e => s.safeContext e
    tileOwner := s.tileOwner.filter fun e => ps.contains (e.2 - 1)
    bankModes := s.bankModes.filter fun e => tiles.contains (e.1 / 24)
    scratch := s.scratch.filter fun e => tiles.contains (e.1 / 65536 / 24)
    holds := s.holds.filter fun e => tiles.contains (e.1 / 16 / 24) }

/-- Whether the contexts of tiles can be written out: nothing runs, and nothing of theirs is on its way. -/
def State.tilesStopped (s : State) (tiles : List Nat) : Bool :=
  !(tiles.any s.tileRuns) && (s.ctxsOn tiles).all (fun e => s.mayWriteOut e.1) &&
  !(s.ops.any fun o => tiles.contains (tileOf o.ctx) && (match o.kind with | .lease _ => false | _ => true)) &&
  !(s.copies.any fun c => tiles.contains (tileOf c.ctx)) && !(s.asyncDone.any fun d => tiles.contains (tileOf d.ctx)) &&
  !(s.repairs.any fun r => tiles.contains (tileOf r.2.2.op.ctx)) && !s.queues.any fun q => tiles.contains (tileOf q.consumer) && !q.transit.isEmpty

/-- The end of a command: DONE, and dispatch goes on. -/
def State.ckptDone (s : State) (ps : List Nat) (bytes : Nat) : State :=
  { s.unpauseParts ps with mgmt := { s.mgmt with ckptBusy := false, ckptDone := true, ckptProg := bytes }
                           fullSwitches := s.fullSwitches.filter fun w => !w.checkpoint }

/-- The live PUSH that waited for the end of a checkpoint (R416). [DESIGN CHOICE, unsafe, log 108] -/
def State.pushWaiting (s : State) : State :=
  match s.mgmt.pushWaits with
  | some (addr, len) => ({ s with mgmt := { s.mgmt with pushWaits := none } } : State).pushImage addr len true
  | none => s

/-- The physical pages of ranges, in ascending address, each once (R414). -/
def pagesIn (rs : List (Nat × Nat)) : List Nat :=
  ((rs.flatMap fun r => (List.range (r.2 / 65536)).map fun j => r.1 / 65536 * 65536 + 65536 * j).mergeSort fun a b => decide (a ≤ b)).dedup

/-- The words that the header of an image holds, in the order in which R414 lists them: version, partition mask, page count, count of bad sectors, FWDIGEST. -/
def SafeImage.header (i : SafeImage) : List Word :=
  [wd i.version, i.mask, wd (pagesIn i.ranges).length, wd (i.bad.length + i.badBanks.length)] ++ (List.range 8).map fun j => i.digest.extractLsb' (64 * j) 64
/-- A page in an image: its physical address and its 64 KiB (R414). -/
def SafeImage.page (i : SafeImage) (pa : Nat) : List Byte := leBytes 8 pa ++ Memory.readBytes i.pages pa 65536
/-- The address at which a bad sector is listed: physical, or for a bank that which its aperture gives it (R239, R414). -/
def sectorAddress (b : Nat) : Nat :=
  if b < 2 ^ 47 then 32 * b else 0xFE * 2 ^ 56 + (b - 2 ^ 47) / 2048 / 24 * 2 ^ 21 + (b - 2 ^ 47) / 2048 % 24 * 2 ^ 16 + (b - 2 ^ 47) % 2048 * 32
/-- The bytes of an image: the header padded to 4,096 bytes, the pages, and the addresses of the bad sectors (R414). -/
def SafeImage.bytes (i : SafeImage) : List Byte :=
  ((i.header.flatMap fun w => leBytes 8 w.toNat) ++ List.replicate 4000 0) ++ (pagesIn i.ranges).flatMap i.page ++
  (i.bad ++ i.badBanks).flatMap fun b => leBytes 8 (sectorAddress b)

/-- The end of a SAVE: the image is in the safe tier, and the contexts, which were written out, are loaded again (R413). [DEDUCED, unsafe, log 110] -/
def State.endSave (s : State) : State :=
  let ps := s.maskParts s.mgmt.ckptMask.toNat
  let tiles := s.tilesOf ps
  if !s.tilesStopped tiles then s
  else
    let s1 := tiles.foldl (fun s t => s.flushWays t fun _ => true) s
    let image := s1.safeImage s.mgmt.ckptBase ps
    let s2 : State := { s1 with safe := (s1.safe.filter fun i => i.base != image.base) ++ [image] }
    let s3 := (s2.ctxsOn tiles).foldl (fun s e => s.toImage e.1 (safeAddr e.1) e.2) s2
    (s3.ckptDone ps (rangeBytes image.ranges)).wakeAll.pushWaiting

/-- CHECKPOINT_RESTORE (R414, R415). [DESIGN CHOICE, unsafe, log 109] -/
def State.beginRestore (s : State) (mask base : Nat) : State :=
  if s.mgmt.ckptBusy then s.ckptError 1
  else
    match s.safe.find? fun i => i.base == base / 4096 * 4096 with
    | none => s.ckptError 2
    | some i =>
      if !Config.safeTierReached base then s.ckptError 2
      else if i.digest ≠ s.fwdigest then s.ckptError 3
      else
        { s.pauseParts (s.maskParts i.mask.toNat) with
          mgmt := { s.mgmt with ckptBusy := true, ckptRestore := true, ckptMask := BitVec.ofNat 64 mask, ckptBase := i.base, ckptProg := 0,
                                 ckptTotal := rangeBytes i.ranges } }
def execCheckpointRestore (mask base : Nat) (s : State) : Result :=
  runEvent (fun s => ({ s with mgmt := s.mgmt.ckptRegs mask base } : State).beginRestore mask base) s

/-- Remove what the device holds for partitions, before an image takes its place. -/
def State.wipeParts (s : State) (ps tiles : List Nat) : State :=
  let s1 := (s.graphs.filter fun g => ps.contains g.part).foldl (fun s g => s.retireAll g.handle) s
  let s2 := (s1.ctxsOn tiles).foldl (fun s e => let s' := s.stopWork e.1; { s' with ctxs := Map.erase s'.ctxs e.1 }) s1
  { s2 with
    graphs := s2.graphs.filter fun g => !ps.contains g.part
    subqs := s2.subqs.filter fun q => !ps.contains q.part
    bindings := s2.bindings.filter fun b => !s2.asids.any fun a => a.1 == b.asid && ps.contains a.2.part && a.2.live
    asids := s2.asids.filter fun a => !(ps.contains a.2.part && a.2.live)
    tlb := s2.tlb.filter fun e => !ps.contains e.part
    tileCache := s2.tileCache.filter fun e => !tiles.contains (sectorTile e.1)
    swaps := s2.swaps.filter fun j => !tiles.contains (j.strand / 4)
    staged := s2.staged.filter fun j => !tiles.contains (j.strand / 4)
    fullSwitches := s2.fullSwitches.filter fun w => !tiles.contains w.tile
    images := s2.images.filter fun i => !ps.contains i.part }

/-- A supervisor whose partition comes back with an image. [DESIGN CHOICE, unsafe, log 109] -/
def State.reopenSupervisor (s : State) (p : Nat) : State :=
  let key := supervisorOf p
  if (s.ctx? key).isSome then s
  else ({ s.setCtx key (newSupervisor s p) with fresh := s.fresh + 1, queues := s.queues ++ [recordQueue key] } : State).renew key

/-- The device as an image of the safe tier has it: pages, bad sectors, queues and contexts, which wait to be loaded into their slots (R414).
[DESIGN CHOICE, unsafe, log 109] -/
def State.putSafe (s0 : State) (i : SafeImage) : State :=
  let tiles := i.tileOwner.map fun e => e.1
  let s := s0.wipeParts (i.parts.map fun e => e.1) tiles
  let mem := i.pages.foldl (fun m c => Memory.write m c.1 c.2) (s.mem.filter fun c => !inRange i.ranges c.1)
  let s1 : State :=
    { s with
      mem := mem
      badSectors := (s.badSectors.filter fun b => !(decide (b < 2 ^ 47) && inRange i.ranges (32 * b)) &&
        !(decide (2 ^ 47 ≤ b) && tiles.contains ((b - 2 ^ 47) / 2048 / 24))) ++ i.bad ++ i.badBanks
      images := s.images ++ i.written
      queueBanks := i.queueBanks.foldl (fun m e => Map.insert m e.1 e.2) (s.queueBanks.filter fun e => !tiles.contains e.1)
      parts := i.parts.foldl (fun m e => Map.set {} m e.1 e.2) s.parts
      asids := i.asids.foldl (fun m e => Map.insert m e.1 e.2) s.asids
      bindings := s.bindings ++ i.bindings
      graphs := s.graphs ++ i.graphs.map fun g => { g with drainBy := g.drainBy.map fun t => t + s.ticks }
      subqs := s.subqs ++ i.subqs, queues := s.queues ++ i.queues, shadows := s.shadows ++ i.shadows
      tileOwner := i.tileOwner.foldl (fun m e => Map.insert m e.1 e.2) s.tileOwner
      bankModes := i.bankModes.foldl (fun m e => Map.insert m e.1 e.2) (s.bankModes.filter fun e => !tiles.contains (e.1 / 24))
      scratch := i.scratch.foldl (fun m e => Map.insert m e.1 e.2) (s.scratch.filter fun e => !tiles.contains (e.1 / 65536 / 24))
      holds := i.holds.foldl (fun m e => Map.insert m e.1 e.2) (s.holds.filter fun e => !tiles.contains (e.1 / 16 / 24)) }
  let s2 := i.contexts.foldl (fun s c => ({ s with images := s.images ++ [c] } : State).rename (swapFor (c.key % 32768) c.key)) s1
  (i.parts.map fun e => e.1).foldl (fun s p => s.reopenSupervisor p) s2

/-- CHECKPOINT_END (R413, R414). -/
def execCheckpointEnd (s : State) : Result :=
  runEvent (fun s =>
    if !s.mgmt.ckptBusy then s
    else if s.mgmt.ckptRestore then
      match s.safe.find? fun i => i.base == s.mgmt.ckptBase with
      | none => s
      | some i =>
        let s1 := s.putSafe i
        (s1.ckptDone [] (rangeBytes i.ranges)).wakeAll.pushWaiting
    else s.endSave) s

end Sys2Proof.Machine
end

