-- ==== Sys2Proof/Machine/Bounds.lean ====
section
/-! DEFINITION. Error bounds in eb16 (R53, R299, R309), the tiles and planes of a matrix engine (R333, R334), its exact group sums and the
running bound (R339, R340), thresholds (R341) and the rules of R344. -/

namespace Sys2Proof.Machine

/-! ## Bound arithmetic -/

/-- Up(v): the least eb16 code not below a value; a NaN or an infinity gives unbounded (R309, R340). [DEDUCED, unsafe, log 76] -/
def upBound (v : Val) : Nat := (encodeEb16 v).code

def zeroVal : Val := .fin false 0 0
/-- [DEDUCED, unsafe, log 76] -/
def mulUp (a b : Val) : Val := (mulVal a b).val
/-- A value times 2^k. [DEDUCED, safe, log 20] -/
def Val.scale (v : Val) (k : Int) : Val :=
  match v with
  | .fin n m e => .fin n m (e + k)
  | x => x

/-- BoundAdd (R53). -/
def boundAdd (a b : Nat) : Nat :=
  match decodeVal 19 a, decodeVal 19 b with
  | .fin n1 m1 e1, .fin n2 m2 e2 => upBound (sumVal 0 n1 m1 e1 n2 m2 e2)
  | _, _ => 0xFF00

/-- The canonical code of an eb16 entry (R345). [DEDUCED, unsafe, log 76] -/
def canonBound (c : Nat) : Nat := if c / 256 % 256 = 0 then 0 else if c / 256 % 256 = 255 then 0xFF00 else c % 65536

/-- Ulp(fmt, x) of a finite magnitude (R53, R344). -/
def ulpVal (ty : Nat) (m : Nat) (e : Int) : Val :=
  match binaryOf ty with
  | some b =>
    let lead := if m = 0 then b.emin else if floorLog m e < b.emin then b.emin else floorLog m e
    .fin false 1 (lead - b.fbits)
  | none =>
    if ty = 15 ∨ ty = 16 then
      let w := if ty = 15 then 7 else 5
      .fin false 1 (taperedMag w (Nat.max 1 (if m = 0 then 1 else taperedBelow w m e (2 ^ w - 1)))).2
    else .fin false 1 0

/-- The greatest magnitude among values: a NaN or an infinity where one is among them. -/
def maxMag (vs : List Val) : Val :=
  if vs.any Val.isNan then .nan false
  else if vs.any Val.isInf then .inf false
  else vs.foldl (fun m v => if m.lt v.abs then v.abs else m) zeroVal

/-! ## Tiles (R333, R334) -/

def Engine.tile (g : Engine) (t : Nat) : MxTile := Map.get {} g.tiles t
def Engine.setTile (g : Engine) (t : Nat) (x : MxTile) : Engine := { g with tiles := Map.set {} g.tiles t x }
/-- A tile that is part of a pair. -/
def Engine.isPair (g : Engine) (t : Nat) : Bool :=
  match (g.tile t).mode with
  | .f64h => true
  | .f64l => true
  | _ => false
/-- The tile whose bounds and threshold stand for a tile. -/
def Engine.base (g : Engine) (t : Nat) : Nat := if g.isPair t then t / 2 * 2 else t
def partner (t : Nat) : Nat := if t % 2 = 0 then t + 1 else t - 1
/-- f64 for a pair, f32 otherwise (R339). -/
def Engine.fmtOf (g : Engine) (t : Nat) : Nat := if g.isPair t then 11 else 10

def MxTile.elem (x : MxTile) (i j : Nat) : Nat := (Map.get 0 x.elems (128 * i + j)).toNat

/-- The codes of a row of a tile or a pair. -/
def Engine.row (g : Engine) (t i : Nat) : List Nat :=
  if g.isPair t then
    let hi := g.tile (t / 2 * 2)
    let lo := g.tile (t / 2 * 2 + 1)
    (List.range 128).map fun j => hi.elem i j * 2 ^ 32 + lo.elem i j
  else (List.range 128).map fun j => (g.tile t).elem i j

/-- Put codes into a row of one tile. -/
def MxTile.setRow (x : MxTile) (i : Nat) (codes : List Nat) : MxTile :=
  { x with elems := codes.zipIdx.foldl (fun m p => Map.set 0 m (128 * i + p.2) (BitVec.ofNat 32 p.1)) x.elems }

/-- Write a row; a FREE tile becomes F32. -/
def Engine.setRow (g : Engine) (t i : Nat) (codes : List Nat) : Engine :=
  if g.isPair t then
    let b := t / 2 * 2
    (g.setTile b ((g.tile b).setRow i (codes.map (· / 2 ^ 32)))).setTile (b + 1) ((g.tile (b + 1)).setRow i (codes.map (· % 2 ^ 32)))
  else
    let x := g.tile t
    g.setTile t ({ x with mode := if x.mode = TileMode.free then .f32 else x.mode }.setRow i codes)

def Engine.bound (g : Engine) (t i : Nat) : Nat := (Map.get 0 (g.tile (g.base t)).bounds i).toNat
def Engine.setBound (g : Engine) (t i b : Nat) : Engine :=
  let x := g.tile (g.base t)
  g.setTile (g.base t) { x with bounds := Map.set 0 x.bounds i (BitVec.ofNat 16 b) }
def Engine.rowMax (g : Engine) (t i : Nat) : Val := maxMag ((g.row t i).map (decodeVal (g.fmtOf t)))

/-- Form the pair of a tile and its FREE partner, widening every element exactly; the pair takes the tile's bounds and threshold (R342).
[DEDUCED, unsafe, log 79] -/
def Engine.widen (g : Engine) (t : Nat) (mark : Bool) : Engine :=
  let b := t / 2 * 2
  let x := g.tile t
  let wide (p : Nat × BitVec 32) : Nat × Nat := (p.1, (encodeVal 11 0 0 false (decodeVal 10 p.2.toNat)).code)
  let ws := x.elems.map wide
  let pick (f : Nat → Nat) : Map (BitVec 32) := (ws.map fun p => (p.1, BitVec.ofNat 32 (f p.2))).filter fun p => p.2 != 0
  (g.setTile b { mode := .f64h, elems := pick (· / 2 ^ 32), bounds := x.bounds, thr := x.thr, escd := x.escd || mark }).setTile (b + 1)
    { mode := .f64l, elems := pick (· % 2 ^ 32), thr := (g.tile (b + 1)).thr }

/-! ## Planes (R333, R338) -/

def mxClass (ty : Nat) : Nat := if ty = 8 ∨ ty = 9 then 16 else if ty = 14 ∨ ty = 16 ∨ ty = 17 then 6 else 8
/-- Bytes per row of 128 elements. -/
def rowBytes (ty : Nat) : Nat := if ty = 8 ∨ ty = 9 then 256 else if ty = 14 ∨ ty = 17 then 64 else 128
/-- The codes of a row in memory. -/
def rowCodes (ty : Nat) (bs : List Byte) : List Nat := unpackCodes (if ty = 8 ∨ ty = 9 then 16 else if ty = 14 ∨ ty = 17 then 4 else 8) 128 (leNat bs)

def Plane.val (p : Plane) (k j : Nat) : Val :=
  match p.fmt with
  | none => zeroVal
  | some ty => decodeVal ty (Map.get 0 p.elems (128 * k + j)).toNat

/-- β̂: the largest column sum of magnitudes, unbounded when an element is NaN or infinite (R333, R347). -/
def betaHat (ty : Nat) (elems : Map (BitVec 16)) : Nat :=
  let vs := elems.map fun p => (p.1, decodeVal ty p.2.toNat)
  if vs.any fun p => p.2.isNan || p.2.isInf then 0xFF00
  else
    upBound (maxMag ((List.range 128).map fun j =>
      (vs.filter fun p => p.1 % 128 == j).foldl (fun m p => (addVal 0 m p.2.abs).val) zeroVal))

/-- A plane of rows of codes. [DEDUCED, unsafe, log 77] -/
def planeOf (ty betaB : Nat) (rows : List (List Nat)) : Plane :=
  let elems := (rows.flatten.zipIdx.map fun p => (p.2, BitVec.ofNat 16 p.1)).filter fun p => p.2 != 0
  { elems := elems, fmt := some ty, betaHat := BitVec.ofNat 16 (betaHat ty elems), betaB := BitVec.ofNat 16 (canonBound betaB) }

/-! ## Group sums and accumulation (R339) -/

/-- The exact sum of a group of values: a zero sum is −0 when every one is a zero with negative sign (R339). -/
def groupSum (ps : List Formed) : Formed :=
  let fp := ps.foldl (fun w p => w ||| p.fp) 0
  let vs := ps.map (·.val)
  let pos := vs.any fun v => match v with | .inf false => true | _ => false
  let neg := vs.any fun v => match v with | .inf true => true | _ => false
  if vs.any Val.isNan then { val := .nan false, fp := if pos && neg then fp ||| fNV else fp }
  else if pos && neg then { val := .nan false, fp := fp ||| fNV }
  else if pos || neg then { val := .inf neg, fp := fp }
  else
    let r := vs.foldl (fun (a : Int × Int) v => match v with
      | .fin n m e => sumFin (decide (a.1 < 0)) a.1.natAbs a.2 n m e
      | _ => a) (0, 0)
    let negZero := vs.all fun v => match v with | .fin true 0 _ => true | _ => false
    { val := if r.1 = 0 then .fin negZero 0 0 else .fin (decide (r.1 < 0)) r.1.natAbs r.2, fp := fp }

/-- A row being accumulated: its codes, its bound, and the flags raised. -/
structure RowAcc where
  codes : List Nat
  bound : Nat
  fp : Word := 0
  deriving DecidableEq, Repr

/-- acc_j := Round(F, rne, acc_j + S_j) for every element. -/
def RowAcc.add (r : RowAcc) (ty : Nat) (sums : List Formed) : RowAcc :=
  let es := (r.codes.zip sums).map fun p =>
    let a := addVal 0 (decodeVal ty p.1) p.2.val
    let e := encodeFormed ty 0 0 false a
    (e.code, e.fp ||| p.2.fp)
  { r with codes := es.map (·.1), fp := es.foldl (fun w e => w ||| e.2) r.fp }

/-- The rounding term after an addition: unbounded when an element is NaN or infinite (R340). -/
def RowAcc.roundTerm (r : RowAcc) (ty : Nat) : RowAcc :=
  match maxMag (r.codes.map (decodeVal ty)) with
  | .fin _ m e => { r with bound := boundAdd r.bound (upBound ((ulpVal ty m e).scale (-1))) }
  | _ => { r with bound := 0xFF00 }

/-- Accumulate group g of an operand row and update the bound (R339, R340). -/
def accumulateGroup (ty : Nat) (p : Plane) (a : List Val) (alpha : Val) (r : RowAcc) (g : Nat) : RowAcc :=
  let ks := (List.range 32).map fun k => 32 * g + k
  let av (k : Nat) : Val := a.getD k zeroVal
  let r1 := r.add ty ((List.range 128).map fun j => groupSum (ks.map fun k => mulVal (av k) (p.val k j)))
  let hat := decodeVal 19 p.betaHat.toNat
  let bb := decodeVal 19 p.betaB.toNat
  let s := ks.foldl (fun m k => (addVal 0 m (av k).abs).val) zeroVal
  let b1 := boundAdd r1.bound (upBound (mulUp alpha hat))
  let b2 := boundAdd b1 (upBound (mulUp bb s))
  let b3 := boundAdd b2 (upBound ((mulUp alpha bb).scale 5))
  let r2 := ({ r1 with bound := b3 } : RowAcc).roundTerm ty
  if ks.any fun k => (av k).isNan || (av k).isInf then { r2 with bound := 0xFF00 } else r2

/-- Accumulate an operand row into row i of a tile (R348). -/
def Engine.accumulateRow (g : Engine) (t i : Nat) (acc : Bool) (alpha : Nat) (a : List Val) : Engine × Word :=
  let ty := g.fmtOf t
  let r0 : RowAcc := if acc then { codes := g.row t i, bound := g.bound t i } else { codes := List.replicate 128 0, bound := 0 }
  let r := [0, 1, 2, 3].foldl (accumulateGroup ty g.active a (decodeVal 19 alpha)) r0
  ((g.setRow t i r.codes).setBound t i r.bound, r.fp)

/-! ## Thresholds (R341) -/

/-- Whether a row exceeds the threshold of its tile. -/
def Engine.exceeds (g : Engine) (t i : Nat) : Bool :=
  let thr := (g.tile (g.base t)).thr.toNat
  let b := g.bound t i
  match thr % 4 with
  | 1 =>
    let m := g.rowMax t i
    b == 0xFF00 || m.isNan || (m.scale (-(bits thr 15 8 : Nat))).lt (decodeVal 19 b)
  | 2 => (decodeVal 19 (bits thr 31 16)).lt (decodeVal 19 b)
  | _ => false

/-- The lowest row of a list that exceeds. -/
def Engine.firstExcess (g : Engine) (t : Nat) (rows : List Nat) : Option Nat := rows.find? fun i => g.exceeds t i

/-- %trapinfo of BOUND_EXCEEDED (R343). -/
def excessTrap (g : Engine) (t row why : Nat) : Trap :=
  { cause := cBoundExceeded, info := wd (g.base t % 8 + row % 128 * 2 ^ 3 + why * 2 ^ 10) }

/-! ## Bounds outside the array (R344) -/

/-- The bound of a row after conversion to a format, and whether W_BOUND_INF is due. -/
def cvtBound (ty rm sm : Nat) (k : Int) (m : Val) (b : Nat) : Nat × Bool :=
  let kk := if k < -20000 then -20000 else if 20000 < k then 20000 else k
  match m with
  | .fin _ mm e =>
    let r := encodeVal ty rm 1 false (.fin false mm (e + kk))
    if r.fp &&& fOF ≠ 0 ∨ r.warn &&& wSat ≠ 0 then (0xFF00, smFor ty sm != 0)
    else
      let u := (ulpVal ty mm (e + kk)).scale (if rm = 0 ∨ rm = 4 then -1 else 0)
      let least : Val := if ty = 15 then .fin false 1 (-12) else if ty = 16 then .fin false 1 (-8) else zeroVal
      (boundAdd (upBound ((decodeVal 19 b).scale kk)) (upBound (if u.lt least then least else u)), false)
  | _ => (0xFF00, smFor ty sm != 0)

/-- BDPROP `.cvt` on every row: the engine, and whether W_BOUND_INF is due. [DEDUCED, unsafe, log 79] -/
def Engine.cvtBounds (g : Engine) (t ty rm sm : Nat) (k : Int) : Engine × Bool :=
  (List.range 128).foldl (fun r i =>
    let x := cvtBound ty rm sm k (g.rowMax t i) (g.bound t i)
    (r.1.setBound t i x.1, r.2 || x.2)) (g, false)

end Sys2Proof.Machine
end

