-- ==== Sys2Proof/Machine/Matrix.lean ====
section
/-! DEFINITION. The matrix and bound groups at MAJ 0xC0 and 0xC1 (R335 to R349): what each member checks at issue, the steps of its macro-op, and what
it does when it takes effect. -/

namespace Sys2Proof.Machine

/-! ## Issue (R335, R346, R347) -/

/-- The engine of the handle in gA (R347). -/
def mxEngine : M Nat := do
  let key ← curKey
  let c ← curCtx
  let h ← opG .a
  orTrap (engineFor (← get) key c h 0)

/-- Put an X-format instruction in an engine's queue of 16; one that addresses memory sees every earlier access of its context (R284, R335). -/
def mxQueue (e : Nat) (dstG dstV : List Nat) (mem : Bool) (control stream : PortBind) : M Unit := do
  let key ← curKey
  if 16 ≤ ((← get).engine e).ops.length then stall .engine
  if mem then
    if (← get).accessing key then stall .memory
    modify fun s => s.writeBack (tileOf key) fun _ => true
  let fr ← curFiring
  let c ← curCtx
  let en ← issuing
  let id ←
    if dstG.isEmpty && dstV.isEmpty then do
      let s ← get
      set { s with fresh := s.fresh + 1 }
      pure s.fresh
    else issueOp (.engine e) dstG dstV 0 0 0
  modify fun s =>
    let m : MacroOp :=
      { id := id, ctx := key, asid := c.asid, serial := fr.serial, word := en.word, pc := en.pc, opA := en.opA, opB := en.opB, opC := en.opC, control := control,
        stream := stream }
    s.setEngine e { s.engine e with ops := (s.engine e).ops ++ [m] }

/-- A member without memory and without a result. -/
def mxPlain (i : Instr) (f : XForm) (srcs : List Src) (s : State) : Result :=
  runInstr i (xAsk f (xA f :: srcs) []) (do
    let e ← mxEngine
    mxQueue e [] [] false .unbound .unbound) s

/-- gB must be a multiple of n (R347). -/
def mxAlign (n : Nat) : M Nat := do
  let b := (← opG .b).toNat
  if b % n ≠ 0 then raise cAlignment (wd b)
  pure b

/-- MXLDS (R347). -/
def execMxlds (f : XForm) (s : State) : Result :=
  runInstr (.mxlds f) (xAsk f [xA f, xB .g f, xC .g f] []) (do
    let e ← mxEngine
    let _ ← mxAlign 64
    let pitch := (← opG .c).toNat % 2 ^ 32
    if pitch % 64 ≠ 0 ∨ pitch < rowBytes f.tyb.toNat then raiseFree cProtection
    mxQueue e [] [] true .unbound .unbound) s

/-- MXSWAP (R347). -/
def execMxswap (f : XForm) (s : State) : Result := mxPlain (.mxswap f) f [] s

/-- MXSTRM: both ports are inputs of the formats named (R349). -/
def execMxstrm (f : XForm) (s : State) : Result :=
  runInstr (.mxstrm f) (xAsk f [xA f] []) (do
    let e ← mxEngine
    let key ← curKey
    let c ← curCtx
    let fmt (q : Option Queue) (want : Nat) : Bool := match q with | some x => x.inFmt == want | none => true
    let qb := f.b.toNat % 16
    let qc := f.c.toNat % 16
    if !(c.rq qb).isIn then raiseQ qb 1
    if !(c.rq qc).isIn then raiseQ qc 1
    if !fmt ((← get).inQueue key c qb) 7 then raiseQ qb 12
    if !fmt ((← get).inQueue key c qc) f.ty.toNat then raiseQ qc 12
    mxQueue e [] [] false (c.rq qb) (c.rq qc)) s

/-- MXTILE (R347, R348). -/
def execMxtile (f : XForm) (s : State) : Result :=
  runInstr (.mxtile f) (xAsk f [xA f, xB .g f, xC .g f] []) (do
    let e ← mxEngine
    let _ ← mxAlign 64
    let c := (← opG .c).toNat
    if bits c 7 0 < 1 ∨ 128 < bits c 7 0 + bits c 14 8 then raiseFree cProtection
    mxQueue e [] [] true .unbound .unbound) s

/-- MXZERO (R347). -/
def execMxzero (f : XForm) (s : State) : Result := mxPlain (.mxzero f) f [] s

/-- gC[9] must be 0 in the f32 form (R347). -/
def mxPosition (f : XForm) : M Unit := do
  if f.ty = 10 ∧ (← opG .c).getLsbD 9 then raiseFree cProtection

/-- MXRD (R336, R347). -/
def execMxrd (f : XForm) (s : State) : Result :=
  runInstr (.mxrd f) (xAsk f [xA f, xC .g f] [vDst f.b.toNat]) (do
    let e ← mxEngine
    mxPosition f
    mxQueue e [] [f.b.toNat] false .unbound .unbound) s

/-- MXWR (R347). -/
def execMxwr (f : XForm) (s : State) : Result :=
  runInstr (.mxwr f) (xAsk f [xA f, xB .v f, xC .g f] []) (do
    let e ← mxEngine
    mxPosition f
    mxQueue e [] [] false .unbound .unbound) s

/-- MXTRN (R347). -/
def execMxtrn (f : XForm) (s : State) : Result := mxPlain (.mxtrn f) f [] s
/-- MXPERM (R347). -/
def execMxperm (f : XForm) (s : State) : Result := mxPlain (.mxperm f) f [xB .v f] s
/-- MXRRED (R347). -/
def execMxrred (f : XForm) (s : State) : Result := mxPlain (.mxrred f) f [] s
/-- MXESC .widen (R347). -/
def execMxescWiden (f : XForm) (s : State) : Result := mxPlain (.mxescWiden f) f [] s
/-- MXESC .narrow (R347). -/
def execMxescNarrow (f : XForm) (s : State) : Result := mxPlain (.mxescNarrow f) f [] s

/-- The metadata of the control token that MXTOK builds (R349). -/
def controlToken (f : XForm) (c : Nat) : Nat :=
  bits f.mod.toNat 1 0 + f.xt.toNat * 2 ^ 2 + bits f.mod.toNat 2 2 * 2 ^ 5 + bits c 9 7 * 2 ^ 6 + bits c 6 0 * 2 ^ 9 + bits c 31 16 * 2 ^ 16

/-- MXTOK pushes a control token under the rules of QPUSH (R349). -/
def execMxtok (f : XForm) (s : State) : Result :=
  runInstr (.mxtok f) (xAsk f [xC .g f] []) (do
    let key ← curKey
    let c ← curCtx
    let q := f.b.toNat % 16
    if !(c.rq q).isOut then raiseQ q 1
    if (← get).outFormat key c q ≠ 7 then raiseQ q 12
    let tmpl := match c.rq q with
      | .output _ t => t
      | .home _ t => t
      | _ => 0
    pushThrough q false (putField (setEos (templateBits tmpl) false) 0 35 (controlToken f (← opG .c).toNat)) []) s

/-- BDRD .bnd (R336, R347). -/
def execBdrdBnd (f : XForm) (s : State) : Result :=
  runInstr (.bdrdBnd f) (xAsk f [xA f, xC .g f] [vDst f.b.toNat]) (do
    let e ← mxEngine
    mxQueue e [] [f.b.toNat] false .unbound .unbound) s
/-- BDRD .stat (R336, R347). -/
def execBdrdStat (f : XForm) (s : State) : Result :=
  runInstr (.bdrdStat f) (xAsk f [xA f] [gDst f.b.toNat]) (do
    let e ← mxEngine
    mxQueue e [f.b.toNat] [] false .unbound .unbound) s
/-- BDWR (R347). -/
def execBdwr (f : XForm) (s : State) : Result := mxPlain (.bdwr f) f [xB .v f, xC .g f] s
/-- BDTHR: KIND 3 raises PROTECTION (R347). -/
def execBdthr (f : XForm) (s : State) : Result :=
  runInstr (.bdthr f) (xAsk f [xA f, xB .g f] []) (do
    let e ← mxEngine
    if (← opG .b).toNat % 4 = 3 then raiseFree cProtection
    mxQueue e [] [] false .unbound .unbound) s

/-- The checks of BDST and BDLD (R345, R347). [DEDUCED, unsafe, log 15] -/
def bdMemory (i : Instr) (f : XForm) (s : State) : Result :=
  runInstr i (xAsk f [xA f, xB .g f, xC .g f] []) (do
    let e ← mxEngine
    let _ ← mxAlign 2
    let c := (← opG .c).toNat
    if bits c 63 40 ≥ bits c 23 0 then raiseFree cProtection
    mxQueue e [] [] true .unbound .unbound) s
/-- BDST (R345, R347). -/
def execBdst (f : XForm) (s : State) : Result := bdMemory (.bdst f) f s
/-- BDLD (R345, R347). -/
def execBdld (f : XForm) (s : State) : Result := bdMemory (.bdld f) f s
/-- BDPROP .cvt (R344, R347). -/
def execBdpropCvt (f : XForm) (s : State) : Result := mxPlain (.bdpropCvt f) f [xB .g f] s
/-- BDPROP .scale (R344, R347). -/
def execBdpropScale (f : XForm) (s : State) : Result := mxPlain (.bdpropScale f) f [xB .g f] s
/-- BDPROP .sum (R344, R347). -/
def execBdpropSum (f : XForm) (s : State) : Result := mxPlain (.bdpropSum f) f [] s

/-! ## Macro-ops (R336, R337) -/

/-- The member of the two groups: MIN, plus 64 in MAJ 0xC1. -/
def MacroOp.member (o : MacroOp) : Nat := bits o.word.toNat 55 50 + (if bits o.word.toNat 63 56 = 0xC1 then 64 else 0)
/-- The context for which a macro-op works, with the ASID of its issue (R357, R375). -/
def MacroOp.issuer (o : MacroOp) (c : Ctx) : Ctx := { c with asid := o.asid }
def MacroOp.form (o : MacroOp) : XForm := XForm.ofWord o.word.toNat
def MacroOp.b (o : MacroOp) : Nat := (o.opB.extractLsb' 0 64).toNat
def MacroOp.c (o : MacroOp) : Nat := (o.opC.extractLsb' 0 64).toNat
/-- Members that complete on an event counter (R336). -/
def MacroOp.counted (o : MacroOp) : Bool := [0, 2, 3, 7, 8, 9, 67, 68].contains o.member
/-- The steps a member takes before it completes; MXSTRM ends with its END token (R337). -/
def MacroOp.steps (o : MacroOp) : Nat :=
  match o.member with
  | 0 => 16
  | 2 => 1
  | 3 => (bits o.c 7 0 + 7) / 8
  | 7 => 1
  | 8 => 1
  | 9 => 1
  | _ => 0
/-- W_MODCOMBO of an MXSTRM or MXTILE whose formats are of two classes (R80). -/
def MacroOp.combo (o : MacroOp) : Word :=
  if (o.member = 2 ∨ o.member = 3) ∧ mxClass o.form.ty.toNat ≠ mxClass o.form.tyb.toNat then wModcombo else 0

/-- The MXLDS that may fill the shadow plane behind the oldest member: no earlier MXSWAP or MXLDS precedes it (R335). [DEDUCED, unsafe, log 77] -/
def Engine.filler (g : Engine) : Option MacroOp :=
  match g.ops with
  | [] => none
  | h :: rest => if h.member = 0 ∨ h.member = 1 then none else (rest.find? fun o => o.member == 0 || o.member == 1).filter fun o => o.member == 0

/-- The members that may work now: the oldest, and the MXLDS behind it (R335). [DEDUCED, unsafe, log 77] -/
def Engine.workers (g : Engine) (p : MacroOp → Bool) : List MacroOp := (g.ops.head?.filter p).toList ++ (g.filler.filter p).toList

/-- The first of them. [DEDUCED, unsafe, log 77] -/
def Engine.mayWork (g : Engine) (p : MacroOp → Bool) : Option MacroOp := (g.workers p).head?

def Engine.modOp (g : Engine) (o : MacroOp) : Engine := { g with ops := g.ops.map fun x => if x.id = o.id then o else x }
def Engine.dropOp (g : Engine) (id : Nat) : Engine := { g with ops := g.ops.filter fun x => x.id != id }

/-- A macro-op ends in the fault of an asynchronous instruction; its completion is not counted (R343, R347). -/
def State.failMacro (s : State) (e : Nat) (o : MacroOp) (t : Trap) : State :=
  let s1 := (s.setEngine e ((s.engine e).dropOp o.id)).asyncFault o.ctx t o.pc o.word
  (s1.settleLease e).wakeAll

/-- Read a row in pieces of 64 bytes, each of which lies in one page. -/
def mxBytes (s : State) (key : Nat) (c : Ctx) (a : Nat) : Nat → Except Trap (List Byte)
  | 0 => .ok []
  | n + 1 =>
    match agentRead s key c (addrPlus64 a 0) 64 with
    | .error t => .error t
    | .ok bs =>
      match mxBytes s key c (addrPlus64 a 64) n with
      | .error t => .error t
      | .ok rest => .ok (bs ++ rest)
where addrPlus64 (a n : Nat) : Nat := (a + n) % 2 ^ 64

/-- A row is one access: it lies in one bank or faults (R239). -/
def mxRow (s : State) (key : Nat) (c : Ctx) (a ty : Nat) : Except Trap (List Nat) :=
  match spanCheck s key c a (rowBytes ty) with
  | .error t => .error t
  | .ok () => (mxBytes s key c a (rowBytes ty / 64)).map (rowCodes ty)

/-- n rows from an address at a pitch. -/
def mxRows (s : State) (key : Nat) (c : Ctx) (a pitch ty : Nat) : Nat → Except Trap (List (List Nat))
  | 0 => .ok []
  | n + 1 =>
    match mxRow s key c a ty with
    | .error t => .error t
    | .ok r =>
      match mxRows s key c ((a + pitch) % 2 ^ 64) pitch ty n with
      | .error t => .error t
      | .ok rest => .ok (r :: rest)

/-- The eb16 entry at an address. -/
def mxBound (s : State) (key : Nat) (c : Ctx) (a : Nat) : Except Trap Nat :=
  match agentRead s key c (a % 2 ^ 64) 2 with
  | .error t => .error t
  | .ok bs => .ok (leNat bs)

/-! ### MXTILE (R342, R348) -/

/-- Accumulate up to 8 rows of an MXTILE. -/
def tileRows (s : State) (c : Ctx) (o : MacroOp) (g : Engine) (fp : Word) : List Nat → Except Trap (Engine × Word)
  | [] => .ok (g, fp)
  | r :: rest =>
    let f := o.form
    let m := bits o.c 7 0
    let rb := rowBytes f.ty.toNat
    match mxRow s o.ctx c ((o.b + r * rb) % 2 ^ 64) f.ty.toNat, (if f.mod.getLsbD 3 then mxBound s o.ctx c (o.b + m * rb + 2 * r) else .ok (bits o.c 31 16)) with
    | .ok codes, .ok alpha =>
      let x := g.accumulateRow f.xt.toNat (bits o.c 14 8 + r) (f.mod.getLsbD 2) alpha (codes.map (decodeVal f.ty.toNat))
      tileRows s c o x.1 (fp ||| x.2) rest
    | .error t, _ => .error t
    | _, .error t => .error t

/-- The destination as the rollback buffer kept it. -/
def Engine.rollBack (g : Engine) : Engine :=
  match g.rollback with
  | some (t, x, y) => (g.setTile t x).setTile (partner t) y
  | none => g

/-- Whether the operand rows and the α array of an MXTILE lie in the aperture. -/
def MacroOp.fromScratchpad (o : MacroOp) : Bool :=
  let m := bits o.c 7 0
  let n := m * rowBytes o.form.ty.toNat + (if o.form.mod.getLsbD 3 then 2 * m else 0)
  inAperture o.b && inAperture ((o.b + n - 1) % 2 ^ 64)

/-- WHY of an excess that does not escalate, 0 when it does (R342). -/
def excessWhy (g : Engine) (o : MacroOp) : Nat :=
  let t := o.form.xt.toNat
  if g.isPair t then 4
  else if !o.form.mod.getLsbD 4 then 1
  else if !o.fromScratchpad then 2
  else if (g.tile (partner t)).mode ≠ TileMode.free then 3
  else 0

/-- The check after the last step of an MXTILE: it stands, fails, or escalates and runs again at f64 (R341, R342). -/
def State.checkTile (s : State) (e : Nat) (o : MacroOp) : State :=
  let g := s.engine e
  let t := o.form.xt.toNat
  match g.firstExcess t ((List.range (bits o.c 7 0)).map fun r => bits o.c 14 8 + r) with
  | none => s.setEngine e (g.modOp o)
  | some row =>
    match excessWhy g o with
    | 0 =>
      let g1 := g.rollBack.widen t true
      (s.setEngine e (g1.modOp { o with step := 0, escalated := true, fpflags := 0 })).modOwner o.ctx fun c =>
        (c.countCompletion g.ectr).warns wEscalated
    | why => s.failMacro e o { excessTrap g t row why with addr := wd o.b }

/-- A fault of an MXTILE leaves its destination as it was (R347). -/
def State.failTile (s : State) (e : Nat) (o : MacroOp) (t : Trap) : State :=
  (s.setEngine e (s.engine e).rollBack).failMacro e o { t with addr := wd o.b }

/-- The next step of an MXTILE. -/
def State.stepTile (s : State) (e : Nat) (o : MacroOp) (c : Ctx) : State :=
  let g0 := s.engine e
  let t := o.form.xt.toNat
  let g := if o.step = 0 && !o.escalated then { g0 with rollback := some (t, g0.tile t, g0.tile (partner t)) } else g0
  let s1 := s.setEngine e g
  if g.active.fmt.isSome && g.active.fmt != some o.form.tyb.toNat then s1.failTile e o { cause := cProtection, free := true }
  else
    let rows := ((List.range 8).map fun r => 8 * o.step + r).filter fun r => decide (r < bits o.c 7 0)
    match tileRows s1 c o g o.fpflags rows with
    | .error x => s1.failTile e o x
    | .ok (g1, fp) =>
      let o1 := { o with step := o.step + 1, fpflags := fp }
      let s2 := s1.setEngine e (g1.modOp o1)
      if o1.step = o.steps then s2.checkTile e o1 else s2

/-! ### MXTRN, MXPERM and MXRRED (R344, R347) -/

def Engine.mixed (g : Engine) (t u : Nat) : Bool := g.isPair t != g.isPair u

def Engine.transpose (g : Engine) (t u : Nat) : Engine :=
  let rows := (List.range 128).map fun i => g.row u i
  let top := (List.range 128).foldl (fun m i => Nat.max m (g.bound u i)) 0
  (List.range 128).foldl (fun h i => (h.setRow t i (rows.map fun r => r.getD i 0)).setBound t i top) g

def Engine.permute (g : Engine) (t u : Nat) (idx : VWord) : Engine :=
  (List.range 128).foldl (fun h i =>
    let p := (idx.extractLsb' (8 * i) 7).toNat
    (h.setRow t i (g.row u p)).setBound t i (g.bound u p)) g

/-- One output row of MXRRED: source rows in groups of 32, summed under R339; every source bound is added, then the rounding term.
[DEDUCED, unsafe, log 79] -/
def reduceRow (g : Engine) (u ty : Nat) (r0 : RowAcc) (groups : List (List Nat)) : RowAcc :=
  groups.foldl (fun r rows =>
    let vals := rows.map fun i => (g.row u i).map (decodeVal ty)
    let r1 := r.add ty ((List.range 128).map fun j => groupSum (vals.map fun v =>
      let x := v.getD j zeroVal
      { val := x, fp := if x.isSig then fNV else 0 }))
    let r2 : RowAcc := { r1 with bound := rows.foldl (fun b i => boundAdd b (g.bound u i)) r1.bound }
    r2.roundTerm ty) r0

def Engine.reduce (g : Engine) (t u seg : Nat) (acc : Bool) : Engine × Word :=
  let ty := g.fmtOf u
  (List.range (128 / seg)).foldl (fun h k =>
    let r0 : RowAcc := if acc then { codes := g.row t k, bound := g.bound t k } else { codes := List.replicate 128 0, bound := 0 }
    let r := reduceRow g u ty r0 (chunk 32 4 ((List.range seg).map fun i => k * seg + i))
    ((h.1.setRow t k r.codes).setBound t k r.bound, h.2 ||| r.fp)) (g, 0)

/-- The one step of MXTRN, MXPERM or MXRRED. [DEDUCED, unsafe, log 77] -/
def State.stepMove (s : State) (e : Nat) (o : MacroOp) : State :=
  let g := s.engine e
  let f := o.form
  let t := f.xt.toNat
  let u := f.xu.toNat
  if g.mixed t u then s.failMacro e o { cause := cProtection, free := true }
  else
    match o.member with
    | 7 => s.setEngine e ((g.transpose t u).modOp { o with step := 1 })
    | 8 => s.setEngine e ((g.permute t u o.opB).modOp { o with step := 1 })
    | _ =>
      let seg := 2 ^ bits f.mod.toNat 5 3
      let r := g.reduce t u seg (f.mod.getLsbD 2)
      let s1 := s.setEngine e (r.1.modOp { o with step := 1, fpflags := r.2 })
      match r.1.firstExcess t (List.range (128 / seg)) with
      | none => s1
      | some row => s1.failMacro e o (excessTrap r.1 t row 1)

/-- The last step of an MXLDS fills the shadow plane (R347). [DEDUCED, unsafe, log 77] -/
def State.loadPlane (s : State) (e : Nat) (o : MacroOp) (c : Ctx) : State :=
  let g := s.engine e
  match mxRows s o.ctx c o.b (o.c % 2 ^ 32) o.form.tyb.toNat 128 with
  | .error t => s.failMacro e o { t with addr := wd o.b }
  | .ok rows => s.setEngine e ({ g with shadow := planeOf o.form.tyb.toNat (bits o.c 47 32) rows }.modOp { o with step := o.step + 1 })

/-- The member of an engine that makes the next step: where the oldest and an MXLDS both may, either, by a free choice (R335). [DEDUCED, unsafe, log 77] -/
def State.nextWorker (s : State) (e : Nat) : Option MacroOp × State :=
  match (s.engine e).workers fun o => o.member != 2 && decide (o.step < o.steps) with
  | [] => (none, s)
  | [o] => (some o, s)
  | o :: p :: _ => let (b, s1) := s.drawChoice; (some (if b then o else p), s1)

/-- MX_ROW_GROUP_STEP: the engine makes the next step of a macro-op that is at work (R335, R337). -/
def execMxRowGroupStep (engine : Nat) (s : State) : Result :=
  runEvent (fun s =>
    let g := s.engine engine
    if g.power ≠ .lit || g.lost s.ticks || s.storageBusy then s
    else
      match s.nextWorker engine with
      | (none, _) => s
      | (some o, s0) =>
        match (s.owner? o.ctx).map o.issuer with
        | none => s
        | some c =>
          let s1 := s0.latchCadence (engineCluster engine) (engineIndex engine)
          match o.member with
          | 0 => if o.step + 1 < o.steps then s1.setEngine engine (g.modOp { o with step := o.step + 1 }) else s1.loadPlane engine o c
          | 3 => s1.stepTile engine o c
          | _ => s1.stepMove engine o) s

/-! ### MXSTRM (R349) -/

/-- The input queue of a context behind a binding of one of its registers. -/
def State.boundQueue (s : State) (key : Nat) (c : Ctx) (b : PortBind) : Option Queue := s.inQueue key (c.wq 0 b) 0

/-- Accumulate the streamed rows of a MAC token. -/
def streamRows (ty : Nat) (acc : Bool) (t row0 alpha : Nat) (g : Engine) (rows : List (List Nat)) : Engine × Word :=
  rows.zipIdx.foldl (fun h p =>
    let x := h.1.accumulateRow t (row0 + p.2) acc alpha (p.1.map (decodeVal ty))
    (x.1, h.2 ||| x.2)) (g, 0)

/-- Rows set to +0 with bounds 0; MODE is as it was. [DEDUCED, unsafe, log 78] -/
def Engine.zeroRows (g : Engine) (t row0 n : Nat) : Engine :=
  (List.range n).foldl (fun h r =>
    let x := h.tile t
    h.setTile t { x with elems := x.elems.filter fun p => p.1 / 128 != row0 + r, bounds := x.bounds.filter fun p => p.1 != row0 + r }) g

/-- A control token acts on the engine; `hq` is the control queue with the token at its head. [DESIGN CHOICE, unsafe, log 66; DEDUCED, unsafe, log 78] -/
def State.streamToken (s : State) (e : Nat) (o : MacroOp) (c : Ctx) (hq : Queue) (t : Token) : State :=
  let g := s.engine e
  let h := t.header.toNat
  let tile := bits h 4 2
  let n := bits h 8 6 + 1
  let row0 := bits h 15 9
  let s1 := s.popQueue hq t
  let rows := (List.range n).map fun r => row0 + r
  if hdrEos t.header then s1.setEngine e (g.modOp { o with step := 1 })
  else if bits h 1 0 = 3 ∨ bits h 34 32 ≠ 0 ∨ 128 < row0 + n ∨ g.isPair tile then
    s1.failMacro e o { cause := cIllegalEncoding, free := true, addr := t.header }
  else if bits h 1 0 = 2 then s1.setEngine e (g.modOp { o with step := 1 })
  else if bits h 1 0 = 1 then s1.setEngine e (g.zeroRows tile row0 n)
  else
    match s1.boundQueue o.ctx c o.stream with
    | none => s
    | some q =>
      match takeStream q.inFmt (128 * n) q.taken q.fifo with
      | .short => s
      | .noWords => s1.failMacro e o (queueTrap o.form.c.toNat 6)
      | .bad => s1.failMacro e o { cause := cMemUncorrectable, free := true }
      | .ok codes rest taken popped adj =>
        let s2 := (s1.modQueue q.graph q.edge q.consumer fun x =>
          { x with fifo := rest, taken := taken, held := if x.manual then x.held ++ popped else x.held,
                   returning := if x.manual then x.returning else x.returning + slotsSum popped }).progress q.graph
        let r := streamRows o.form.ty.toNat (bits h 5 5 == 1) tile row0 (bits h 31 16) g (chunk 128 n codes)
        let o1 := { o with fpflags := o.fpflags ||| r.2, warn := if adj then o.warn ||| wSat else o.warn }
        let s3 := (s2.setEngine e (r.1.modOp o1)).latchCadence (engineCluster e) (engineIndex e)
        match r.1.firstExcess tile rows with
        | none => s3
        | some row => s3.failMacro e o (excessTrap r.1 tile row 2)

/-- MXSTRM_CONTROL_TOKEN: the engine acts on the next control token of the MXSTRM at work, or waits for its rows (R349). [DEDUCED, unsafe, log 78] -/
def execMxstrmControlToken (engine : Nat) (s : State) : Result :=
  runEvent (fun s =>
    let g := s.engine engine
    match g.ops with
    | [] => s
    | o :: _ =>
      if g.power ≠ .lit ∨ g.lost s.ticks ∨ o.member ≠ 2 ∨ o.step ≠ 0 then s
      else
        match s.owner? o.ctx with
        | none => s
        | some c =>
          if g.active.fmt.isSome && g.active.fmt != some o.form.tyb.toNat then s.failMacro engine o { cause := cProtection, free := true }
          else
            match s.boundQueue o.ctx c o.control with
            | none => s
            | some q =>
              match q.fifo with
              | [] => s
              | t :: _ => s.streamToken engine o c q t) s

/-! ### Effects without steps (R344, R345, R347) -/

/-- The row, the first element, the number of elements and their width of MXRD and MXWR. -/
def MacroOp.span (o : MacroOp) : Nat × Nat × Nat × Nat :=
  if o.form.ty = 11 then (bits o.c 6 0, 16 * bits o.c 9 7, 16, 64) else (bits o.c 6 0, 32 * bits o.c 8 7, 32, 32)

/-- The entries of BDST and BDLD: their address and their number (R345). -/
def MacroOp.entries (o : MacroOp) : Nat × Nat :=
  let rows := bits o.c 23 0
  let row0 := bits o.c 63 40
  ((o.b + (bits o.c 39 24 * rows + row0) * 2) % 2 ^ 64, Nat.min 128 (rows - row0))

def TileMode.code : TileMode → Nat
  | .free => 0
  | .f32 => 1
  | .f64h => 2
  | .f64l => 3

/-- What a member without steps does: the engine, flags and warnings, and a result. -/
structure MxEffect where
  engine : Engine
  fp : Word := 0
  warn : Word := 0
  g : Word := 0
  v : List VWord := []

/-- Zero a tile or a pair; the threshold is kept. -/
def Engine.zeroTile (g : Engine) (t : Nat) (free : Bool) : Engine :=
  let z (g : Engine) (t : Nat) : Engine := g.setTile t { mode := if free then .free else .f32, thr := (g.tile t).thr }
  if g.isPair t then z (z g (t / 2 * 2)) (t / 2 * 2 + 1) else z g t

/-- MXESC .narrow of a pair: every element rounds rne to f32 with satfinite into the even tile, and R344 applies. [DEDUCED, unsafe, log 79] -/
def Engine.narrow (g : Engine) (t : Nat) : MxEffect :=
  let b := t / 2 * 2
  let (g1, inf_) := g.cvtBounds b 10 0 2 0
  let rows := (List.range 128).map fun i => (g.row b i).map fun c => convertElem 11 10 0 2 false c
  let x := g1.tile b
  let even : MxTile := { mode := .f32, bounds := x.bounds, thr := x.thr, escd := x.escd }
  let even := rows.zipIdx.foldl (fun (y : MxTile) p => y.setRow p.2 (p.1.map (·.code))) even
  let es := rows.flatten
  { engine := (g1.setTile b even).setTile (b + 1) { mode := .free, thr := (g1.tile (b + 1)).thr }
    fp := es.foldl (fun w e => w ||| e.fp) 0
    warn := es.foldl (fun w e => w ||| e.warn) (if inf_ then wBoundInf else 0) }

/-- [DEDUCED, unsafe, log 79] -/
def mxEffect (g : Engine) (o : MacroOp) : Except Trap MxEffect :=
  let f := o.form
  let t := f.xt.toNat
  let x := g.tile (g.base t)
  match o.member with
  | 1 => .ok { engine := { g with active := g.shadow, shadow := g.active } }
  | 4 => .ok { engine := g.zeroTile t (f.mod.getLsbD 0) }
  | 5 =>
    let (row, lo, n, w) := o.span
    let es := ((g.row t row).drop lo).take n |>.map fun c =>
      if g.fmtOf t = f.ty.toNat then { code := c } else convertElem (g.fmtOf t) f.ty.toNat 0 0 false c
    .ok { engine := g, fp := es.foldl (fun w e => w ||| e.fp) 0, v := [BitVec.ofNat 1024 (packCodes w (es.map (·.code)))] }
  | 6 =>
    let (row, lo, n, w) := o.span
    let es := (unpackCodes w n o.opB.toNat).map fun c =>
      if g.fmtOf t = f.ty.toNat then { code := c } else convertElem f.ty.toNat (g.fmtOf t) 0 0 false c
    let old := g.row t row
    .ok { engine := g.setRow t row (old.take lo ++ es.map (·.code) ++ old.drop (lo + n)), fp := es.foldl (fun w e => w ||| e.fp) 0 }
  | 10 =>
    if f.mod.getLsbD 0 then .ok (if g.isPair t then g.narrow t else { engine := g })
    else if g.isPair t then .ok { engine := g }
    else if (g.tile (partner t)).mode ≠ TileMode.free then .error { cause := cProtection, free := true }
    else .ok { engine := g.widen t false, fp := if x.elems.any fun p => (decodeVal 10 p.2.toNat).isSig then fNV else 0 }
  | 64 =>
    if f.mod.getLsbD 0 then
      .ok { engine := g, g := wd ((g.tile t).mode.code + b2n x.escd * 4 + bits x.thr.toNat 1 0 * 8) }
    else
      .ok { engine := g, v := [BitVec.ofNat 1024 (packCodes 16 ((List.range 64).map fun n => g.bound t (64 * (o.c % 2) + n)))] }
  | 65 =>
    .ok { engine := ((unpackCodes 16 64 o.opB.toNat).zipIdx).foldl (fun h p => h.setBound t (64 * (o.c % 2) + p.2) (canonBound p.1)) g }
  | 66 => .ok { engine := g.setTile (g.base t) { x with thr := wd o.b } }
  | 69 =>
    match bits f.mod.toNat 1 0 with
    | 0 =>
      let r := g.cvtBounds t f.ty.toNat (bits f.mod.toNat 4 2) (bits f.mod.toNat 6 5) (asInt true 64 o.b)
      .ok { engine := r.1,
            warn := (if r.2 then wBoundInf else 0) ||| (if isIntTy f.ty.toNat && bits f.mod.toNat 6 5 == 2 then wModcombo else 0) }
    | 1 =>
      let sc := (decodeVal 10 (o.b % 2 ^ 32)).abs
      .ok { engine := (List.range 128).foldl (fun h i =>
        h.setBound t i (if sc.isNan || sc.isInf then 0xFF00 else upBound (mulUp (decodeVal 19 (g.bound t i)) sc))) g }
    | _ =>
      .ok { engine := (List.range 128).foldl (fun h i =>
        let b := boundAdd (g.bound t i) (g.bound f.xu.toNat i)
        h.setBound t i (({ codes := g.row t i, bound := b } : RowAcc).roundTerm (g.fmtOf t)).bound) g }
  | _ => .ok { engine := g }

/-- BDST writes its entries one after another (R345). -/
def State.storeBounds (s : State) (e : Nat) (o : MacroOp) (c : Ctx) : State × Option Trap :=
  let g := s.engine e
  let (a, n) := o.entries
  match (List.range n).foldl (fun (r : State × Option Trap) i =>
    match r.2 with
    | some _ => r
    | none =>
      let va := (a + 2 * i) % 2 ^ 64
      match r.1.strayStore o.ctx va 2 with
      | some t => (r.1, some t)
      | none =>
        match agentWrite r.1 o.ctx c va (leBytes 2 (g.bound o.form.xt.toNat i)) with
        | .error t => (r.1, some t)
        | .ok s1 => (s1, none)) (s, none) with
  | (s1, none) => (s1.countWrite o.ctx a (2 * n), none)
  | r => r

/-- BDLD reads its entries (R345). -/
def loadBounds (s : State) (o : MacroOp) (c : Ctx) (g : Engine) (a : Nat) : List Nat → Except Trap Engine
  | [] => .ok g
  | i :: rest =>
    match mxBound s o.ctx c (a + 2 * i) with
    | .error t => .error t
    | .ok b => loadBounds s o c (g.setBound o.form.xt.toNat i (canonBound b)) a rest

/-- The macro-op is complete: it leaves the engine, and what it owes its context is on its way (R336). -/
def State.endMacro (s : State) (e : Nat) (o : MacroOp) (fp warn : Word) : State :=
  let s1 := s.setEngine e ((s.engine e).dropOp o.id)
  let s2 :=
    if o.counted then s1.asyncComplete o.ctx (some (bits o.form.mod.toNat 1 0)) (warn ||| o.combo) fp
    else s1.modOwner o.ctx fun c => (c.flagsFp fp).warns warn
  (s2.settleLease e).wakeAll

/-- Whether the last step of a macro-op has ended. -/
def MacroOp.stepped (o : MacroOp) : Bool := decide (0 < o.steps) && decide (o.steps ≤ o.step)

/-- MX_MACRO_OP_COMPLETION: the member at work takes its effect, if it has no steps, and completes (R335, R336). Once the grace period is over only a
member whose last step has ended does (R183, R184). -/
def execMxMacroOpCompletion (engine : Nat) (s : State) : Result :=
  runEvent (fun s =>
    let g := s.engine engine
    if g.power ≠ .lit || s.storageBusy then s
    else
      match g.mayWork fun o => o.stepped || (decide (o.steps ≤ o.step) && !g.lost s.ticks) with
      | none => s
      | some o =>
        match (s.owner? o.ctx).map o.issuer with
        | none => s
        | some c =>
          if o.member = 67 then
            match s.storeBounds engine o c with
            | (s1, some t) => s1.failMacro engine o { t with addr := wd o.b }
            | (s1, none) => s1.endMacro engine o 0 0
          else if o.member = 68 then
            let (a, n) := o.entries
            match loadBounds s o c g a (List.range n) with
            | .error t => s.failMacro engine o { t with addr := wd o.b }
            | .ok g1 => (s.setEngine engine g1).endMacro engine o 0 0
          else if 0 < o.steps then s.endMacro engine o o.fpflags o.warn
          else
            match mxEffect g o with
            | .error t => s.failMacro engine o t
            | .ok x =>
              let s1 := s.setEngine engine x.engine
              match s1.op? o.id with
              | some op =>
                let s2 := s1.finishOp op x.g x.v
                ((((s2.setEngine engine ((s2.engine engine).dropOp o.id)).modOwner o.ctx fun c => c.flagsFp x.fp)).settleLease engine).wakeAll
              | none => s1.endMacro engine o x.fp x.warn) s

/-! ## Release by EVACK .now and by loss (R183, R184) -/

/-- What a lease has finished is credited before its other work is abandoned: a command whose last token has been pushed, and macro-ops whose last step
has ended (R184). -/
def State.creditDone (s : State) (e : Nat) : State :=
  let s1 := ((s.engine e).cmds.filter fun m => decide (m.count ≤ m.done)).foldl (fun s m =>
    (s.setEngine e { s.engine e with cmds := (s.engine e).cmds.filter fun x => x.id != m.id }).asyncComplete m.ctx (some m.ev) m.warn 0) s
  (((s.engine e).ops.filter MacroOp.stepped).foldl (fun s o => s.endMacro e o o.fpflags o.warn) s1).settleLease e

/-- A BDST that stands at the head of an engine has begun, and completes (R183, R353). [DEDUCED, unsafe, log 131] -/
def State.finishStore (s : State) (e : Nat) : State :=
  match (s.engine e).ops.head? with
  | some o =>
    match (if o.member = 67 then s.owner? o.ctx else none) with
    | some c =>
      match s.storeBounds e o (o.issuer c) with
      | (s1, some t) => s1.failMacro e o { t with addr := wd o.b }
      | (s1, none) => s1.endMacro e o 0 0
    | none => s
  | none => s

/-- Release by loss: an engine that is at a record finishes it, without a holder, before it enters the state of a released engine (R183). -/
def State.loseLease (s : State) (e : Nat) : State :=
  let s1 := (s.creditDone e).finishStore e
  let g := s1.engine e
  let at_ := (g.cmds.take 1).filter fun m => m.tokens.isSome
  let s2 := s1.releaseLease e 0
  if at_.isEmpty || g.power ≠ .lit || g.holder.isNone then s2
  else s2.setEngine e { power := .lit, serial := g.serial, request := g.request, notice := g.notice, closed := true, cmds := at_ }

/-- GRACE_PERIOD_EXPIRY: release by loss (R183, R184). -/
def execGracePeriodExpiry (engine : Nat) (s : State) : Result :=
  runEvent (fun s =>
    let g := s.engine engine
    if g.holder.isSome && g.lost s.ticks then s.loseLease engine else s) s

/-- EVACK .now (R192). -/
def execEvackNow (f : SForm) (s : State) : Result :=
  runInstr (.evackNow f) (sAsk f [sA f] [gDst f.d.toNat]) (do
    let key ← curKey
    let c ← curCtx
    let e ← orTrap (leaseOf (← get) key c (← opG .a))
    if ((← get).engine e).notice.isSome then
      modify fun s => (s.creditDone e).releaseLease e 0
      issueValue f.d.toNat 1
    else issueValue f.d.toNat 2) s

end Sys2Proof.Machine
end

