-- ==== Sys2Proof/Machine/System.lean ====
section
/-! DEFINITION. System registers, time and performance counters: the group at MAJ 0x13 (R34, R103 to R107, R198, R199, R259, R401, R423, R427), and the
reference clock. -/

namespace Sys2Proof.Machine

/-! ## Register numbers (R103) -/

/-- Registers that exist once per cluster (R104). -/
def isClusterReg (n : Nat) : Bool := (decide (0x100 ≤ n) && decide (n ≤ 0x105)) || n == 0x200 || n == 0x201

/-- The lowest privilege of an access: CLPM_WAKE is open to S (R34, R427). -/
def regPriv (n : Nat) : Priv :=
  if n < 0x100 then .u
  else if n = 0x105 ∨ n = 0x210 ∨ n = 0x211 ∨ n = 0x220 ∨ n = 0x230 then .s
  else .f

/-- Whether an instruction in flight can still set a bit of %fpflags or %warn (R310). -/
def Op.setsSticky (o : Op) : Bool :=
  match o.kind with
  | .engine _ => true
  | _ => o.combo

/-- Whether a firing has a macro-op that no event counter counts and that is not complete: it is no asynchronous instruction, and can still set
bits (R310, R336). -/
def State.macroSticky (s : State) (key serial : Nat) : Bool :=
  s.engines.any fun e => e.2.ops.any fun o => o.ctx == key && o.serial == serial && !o.counted

/-- GETS and SETS of %fpflags and %warn wait for the earlier instructions of their firing that can set bits (R310). -/
def waitSticky (n : Nat) : M Unit := do
  if n = 0x020 ∨ n = 0x021 then
    let key ← curKey
    let f ← curFiring
    let s ← get
    if (s.inFlightOf key).any (fun o => o.serial == f.serial && o.combo) then stall .memory
    if s.ops.any (fun o => o.ctx == key && o.serial == f.serial && o.setsSticky) || s.macroSticky key f.serial then stall .engine

/-! ## Reading -/

/-- The identity registers (R11). [DEDUCED, unsafe, log 21] -/
def identityReg (key : Nat) (n : Nat) : Nat :=
  match n with
  | 0 => dieOf key
  | 1 => if onSystemTile key then 15 else tileOf key / 8 % 12
  | 2 => if onSystemTile key then 0 else tileOf key % 8
  | 3 => strandOf key
  | _ => slotOf key

/-- A register that is not one per cluster and whose value the manual states; firmware carries no ASID and no partition (R389).
[DEDUCED, unsafe, log 21; DESIGN CHOICE, unsafe, log 133] -/
def State.readReg (s : State) (key : Nat) (c : Ctx) (n : Nat) : Word :=
  if n ≤ 4 then wd (identityReg key n)
  else if 0x080 ≤ n ∧ n ≤ 0x087 then Map.get 0 c.pmsel (n - 0x080)
  else if 0x088 ≤ n ∧ n ≤ 0x08F then Map.get 0 c.pmcnt (n - 0x088)
  else
    match n with
    | 0x005 => if c.priv = .f then 0 else wd c.asid
    | 0x006 => wd c.part
    | 0x010 => wd s.ticks
    | 0x011 => wd s.ptp
    | 0x020 => c.fpflags
    | 0x021 => c.warn
    | 0x030 => c.trapcause
    | 0x031 => c.trapinfo
    | 0x032 => c.trapvec
    | 0x040 => c.guardtab
    | 0x041 => c.modtab
    | 0x208 => wd (s.budget + safeBudget * 2 ^ 16 + s.packageLu true % 2 ^ 13 * 2 ^ 32)
    | 0x209 => wd (b2n s.latched * 2)
    | 0x20A => wd (b2n s.expired * 2 + b2n s.running * 4)
    | 0x210 => wd (s.part c.part).grace
    | 0x211 => wd (s.part c.part).holdcap
    | 0x230 => wd (s.part c.part).ckptdl
    | _ => 0

/-- Registers of the issuer's partition: firmware, which has none, reads a value that the manual does not state (see the assumption log).
[DESIGN CHOICE, unsafe, log 22] -/
def ofPartition (n : Nat) : Bool := n == 0x210 || n == 0x211 || n == 0x230
/-- The bits of such a register that are not reserved (R7, R198, R401). -/
def partMask (n : Nat) : Word := if n = 0x210 then 0x7F else if n = 0x211 then 0xFFFFFFFF else 0x3FF

/-- The cluster that a register names; above 47 PROTECTION (R104). -/
def clusterNamed (x : Word) : M Nat := do
  if 47 < x.toNat then raiseFree cProtection
  pure x.toNat

/-- GETS (R104). [DESIGN CHOICE, unsafe, log 22] -/
def execGets (f : SForm) (s : State) : Result :=
  let n := f.imm.toNat
  runInstr (.gets f)
    { priv := regPriv n, kg := f.kg.toNat, srcs := if isClusterReg n then [sA f] else [], dsts := [gDst f.d.toNat] } (do
    waitSticky n
    if isClusterReg n then
      let cl ← clusterNamed (← opG .a)
      issueValue f.d.toNat (wd ((← get).readCluster cl n))
    else
      let key ← curKey
      let c ← curCtx
      if c.priv = .f ∧ ofPartition n then
        let (w, s1) := (← get).drawWord
        set s1
        writeG f.d.toNat (w &&& partMask n)
      else
        writeG f.d.toNat ((← get).readReg key c n)
        if n = 0x20A then modify fun s => { s with expired := false }) s

/-! ## Writing -/

/-- Change a register of the issuer's partition; a write by firmware, which has none, changes nothing (see the assumption log).
[DESIGN CHOICE, unsafe, log 22] -/
def State.modPart (s : State) (c : Ctx) (f : Part → Part) : State := if c.priv = .f then s else s.setPart c.part (f (s.part c.part))

/-- A value taken into a range. [DEDUCED, unsafe, log 24] -/
def clampTo (lo hi v : Nat) : Nat := Nat.min hi (Nat.max lo v)

/-- A write of a register of the context itself; the others are read-only (R34, R54, R56, R107). [DESIGN CHOICE, unsafe, log 134] -/
def Ctx.writeReg (c : Ctx) (n : Nat) (v : Word) : Ctx :=
  if 0x080 ≤ n ∧ n ≤ 0x087 then { c with pmsel := Map.set 0 c.pmsel (n - 0x080) (v &&& 0x3FF) }
  else
    match n with
    | 0x020 => { c with fpflags := c.fpflags &&& ~~~v }
    | 0x021 => { c with warn := c.warn &&& ~~~v }
    | 0x032 => { c with trapvec := v }
    | _ => c

/-- A write of a register of the package or of a partition (R198, R259, R401, R423). [DESIGN CHOICE, unsafe, log 22; DEDUCED, unsafe, log 24] -/
def State.writeShared (s : State) (key : Nat) (c : Ctx) (n v : Nat) : State :=
  match n with
  | 0x208 => s.writeBudget v
  | 0x209 => if v % 2 = 1 then s.commitPower else s
  | 0x20A => if v % 2 = 1 then s.kick (decide (key = firmwareOf 0)) else s
  | 0x210 => s.modPart c fun p => { p with grace := clampTo 2 64 (bits v 6 0) }
  | 0x211 => s.modPart c fun p => { p with holdcap := bits v 31 0 }
  | 0x220 => if c.priv = .f then s else s.writeRprctl c.part v
  | 0x230 => s.modPart c fun p => { p with ckptdl := clampTo 1 1000 (bits v 9 0) }
  | 0x240 => { s with ptpset := some (wd v) }
  | _ => s

/-- SETS (R104). A supervisor rings CLPM_WAKE only while SENABLE is 1 and changes no other bit of it (R427). [DESIGN CHOICE, unsafe, log 136] -/
def execSets (f : SForm) (s : State) : Result :=
  let n := f.imm.toNat
  runInstr (.sets f)
    { priv := regPriv n, kg := f.kg.toNat, srcs := sA f :: (if isClusterReg n then [sB .g f] else []) } (do
    waitSticky n
    let v ← opG .a
    let c ← curCtx
    let key ← curKey
    if isClusterReg n then
      let cl ← clusterNamed (← opG .b)
      if c.priv = .s then
        if !((← get).cluster cl).senable then raise cPrivilege (wd Priv.f.level)
        if v.getLsbD 0 then modify fun s => s.ring cl 3
      else modify fun s => s.writeCluster cl n v.toNat (dieOf key)
    else if n < 0x100 then modCur fun c => c.writeReg n v
    else modify fun s => s.writeShared key c n v.toNat) s

/-! ## Time and counters -/

/-- GETT .ticks (R105). -/
def execGettTicks (f : SForm) (s : State) : Result :=
  runInstr (.gettTicks f) (sAsk f [] [gDst f.d.toNat]) (do writeG f.d.toNat (wd (← get).ticks)) s
/-- GETT .ptp (R105). -/
def execGettPtp (f : SForm) (s : State) : Result :=
  runInstr (.gettPtp f) (sAsk f [] [gDst f.d.toNat]) (do writeG f.d.toNat (wd (← get).ptp)) s
/-- GETT .both: one sample of the two clocks (R105). -/
def execGettBoth (f : SForm) (s : State) : Result :=
  runInstr (.gettBoth f) (sAsk f [] [gDst f.d.toNat, gDst f.b.toNat]) (do
    let s ← get
    writeG f.d.toNat (wd s.ticks)
    writeG f.b.toNat (wd s.ptp)) s

/-- PERF reads a counter, and clears it in the same step with CND 1 (R106). -/
def execPerf (f : SForm) (s : State) : Result :=
  runInstr (.perf f) (sAsk f [] [gDst f.d.toNat]) (do
    let c ← curCtx
    writeG f.d.toNat (Map.get 0 c.pmcnt (sP f % 8))
    if f.cnd = 1 then modCur fun c => { c with pmcnt := Map.set 0 c.pmcnt (sP f % 8) 0 }) s

/-- Bytes that a checkpoint or a restore has copied a tick later: 720 of them at 72 GB/s, in a tick in which it copies (R413, R415).
[DESIGN CHOICE, unsafe, log 109] -/
def MgmtWindow.copying (m : MgmtWindow) (copies : Bool) : MgmtWindow :=
  if m.ckptBusy && copies then { m with ckptProg := Nat.min m.ckptTotal (m.ckptProg + 720) } else m

/-- REFERENCE_CLOCK_TICK: %ticks advances by 1, %ptp by 10 or to the value written to %ptpset, and each graph's stillness timer unless something holds
it still; every WAIT in progress is sampled (R34, R167, R169, R423). [DESIGN CHOICE, safe, log 111] -/
def execReferenceClockTick (s : State) : Result :=
  runEvent (fun s =>
    State.sampleWaits { s with
      ticks := (s.ticks + 1) % 2 ^ 64
      ptp := match s.ptpset with
        | some v => v.toNat
        | none => (s.ptp + 10) % 2 ^ 64
      ptpset := none
      mgmt := s.mgmt.copying (Config.freeChoice s.drawn)
      drawn := s.drawn + b2n s.mgmt.ckptBusy
      parts := match s.ptpset with
        | some v => s.parts.map fun e => (e.1, e.2.gangAt v.toNat)
        | none => s.parts
      graphs := s.graphs.map fun g => if s.timerStands g then g else { g with timer := g.timer + 1 } }) s

/-- PTPSET_WRITE: firmware writes %ptpset (R423). -/
def execPtpsetWrite (value : BitVec 64) (s : State) : Result := runEvent (fun s => { s with ptpset := some value }) s

end Sys2Proof.Machine
end

