-- ==== Sys2Proof/Machine/Windows.lean ====
section
/-! DEFINITION. What the host reaches over UCIe (R207, R209, R371, R415): the windows of the partitions, the notify window and the management window,
each behind the host addresses that log entry 120 gives it. -/

namespace Sys2Proof.Machine

/-! ## The registers of the notify window (R207) -/

/-- The PROGRESS register: the snapshot of the last commit (R207, R209). -/
def Subq.progress (q : Subq) : Nat := q.snapHead % 2 ^ 32 + b2n q.snapResident * 2 ^ 32 + b2n q.snapPending * 2 ^ 33

/-- The register of the notify window at an offset, as a read has it: NOTIFY reads as 0, and so does the register of a doorbell that no live
host-fed QSB names (R371). -/
def State.notifyWord (s : State) (off : Nat) : Nat :=
  if off / 2 ^ 19 = 1 then
    ((s.subqs.find? fun q => !q.deviceFed && q.doorbell == off % 2 ^ 19 / 8).map fun q => q.progress).getD 0
  else 0

/-! ## The registers of the management window (R415) -/

/-- The register at an offset of the management window; every bit that R415 does not list reads as 0. The public key of the device's identity, 1,793 bytes,
is readable from offset 0x200 (R372). [DESIGN CHOICE, unsafe, log 120; DESIGN CHOICE, unsafe, log 133] -/
def MgmtWindow.word (m : MgmtWindow) (off : Nat) : Nat :=
  match off with
  | 0x000 => b2n m.regLive * 2 + b2n m.busy * 8 + b2n m.fail * 16 + m.why % 8 * 32 + b2n m.inrom * 256
  | 0x008 => m.regAddr.toNat
  | 0x010 => m.regLen.toNat
  | 0x018 => m.retmap % 2 ^ 64
  | 0x100 => b2n m.ckptBusy * 4 + b2n m.ckptDone * 8 + b2n m.ckptErr * 16 + m.ckptErrcode % 8 * 32
  | 0x108 => m.regMask.toNat
  | 0x110 => m.regBase.toNat
  | 0x118 => m.ckptProg % 2 ^ 64
  | n => if 0x200 ≤ n ∧ n < 0x200 + 1800 then leNat ((List.range 8).map fun j => if n - 0x200 + j < 1793 then Config.publicKey (n - 0x200 + j) else 0) else 0

/-- The registers after a write of a word at an offset, but for the operations that the write starts. -/
def MgmtWindow.write (m : MgmtWindow) (off : Nat) (w : Word) : MgmtWindow :=
  match off with
  | 0x000 => { m with regLive := w.getLsbD 1, fail := m.fail && !w.getLsbD 4 }
  | 0x008 => { m with regAddr := w }
  | 0x010 => { m with regLen := w.setWidth 32 }
  | 0x018 => { m with retmap := w.toNat }
  | 0x100 => { m with ckptDone := m.ckptDone && !w.getLsbD 3, ckptErr := m.ckptErr && !w.getLsbD 4 }
  | 0x108 => { m with regMask := w }
  | 0x110 => { m with regBase := BitVec.ofNat 64 (w.toNat / 4096 * 4096) }
  | _ => m

/-- A write of a register of the management window: WARM, then PUSH, SAVE and RESTORE act on the registers as they stand after it (R413 to R417).
[DESIGN CHOICE, unsafe, log 120] -/
def State.writeMgmt (s : State) (off : Nat) (w : Word) : State :=
  let s1 : State := { s with mgmt := s.mgmt.write off w }
  let m := s1.mgmt
  match off with
  | 0x000 =>
    let s2 := if w.getLsbD 2 then s1.warmReset else s1
    if w.getLsbD 0 then s2.pushImage m.regAddr.toNat m.regLen.toNat m.regLive else s2
  | 0x100 =>
    let s2 := if w.getLsbD 0 then s1.beginSave m.regMask.toNat m.regBase.toNat else s1
    if w.getLsbD 1 then s2.beginRestore m.regMask.toNat m.regBase.toNat else s2
  | _ => s1

/-! ## Host accesses -/

/-- What a host address reaches. -/
inductive HostPlace where
  | partition
  | notify (off : Nat)
  | mgmt (off : Nat)
  deriving DecidableEq, Repr

/-- The window of a host address: the partition windows lie below 2^54, the notify window at 2^55 and the management window at 2^56.
[DESIGN CHOICE, unsafe, log 120] -/
def hostPlace (addr : Nat) : HostPlace :=
  if 2 ^ 55 ≤ addr ∧ addr < 2 ^ 55 + 2 ^ 20 then .notify (addr - 2 ^ 55)
  else if 2 ^ 56 ≤ addr ∧ addr < 2 ^ 56 + 2 ^ 12 then .mgmt (addr - 2 ^ 56)
  else .partition

/-- The n bytes of a register read from an offset, or none where the read is not within one register. [DESIGN CHOICE, unsafe, log 120] -/
def registerBytes (word off n : Nat) : Option (List Byte) :=
  if off % 8 + n ≤ 8 then some (((leBytes 8 word).drop (off % 8)).take n) else none

/-- The word of a register that a host write gives, or none where the write is not the whole of one register. [DESIGN CHOICE, unsafe, log 120] -/
def registerWord (off : Nat) (bytes : List Byte) : Option Word := if off % 8 = 0 ∧ bytes.length = 8 then some (wd (leNat bytes)) else none

/-- The answer to a host read of a register. -/
def answerRead : Option (List Byte) → HostResp
  | some bs => .data bs
  | none => .error

/-- A host read through a partition window (R371, R405); while the partition is being checkpointed the access waits (R413). -/
def State.hostLoad (s : State) (addr len : Nat) : State :=
  if (s.part (hostPart addr)).paused then s
  else
    match hostPas s addr len .r with
    | none => { s with hostResp := .error }
    | some pas =>
      match pas.find? fun pa => s.dramBad pa 1 with
      | some pa =>
        let (unit, s1) := s.dramUnit
        { s1.logError (pa / 2 ^ 36) 1 unit pa with hostResp := .error }
      | none => { s with hostResp := .data (pas.map (Memory.read s.mem)) }

/-- HOST_READ of a partition window (R371) or of a register (R207, R415). -/
def execHostRead (addr len : Nat) (s : State) : Result :=
  runEvent (fun s => match hostPlace addr with
    | .partition => s.hostLoad addr len
    | .notify off => { s with hostResp := answerRead (registerBytes (s.notifyWord (off / 8 * 8)) off len) }
    | .mgmt off => { s with hostResp := answerRead (registerBytes (s.mgmt.word (off / 8 * 8)) off len) }) s

/-- Bytes with their addresses gathered into runs of consecutive addresses, so that a whole sector written becomes correct. -/
def runsOf : List (Nat × Byte) → List (Nat × List Byte)
  | [] => []
  | (pa, b) :: rest =>
    match runsOf rest with
    | (q, bs) :: more => if q = pa + 1 then (pa, b :: bs) :: more else (pa, [b]) :: (q, bs) :: more
    | [] => [(pa, [b])]

/-- A host write through a partition window (R371). -/
def State.hostStore (s : State) (addr : Nat) (bytes : List Byte) : State :=
  if (s.part (hostPart addr)).paused then s
  else
    match hostPas s addr bytes.length .w with
    | none => { s with hostResp := .error }
    | some pas => { (runsOf (pas.zip bytes)).foldl (fun s r => s.dramWrite r.1 r.2) s with hostResp := .written }

/-- HOST_WRITE of a partition window (R371), of a NOTIFY register (R207, R208) or of a register of the management window (R415). -/
def execHostWrite (addr : Nat) (bytes : List (BitVec 8)) (s : State) : Result :=
  runEvent (fun s => match hostPlace addr with
    | .partition => s.hostStore addr bytes
    | .notify off =>
      match registerWord off bytes with
      | none => { s with hostResp := .error }
      | some w => { if off < 2 ^ 19 then s.applyNotify (off / 8) (w.toNat % 2 ^ 32) else s with hostResp := .written }
    | .mgmt off =>
      match registerWord off bytes with
      | none => { s with hostResp := .error }
      | some w => { s.writeMgmt off w with hostResp := .written }) s

end Sys2Proof.Machine
end

