-- ==== Sys2Proof/Machine/Dispatch.lean ====
section
/-! DEFINITION. The meaning of every instruction, one arm per constructor. -/

namespace Sys2Proof.Machine

def exec (i : Instr) (s : State) : Host.Outcome State Fault Refusal :=
  match i with
  | .nop f => Sys2Proof.Machine.execNop f s
  | .br f => Sys2Proof.Machine.execBr f s
  | .brany f => Sys2Proof.Machine.execBrany f s
  | .brall f => Sys2Proof.Machine.execBrall f s
  | .call f => Sys2Proof.Machine.execCall f s
  | .ret f => Sys2Proof.Machine.execRet f s
  | .brx f => Sys2Proof.Machine.execBrx f s
  | .callx f => Sys2Proof.Machine.execCallx f s
  | .loop f => Sys2Proof.Machine.execLoop f s
  | .endFiring f => Sys2Proof.Machine.execEndFiring f s
  | .ipf f => Sys2Proof.Machine.execIpf f s
  | .brL f => Sys2Proof.Machine.execBrL f s
  | .callL f => Sys2Proof.Machine.execCallL f s
  | .moviL f => Sys2Proof.Machine.execMoviL f s
  | .leaL f => Sys2Proof.Machine.execLeaL f s
  | .modbind f => Sys2Proof.Machine.execModbind f s
  | .modfree f => Sys2Proof.Machine.execModfree f s
  | .modq f => Sys2Proof.Machine.execModq f s
  | .add f => Sys2Proof.Machine.execAdd f s
  | .sub f => Sys2Proof.Machine.execSub f s
  | .mul f => Sys2Proof.Machine.execMul f s
  | .mulh f => Sys2Proof.Machine.execMulh f s
  | .div f => Sys2Proof.Machine.execDiv f s
  | .rem f => Sys2Proof.Machine.execRem f s
  | .and f => Sys2Proof.Machine.execAnd f s
  | .or f => Sys2Proof.Machine.execOr f s
  | .xor f => Sys2Proof.Machine.execXor f s
  | .andn f => Sys2Proof.Machine.execAndn f s
  | .shl f => Sys2Proof.Machine.execShl f s
  | .shr f => Sys2Proof.Machine.execShr f s
  | .sra f => Sys2Proof.Machine.execSra f s
  | .rot f => Sys2Proof.Machine.execRot f s
  | .clz f => Sys2Proof.Machine.execClz f s
  | .ctz f => Sys2Proof.Machine.execCtz f s
  | .popc f => Sys2Proof.Machine.execPopc f s
  | .min f => Sys2Proof.Machine.execMin f s
  | .max f => Sys2Proof.Machine.execMax f s
  | .absd f => Sys2Proof.Machine.execAbsd f s
  | .cmp f => Sys2Proof.Machine.execCmp f s
  | .sel f => Sys2Proof.Machine.execSel f s
  | .mov f => Sys2Proof.Machine.execMov f s
  | .ext f => Sys2Proof.Machine.execExt f s
  | .ins f => Sys2Proof.Machine.execIns f s
  | .lea f => Sys2Proof.Machine.execLea f s
  | .addImm f => Sys2Proof.Machine.execAddImm f s
  | .andImm f => Sys2Proof.Machine.execAndImm f s
  | .orImm f => Sys2Proof.Machine.execOrImm f s
  | .xorImm f => Sys2Proof.Machine.execXorImm f s
  | .shlImm f => Sys2Proof.Machine.execShlImm f s
  | .shrImm f => Sys2Proof.Machine.execShrImm f s
  | .sraImm f => Sys2Proof.Machine.execSraImm f s
  | .cmpImm f => Sys2Proof.Machine.execCmpImm f s
  | .movi f => Sys2Proof.Machine.execMovi f s
  | .leaImm f => Sys2Proof.Machine.execLeaImm f s
  | .leaPc f => Sys2Proof.Machine.execLeaPc f s
  | .kset f => Sys2Proof.Machine.execKset f s
  | .klog f => Sys2Proof.Machine.execKlog f s
  | .kmov f => Sys2Proof.Machine.execKmov f s
  | .kcnt f => Sys2Proof.Machine.execKcnt f s
  | .flag f => Sys2Proof.Machine.execFlag f s
  | .empty f => Sys2Proof.Machine.execEmpty f s
  | .full f => Sys2Proof.Machine.execFull f s
  | .gets f => Sys2Proof.Machine.execGets f s
  | .sets f => Sys2Proof.Machine.execSets f s
  | .gettTicks f => Sys2Proof.Machine.execGettTicks f s
  | .gettPtp f => Sys2Proof.Machine.execGettPtp f s
  | .gettBoth f => Sys2Proof.Machine.execGettBoth f s
  | .perf f => Sys2Proof.Machine.execPerf f s
  | .guardEntry f => Sys2Proof.Machine.execGuardEntry f s
  | .guardTable f => Sys2Proof.Machine.execGuardTable f s
  | .unguardOne f => Sys2Proof.Machine.execUnguardOne f s
  | .unguardMask f => Sys2Proof.Machine.execUnguardMask f s
  | .gqryEntry f => Sys2Proof.Machine.execGqryEntry f s
  | .gqryElig f => Sys2Proof.Machine.execGqryElig f s
  | .ctxq f => Sys2Proof.Machine.execCtxq f s
  | .qpush f => Sys2Proof.Machine.execQpush f s
  | .qpop f => Sys2Proof.Machine.execQpop f s
  | .qpeek f => Sys2Proof.Machine.execQpeek f s
  | .qres f => Sys2Proof.Machine.execQres f s
  | .qrel f => Sys2Proof.Machine.execQrel f s
  | .qeos f => Sys2Proof.Machine.execQeos f s
  | .qcred f => Sys2Proof.Machine.execQcred f s
  | .qbindPort f => Sys2Proof.Machine.execQbindPort f s
  | .qbindHome f => Sys2Proof.Machine.execQbindHome f s
  | .qbindTmpl f => Sys2Proof.Machine.execQbindTmpl f s
  | .qunbind f => Sys2Proof.Machine.execQunbind f s
  | .qstat f => Sys2Proof.Machine.execQstat f s
  | .qfwd f => Sys2Proof.Machine.execQfwd f s
  | .mcadd f => Sys2Proof.Machine.execMcadd f s
  | .mcread f => Sys2Proof.Machine.execMcread f s
  | .wcond f => Sys2Proof.Machine.execWcond f s
  | .wait f => Sys2Proof.Machine.execWait f s
  | .eread f => Sys2Proof.Machine.execEread f s
  | .eclr f => Sys2Proof.Machine.execEclr f s
  | .lease f => Sys2Proof.Machine.execLease f s
  | .lrenew f => Sys2Proof.Machine.execLrenew f s
  | .lfreeHeld f => Sys2Proof.Machine.execLfreeHeld f s
  | .lfreePend f => Sys2Proof.Machine.execLfreePend f s
  | .lqryLease f => Sys2Proof.Machine.execLqryLease f s
  | .lqryCls f => Sys2Proof.Machine.execLqryCls f s
  | .evackNow f => Sys2Proof.Machine.execEvackNow f s
  | .evackDrain f => Sys2Proof.Machine.execEvackDrain f s
  | .rast f => Sys2Proof.Machine.execRast f s
  | .trace f => Sys2Proof.Machine.execTrace f s
  | .sample f => Sys2Proof.Machine.execSample f s
  | .codec f => Sys2Proof.Machine.execCodec f s
  | .spawn f => Sys2Proof.Machine.execSpawn f s
  | .gload f => Sys2Proof.Machine.execGload f s
  | .garm f => Sys2Proof.Machine.execGarm f s
  | .gdrainGraph f => Sys2Proof.Machine.execGdrainGraph f s
  | .gdrainQdrain f => Sys2Proof.Machine.execGdrainQdrain f s
  | .gdrainQabort f => Sys2Proof.Machine.execGdrainQabort f s
  | .gstart f => Sys2Proof.Machine.execGstart f s
  | .placePin f => Sys2Proof.Machine.execPlacePin f s
  | .placeHint f => Sys2Proof.Machine.execPlaceHint f s
  | .placeFree f => Sys2Proof.Machine.execPlaceFree f s
  | .placeOwn f => Sys2Proof.Machine.execPlaceOwn f s
  | .lstatLaunch f => Sys2Proof.Machine.execLstatLaunch f s
  | .lstatGraph f => Sys2Proof.Machine.execLstatGraph f s
  | .vadd f => Sys2Proof.Machine.execVadd f s
  | .vsub f => Sys2Proof.Machine.execVsub f s
  | .vmul f => Sys2Proof.Machine.execVmul f s
  | .vmulh f => Sys2Proof.Machine.execVmulh f s
  | .vmad f => Sys2Proof.Machine.execVmad f s
  | .vand f => Sys2Proof.Machine.execVand f s
  | .vor f => Sys2Proof.Machine.execVor f s
  | .vxor f => Sys2Proof.Machine.execVxor f s
  | .vshl f => Sys2Proof.Machine.execVshl f s
  | .vshr f => Sys2Proof.Machine.execVshr f s
  | .vsra f => Sys2Proof.Machine.execVsra f s
  | .vmin f => Sys2Proof.Machine.execVmin f s
  | .vmax f => Sys2Proof.Machine.execVmax f s
  | .vabs f => Sys2Proof.Machine.execVabs f s
  | .vcmp f => Sys2Proof.Machine.execVcmp f s
  | .vsel f => Sys2Proof.Machine.execVsel f s
  | .vmov f => Sys2Proof.Machine.execVmov f s
  | .vpopc f => Sys2Proof.Machine.execVpopc f s
  | .fadd f => Sys2Proof.Machine.execFadd f s
  | .fsub f => Sys2Proof.Machine.execFsub f s
  | .fmul f => Sys2Proof.Machine.execFmul f s
  | .ffma f => Sys2Proof.Machine.execFfma f s
  | .fmin f => Sys2Proof.Machine.execFmin f s
  | .fmax f => Sys2Proof.Machine.execFmax f s
  | .fsgn f => Sys2Proof.Machine.execFsgn f s
  | .fcmp f => Sys2Proof.Machine.execFcmp f s
  | .fclass f => Sys2Proof.Machine.execFclass f s
  | .frcps f => Sys2Proof.Machine.execFrcps f s
  | .frsqs f => Sys2Proof.Machine.execFrsqs f s
  | .fexp2 f => Sys2Proof.Machine.execFexp2 f s
  | .flog2 f => Sys2Proof.Machine.execFlog2 f s
  | .fsinp f => Sys2Proof.Machine.execFsinp f s
  | .fcosp f => Sys2Proof.Machine.execFcosp f s
  | .frnd f => Sys2Proof.Machine.execFrnd f s
  | .vbcast f => Sys2Proof.Machine.execVbcast f s
  | .vperm f => Sys2Proof.Machine.execVperm f s
  | .vrot f => Sys2Proof.Machine.execVrot f s
  | .vred f => Sys2Proof.Machine.execVred f s
  | .vscan f => Sys2Proof.Machine.execVscan f s
  | .vextl f => Sys2Proof.Machine.execVextl f s
  | .vinsl f => Sys2Proof.Machine.execVinsl f s
  | .cvt f => Sys2Proof.Machine.execCvt f s
  | .cvtq f => Sys2Proof.Machine.execCvtq f s
  | .cvtd f => Sys2Proof.Machine.execCvtd f s
  | .pack f => Sys2Proof.Machine.execPack f s
  | .unpack f => Sys2Proof.Machine.execUnpack f s
  | .amax f => Sys2Proof.Machine.execAmax f s
  | .scale f => Sys2Proof.Machine.execScale f s
  | .mxlds f => Sys2Proof.Machine.execMxlds f s
  | .mxswap f => Sys2Proof.Machine.execMxswap f s
  | .mxstrm f => Sys2Proof.Machine.execMxstrm f s
  | .mxtile f => Sys2Proof.Machine.execMxtile f s
  | .mxzero f => Sys2Proof.Machine.execMxzero f s
  | .mxrd f => Sys2Proof.Machine.execMxrd f s
  | .mxwr f => Sys2Proof.Machine.execMxwr f s
  | .mxtrn f => Sys2Proof.Machine.execMxtrn f s
  | .mxperm f => Sys2Proof.Machine.execMxperm f s
  | .mxrred f => Sys2Proof.Machine.execMxrred f s
  | .mxescWiden f => Sys2Proof.Machine.execMxescWiden f s
  | .mxescNarrow f => Sys2Proof.Machine.execMxescNarrow f s
  | .mxtok f => Sys2Proof.Machine.execMxtok f s
  | .bdrdBnd f => Sys2Proof.Machine.execBdrdBnd f s
  | .bdrdStat f => Sys2Proof.Machine.execBdrdStat f s
  | .bdwr f => Sys2Proof.Machine.execBdwr f s
  | .bdthr f => Sys2Proof.Machine.execBdthr f s
  | .bdst f => Sys2Proof.Machine.execBdst f s
  | .bdld f => Sys2Proof.Machine.execBdld f s
  | .bdpropCvt f => Sys2Proof.Machine.execBdpropCvt f s
  | .bdpropScale f => Sys2Proof.Machine.execBdpropScale f s
  | .bdpropSum f => Sys2Proof.Machine.execBdpropSum f s
  | .ld f => Sys2Proof.Machine.execLd f s
  | .vld f => Sys2Proof.Machine.execVld f s
  | .vldx f => Sys2Proof.Machine.execVldx f s
  | .st f => Sys2Proof.Machine.execSt f s
  | .vst f => Sys2Proof.Machine.execVst f s
  | .vstx f => Sys2Proof.Machine.execVstx f s
  | .atom f => Sys2Proof.Machine.execAtom f s
  | .atomr f => Sys2Proof.Machine.execAtomr f s
  | .cas f => Sys2Proof.Machine.execCas f s
  | .copy f => Sys2Proof.Machine.execCopy f s
  | .chain f => Sys2Proof.Machine.execChain f s
  | .awarm f => Sys2Proof.Machine.execAwarm f s
  | .awcred f => Sys2Proof.Machine.execAwcred f s
  | .fence f => Sys2Proof.Machine.execFence f s
  | .pref f => Sys2Proof.Machine.execPref f s
  | .cwb f => Sys2Proof.Machine.execCwb f s
  | .cinv f => Sys2Proof.Machine.execCinv f s
  | .cflush f => Sys2Proof.Machine.execCflush f s
  | .bankcfg f => Sys2Proof.Machine.execBankcfg f s
  | .blend f => Sys2Proof.Machine.execBlend f s
  | .seqret f => Sys2Proof.Machine.execSeqret f s
  | .assetMake f => Sys2Proof.Machine.execAssetMake f s
  | .assetRoot f => Sys2Proof.Machine.execAssetRoot f s
  | .assetKill f => Sys2Proof.Machine.execAssetKill f s
  | .assetSelf f => Sys2Proof.Machine.execAssetSelf f s
  | .tlbinvVa f => Sys2Proof.Machine.execTlbinvVa f s
  | .tlbinvAsid f => Sys2Proof.Machine.execTlbinvAsid f s
  | .tlbinvIpa f => Sys2Proof.Machine.execTlbinvIpa f s
  | .tlbinvPart f => Sys2Proof.Machine.execTlbinvPart f s
  | .partcfgOpen f => Sys2Proof.Machine.execPartcfgOpen f s
  | .partcfgShut f => Sys2Proof.Machine.execPartcfgShut f s
  | .partcfgAssign f => Sys2Proof.Machine.execPartcfgAssign f s
  | .partcfgWays f => Sys2Proof.Machine.execPartcfgWays f s
  | .partcfgShare f => Sys2Proof.Machine.execPartcfgShare f s
  | .partcfgGang f => Sys2Proof.Machine.execPartcfgGang f s
  | .partcfgQbank f => Sys2Proof.Machine.execPartcfgQbank f s
  | .partcfgQsb f => Sys2Proof.Machine.execPartcfgQsb f s
  | .partcfgQdel f => Sys2Proof.Machine.execPartcfgQdel f s
  | .partcfgHostwin f => Sys2Proof.Machine.execPartcfgHostwin f s
  | .quote f => Sys2Proof.Machine.execQuote f s
  | .svc f => Sys2Proof.Machine.execSvc f s
  | .trap f => Sys2Proof.Machine.execTrap f s
  | .resumeSelf f => Sys2Proof.Machine.execResumeSelf f s
  | .resumeCtx f => Sys2Proof.Machine.execResumeCtx f s
  | .rqrd f => Sys2Proof.Machine.execRqrd f s
  | .rqwr f => Sys2Proof.Machine.execRqwr f s
  | .ckpt f => Sys2Proof.Machine.execCkpt f s
  | .swapNow f => Sys2Proof.Machine.execSwapNow f s
  | .swapFull f => Sys2Proof.Machine.execSwapFull f s
  | .swapStage f => Sys2Proof.Machine.execSwapStage f s
  | .spillqSave f => Sys2Proof.Machine.execSpillqSave f s
  | .spillqRestore f => Sys2Proof.Machine.execSpillqRestore f s
  | .operandWaitRelease ctx => Sys2Proof.Machine.execOperandWaitRelease ctx s
  | .longLatencyResult id => Sys2Proof.Machine.execLongLatencyResult id s
  | .firingDispatch strand => Sys2Proof.Machine.execFiringDispatch strand s
  | .tokenArrival queue => Sys2Proof.Machine.execTokenArrival queue s
  | .creditReturn queue => Sys2Proof.Machine.execCreditReturn queue s
  | .pushCreditWaitRelease ctx => Sys2Proof.Machine.execPushCreditWaitRelease ctx s
  | .popTokenWaitRelease ctx => Sys2Proof.Machine.execPopTokenWaitRelease ctx s
  | .spillRingDrain queue => Sys2Proof.Machine.execSpillRingDrain queue s
  | .proxyForwardBatch queue => Sys2Proof.Machine.execProxyForwardBatch queue s
  | .proxyBatchTimeout queue => Sys2Proof.Machine.execProxyBatchTimeout queue s
  | .monotonicCounterAdd id => Sys2Proof.Machine.execMonotonicCounterAdd id s
  | .arrivalWordCredit id => Sys2Proof.Machine.execArrivalWordCredit id s
  | .asyncCompletion id => Sys2Proof.Machine.execAsyncCompletion id s
  | .waitCompletion ctx => Sys2Proof.Machine.execWaitCompletion ctx s
  | .waitTimeout ctx => Sys2Proof.Machine.execWaitTimeout ctx s
  | .deadlockDetection graph => Sys2Proof.Machine.execDeadlockDetection graph s
  | .leaseGrant request => Sys2Proof.Machine.execLeaseGrant request s
  | .engineWakeEnd engine => Sys2Proof.Machine.execEngineWakeEnd engine s
  | .evictionNotice engine => Sys2Proof.Machine.execEvictionNotice engine s
  | .holdEnd engine => Sys2Proof.Machine.execHoldEnd engine s
  | .gracePeriodExpiry engine => Sys2Proof.Machine.execGracePeriodExpiry engine s
  | .dozeExpiry engine => Sys2Proof.Machine.execDozeExpiry engine s
  | .engineResultPush engine => Sys2Proof.Machine.execEngineResultPush engine s
  | .engineCommandCompletion engine => Sys2Proof.Machine.execEngineCommandCompletion engine s
  | .mxRowGroupStep engine => Sys2Proof.Machine.execMxRowGroupStep engine s
  | .mxstrmControlToken engine => Sys2Proof.Machine.execMxstrmControlToken engine s
  | .mxMacroOpCompletion engine => Sys2Proof.Machine.execMxMacroOpCompletion engine s
  | .copyTokenPush id => Sys2Proof.Machine.execCopyTokenPush id s
  | .copyRecordCompletion id => Sys2Proof.Machine.execCopyRecordCompletion id s
  | .atomicApply id => Sys2Proof.Machine.execAtomicApply id s
  | .atomicDiversion id => Sys2Proof.Machine.execAtomicDiversion id s
  | .repairRetry die entry => Sys2Proof.Machine.execRepairRetry die entry s
  | .repairAbandon die entry => Sys2Proof.Machine.execRepairAbandon die entry s
  | .repairTimeout die entry => Sys2Proof.Machine.execRepairTimeout die entry s
  | .postedWriteArrival id => Sys2Proof.Machine.execPostedWriteArrival id s
  | .blendAtBank id => Sys2Proof.Machine.execBlendAtBank id s
  | .seqretAtBank id => Sys2Proof.Machine.execSeqretAtBank id s
  | .pageWalkCompletion tlb va => Sys2Proof.Machine.execPageWalkCompletion tlb va s
  | .tlbinvCompletion id => Sys2Proof.Machine.execTlbinvCompletion id s
  | .bindingTakesEffect id => Sys2Proof.Machine.execBindingTakesEffect id s
  | .modfreeDrainComplete id => Sys2Proof.Machine.execModfreeDrainComplete id s
  | .notify doorbell tail => Sys2Proof.Machine.execNotify doorbell tail s
  | .queueMap qsb => Sys2Proof.Machine.execQueueMap qsb s
  | .queueUnmap qsb => Sys2Proof.Machine.execQueueUnmap qsb s
  | .recordFetch qsb => Sys2Proof.Machine.execRecordFetch qsb s
  | .launchDispatch => Sys2Proof.Machine.execLaunchDispatch s
  | .launchEnd graph => Sys2Proof.Machine.execLaunchEnd graph s
  | .curatorInterval => Sys2Proof.Machine.execCuratorInterval s
  | .templateRewrite ctx => Sys2Proof.Machine.execTemplateRewrite ctx s
  | .gangSliceInstant part => Sys2Proof.Machine.execGangSliceInstant part s
  | .ptpLockLoss => Sys2Proof.Machine.execPtpLockLoss s
  | .ptpsetWrite value => Sys2Proof.Machine.execPtpsetWrite value s
  | .asyncFaultDelivery ctx => Sys2Proof.Machine.execAsyncFaultDelivery ctx s
  | .trapHandlerDispatch ctx => Sys2Proof.Machine.execTrapHandlerDispatch ctx s
  | .faultRecordDelivery target => Sys2Proof.Machine.execFaultRecordDelivery target s
  | .archivistWriteOut strand => Sys2Proof.Machine.execArchivistWriteOut strand s
  | .archivistLoad strand => Sys2Proof.Machine.execArchivistLoad strand s
  | .fullSwitchDeadline tile => Sys2Proof.Machine.execFullSwitchDeadline tile s
  | .quiesce cluster => Sys2Proof.Machine.execQuiesce cluster s
  | .quiesceEnd cluster => Sys2Proof.Machine.execQuiesceEnd cluster s
  | .handoff cluster => Sys2Proof.Machine.execHandoff cluster s
  | .handoffEnd cluster => Sys2Proof.Machine.execHandoffEnd cluster s
  | .clkgate cluster => Sys2Proof.Machine.execClkgate cluster s
  | .clkungate cluster => Sys2Proof.Machine.execClkungate cluster s
  | .clpmResume cluster => Sys2Proof.Machine.execClpmResume cluster s
  | .clpmOperationEnd cluster => Sys2Proof.Machine.execClpmOperationEnd cluster s
  | .railOff cluster => Sys2Proof.Machine.execRailOff cluster s
  | .railOn cluster => Sys2Proof.Machine.execRailOn cluster s
  | .railPgood cluster => Sys2Proof.Machine.execRailPgood cluster s
  | .railPgoodTimeout cluster => Sys2Proof.Machine.execRailPgoodTimeout cluster s
  | .vsetWrite cluster value => Sys2Proof.Machine.execVsetWrite cluster value s
  | .railSlewStep cluster => Sys2Proof.Machine.execRailSlewStep cluster s
  | .fllTargetWrite cluster value => Sys2Proof.Machine.execFllTargetWrite cluster value s
  | .fllStep cluster => Sys2Proof.Machine.execFllStep cluster s
  | .fllLockTimeout cluster => Sys2Proof.Machine.execFllLockTimeout cluster s
  | .retentionSave cluster => Sys2Proof.Machine.execRetentionSave cluster s
  | .retentionSaveEnd cluster => Sys2Proof.Machine.execRetentionSaveEnd cluster s
  | .retentionRestore cluster => Sys2Proof.Machine.execRetentionRestore cluster s
  | .retentionRestoreEnd cluster => Sys2Proof.Machine.execRetentionRestoreEnd cluster s
  | .wakeRing cluster source => Sys2Proof.Machine.execWakeRing cluster source s
  | .pmbudgetWrite value => Sys2Proof.Machine.execPmbudgetWrite value s
  | .pmcommit => Sys2Proof.Machine.execPmcommit s
  | .watchdogKick => Sys2Proof.Machine.execWatchdogKick s
  | .watchdogExpiry => Sys2Proof.Machine.execWatchdogExpiry s
  | .mxcadWrite cluster value => Sys2Proof.Machine.execMxcadWrite cluster value s
  | .droopSag cluster => Sys2Proof.Machine.execDroopSag cluster s
  | .droopStepDown cluster => Sys2Proof.Machine.execDroopStepDown cluster s
  | .droopRecoveryStep cluster => Sys2Proof.Machine.execDroopRecoveryStep cluster s
  | .wayGate cluster => Sys2Proof.Machine.execWayGate cluster s
  | .wayReopen cluster => Sys2Proof.Machine.execWayReopen cluster s
  | .thermalTrip die => Sys2Proof.Machine.execThermalTrip die s
  | .thermalRecovery die => Sys2Proof.Machine.execThermalRecovery die s
  | .hostRead addr len => Sys2Proof.Machine.execHostRead addr len s
  | .hostWrite addr bytes => Sys2Proof.Machine.execHostWrite addr bytes s
  | .errorLogRecord die cls unit addr => Sys2Proof.Machine.execErrorLogRecord die cls unit addr s
  | .linkFlitRetry link => Sys2Proof.Machine.execLinkFlitRetry link s
  | .selfTest unit => Sys2Proof.Machine.execSelfTest unit s
  | .deviceReset => Sys2Proof.Machine.execDeviceReset s
  | .firmwarePush addr len live => Sys2Proof.Machine.execFirmwarePush addr len live s
  | .firmwareVerifyEnd digest => Sys2Proof.Machine.execFirmwareVerifyEnd digest s
  | .warmReset => Sys2Proof.Machine.execWarmReset s
  | .checkpointSave mask base => Sys2Proof.Machine.execCheckpointSave mask base s
  | .checkpointRestore mask base => Sys2Proof.Machine.execCheckpointRestore mask base s
  | .checkpointEnd => Sys2Proof.Machine.execCheckpointEnd s
  | .referenceClockTick => Sys2Proof.Machine.execReferenceClockTick s
  | .droopSagEnd cluster => Sys2Proof.Machine.execDroopSagEnd cluster s
  | .graphDrainLimitExpiry graph => Sys2Proof.Machine.execGraphDrainLimitExpiry graph s
  | .selfTestEnd unit passed => Sys2Proof.Machine.execSelfTestEnd unit passed s

end Sys2Proof.Machine
end

