-- ==== Sys2Proof/Machine/Fetch.lean ====
section
/-! DEFINITION. Fetching an instruction (R76, R79, R81 to R84), its issue, and what the device does of itself when nothing else is asked of it. -/

namespace Sys2Proof.Machine

/-! ## Fetch -/

/-- A word of a binding at an offset: the word as bound or as stored, when a store has made them differ (R79). Its address is translated with
the right to execute in the binding's own ASID (check 1 of R76, R82, R83). [DEDUCED, safe, log 42] -/
def fetchWord (s : State) (key : Nat) (c : Ctx) (b : Binding) (off : Nat) : Except Trap (Nat × State) :=
  let va := b.base + off
  match translateFor s key { c with asid := b.asid } va .x with
  | .error t => .error t
  | .ok pa =>
    if s.dramBad pa 8 then .error (badDataTrap va)
    else
      let bound := leNat ((List.range 8).map fun j => Map.get 0 b.image (off + j))
      let stored := leNat (Memory.readBytes s.mem pa 8)
      if bound = stored then .ok (bound, s)
      else
        let (old, s1) := s.drawChoice
        .ok (if old then bound else stored, s1)

/-- Sequential execution that reaches the end of a binding (R84). -/
def pastEnd (pc : Word) : Trap := { cause := cProtection, info := pc }

/-- What a fetch gives: the word at the program counter with the literal of an L pair, or the fault of the first word (R69, R76, R84). -/
def fetchPair (s : State) (key : Nat) (c : Ctx) (f : Firing) : Except Trap (Nat × Nat × State) :=
  let off := cpOffset f.pc
  match s.enterBinding c.asid f (cpSlot f.pc) with
  | none => .error { cause := cModuleAbsent, free := true }
  | some b =>
    if f.pc.getLsbD 63 ∨ b.len < off + 8 then .error (pastEnd (codePtr (cpSlot f.pc) off))
    else
      match fetchWord s key c b off with
      | .error t => .error t
      | .ok (w, s1) =>
        if takesLiteral w then
          if b.len < off + 16 then .error (pastEnd (nextPc f.pc 8))
          else
            match fetchWord s1 key c b (off + 8) with
            | .error t => .error t
            | .ok (lit, s2) => .ok (w, lit, s2)
        else .ok (w, 0, s1)

/-- The fault of a word that is no instruction (R77). -/
def decodeTrap (e : DecodeError) : Trap :=
  match e with
  | .truncated => { cause := cIllegalOpcode, free := true }
  | .illegalOpcode hi => { cause := cIllegalOpcode, info := wd hi }
  | .illegalEncoding hi why second => { cause := cIllegalEncoding, info := wd (hi + why * 2 ^ 6 + b2n second * 2 ^ 9) }

/-- A fault before there is a word: FWORD is a free value. [DEDUCED, unsafe, log 29] -/
def State.fetchTrap (s : State) (key : Nat) (f : Firing) (t : Trap) : State :=
  let (s1, entries) := s.interruptOps key f.serial none
  s1.wordlessTrap key t f.pc f.pc entries

/-! ## Issue -/

/-- The next replay entry: one marked SKIP or SUPPLY is settled, one marked REPLAY issues again with its captured operands (R387, R392). -/
def issueReplay (s : State) (key : Nat) (c : Ctx) (e : ReplayEntry) (rest : List ReplayEntry) : Result :=
  if e.mode = 0 then
    match decodeWords e.word.toNat 0 with
    | .ok i => exec i { s with cur := some key, replayNow := true }
    | .error _ => .next (s.setCtx key { c with replay := rest })
  else .next (s.setCtx key { c.settle e with replay := rest })

/-- The next instruction of a firing from its module: fetched, decoded and executed (R76). -/
def issueFetched (s : State) (key : Nat) (c : Ctx) (f : Firing) : Result :=
  match fetchPair s key c f with
  | .error t => .next (s.fetchTrap key f t)
  | .ok (w, lit, s1) =>
    match decodeWords w lit with
    | .ok i => exec i { s1 with cur := some key }
    | .error e => .next { s1.takeTrap key (decodeTrap e) { word := wd w, pc := f.pc } 8 with cur := some key }

/-- A context issues: a pending fault is delivered before its next instruction (R384), and replay entries go ahead of everything else (R392). -/
def issueNext (s : State) (key : Nat) (c : Ctx) (f : Firing) : Result :=
  if c.faultDue then .next (s.deliverPending key c)
  else
    match c.replay with
    | e :: rest => issueReplay s key c e rest
    | [] => issueFetched s key c f

/-- The firing of a context that can issue now. -/
def Ctx.issuable (key : Nat) (c : Ctx) : Option Firing :=
  if inShadow key || c.parked then none else c.firing.filter fun f => f.stall == .none

/-- The instructions that a change of state has put in flight. -/
def State.newOps (before after : State) : List Op := after.ops.filter fun o => decide (before.fresh ≤ o.id)

/-- The results of instructions that have come already are delivered. -/
def State.deliverOps (s : State) (ops : List Op) : State :=
  ops.foldl (fun s o => match execLongLatencyResult o.id s with | .next t => t | _ => s) s

/-- The context issues its next instruction, as long as it is in the firing of a number. -/
def State.issueWithin (s : State) (key serial : Nat) : Result :=
  match s.ctx? key with
  | none => .next s
  | some c =>
    match (c.issuable key).filter fun f => f.serial == serial with
    | none => .next s
    | some f => issueNext s key c f

/-- A firing that has become non-speculative: the n instructions that it has executed take effect one after another, with the results that have come;
one that cannot go on yet, or faults, ends this (R128, R131). [DEDUCED, unsafe, log 13] -/
def State.catchUp (key serial : Nat) : Nat → State → Result
  | 0, s => .next s
  | n + 1, s =>
    match s.issueWithin key serial with
    | .next t => State.catchUp key serial n (t.deliverOps (s.newOps t))
    | r => r

/-- The context issues its next instruction, if it can; a firing that was speculative first catches up with what it has executed (R128). -/
def State.issueFrom (s : State) (key : Nat) : Result :=
  match s.ctx? key with
  | none => .next s
  | some c =>
    match c.issuable key with
    | none => .next s
    | some f =>
      match f.ahead with
      | 0 => issueNext s key c f
      | n => State.catchUp key f.serial n (s.setCtx key { c with firing := some { f with ahead := 0 } })

/-- Whether a context can issue. -/
def State.canIssue (s : State) (key : Nat) : Bool := ((s.ctx? key).bind fun c => c.issuable key).isSome

/-- Of two contexts that can issue, the one whose firing was dispatched earlier (R124). -/
def earlier (a b : Option (Nat × Nat)) : Option (Nat × Nat) :=
  match a, b with
  | some x, some y => if y.2 < x.2 then some y else some x
  | none, y => y
  | x, none => x

/-- The context whose firing was dispatched earliest among those that can issue, with the number of that firing. -/
def firstIssuer : List (Nat × Ctx) → Option (Nat × Nat)
  | [] => none
  | e :: rest => earlier ((e.2.issuable e.1).map fun f => (e.1, f.serial)) (firstIssuer rest)

/-- The context that issues when nothing else is asked: on its strand and on every other, the firing dispatched earliest goes first (R124).
[DESIGN CHOICE, unsafe, log 12] -/
def State.issuer (s : State) : Option Nat := (firstIssuer s.ctxs).map fun e => e.1

/-! ## Speculative firings (R128 to R131) -/

/-- A list of queues or shadows with those of a view in their places. -/
def overlay {α : Type} (same : α → α → Bool) (mine all : List α) : List α := all.map fun q => (mine.find? fun p => same p q).getD q
def sameQueue (p q : Queue) : Bool := p.graph == q.graph && p.edge == q.edge && p.consumer == q.consumer
def sameShadow (p q : Shadow) : Bool := p.graph == q.graph && p.edge == q.edge && p.producer == q.producer

/-- The bytes of memory as a firing sees them whose stores are held: the context's stores that are on their way, and then its own, have been made. -/
def State.withStores (s : State) (key : Nat) (held : List Op) : State :=
  let on (s : State) (o : Op) : State := match execPostedWriteArrival o.id s with | .next t => t | _ => s
  let mine := s.ops.filter fun o => o.ctx == key && o.kind == .store
  held.foldl (fun s o => on { s with ops := s.ops ++ [o] } o) (mine.foldl on s)

/-- The machine as a speculative firing sees it: its private context and ports, and its held stores made. -/
def State.specView (s : State) (x : Spec) : State :=
  (({ s with cur := some x.key, specs := [], inputs := [], replayNow := false, issuing := none
             fresh := 2 ^ 60 + 64 * x.issued, queues := overlay sameQueue x.queues s.queues, shadows := overlay sameShadow x.shadows s.shadows } : State).setCtx x.key x.view).withStores
    x.key x.stores

/-- Whether an instruction went through in a view: no trap, no wait, and nothing in flight but results that have come and stores that are held (R128,
R131). -/
def wentThrough (x : Spec) (y : Ctx) (left : List Op) : Bool :=
  decide (y.frames.length = x.view.frames.length) && !y.parked && !y.aborted && left.all (fun o => o.kind == .store) &&
  (match y.firing, x.view.firing with
   | some f, some g => f.serial == g.serial && f.stall == .none
   | none, _ => true
   | some _, none => false)

/-- A speculative firing after its instruction: what it did is in its view, or it stops, with its fault held or waiting to become non-speculative. -/
def Spec.after (x : Spec) (v t : State) (isEnd : Bool) : Spec :=
  let u := t.deliverOps (v.newOps t)
  match u.ctx? x.key with
  | none => { x with stopped := true }
  | some y =>
    let left := v.newOps u
    if wentThrough x y left then
      { x with
        view := if isEnd then { y with firing := x.view.firing } else y
        queues := x.queues.map fun q => (u.queues.find? (sameQueue q)).getD q
        shadows := x.shadows.map fun q => (u.shadows.find? (sameShadow q)).getD q
        stores := x.stores ++ left, issued := x.issued + 1, ended := isEnd
        pops := x.queues.foldl (fun m q =>
          if q.consumer = x.key then
            Map.set 0 m q.edge (Map.get 0 m q.edge + (q.fifo.length - (((u.queues.find? (sameQueue q)).map fun q => q.fifo.length).getD 0)))
          else m) x.pops }
    else { x with stopped := true }

/-- The next instruction of a speculative firing, in its view (R128); a fetch that fails is a fault that is held (R131). -/
def State.specNext (s : State) (x : Spec) : Spec :=
  let v := s.specView x
  match x.view.firing with
  | none => { x with stopped := true }
  | some f =>
    match fetchPair v x.key x.view f with
    | .error _ => { x with stopped := true }
    | .ok (w, lit, v1) =>
      match specClass w, decodeWords w lit with
      | .waits, _ => { x with stopped := true }
      | _, .error _ => { x with stopped := true }
      | _, .ok i =>
        match exec i v1 with
        | .next t => x.after v1 t (bits w 63 50 == 0x88)
        | _ => { x with stopped := true }

/-- The n-th speculative firing of a context issues its next instruction, if it can. No other agent observes anything of it (R128), and it is no progress
of its graph (R134). [DEDUCED, unsafe, log 13] -/
def State.speculate (s : State) (key n : Nat) : Result :=
  match (s.specsOf key)[n]? with
  | none => .next s
  | some x =>
    if x.stopped || x.ended || inShadow key then .next s
    else .next { s with specs := s.specs.map fun y => if y = x then s.specNext x else y }

/-! ## What the device does of itself -/

/-- The number of a context's strand. -/
def strandNumber (key : Nat) : Nat := if tileOf key < 384 then 4 * tileOf key + strandOf key else 1536 + 3 * (tileOf key - 384) + strandOf key

/-- Something that the device may do of itself. -/
abbrev Act := State → Result

/-- What may move an instruction in flight on. -/
def Op.acts (o : Op) : List Act :=
  match o.kind with
  | .load => [execLongLatencyResult o.id]
  | .value _ _ => [execLongLatencyResult o.id]
  | .fault _ _ _ => [execLongLatencyResult o.id]
  | .store => [execPostedWriteArrival o.id]
  | .atomic => [execAtomicApply o.id, execAtomicDiversion o.id]
  | .counterAdd => [execMonotonicCounterAdd o.id]
  | .counterRead => [execLongLatencyResult o.id]
  | .awarm => [execPostedWriteArrival o.id]
  | .awcred => [execArrivalWordCredit o.id]
  | .blend => [execBlendAtBank o.id]
  | .seqret => [execSeqretAtBank o.id]
  | .tlbinv => [execTlbinvCompletion o.id]
  | .modbind _ _ _ => [execBindingTakesEffect o.id]
  | .modfree _ _ _ => [execModfreeDrainComplete o.id]
  | .lease r => [execLeaseGrant r]
  | .handle _ e => [execEngineWakeEnd e]
  | .evack _ => []
  | .gdrain _ => []
  | .engine _ => []

/-- What may happen to a context. -/
def ctxActs (key : Nat) : List Act :=
  [execTrapHandlerDispatch key, execAsyncFaultDelivery key, execOperandWaitRelease key, execPopTokenWaitRelease key, execPushCreditWaitRelease key,
   execWaitCompletion key, execWaitTimeout key, execTemplateRewrite key]
/-- What may happen to a queue, by its place. -/
def queueActs (n : Nat) : List Act :=
  [execTokenArrival n, execCreditReturn n, execSpillRingDrain n, execProxyForwardBatch n, execProxyBatchTimeout n]
/-- What an engine may do. -/
def engineActs (e : Nat) : List Act :=
  [execEngineWakeEnd e, execEngineResultPush e, execEngineCommandCompletion e, execMxRowGroupStep e, execMxstrmControlToken e,
   execMxMacroOpCompletion e, execHoldEnd e, execEvictionNotice e, execGracePeriodExpiry e, execDozeExpiry e]
/-- What a cluster may do. -/
def clusterActs (c : Nat) : List Act :=
  [execRailSlewStep c, execFllStep c, execRailPgood c, execRailPgoodTimeout c, execFllLockTimeout c, execRetentionSaveEnd c, execRetentionRestoreEnd c,
   execClpmOperationEnd c, execQuiesceEnd c, execHandoffEnd c, execWayGate c, execWayReopen c]
/-- What the scheduler may do. -/
def schedulerActs (s : State) : List Act :=
  (s.subqs.flatMap fun q => [execQueueMap q.addr, execRecordFetch q.addr]) ++
  (if s.freeQueueSlots.isEmpty && s.subqs.any (fun q => q.wantsSlot) then s.subqs.map fun q => execQueueUnmap q.addr else []) ++
  (s.graphs.flatMap fun g => [execLaunchEnd g.handle, execGraphDrainLimitExpiry g.handle, execDeadlockDetection g.handle]) ++ [execLaunchDispatch] ++
  (s.ctxs.filter fun e => !(s.candidates (strandNumber e.1)).isEmpty).map fun e => execFiringDispatch (strandNumber e.1)
/-- What the Archivist may do. -/
def archivistActs (s : State) : List Act :=
  (s.fullSwitches.flatMap fun w => [execArchivistWriteOut (4 * w.tile), execFullSwitchDeadline w.tile]) ++
  (s.swaps.flatMap fun j => [execArchivistWriteOut j.strand, execArchivistLoad j.strand]) ++
  (s.images.map fun i => execArchivistLoad (strandNumber (i.key % 16384))) ++ s.parts.map fun p => execGangSliceInstant p.1

/-- A speculative firing that can go on; each does so for a bounded number of instructions. [DEDUCED, unsafe, log 13] -/
def Spec.goesOn (x : Spec) : Bool := !x.stopped && !x.ended && !inShadow x.key && decide (x.issued < 64)

/-- The number of a speculative firing, which rises with its dispatch. -/
def Spec.serial (x : Spec) : Nat := (x.view.firing.map fun f => f.serial).getD 0

/-- The speculative firing that issues when nothing else is asked: of those that can go on, the one dispatched earliest (R124). -/
def specActs (s : State) : List Act :=
  let l := s.specs.filter Spec.goesOn
  (l.filter fun x => l.all fun y => decide (x.serial ≤ y.serial)).map fun x s => s.speculate x.key ((s.specsOf x.key).findIdx fun y => y.serial == x.serial)

/-- What the device may do of itself, in the order in which it tries when nothing is asked of it. [DESIGN CHOICE, unsafe, log 12] -/
def State.ownActs (s : State) : List Act :=
  specActs s ++ (s.ctxs.flatMap fun e => ctxActs e.1) ++ (s.ops.flatMap fun o => o.acts) ++ (s.asyncDone.map fun d => execAsyncCompletion d.id) ++
  (s.copies.flatMap fun c => [execCopyTokenPush c.id, execCopyRecordCompletion c.id]) ++ ((List.range (Nat.max s.queues.length s.shadows.length)).flatMap queueActs) ++
  (s.engines.flatMap fun e => engineActs e.1) ++ (s.requests.map fun r => execLeaseGrant r.id) ++
  (s.records.map fun r => execFaultRecordDelivery r.target) ++ schedulerActs s ++ archivistActs s ++ (s.clusters.flatMap fun c => clusterActs c.1) ++
  (s.repairs.map fun r => execRepairTimeout r.1 r.2.1) ++ (s.testDue.map fun u => execSelfTest u) ++
  [execWatchdogExpiry, execCheckpointEnd, execCuratorInterval]

/-- Whether an act changes the state. -/
def State.changes (s : State) (a : Act) : Bool :=
  match a s with
  | .next t => decide (t ≠ s)
  | _ => false

/-- What the device does when nothing is asked of it and nothing can issue: the first of its acts that changes the state, or a tick of the reference
clock. [DESIGN CHOICE, unsafe, log 12] -/
def State.ownAct (s : State) : Result := ((s.ownActs.find? s.changes).getD execReferenceClockTick) s

/-! ## What is asked of the device -/

/-- What the oldest input asks. [DESIGN CHOICE, unsafe, log 12] -/
def State.asked (s : State) (i : Input) : Result :=
  match i with
  | .event i =>
    match i.view with
    | none => exec i s
    | some _ => .next s
  | .issue c => s.issueFrom c
  | .speculate c n => s.speculate c n
  | .move id n => .next (s.moveOn id n)
  | .forget tile asid va => .next { s with tlb := s.tlb.filter fun e => !(e.tile == tile && e.asid == asid && e.va == va / 2 ^ e.log * 2 ^ e.log) }
  | .fill tile pa => .next (if pa < 2 ^ 38 then s.fillSector tile pa else s)
  | .evict tile pa => .next (s.flushSector tile pa)

/-! ## Loading an instruction from outside -/

/-- The address at which an instruction from outside is stored. [DESIGN CHOICE, unsafe, log 11] -/
def loadBase : Nat := 0x10000

/-- The machine with bytes stored in memory and a firing of the firmware context of die 0 at them: what the boot ROM does with an image that it has
checked (R372), in a state where nothing else is asked of the device. [DESIGN CHOICE, unsafe, log 11] -/
def State.loadProgram (s : State) (bs : List Byte) : State :=
  let key := firmwareOf 0
  let b : Binding :=
    { asid := firmwareAsid, slot := 0, gen := 1, base := loadBase, len := bs.length, digest := Config.shake256 bs
      image := (bs.zipIdx).foldl (fun m e => Map.set 0 m e.2 e.1) [] }
  let f : Firing := { pc := codePtr 0 0, serial := s.fresh, entry := 16, refs := [{ asid := firmwareAsid, slot := 0, gen := 1 }] }
  let c : Ctx := { priv := .f, asid := firmwareAsid, part := 0, born := s.fresh, q := [(15, .records)], firing := some f }
  let s1 : State :=
    { s with bindings := [b], cur := some key, inputs := [], fresh := s.fresh + 1
             queues := (s.queues.filter fun q => q.consumer != key) ++ [recordQueue key] }
  ((s1.setAsid firmwareAsid { gens := [(0, 1)], bound := 1 }).setCtx key c).dramWrite loadBase bs

end Sys2Proof.Machine
end

