-- ==== Sys2Proof/Machine/Step.lean ====
section
/-! DEFINITION. One step of the machine: what is asked of it next, the next instruction of a firing, or what the device does of itself. -/

namespace Sys2Proof.Machine

/-- One step. While something is asked of the machine, the oldest of it. Otherwise the context whose firing was dispatched earliest among those that
can issue, issues; and where none can, the device does the first of its own acts that changes the state, in the end a tick of the reference clock.
[DESIGN CHOICE, unsafe, log 12] -/
def step (s : State) : Host.Outcome State Fault Refusal :=
  match s.inputs with
  | i :: rest => State.asked { s with inputs := rest } i
  | [] =>
    match s.issuer with
    | some c => s.issueFrom c
    | none => s.ownAct

/-- The state with an instruction stored where the next step fetches it: the low nbits bits of w, all above them 0, laid out little-endian.
[DESIGN CHOICE, unsafe, log 11] -/
def State.withFetchWord (s : State) (nbits w : Nat) : State := s.loadProgram (leBytes 16 (w % 2 ^ nbits))

end Sys2Proof.Machine
end

