-- ==== Sys2Proof/Safety.lean ====
section
/-! DEFINITION. What claims are said in: a run without a stop, an instruction ready to issue, and the state after one that has completed. -/

namespace Sys2Proof

/-- A run of n steps that neither faults nor is refused. -/
def SafeRun (n : Nat) (s : Machine.State) : Prop := ∃ t, core.run n s = .next t

namespace Machine

/-- Context `key`, with registers `c` and firing `f`, is the one whose next instruction issues, and that is the instruction at its pc, not an
entry that RESUME replays. -/
structure Issuing (s : State) (key : Nat) (c : Ctx) (f : Firing) : Prop where
  cur : s.cur = some key
  ctx : s.ctx? key = some c
  firing : c.firing = some f
  first : s.replayNow = false

/-- The operands allow the issue: every source is full and passes its check code, and no earlier instruction has still to write a destination
(R38, R39, R405). -/
structure Operands (s : State) (key : Nat) (c : Ctx) (srcs : List Src) (dsts : List Dst) : Prop where
  full : ∀ r ∈ srcs, c.isEmptySrc r = false
  sound : ∀ r ∈ srcs, c.fails r = false
  free : ∀ d ∈ dsts, s.produced key d = false

/-- The guard of an instruction is on (R58). -/
def Ctx.guardOn (c : Ctx) (kg : BitVec 4) : Prop := (c.rk kg.toNat).getLsbD 0 = true

/-- The context with its firing past an instruction of n bytes (R88). -/
def Ctx.advance (c : Ctx) (n : Nat) : Ctx := c.goOn fun f => nextPc f.pc n

/-- The state after an instruction of context `key` that has left it as `c'`: nothing else changes but what the counters of its strand have counted
(R107, R108) and the stillness timer of its graph (R169). -/
def State.completed (s : State) (key : Nat) (c' : Ctx) : State := ((s.issues none).setCtx key c').issuedOne key c'.graph

/-- A context without what its performance counters have counted, which other contexts of its strand move (R107, R108). -/
def Ctx.uncounted (c : Ctx) : Ctx := { c with pmcnt := [], idled := 0 }

/-- The state after an instruction that raises a fault at issue: the trap of R381 to R388, taken from the state as it was, with the instruction as the
faulting one (R76). -/
def State.trapped (s : State) (key : Nat) (f : Firing) (i : Instr) (t : Trap) : State :=
  { s.takeTrap key t { word := instrWord i, pc := f.pc, mask := 0 } (instrLen i) with replayNow := false }

/-- The sources of an instruction as it captures them at its issue (R385). -/
def captured (i : Instr) (srcs : List Src) (kg : Nat) (c : Ctx) (f : Firing) : ReplayEntry :=
  capture c { word := instrWord i, pc := f.pc, mask := c.rk kg } srcs

/-- The record of an instruction that goes in flight with captured sources `e`: the destinations it leaves empty, its address, scope and order. -/
def State.opOf (s : State) (key : Nat) (f : Firing) (e : ReplayEntry) (kind : OpKind) (dstG dstV : List Nat) (addr scope ord : Nat) : Op :=
  { id := s.fresh, ctx := key, serial := f.serial, word := e.word, pc := e.pc, kind := kind, dstG := dstG, dstV := dstV,
    opA := e.opA, opB := e.opB, opC := e.opC, opX := e.opX, reads := e.reads, mask := e.mask, addr := addr, scope := scope, ord := ord, tick := s.ticks }

/-- The state with one more instruction in flight. -/
def State.send (s : State) (o : Op) : State := { s with fresh := s.fresh + 1, ops := s.ops ++ [o] }

/-- The firing has fewer than sixteen instructions in flight that a frame would hold (R385). -/
def State.issueRoom (s : State) (key : Nat) (f : Firing) : Prop :=
  (s.takenOps key f.serial).length < 16

/-- No access of the context that acquires is in flight or held in a repair queue (R258, R280). -/
def State.noAcquire (s : State) (key : Nat) : Prop := ((s.inFlightOf key).any fun o => hasAcq o.ord) = false

/-- No access of the context is in flight or held in a repair queue at all. -/
def State.noAccess (s : State) (key : Nat) : Prop := s.inFlightOf key = []

/-- The 8 bytes at an offset of a binding hold a word: its address translates to bytes that have it, and the binding holds it as bound (R79). -/
def State.codeWord (s : State) (key : Nat) (c : Ctx) (b : Binding) (off : Nat) (w : Word) : Prop :=
  ∃ pa, translateFor s key { c with asid := b.asid } (b.base + off) .x = .ok pa ∧ s.dramBad pa 8 = false ∧ Memory.readBytes s.mem pa 8 = leBytes 8 w.toNat ∧
    (List.range 8).map (fun j => Map.get 0 b.image (off + j)) = leBytes 8 w.toNat

end Machine

end Sys2Proof
end

