-- ==== Sys2Proof/Certificates/Slice0/Obligations.lean ====
section
/-! DEFINITION. The statements for the provers. -/

open Sys2Proof Sys2Proof.Machine

/-! ## Encoding -/

/-- A few words written out from the encodings of the manual decode to the instructions they stand for (R61 to R69, R73): ADD .w64 g1, g2, g3
guarded by k5; VLD .f32 v2, [g6 + g7]; LOOP g12, −3 words; SPAWN .die .rel g4, g5, g6; MXTILE .bf16 .bf16 .esc x2, g20, g6, g7. -/
def Obligations.WrittenWordsDecode : Prop :=
  decodeTableWord 64 0x10014108300E0000 = some (.add { kg := 5, d := 1, a := 2, b := 3, c := 0, ty := 7, rm := 0, sm := 0, fe := 0, mod := 0 }) ∧
  decodeTableWord 64 0xD004021875000000 =
    some (.vld { kg := 0, ds := 2, base := 6, idx := 7, ty := 10, sc := 0, ord := 0, fe := 0, disp := 0 }) ∧
  decodeTableWord 64 0x021C0C00FFFFFFFD = some (.loop { kg := 0, a := 12, mod := 0, off := BitVec.ofInt 32 (-3) }) ∧
  decodeTableWord 64 0x7000041460070000 =
    some (.spawn { kg := 0, d := 4, a := 5, b := 6, p := 0, cnd := 0, sc := 3, ord := 2, fe := 0, imm := 0 }) ∧
  decodeTableWord 64 0xC00C105061D29010 =
    some (.mxtile { kg := 0, xt := 2, xu := 0, a := 20, b := 6, c := 7, ty := 9, tyb := 9, mod := 0x10 })

/-- Decoding the bytes of an encoded instruction gives it back: every operand at every value that the encoding admits, and the bytes after it. -/
def Obligations.DecodingUndoesEncoding : Prop :=
  ∀ (i : Instr) (rest : List Byte), i.wellFormed = true → i.view.isSome = true → decode (wordBytes (encode i) ++ rest) = .ok (i, rest)

/-- Whatever bytes decode are the bytes of the instruction they decode to, and it is well formed: each word has one meaning. -/
def Claims.encodingUndoesDecoding : Prop :=
  ∀ (bs rest : List Byte) (i : Instr), decode bs = .ok (i, rest) → i.wellFormed = true ∧ wordBytes (encode i) ++ rest = bs

/-- A word whose MAJ is unassigned is no instruction, with FIELDHI 63, and one whose MIN is beyond its group's last member is none, with
FIELDHI 55 (R73, R74, R77). -/
def Claims.unassignedOpcodesRefused : Prop :=
  ∀ (w lit : Nat), w < 2 ^ 64 →
    (bits w 63 56 ∉ [0x01, 0x02, 0x03, 0x10, 0x11, 0x12, 0x13, 0x40, 0x50, 0x60, 0x68, 0x70, 0x80, 0x81, 0x82, 0x83, 0xC0, 0xC1, 0xD0, 0xD1, 0xD2,
        0xD3, 0xD4, 0xE0, 0xE8, 0xF0] → decodeWords w lit = .error (.illegalOpcode 63)) ∧
    (∀ m ∈ [(0x01, 1), (0x02, 10), (0x03, 3), (0x10, 26), (0x11, 10), (0x12, 7), (0x13, 4), (0x40, 4), (0x50, 11), (0x60, 6), (0x68, 9), (0x70, 7),
        (0x80, 18), (0x81, 16), (0x82, 7), (0x83, 7), (0xC0, 12), (0xC1, 6), (0xD0, 3), (0xD1, 3), (0xD2, 3), (0xD3, 4), (0xD4, 8), (0xE0, 5),
        (0xE8, 7), (0xF0, 4)],
      bits w 63 56 = m.1 → m.2 ≤ bits w 55 50 → decodeWords w lit = .error (.illegalOpcode 55))

/-- Each word has one meaning, and the unassigned opcodes have none. -/
def Obligations.DecodingIsExact : Prop := Claims.encodingUndoesDecoding ∧ Claims.unassignedOpcodesRefused

/-! ## A step -/

/-- A step runs the instruction that stands at the program counter: when the device asks nothing else, the context that issues has no pending
fault, no replay entries and nothing that its firing executed while it was speculative, and the bytes at its pc, as its module holds them and as memory stores them, decode to a well-formed instruction,
the step is `exec` of that instruction (R76). -/
def Claims.stepRunsDecoded : Prop :=
  ∀ (s : State) (key : Nat) (c : Ctx) (f : Firing) (b : Binding) (w lit : Word) (i : Instr),
    s.inputs = [] → s.issuer = some key → s.ctx? key = some c → c.issuable key = some f → c.faultDue = false → c.replay = [] →
    f.ahead = 0 → f.pc.getLsbD 63 = false → s.enterBinding c.asid f (cpSlot f.pc) = some b → cpOffset f.pc + instrLen i ≤ b.len →
    s.codeWord key c b (cpOffset f.pc) w → (instrLen i = 16 → s.codeWord key c b (cpOffset f.pc + 8) lit) →
    decode (leBytes 8 w.toNat ++ if instrLen i = 16 then leBytes 8 lit.toNat else []) = .ok (i, []) → i.wellFormed = true →
    step s = exec i { s with cur := some key }

/-- The same when a context is asked to issue; an event row that is asked for happens, and an instruction row that is asked for changes nothing; a
context that is asked to speculate does, the copy that is asked for moves on, a line that is asked for is filled or written back, and a translation that is
asked for is forgotten (the inputs of the model, log entry 12). -/
def Claims.stepRunsWhatIsAsked : Prop :=
  (∀ (s : State) (key : Nat) (rest : List Input), s.inputs = .issue key :: rest → step s = State.issueFrom { s with inputs := rest } key) ∧
  (∀ (s : State) (i : Instr) (rest : List Input), s.inputs = .event i :: rest → i.view = none → step s = exec i { s with inputs := rest }) ∧
  (∀ (s : State) (i : Instr) (v : View) (rest : List Input), s.inputs = .event i :: rest → i.view = some v → step s = .next { s with inputs := rest }) ∧
  (∀ (s : State) (key n : Nat) (rest : List Input), s.inputs = .speculate key n :: rest → step s = State.speculate { s with inputs := rest } key n) ∧
  (∀ (s : State) (id n : Nat) (rest : List Input), s.inputs = .move id n :: rest → step s = .next (State.moveOn { s with inputs := rest } id n)) ∧
  ∀ (s : State) (tile pa : Nat) (rest : List Input),
    (s.inputs = .fill tile pa :: rest → pa < 2 ^ 38 → step s = .next (State.fillSector { s with inputs := rest } tile pa)) ∧
    (s.inputs = .evict tile pa :: rest → step s = .next (State.flushSector { s with inputs := rest } tile pa)) ∧
    ∀ asid va, s.inputs = .forget tile asid va :: rest → ∃ t, step s = .next t ∧ t.mem = s.mem ∧ t.ctxs = s.ctxs ∧
      ∀ e ∈ s.tlb, e ∈ t.tlb ∨ (e.tile = tile ∧ e.asid = asid)

/-- A step runs the decoded instruction, or what the device is asked to do. -/
def Obligations.StepRunsDecoded : Prop := Claims.stepRunsDecoded ∧ Claims.stepRunsWhatIsAsked

/-! ## Memory and reset -/

/-- Memory right after reset is in canonical form. -/
def Obligations.ResetMemoryCanonical : Prop := Memory.wf State.reset.mem = true

/-- Every step keeps memory in canonical form, from every state in which it is. -/
def Obligations.MemoryStaysCanonical : Prop :=
  ∀ s t : State, Memory.wf s.mem = true → step s = .next t → Memory.wf t.mem = true

/-- What the manual says of the machine after device reset (R104, R198 to R201, R205, R208, R415): the clocks are 0, no context, graph or mapped
queue exists, each cluster is RAILOFF with HOMEAWAY and RAILCYC set and a valid retention state, its rail is off, the power budget is 1,100 LU, the
banks 0 to 7 of a tile are ways and 8 to 23 scratchpad, and the boot ROM runs. -/
def Obligations.ResetState : Prop :=
  State.reset.ticks = 0 ∧ State.reset.ptp = 0 ∧ State.reset.ctxs = [] ∧ State.reset.graphs = [] ∧ State.reset.subqs = [] ∧ State.reset.mem = [] ∧
  State.reset.mgmt.inrom = true ∧ State.reset.budget = 1100 ∧ State.reset.expired = false ∧
  (∀ n, (State.reset.cluster n).state = .railoff ∧ (State.reset.cluster n).homeaway = true ∧ (State.reset.cluster n).retValid = true ∧
    (State.reset.cluster n).railcyc = true ∧ (State.reset.cluster n).en = false ∧ (State.reset.cluster n).op = none) ∧
  (∀ n, (State.reset.engine n).power = .gated ∧ (State.reset.engine n).holder = none) ∧
  ∀ tile bank, State.reset.bankMode tile bank = if bank < 8 then 0 else 1

/-! ## Issue -/

/-- The vector instructions of R58 and R311, by MAJ and MIN. -/
def Claims.isVector (maj min : Nat) : Bool :=
  (maj ∈ [0x80, 0x81, 0x82, 0x83] && !(maj == 0x82 && (min == 5 || min == 6))) || ((maj == 0xD0 || maj == 0xD1) && (min == 1 || min == 2))

/-- END, RESUME and SWAP, which take no guard (R59). -/
def Claims.takesNoGuard (maj min : Nat) : Bool := (maj == 0x02 && min == 8) || (maj == 0xE8 && (min == 1 || min == 5))

/-- The privilege that R75 and R34 ask of an instruction. -/
def Claims.privOf (i : Instr) : Priv :=
  match i with
  | .gload _ => .s
  | .garm _ => .s
  | .gdrainGraph _ => .s
  | .gdrainQdrain _ => .s
  | .gdrainQabort _ => .s
  | .gstart _ => .s
  | .assetMake _ => .s
  | .assetRoot _ => .s
  | .assetKill _ => .s
  | .assetSelf _ => .s
  | .tlbinvVa _ => .s
  | .tlbinvAsid _ => .s
  | .tlbinvIpa _ => .s
  | .tlbinvPart _ => .s
  | .quote _ => .s
  | .partcfgQbank _ => .s
  | .partcfgQsb _ => .s
  | .partcfgQdel _ => .s
  | .resumeCtx _ => .s
  | .swapNow _ => .s
  | .swapFull _ => .s
  | .swapStage _ => .s
  | .spillqSave _ => .s
  | .spillqRestore _ => .s
  | .partcfgOpen _ => .f
  | .partcfgShut _ => .f
  | .partcfgAssign _ => .f
  | .partcfgWays _ => .f
  | .partcfgShare _ => .f
  | .partcfgGang _ => .f
  | .partcfgHostwin _ => .f
  | .qbindHome _ => .s
  | .rqrd f => if rqOther f then .s else .u
  | .rqwr f => if rqOther f then .s else .u
  | .gets f => regPriv f.imm.toNat
  | .sets f => regPriv f.imm.toNat
  | _ => .u

/-- A scalar instruction whose guard bit is 0 changes nothing but its firing's pc (R58, R76), whichever instruction it is, from every
context that passes the privilege check, which comes first (R75). -/
def Obligations.GuardOffSkips : Prop :=
  ∀ (s : State) (key : Nat) (c : Ctx) (f : Firing) (i : Instr) (v : View), Issuing s key c f → i.view = some v →
    Claims.isVector v.maj v.min = false → Claims.takesNoGuard v.maj v.min = false → (c.rk v.form.kg).getLsbD 0 = false →
      (Claims.privOf i).level ≤ c.priv.level →
      exec i s = .next ((s.setCtx key { c with firing := some { f with pc := nextPc f.pc (instrLen i), stall := .none } }).issuedOne key c.graph)

/-- An instruction issued below its privilege raises PRIVILEGE with the level in %trapinfo, before its guard or its operands are looked at, and has
no effect of its own (R75, R76, R77). -/
def Obligations.PrivilegeChecked : Prop :=
  ∀ (s : State) (key : Nat) (c : Ctx) (f : Firing) (i : Instr), Issuing s key c f → i.view.isSome = true →
    c.priv.level < (Claims.privOf i).level →
      exec i s = .next (s.trapped key f i { cause := cPrivilege, info := wd (Claims.privOf i).level })

/-! ## Integers, masks and flags -/

/-- The result of an instruction that writes one g register and may set warnings. -/
def Claims.putG (s : State) (key : Nat) (c : Ctx) (i : Instr) (d : BitVec 6) (x w : Word) : Result :=
  .next (s.completed key (((c.wg d.toNat x).warns w).advance (instrLen i)))

/-- The members of MAJ 0x10 with two sources and an exact integer result (R97). -/
def Claims.intTwo (x : RForm) (a b : Word) : List (Instr × Int) :=
  let ty := x.ty.toNat
  let p := rdInt ty a
  let q := rdInt ty b
  [ (.add x, p + q), (.sub x, p - q), (.mul x, p * q), (.mulh x, p * q / 2 ^ tyWidth ty), (.min x, min p q), (.max x, max p q),
    (.shl x, shlExact p b.toNat), (.shr x, shrExact ty a b.toNat), (.sra x, sraExact ty a b.toNat), (.rot x, rotExact ty a b.toNat) ]

/-- ADD, SUB, MUL, MULH, MIN, MAX and the shifts complete for every type, saturation and operand value: gD gets the low bits of the exact result,
clamped first under SM, W_SAT says that the clamp changed it, the firing goes on at the next word, and nothing else changes (R97, R98, R80). -/
def Claims.integerArithmetic : Prop :=
  ∀ (s : State) (key : Nat) (c : Ctx) (f : Firing) (x : RForm), Issuing s key c f → c.guardOn x.kg →
    Operands s key c [rA .g x, rB .g x] [gDst x.d.toNat] →
    ∀ p ∈ Claims.intTwo x (c.rg x.a.toNat) (c.rg x.b.toNat),
      exec p.1 s = Claims.putG s key c p.1 x.d (intValue x.ty.toNat x.sm.toNat p.2) (intWarns x.ty.toNat x.sm.toNat p.2)

/-- DIV truncates, REM is a − b × trunc(a ÷ b) (R97). -/
def Claims.intDivide (x : RForm) (a b : Word) : List (Instr × Int) :=
  let p := rdInt x.ty.toNat a
  let q := rdInt x.ty.toNat b
  [ (.div x, p.tdiv q), (.rem x, p - q * p.tdiv q) ]

/-- DIV and REM complete for a divisor other than 0, and raise ARITH with no effect for a divisor of 0 (R97). -/
def Claims.divisionAndRemainder : Prop :=
  ∀ (s : State) (key : Nat) (c : Ctx) (f : Firing) (x : RForm), Issuing s key c f → c.guardOn x.kg →
    Operands s key c [rA .g x, rB .g x] [gDst x.d.toNat] →
    ∀ p ∈ Claims.intDivide x (c.rg x.a.toNat) (c.rg x.b.toNat),
      (rdInt x.ty.toNat (c.rg x.b.toNat) ≠ 0 →
        exec p.1 s = Claims.putG s key c p.1 x.d (intValue x.ty.toNat x.sm.toNat p.2) (intWarns x.ty.toNat x.sm.toNat p.2)) ∧
      (rdInt x.ty.toNat (c.rg x.b.toNat) = 0 →
        exec p.1 s = .next (s.trapped key f p.1 { cause := cArith, free := true }))

/-- The arithmetic members of MAJ 0x10. -/
def Obligations.IntegerArithmetic : Prop := Claims.integerArithmetic ∧ Claims.divisionAndRemainder

/-- The members of MAJ 0x10 that write a plain value: the value that each writes (R97). -/
def Claims.intPlain (x : RForm) (a b : Word) : List (Instr × Word) :=
  let ty := x.ty.toNat
  [ (.and x, wrInt ty (a &&& b).toNat), (.or x, wrInt ty (a ||| b).toNat), (.xor x, wrInt ty (a ^^^ b).toNat), (.andn x, wrInt ty (a &&& ~~~b).toNat),
    (.absd x, wd (rdInt ty a - rdInt ty b).natAbs),
    (.cmp x, if compareInt (bits x.mod.toNat 2 0) (rdInt ty a) (rdInt ty b) then 1 else 0),
    (.lea x, a + wd (b.toNat * 2 ^ bits x.mod.toNat 2 0)) ]

/-- The members with one source: MOV, and the counts of ones and zeros (R97). -/
def Claims.intOne (x : RForm) (a : Word) : List (Instr × Word) :=
  let ty := x.ty.toNat
  [ (.mov x, wrInt ty (rdInt ty a)), (.clz x, wd (leadZeros a.toNat (tyWidth ty))), (.ctz x, wd (trailZeros a.toNat (tyWidth ty))),
    (.popc x, wd (popCount a.toNat (tyWidth ty))) ]

/-- The members with three sources: SEL tests all 64 bits of gC, EXT takes a field out of gA (R97). -/
def Claims.intThree (x : RForm) (a b c : Word) : List (Instr × Word) :=
  [ (.sel x, wrInt x.ty.toNat (rdInt x.ty.toNat (if c ≠ 0 then a else b))),
    (.ext x, BitVec.ofInt 64 (extractField (tySigned x.ty.toNat) a b c)) ]

/-- The bitwise members, ABSD, CMP, LEA, MOV, CLZ, CTZ, POPC, SEL, EXT and INS complete with gD at the value of R97 and nothing else changed;
INS reads its destination. -/
def Obligations.BitwiseAndFields : Prop :=
  ∀ (s : State) (key : Nat) (c : Ctx) (f : Firing) (x : RForm), Issuing s key c f → c.guardOn x.kg →
    (Operands s key c [rA .g x, rB .g x] [gDst x.d.toNat] →
      ∀ p ∈ Claims.intPlain x (c.rg x.a.toNat) (c.rg x.b.toNat), exec p.1 s = Claims.putG s key c p.1 x.d p.2 0) ∧
    (Operands s key c [rA .g x] [gDst x.d.toNat] →
      ∀ p ∈ Claims.intOne x (c.rg x.a.toNat), exec p.1 s = Claims.putG s key c p.1 x.d p.2 0) ∧
    (Operands s key c [rA .g x, rB .g x, rC .g x] [gDst x.d.toNat] →
      ∀ p ∈ Claims.intThree x (c.rg x.a.toNat) (c.rg x.b.toNat) (c.rg x.c.toNat), exec p.1 s = Claims.putG s key c p.1 x.d p.2 0) ∧
    (Operands s key c [rA .g x, rB .g x, rC .g x, rOld .g x] [gDst x.d.toNat] →
      exec (.ins x) s =
        Claims.putG s key c (.ins x) x.d (insertField (c.rg x.d.toNat) (c.rg x.a.toNat) (c.rg x.b.toNat) (c.rg x.c.toNat)) 0)

/-- The functions that R97 names, said in other words: the counts by their bits, the shifts for counts of any size, the rotation bit by bit, and the
field of EXT and INS bit by bit. -/
def Claims.integerFunctions : Prop :=
  (∀ n w, leadZeros n w = w - Nat.size (n % 2 ^ w)) ∧
  (∀ n w, popCount n w = ((List.range w).filter fun j => n.testBit j).length) ∧
  (∀ n w, trailZeros n w ≤ w ∧ (∀ j < trailZeros n w, n.testBit j = false) ∧ (trailZeros n w < w → n.testBit (trailZeros n w) = true)) ∧
  (∀ ty a n, wrInt ty (shlExact a n) = wrInt ty (a * 2 ^ n)) ∧
  (∀ ty (x : Word) n, shrExact ty x n = ((x.toNat % 2 ^ tyWidth ty) / 2 ^ n : Nat)) ∧
  (∀ ty (x : Word) n, sraExact ty x n = asInt true (tyWidth ty) x.toNat / 2 ^ n) ∧
  (∀ ty (x : Word) n j, j < tyWidth ty →
    (rotExact ty x n).toNat.testBit j = x.toNat.testBit ((j + (tyWidth ty - n % tyWidth ty)) % tyWidth ty)) ∧
  (∀ (d a b c : Word) (j : Nat), j < 64 →
    (insertField d a b c).getLsbD j =
      if fieldPos b ≤ j ∧ j < fieldPos b + fieldLen c (fieldPos b) then a.getLsbD (j - fieldPos b) else d.getLsbD j) ∧
  (∀ (signed : Bool) (a b c : Word) (j : Nat), j < 64 →
    let p := fieldPos b
    let l := fieldLen c p
    (BitVec.ofInt 64 (extractField signed a b c)).getLsbD j =
      if j < l then a.getLsbD (p + j) else signed && decide (0 < l) && a.getLsbD (p + l - 1))

/-- Addition, subtraction and multiplication without saturation are arithmetic modulo 2^w: the result's low w bits are those of the same operation on
64-bit words, extended by the sign for an i type and by zeros for a w type (R96, R97). -/
def Claims.wrappingArithmetic : Prop :=
  ∀ (ty : BitVec 5) (a b : Word), ty.toNat < 8 →
    let ext (x : Word) : Word := if ty.toNat < 4 then (x.setWidth (tyWidth ty.toNat)).signExtend 64 else (x.setWidth (tyWidth ty.toNat)).setWidth 64
    intValue ty.toNat 0 (rdInt ty.toNat a + rdInt ty.toNat b) = ext (a + b) ∧
    intValue ty.toNat 0 (rdInt ty.toNat a - rdInt ty.toNat b) = ext (a - b) ∧
    intValue ty.toNat 0 (rdInt ty.toNat a * rdInt ty.toNat b) = ext (a * b)

/-- The functions behind the integer members, and their wrapping. -/
def Obligations.IntegerFunctions : Prop := Claims.integerFunctions ∧ Claims.wrappingArithmetic

/-- The immediate forms with a register source (R99). -/
def Claims.intImm (x : IForm) (a : Word) : List (Instr × Word) :=
  let ty := x.ty.toNat
  let m : Word := x.imm.signExtend 64
  [ (.addImm x, wrInt ty (rdInt ty a + rdInt ty m)), (.andImm x, wrInt ty (a &&& m).toNat), (.orImm x, wrInt ty (a ||| m).toNat),
    (.xorImm x, wrInt ty (a ^^^ m).toNat), (.shlImm x, wrInt ty (shlExact (rdInt ty a) m.toNat)), (.shrImm x, wrInt ty (shrExact ty a m.toNat)),
    (.sraImm x, wrInt ty (sraExact ty a m.toNat)), (.cmpImm x, if compareInt (bits x.mod.toNat 2 0) (rdInt ty a) (rdInt ty m) then 1 else 0),
    (.leaImm x, a + m) ]

/-- The immediate forms, MOVI, MOVI.L and the address forms LEA and LEA.L complete with gD at the value of R99 and R100 and nothing else changed; the
address of the issuing word is the base of the binding that the firing holds plus the offset of its pc. -/
def Obligations.ImmediateForms : Prop :=
  ∀ (s : State) (key : Nat) (c : Ctx) (f : Firing), Issuing s key c f →
    (∀ x : IForm, c.guardOn x.kg → Operands s key c [iA x] [gDst x.d.toNat] →
      ∀ p ∈ Claims.intImm x (c.rg x.a.toNat), exec p.1 s = Claims.putG s key c p.1 x.d p.2 0) ∧
    (∀ x : IForm, c.guardOn x.kg → Operands s key c [] [gDst x.d.toNat] →
      exec (.movi x) s = Claims.putG s key c (.movi x) x.d (wrInt x.ty.toNat (rdInt x.ty.toNat (x.imm.signExtend 64))) 0 ∧
      ∀ b, s.heldBinding f (cpSlot f.pc) = some b →
        exec (.leaPc x) s = Claims.putG s key c (.leaPc x) x.d (wd (b.base + cpOffset f.pc) + x.imm.signExtend 64) 0) ∧
    (∀ x : LForm, c.guardOn x.kg → Operands s key c [] [gDst x.d.toNat] →
      exec (.moviL x) s = Claims.putG s key c (.moviL x) x.d (wrInt x.ty.toNat (rdInt x.ty.toNat x.lit)) 0 ∧
      ∀ b, s.heldBinding f (cpSlot f.pc) = some b →
        exec (.leaL x) s = Claims.putG s key c (.leaL x) x.d (wd (b.base + cpOffset f.pc) + x.lit) 0)

/-- KSET, KLOG, KMOV and KCNT complete with kD or gD at the value of R101; k0 reads as all ones as a source. FLAG gives the flags before its update, and
EMPTY and FULL change one full/empty bit and leave the value (R101, R102). -/
def Obligations.MasksAndFlags : Prop :=
  ∀ (s : State) (key : Nat) (c : Ctx) (f : Firing) (x : RForm), Issuing s key c f → c.guardOn x.kg →
    let done (i : Instr) (c' : Ctx) : Prop := exec i s = .next (s.completed key (c'.advance 8))
    (Operands s key c [rA .g x] [] → done (.kset x) (c.wk x.d.toNat ((c.rg x.a.toNat).setWidth 32))) ∧
    (Operands s key c [rA .k x, rB .k x] [] → done (.klog x) (c.wk x.d.toNat (logOp (bits x.mod.toNat 2 0) (c.rk x.a.toNat) (c.rk x.b.toNat)))) ∧
    (x.mod.getLsbD 0 = false → Operands s key c [rA .k x] [] → done (.kmov x) (c.wk x.d.toNat (c.rk x.a.toNat))) ∧
    (x.mod.getLsbD 0 = true → Operands s key c [rA .k x] [gDst x.d.toNat] → done (.kmov x) (c.wg x.d.toNat ((c.rk x.a.toNat).setWidth 64))) ∧
    (Operands s key c [rA .k x, rB .k x] [gDst x.d.toNat] →
      done (.kcnt x) (c.wg x.d.toNat (wd (popCount (c.rk x.a.toNat &&& c.rk x.b.toNat).toNat 32)))) ∧
    (x.mod.getLsbD 8 = false → done (.flag x) { c with flags := flagUpdate c.flags (setField x) (clrField x) }) ∧
    (x.mod.getLsbD 8 = true → Operands s key c [] [gDst x.d.toNat] →
      done (.flag x) { c.wg x.d.toNat (c.flags.setWidth 64) with flags := flagUpdate c.flags (setField x) (clrField x) }) ∧
    (x.mod.getLsbD 0 = false → Operands s key c [] [gDst x.d.toNat] →
      done (.empty x) (c.markG x.d.toNat true) ∧ done (.full x) (c.markG x.d.toNat false)) ∧
    (x.mod.getLsbD 0 = true → Operands s key c [] [vDst x.d.toNat] →
      done (.empty x) (c.markV x.d.toNat true) ∧ done (.full x) (c.markV x.d.toNat false))

/-! ## Control -/

/-- A transfer to a target is allowed: a multiple of 8 within the binding through which the firing enters the slot (R57, R83, R84, R88). -/
def Claims.enters (s : State) (c : Ctx) (f : Firing) (t : Target) (b : Binding) : Prop :=
  t.offset % 8 = 0 ∧ s.enterBinding c.asid f t.slot = some b ∧ 0 ≤ t.offset ∧ t.offset < b.len

/-- The context after a transfer: its firing at the target, with a reference to the binding it entered. -/
def Claims.jumped (c : Ctx) (f : Firing) (t : Target) (b : Binding) : Ctx := { c with firing := some { f.take b with pc := t.ptr, stall := .none, wait := none } }

/-- A word offset and a code pointer as targets. -/
def Claims.relative (f : Firing) (x : JForm) : Target := relTarget f.pc (8 * x.off.toInt)

/-- The branches, calls and returns that are taken leave the firing at their target and nothing else changed but g63 of a call, which links to the
instruction after it, and the counter of LOOP, which falls by one (R88, R92). -/
def Obligations.TakenTransfers : Prop :=
  ∀ (s : State) (key : Nat) (c : Ctx) (f : Firing) (b : Binding), Issuing s key c f →
    let goes (i : Instr) (c' : Ctx) (t : Target) : Prop := exec i s = .next (s.completed key (Claims.jumped c' f t b))
    (∀ x : JForm, c.guardOn x.kg → Claims.enters s c f (Claims.relative f x) b →
      goes (.br x) c (Claims.relative f x) ∧
      (c.rk x.a.toNat &&& c.rk (bits x.mod.toNat 3 0) ≠ 0 → goes (.brany x) c (Claims.relative f x)) ∧
      (c.rk x.a.toNat &&& c.rk (bits x.mod.toNat 3 0) = c.rk (bits x.mod.toNat 3 0) → goes (.brall x) c (Claims.relative f x)) ∧
      (Operands s key c [] [gDst 63] → goes (.call x) (c.wg 63 (linkPtr f.pc 8)) (Claims.relative f x)) ∧
      (Operands s key c [jA .g x] [gDst x.a.toNat] → 1 < (c.rg x.a.toNat).toNat →
        goes (.loop x) (c.wg x.a.toNat (c.rg x.a.toNat - 1)) (Claims.relative f x))) ∧
    (∀ x : RForm, c.guardOn x.kg → Operands s key c [rA .g x] [] → Claims.enters s c f (ptrTarget (c.rg x.a.toNat)) b →
      goes (.ret x) c (ptrTarget (c.rg x.a.toNat)) ∧ goes (.brx x) c (ptrTarget (c.rg x.a.toNat)) ∧
      (Operands s key c [rA .g x] [gDst 63] → goes (.callx x) (c.wg 63 (linkPtr f.pc 8)) (ptrTarget (c.rg x.a.toNat)))) ∧
    (∀ x : LForm, c.guardOn x.kg → Claims.enters s c f (relTarget f.pc x.lit.toInt) b →
      goes (.brL x) c (relTarget f.pc x.lit.toInt) ∧
      (Operands s key c [] [gDst 63] → goes (.callL x) (c.wg 63 (linkPtr f.pc 16)) (relTarget f.pc x.lit.toInt)))

/-- A branch that is not taken, NOP and IPF go on at the next word; LOOP with a counter of 0 or 1 leaves 0 in it; END ends the firing with its flag
update, the flags set from outside and the guard changes in force, and releases its references; then the oldest speculative firing becomes
non-speculative, with what it has executed due to take effect (the model's way, log entry 13), or all of them are squashed (R86 to R91, R127, R132, R136). -/
def Obligations.SequentialControl : Prop :=
  ∀ (s : State) (key : Nat) (c : Ctx) (f : Firing), Issuing s key c f →
    let done (i : Instr) (c' : Ctx) : Prop := exec i s = .next (s.completed key (c'.advance 8))
    (∀ x : RForm, c.guardOn x.kg → done (.nop x) c) ∧
    (∀ x : JForm, c.guardOn x.kg →
      (c.rk x.a.toNat &&& c.rk (bits x.mod.toNat 3 0) = 0 → done (.brany x) c) ∧
      (c.rk x.a.toNat &&& c.rk (bits x.mod.toNat 3 0) ≠ c.rk (bits x.mod.toNat 3 0) → done (.brall x) c) ∧
      (Operands s key c [jA .g x] [gDst x.a.toNat] → (c.rg x.a.toNat).toNat ≤ 1 → done (.loop x) (c.wg x.a.toNat 0)) ∧
      ∃ t, exec (.ipf x) s = .next t ∧ t.mem = s.mem ∧
        ∃ c', t.ctx? key = some c' ∧ c'.g = c.g ∧ c'.gEmpty = c.gEmpty ∧ c'.firing = some { f with pc := nextPc f.pc 8, stall := .none, wait := none }) ∧
    (∀ x : RForm, ∃ t, exec (.endFiring x) s = .next t ∧ t.mem = s.mem ∧
      ∃ c', t.ctx? key = some c' ∧ (s.specsOf key = [] → c'.firing = none) ∧
        (∀ y ys, s.specsOf key = y :: ys → (c'.firing = none ∧ t.specsOf key = []) ∨
          ∃ g, c'.firing = some g ∧ g.pc = y.start ∧ g.refs = [y.ref] ∧ g.ahead = y.issued ∧ t.specsOf key = ys) ∧
        c'.flags = ((c.flags &&& ~~~ clrField x) ||| setField x) ||| c.flagsHeld ∧ c'.flagsHeld = 0 ∧
        c'.guards = c.guardsHeld.getD c.guards ∧ c'.g = c.g ∧ c'.v = c.v ∧ c'.k = c.k ∧
        c'.frames = if f.handler then c.frames.tail else c.frames)

/-- What a transfer to a target raises: ALIGNMENT where it is not a multiple of 8, MODULE_ABSENT for a slot without a binding, and PROTECTION with the
code pointer in %trapinfo for a target outside the binding (R57, R83, R84). -/
def Claims.refuses (s : State) (c : Ctx) (f : Firing) (t : Target) (tr : Trap) : Prop :=
  (t.offset % 8 ≠ 0 ∧ tr = { cause := cAlignment, free := true }) ∨
  (t.offset % 8 = 0 ∧ s.enterBinding c.asid f t.slot = none ∧ tr = { cause := cModuleAbsent, free := true }) ∨
  ∃ b, t.offset % 8 = 0 ∧ s.enterBinding c.asid f t.slot = some b ∧ (t.offset < 0 ∨ (b.len : Int) ≤ t.offset) ∧
    tr = { cause := cProtection, info := t.ptr }

/-- Every transfer that is taken to such a target raises that fault at the branch: BR, BRANY, BRALL, CALL, LOOP and the L forms by their offset, RET,
BRX and CALLX by the code pointer in their register. The branch then has no effect of its own: it writes no link and no counter, and RPC is the
branch (R57, R76, R83, R84, R88). -/
def Claims.transferFaults : Prop :=
  ∀ (s : State) (key : Nat) (c : Ctx) (f : Firing) (tr : Trap), Issuing s key c f →
    let traps (i : Instr) : Prop := exec i s = .next (s.trapped key f i tr)
    (∀ x : JForm, c.guardOn x.kg → Claims.refuses s c f (Claims.relative f x) tr →
      traps (.br x) ∧
      (c.rk x.a.toNat &&& c.rk (bits x.mod.toNat 3 0) ≠ 0 → traps (.brany x)) ∧
      (c.rk x.a.toNat &&& c.rk (bits x.mod.toNat 3 0) = c.rk (bits x.mod.toNat 3 0) → traps (.brall x)) ∧
      (Operands s key c [] [gDst 63] → traps (.call x)) ∧
      (Operands s key c [jA .g x] [gDst x.a.toNat] → 1 < (c.rg x.a.toNat).toNat → traps (.loop x))) ∧
    (∀ x : RForm, c.guardOn x.kg → Operands s key c [rA .g x] [] → Claims.refuses s c f (ptrTarget (c.rg x.a.toNat)) tr →
      traps (.ret x) ∧ traps (.brx x) ∧ (Operands s key c [rA .g x] [gDst 63] → traps (.callx x))) ∧
    ∀ x : LForm, c.guardOn x.kg → Claims.refuses s c f (relTarget f.pc x.lit.toInt) tr →
      traps (.brL x) ∧ (Operands s key c [] [gDst 63] → traps (.callL x))

/-! ## System registers, time and counters -/

/-- The firing of the context stands past an instruction of n bytes, ready to issue: the instruction has completed or gone in flight. No mask, trap
register, frame or identity of the context has changed. -/
def Claims.movedOn (t : State) (key : Nat) (c : Ctx) (f : Firing) (n : Nat) (c' : Ctx) : Prop :=
  t.ctx? key = some c' ∧ c'.firing = some { f with pc := nextPc f.pc n, stall := .none, wait := none } ∧ c'.k = c.k ∧ c'.frames = c.frames ∧
  c'.trapcause = c.trapcause ∧ c'.trapinfo = c.trapinfo ∧ c'.trapvec = c.trapvec ∧ c'.priv = c.priv ∧ c'.asid = c.asid ∧ c'.part = c.part

/-- No instruction in flight of the firing can still set a bit of %fpflags or %warn (R310). -/
def Claims.quietSticky (s : State) (key : Nat) (f : Firing) : Prop :=
  (∀ o ∈ s.ops, o.ctx = key → o.serial = f.serial → o.setsSticky = false) ∧
  (∀ o ∈ s.inFlightOf key, o.serial = f.serial → o.combo = false) ∧ s.macroSticky key f.serial = false

/-- GETS of a register that is not one per cluster gives its value at once, and of %pmwdog clears EXPIRED; of a register of a cluster it goes in
flight with the value and its destination empty; GETT gives the clocks, both from one sample; PERF gives a counter and clears it under CND 1
(R34, R104 to R106, R205). A register of the partition read by firmware gives a free value with its reserved bits 0 (the model's choice, log entry 22). -/
def Claims.systemReads : Prop :=
  ∀ (s : State) (key : Nat) (c : Ctx) (f : Firing) (x : SForm), Issuing s key c f → c.guardOn x.kg →
    (Operands s key c [] [gDst x.d.toNat] →
      ((regPriv x.imm.toNat).level ≤ c.priv.level → isClusterReg x.imm.toNat = false → ¬ (c.priv = .f ∧ ofPartition x.imm.toNat = true) →
        Claims.quietSticky s key f →
        exec (.gets x) s = .next (State.completed (if x.imm = 0x20A then { s with expired := false } else s) key
          ((c.wg x.d.toNat (s.readReg key c x.imm.toNat)).advance 8))) ∧
      (c.priv = .f → ofPartition x.imm.toNat = true →
        exec (.gets x) s = .next (State.completed { s with drawn := s.drawn + 1 } key ((c.wg x.d.toNat (Config.freeWord s.drawn &&& partMask x.imm.toNat)).advance 8))) ∧
      exec (.gettTicks x) s = .next (s.completed key ((c.wg x.d.toNat (wd s.ticks)).advance 8)) ∧
      exec (.gettPtp x) s = .next (s.completed key ((c.wg x.d.toNat (wd s.ptp)).advance 8)) ∧
      exec (.perf x) s = .next (s.completed key (Ctx.advance (if x.cnd = 1 then
          { c.wg x.d.toNat (Map.get 0 c.pmcnt (x.p.toNat % 8)) with pmcnt := Map.set 0 c.pmcnt (x.p.toNat % 8) 0 }
        else c.wg x.d.toNat (Map.get 0 c.pmcnt (x.p.toNat % 8))) 8))) ∧
    (Operands s key c [] [gDst x.d.toNat, gDst x.b.toNat] →
      exec (.gettBoth x) s = .next (s.completed key (((c.wg x.d.toNat (wd s.ticks)).wg x.b.toNat (wd s.ptp)).advance 8))) ∧
    (Operands s key c [sA x] [gDst x.d.toNat] → isClusterReg x.imm.toNat = true → (regPriv x.imm.toNat).level ≤ c.priv.level →
      (c.rg x.a.toNat).toNat ≤ 47 → s.issueRoom key f →
      exec (.gets x) s = .next ((s.send (s.opOf key f (captured (.gets x) [sA x] x.kg.toNat c f)
          (.value (wd (s.readCluster (c.rg x.a.toNat).toNat x.imm.toNat)) []) [x.d.toNat] [] 0 0 0)).completed key
        ((c.markG x.d.toNat true).advance 8)))

/-- SETS of a register of the context writes it, of %fpflags and %warn clears the bits that are 1 in the value; of a register of the package or a
partition it writes that; of a register of a cluster it writes the cluster's, or, from a supervisor while SENABLE is 1, rings it (R54, R56, R104,
R107, R198, R427). -/
def Claims.systemWrites : Prop :=
  ∀ (s : State) (key : Nat) (c : Ctx) (f : Firing) (x : SForm), Issuing s key c f → c.guardOn x.kg → (regPriv x.imm.toNat).level ≤ c.priv.level →
    (Operands s key c [sA x] [] → isClusterReg x.imm.toNat = false → Claims.quietSticky s key f →
      (x.imm.toNat < 0x100 → exec (.sets x) s = .next (s.completed key ((c.writeReg x.imm.toNat (c.rg x.a.toNat)).advance 8))) ∧
      (0x100 ≤ x.imm.toNat → exec (.sets x) s = .next ((s.writeShared key c x.imm.toNat (c.rg x.a.toNat).toNat).completed key (c.advance 8)))) ∧
    (Operands s key c [sA x, sB .g x] [] → isClusterReg x.imm.toNat = true → (c.rg x.b.toNat).toNat ≤ 47 →
      (c.priv = .f → exec (.sets x) s =
        .next ((s.writeCluster (c.rg x.b.toNat).toNat x.imm.toNat (c.rg x.a.toNat).toNat (dieOf key)).completed key (c.advance 8))) ∧
      (c.priv = .s → (s.cluster (c.rg x.b.toNat).toNat).senable = true → exec (.sets x) s =
        .next ((if (c.rg x.a.toNat).getLsbD 0 then s.ring (c.rg x.b.toNat).toNat 3 else s).completed key (c.advance 8))) ∧
      (c.priv = .s → (s.cluster (c.rg x.b.toNat).toNat).senable = false →
        exec (.sets x) s = .next (s.trapped key f (.sets x) { cause := cPrivilege, info := 2 })))

/-- What a write of %fpflags, %warn and %trapvec leaves, and that the read-only registers keep their values (R34, R54, R56). -/
def Claims.stickyRegisters : Prop :=
  ∀ (c : Ctx) (v : Word),
    (c.writeReg 0x20 v).fpflags = c.fpflags &&& ~~~v ∧ (c.writeReg 0x21 v).warn = c.warn &&& ~~~v ∧ (c.writeReg 0x32 v).trapvec = v ∧
    (∀ n, (c.writeReg n v).trapcause = c.trapcause ∧ (c.writeReg n v).trapinfo = c.trapinfo ∧ (c.writeReg n v).guardtab = c.guardtab ∧
      (c.writeReg n v).asid = c.asid ∧ (c.writeReg n v).priv = c.priv ∧ (c.writeReg n v).pmcnt = c.pmcnt ∧ (c.writeReg n v).firing = c.firing) ∧
    ∀ n, n ≠ 0x20 → n ≠ 0x21 → (c.writeReg n v).fpflags = c.fpflags ∧ (c.writeReg n v).warn = c.warn

/-- SETS. -/
def Obligations.SystemWrites : Prop := Claims.systemWrites ∧ Claims.stickyRegisters

/-- REFERENCE_CLOCK_TICK advances %ticks by 1 and %ptp by 10, or to the value that %ptpset holds, which it takes away (R34, R423); it samples the waits
in progress (R167), and a timer advances unless the graph holds it (R169); memory is unchanged, and so are contexts of which none waits. -/
def Claims.clockTick : Prop :=
  ∀ s : State, ∃ t, exec .referenceClockTick s = .next t ∧ t.ticks = (s.ticks + 1) % 2 ^ 64 ∧
    t.ptp = (match s.ptpset with | some v => v.toNat | none => (s.ptp + 10) % 2 ^ 64) ∧ t.ptpset = none ∧ t.mem = s.mem ∧
    ((∀ key c f, s.ctx? key = some c → c.firing = some f → f.wait = none) →
      t.graphs = s.graphs.map (fun g => if s.timerStands g then g else { g with timer := g.timer + 1 }) ∧ t.ctxs = s.ctxs ∧
      (s.ptpset = none → t.parts = s.parts)) ∧
    ∀ v, ∃ u, exec (.ptpsetWrite v) s = .next u ∧ u.ptpset = some v ∧ u.ticks = s.ticks ∧ u.mem = s.mem

/-- GETS, GETT and PERF, and the clocks they read. -/
def Obligations.SystemReadsAndTime : Prop := Claims.systemReads ∧ Claims.clockTick

/-! ## Guards -/

/-- A guard instruction puts a table aside and goes on: the table in force stays, the younger firings are squashed, and where there are none nothing
else changes. -/
def Claims.putsAside (s : State) (key : Nat) (c : Ctx) (f : Firing) (i : Instr) (table : Map (Word × Word)) : Prop :=
  (s.specsOf key = [] → exec i s = .next (s.completed key (Ctx.advance { c with guardsHeld := some table } 8))) ∧
  ∃ t c', exec i s = .next t ∧ Claims.movedOn t key c f 8 c' ∧ c'.guardsHeld = some table ∧ c'.guards = c.guards ∧ c'.g = c.g ∧ t.mem = s.mem ∧
    t.specsOf key = []

/-- GUARD .entry with a valid entry, UNGUARD, GQRY and CTXQ complete: the table as GUARD and UNGUARD leave it is in force from the END of the firing,
GQRY reads the live one, and .elig the committed state (R134, R136 to R139); an invalid entry raises ILLEGAL_ENCODING naming its highest invalid field. -/
def Claims.guardInstructions : Prop :=
  ∀ (s : State) (key : Nat) (c : Ctx) (f : Firing) (x : SForm), Issuing s key c f → c.guardOn x.kg →
    let done (i : Instr) (c' : Ctx) : Prop := exec i s = .next (s.completed key (c'.advance 8))
    (Operands s key c [sA x, sB .g x] [] →
      (entryOffences (c.rg x.a.toNat) (c.rg x.b.toNat) = [] →
        Claims.putsAside s key c f (.guardEntry x) (Map.set (0, 0) c.heldGuards (x.imm.toNat % 16) (c.rg x.a.toNat, c.rg x.b.toNat))) ∧
      (∀ o rest, entryOffences (c.rg x.a.toNat) (c.rg x.b.toNat) = o :: rest →
        exec (.guardEntry x) s = .next (s.trapped key f (.guardEntry x) { cause := cIllegalEncoding, info := guardInfo x.imm.toNat o }))) ∧
    (Claims.putsAside s key c f (.unguardOne x) (clearV c.heldGuards fun n => n == x.imm.toNat % 16)) ∧
    (Operands s key c [sA x] [] → Claims.putsAside s key c f (.unguardMask x) (clearV c.heldGuards fun n => (c.rg x.a.toNat).getLsbD n)) ∧
    (Operands s key c [] [gDst x.d.toNat, gDst x.b.toNat] →
      done (.gqryEntry x) ((c.wg x.d.toNat (c.guard (x.imm.toNat % 16)).1).wg x.b.toNat (c.guard (x.imm.toNat % 16)).2)) ∧
    (Operands s key c [] [gDst x.d.toNat] →
      done (.gqryElig x) (c.wg x.d.toNat (wd (committedMask s key c + c.committedFlags.toNat * 2 ^ 16))) ∧
      done (.ctxq x) (c.wg x.d.toNat (s.slotStatus c.asid (mkKey (tileOf key) (strandOf key) (x.imm.toNat % 8)))))

/-- GUARD .table with a readable table of valid entries puts all sixteen aside, names it in %guardtab, and goes in flight with the number of entries
whose V is set (R136). -/
def Claims.guardTableLoads : Prop :=
  ∀ (s s1 : State) (key : Nat) (c : Ctx) (f : Firing) (x : SForm) (ws : List Nat), Issuing s key c f → c.guardOn x.kg →
    Operands s key c [sA x] [gDst x.d.toNat] → s.issueRoom key f → s.noAccess key → (c.rg x.a.toNat).toNat % 256 = 0 →
    loadWords s key c (c.rg x.a.toNat).toNat 32 = .ok (ws, s1) → firstInvalid (pairWords ws) 0 = none →
      ∃ t c', exec (.guardTable x) s = .next t ∧ Claims.movedOn t key c f 8 c' ∧ t.mem = s.mem ∧ c'.guardsHeld = some (guardMap (pairWords ws)) ∧
        c'.guardtab = c.rg x.a.toNat ∧ c'.guards = c.guards ∧ c'.g = c.g ∧ c'.emptyG x.d.toNat = true ∧
        ∃ o ∈ t.ops, o.ctx = key ∧ o.dstG = [x.d.toNat] ∧ o.kind = .value (wd ((pairWords ws).filter fun e => entryV e.1).length) []

/-- The guard group. -/
def Obligations.GuardInstructions : Prop := Claims.guardInstructions ∧ Claims.guardTableLoads

/-! ## Modules -/

/-- MODBIND of a readable image goes in flight with the image as bound; MODFREE of a bound slot goes in flight with the binding released, and of an
unbound one gives 0; MODQ gives the slot's state and generation (R82, R93). -/
def Obligations.ModuleInstructions : Prop :=
  ∀ (s : State) (key : Nat) (c : Ctx) (f : Firing) (x : RForm), Issuing s key c f → c.guardOn x.kg → s.issueRoom key f →
    (Operands s key c [rA .g x, rB .g x, rC .g x] [gDst x.d.toNat] → s.noAccess key →
      ∀ image, (c.rg x.a.toNat).toNat % 128 = 0 → c.rg x.c.toNat ≠ 0 → (c.rg x.c.toNat).toNat % 8 = 0 → (c.rg x.b.toNat).toNat ≤ 15 →
        (c.rg x.c.toNat).toNat ≤ 2 ^ 48 →
        imageFrom s key c (c.rg x.a.toNat).toNat (c.rg x.c.toNat).toNat ((c.rg x.c.toNat).toNat / 65536 + 2) 0 [] = .ok image →
        ∃ t c', exec (.modbind x) s = .next t ∧ Claims.movedOn t key c f 8 c' ∧ t.mem = s.mem ∧ t.asids = s.asids ∧ c'.emptyG x.d.toNat = true ∧
          ∃ b, t.bindings = s.bindings ++ [b] ∧ b.asid = c.asid ∧ b.slot = (c.rg x.b.toNat).toNat ∧ b.base = (c.rg x.a.toNat).toNat ∧
            b.len = (c.rg x.c.toNat).toNat ∧ b.image = image ∧ ∃ o ∈ t.ops, o.ctx = key ∧ o.dstG = [x.d.toNat] ∧ o.kind = .modbind c.asid b.slot b.gen) ∧
    (Operands s key c [rA .g x] [gDst x.d.toNat] → (c.rg x.a.toNat).toNat ≤ 15 →
      (s.boundNow c.asid (c.rg x.a.toNat).toNat = none → exec (.modfree x) s = .next (s.completed key ((c.wg x.d.toNat 0).advance 8))) ∧
      (∀ b, s.boundNow c.asid (c.rg x.a.toNat).toNat = some b →
        ∃ t c', exec (.modfree x) s = .next t ∧ Claims.movedOn t key c f 8 c' ∧ t.mem = s.mem ∧
          t.asids = (s.setAsid c.asid { s.asid c.asid with bound := setBit (s.asid c.asid).bound (c.rg x.a.toNat).toNat false }).asids ∧
          ∃ o ∈ t.ops, o.ctx = key ∧ o.dstG = [x.d.toNat] ∧ o.kind = .modfree c.asid (c.rg x.a.toNat).toNat b.gen) ∧
      (s.drainedBindings c.asid (c.rg x.a.toNat).toNat = [] →
        exec (.modq x) s = .next (s.completed key ((c.wg x.d.toNat (wd (b2n ((s.asid c.asid).bound.getLsbD (c.rg x.a.toNat).toNat) +
          b2n (s.bindings.any fun b => b.asid == c.asid && b.slot == (c.rg x.a.toNat).toNat && b.released) * 2 +
          Map.get 0 (s.asid c.asid).gens (c.rg x.a.toNat).toNat * 2 ^ 16))).advance 8))) ∧
      (∃ t c', exec (.modq x) s = .next t ∧ Claims.movedOn t key c f 8 c' ∧ t.mem = s.mem ∧ c'.emptyG x.d.toNat = false))

/-! ## Memory instructions go in flight -/

/-- The address that an M-format instruction forms (R65, R252), and that it is aligned. -/
def Claims.address (c : Ctx) (x : MForm) (a : Nat) : Prop :=
  effAddr x.ty.toNat (c.rg x.base.toNat) (if x.idx = 0 then 0 else c.rg x.idx.toNat) x.disp.toInt = some a ∧ a % tyBytes x.ty.toNat = 0

/-- LD, VLD and VLDX go in flight with the address of R252, their destination empty, the captured sources and the order of R80; nothing of memory or of
the other registers changes at issue (R37, R251, R254). -/
def Obligations.LoadsIssue : Prop :=
  ∀ (s : State) (key : Nat) (c : Ctx) (f : Firing) (x : MForm) (a : Nat), Issuing s key c f → s.issueRoom key f → s.noAcquire key →
    let sent (i : Instr) (srcs : List Src) (g v : List Nat) (addr : Nat) (c' : Ctx) : Prop :=
      exec i s = .next ((s.send (s.opOf key f (captured i srcs x.kg.toNat c f) .load g v addr x.sc.toNat (loadOrd x.ord.toNat))).completed key
        (c'.advance 8))
    (Claims.address c x a →
      (c.guardOn x.kg → Operands s key c (mBase x :: mIdx x) [gDst x.ds.toNat] →
        sent (.ld x) (mBase x :: mIdx x) [x.ds.toNat] [] a (c.markG x.ds.toNat true)) ∧
      (Operands s key c (mBase x :: mIdx x) [vDst x.ds.toNat] →
        sent (.vld x) (mBase x :: mIdx x) [] [x.ds.toNat] a (c.markV x.ds.toNat true))) ∧
    (Operands s key c [mBase x, mVIdx x] [vDst x.ds.toNat] →
      (∀ l ∈ activeLanes (c.rk x.kg.toNat), laneAddr (c.rg x.base.toNat) (c.rv x.idx.toNat) x.disp.toInt l % 4 = 0) →
      sent (.vldx x) [mBase x, mVIdx x] [] [x.ds.toNat] 0 (c.markV x.ds.toNat true))

/-- An M-format address that is misaligned raises ALIGNMENT with the address in %trapinfo, before the load or store has any effect (R252). -/
def Claims.misalignedAccessFaults : Prop :=
  ∀ (s : State) (key : Nat) (c : Ctx) (f : Firing) (x : MForm) (a : Nat), Issuing s key c f → c.guardOn x.kg →
    effAddr x.ty.toNat (c.rg x.base.toNat) (if x.idx = 0 then 0 else c.rg x.idx.toNat) x.disp.toInt = some a → a % tyBytes x.ty.toNat ≠ 0 →
    (Operands s key c (mBase x :: mIdx x) [gDst x.ds.toNat] → exec (.ld x) s = .next (s.trapped key f (.ld x) { cause := cAlignment, info := wd a })) ∧
    (Operands s key c (mDs .g x :: mBase x :: mIdx x) [] → exec (.st x) s = .next (s.trapped key f (.st x) { cause := cAlignment, info := wd a })) ∧
    (Operands s key c (mBase x :: mIdx x) [vDst x.ds.toNat] → exec (.vld x) s = .next (s.trapped key f (.vld x) { cause := cAlignment, info := wd a })) ∧
    (Operands s key c (mDs .v x :: mBase x :: mIdx x) [] → exec (.vst x) s = .next (s.trapped key f (.vst x) { cause := cAlignment, info := wd a }))

/-- Faults that an instruction raises at issue in place of its effect. -/
def Obligations.FaultsAtIssue : Prop := Claims.transferFaults ∧ Claims.misalignedAccessFaults

/-- ST, VST and VSTX translate every active element's address at issue and go in flight with the physical addresses; no byte of memory changes until
they reach their homes (R253, R254). -/
def Obligations.StoresIssue : Prop :=
  ∀ (s : State) (key : Nat) (c : Ctx) (f : Firing) (x : MForm) (a : Nat) (pas : List Nat), Issuing s key c f → s.issueRoom key f → s.noAcquire key →
    s.redundant key = false →
    let sent (i : Instr) (srcs : List Src) (addr : Nat) : Prop :=
      exec i s = .next ((s.send { s.opOf key f (captured i srcs x.kg.toNat c f) .store [] [] addr x.sc.toNat (storeOrd x.ord.toNat) with pas := pas }).completed
        key (c.advance 8))
    (∀ o ∈ s.ops, o.id ≠ s.fresh) →
    (Claims.address c x a →
      (c.guardOn x.kg → Operands s key c (mDs .g x :: mBase x :: mIdx x) [] → storePas s key c (tyBytes x.ty.toNat) [a] = .ok pas →
        sent (.st x) (mDs .g x :: mBase x :: mIdx x) a) ∧
      (Operands s key c (mDs .v x :: mBase x :: mIdx x) [] →
        checkWhole s key c a (activeElems x.ty.toNat (c.rk x.kg.toNat)) = .ok () →
        storePas s key c (tyBytes x.ty.toNat) ((activeElems x.ty.toNat (c.rk x.kg.toNat)).map fun e => (a + e.2) % 2 ^ 64) = .ok pas →
        sent (.vst x) (mDs .v x :: mBase x :: mIdx x) a)) ∧
    (Operands s key c [mDs .v x, mBase x, mVIdx x] [] →
      (∀ l ∈ activeLanes (c.rk x.kg.toNat), laneAddr (c.rg x.base.toNat) (c.rv x.idx.toNat) x.disp.toInt l % 4 = 0) →
      storePas s key c 4 ((activeLanes (c.rk x.kg.toNat)).map (laneAddr (c.rg x.base.toNat) (c.rv x.idx.toNat) x.disp.toInt)) = .ok pas →
      sent (.vstx x) [mDs .v x, mBase x, mVIdx x] 0)

/-- ATOM, ATOMR, CAS, AWARM, AWCRED, BLEND and SEQRET go in flight with the address of R252 after the checks that need only the address; ATOMR and CAS
leave their destination empty, CAS reads gDS + 1 too, and the others write no register (R256, R257, R267, R273, R274). No byte changes yet. -/
def Obligations.AtomicsAndArrivalsIssue : Prop :=
  ∀ (s : State) (key : Nat) (c : Ctx) (f : Firing) (x : MForm) (a : Nat), Issuing s key c f → c.guardOn x.kg → s.issueRoom key f → s.noAcquire key →
    let sent (i : Instr) (srcs : List Src) (kind : OpKind) (g : List Nat) (sc ord : Nat) (c' : Ctx) : Prop :=
      exec i s = .next ((s.send (s.opOf key f (captured i srcs x.kg.toNat c f) kind g [] a sc ord)).completed key (c'.advance 8))
    let idx : Word := if x.idx = 0 then 0 else c.rg x.idx.toNat
    (s.redundant key = false → (inAperture a = true → ∃ p, apertureAt s key c a (tyBytes x.ty.toNat) = .ok p) → a % tyBytes x.ty.toNat = 0 →
      (effAddr x.ty.toNat (c.rg x.base.toNat) idx (atomDisp x) = some a →
        (Operands s key c (mDs .g x :: mBase x :: mIdx x) [] → sent (.atom x) (mDs .g x :: mBase x :: mIdx x) .atomic [] x.sc.toNat x.ord.toNat c) ∧
        (Operands s key c (mDs .g x :: mBase x :: mIdx x) [gDst x.ds.toNat] →
          sent (.atomr x) (mDs .g x :: mBase x :: mIdx x) .atomic [x.ds.toNat] x.sc.toNat x.ord.toNat (c.markG x.ds.toNat true))) ∧
      (effAddr x.ty.toNat (c.rg x.base.toNat) idx x.disp.toInt = some a →
        Operands s key c (mDs .g x :: { slot := .x, kind := .g, n := x.ds.toNat + 1 } :: mBase x :: mIdx x) [gDst x.ds.toNat] →
          sent (.cas x) (mDs .g x :: { slot := .x, kind := .g, n := x.ds.toNat + 1 } :: mBase x :: mIdx x) .atomic [x.ds.toNat] x.sc.toNat x.ord.toNat
            (c.markG x.ds.toNat true))) ∧
    (Claims.address c x a → inAperture a = true →
      ((∃ p, apertureAt s key c a 8 = .ok p) → Operands s key c (mDs .g x :: mBase x :: mIdx x) [] →
        sent (.awarm x) (mDs .g x :: mBase x :: mIdx x) .awarm [] x.sc.toNat 0 c ∧
        sent (.awcred x) (mDs .g x :: mBase x :: mIdx x) .awcred [] x.sc.toNat (storeOrd x.ord.toNat) c) ∧
      (a % 4096 = 0 → (∃ p, apertureAt s key c a 4096 = .ok p) →
        (Operands s key c (mDs .v x :: mBase x :: mIdx x) [] →
          ((c.rv x.ds.toNat).extractLsb' 512 32).toNat < 2 ^ 31 → descOp ((c.rv x.ds.toNat).extractLsb' 512 32).toNat ≠ 3 →
          sent (.blend x) (mDs .v x :: mBase x :: mIdx x) .blend [] 4 (storeOrd x.ord.toNat) c) ∧
        (Operands s key c (mDs .g x :: mBase x :: mIdx x) [] →
          sent (.seqret x) (mDs .g x :: mBase x :: mIdx x) .seqret [] 4 (storeOrd x.ord.toNat) c)))

/-! ## Fences, cache controls and banks -/

/-- FENCE completes when no access that it orders is in flight: a release writes the tile's dirty sectors back and an acquire drops the clean ones, both
from scope cluster upwards (R268, R280); PREF completes always; CWB, CINV and CFLUSH complete when no access of the context is in flight and act on
the lines in range, on all for a length of 0 (R269, R270). -/
def Claims.fencesAndCacheControls : Prop :=
  ∀ (s : State) (key : Nat) (c : Ctx) (f : Firing) (x : MForm), Issuing s key c f → c.guardOn x.kg →
    let ord := if x.ord = 0 then 3 else x.ord.toNat
    let s1 := if hasRel ord then s.releaseWays key x.sc.toNat else s
    let s2 := if hasAcq ord then s1.acquireWays key x.sc.toNat else s1
    (((s.inFlightOf key).any fun o => o.fenced ord) = false →
      exec (.fence x) s = .next (s2.completed key (Ctx.advance (if x.ord = 0 then c.warns wModcombo else c) 8))) ∧
    (Operands s key c (mBase x :: mIdx x) [] →
      ∃ t c', exec (.pref x) s = .next t ∧ Claims.movedOn t key c f 8 c' ∧ t.mem = s.mem ∧ c'.g = c.g ∧ c'.v = c.v ∧
        ((∀ e ∈ s.tlb, e.pa + 2 ^ e.log ≤ 2 ^ 38) → ∀ tile pa, pa < 2 ^ 52 → t.seenByte tile pa = s.seenByte tile pa)) ∧
    (Operands s key c (mDs .g x :: mBase x :: mIdx x) [] → s.noAccess key →
      ∀ a, (c.rg x.base.toNat + BitVec.ofInt 64 (let n := (if x.idx = 0 then (0 : Word) else c.rg x.idx.toNat).toInt + x.disp.toInt
          if tyNibble x.ty.toNat then n / 2 else n * (tyBytes x.ty.toNat : Int))).toNat = a →
        let hit (pa : Nat) : Bool := if (c.rg x.ds.toNat).toNat = 0 then true else inLines s key c a (c.rg x.ds.toNat).toNat pa
        exec (.cwb x) s = .next ((s.writeBack (tileOf key) hit).completed key (c.advance 8)) ∧
        exec (.cinv x) s = .next ((s.dropSectors (tileOf key) hit).completed key (c.advance 8)) ∧
        exec (.cflush x) s = .next (((s.writeBack (tileOf key) hit).dropClean (tileOf key) hit).completed key (c.advance 8)))

/-- After a write-back no byte of the tile that satisfies p is dirty, the byte that the tile sees at every address is the same, and memory holds
that byte where it was dirty; dropping clean bytes leaves memory alone, and dropping clean sectors leaves every sector with a dirty byte whole (R25, R243,
R246, R270). -/
def Claims.writeBackIsCoherent : Prop :=
  ∀ (s : State) (tile : Nat) (p : Nat → Bool), Map.risesFrom 0 s.tileCache = true → Memory.wf s.mem = true →
    (∀ pa, (s.writeBack tile p).seenByte tile pa = s.seenByte tile pa) ∧
    (∀ pa b, pa < 2 ^ 52 → p pa = true → s.cached? tile pa = some (b, true) →
      Memory.read (s.writeBack tile p).mem pa = b ∧ (s.writeBack tile p).cached? tile pa = some (b, false)) ∧
    (∀ pa, (∀ b, pa < 2 ^ 52 → s.cached? tile pa ≠ some (b, true)) → Memory.read (s.writeBack tile p).mem pa = Memory.read s.mem pa) ∧
    (s.dropClean tile p).mem = s.mem ∧ (s.dropSectors tile p).mem = s.mem ∧
    (∀ pa a b, pa < 2 ^ 52 → a < 2 ^ 52 → pa / 32 = a / 32 → s.cached? tile a = some (b, true) →
      (s.dropSectors tile p).cached? tile pa = s.cached? tile pa)

/-- Fences and cache controls. -/
def Obligations.FencesAndCaches : Prop := Claims.fencesAndCacheControls ∧ Claims.writeBackIsCoherent

/-- What a switch of a bank to another mode does: the new mode is in force and every other bank keeps its own, every byte of the bank reads 0 and the bytes
of the other banks are as they were; a bank that leaves CACHE has written the tile's dirty bytes back, so memory holds them, and of another bank memory is
unchanged. A switch to the mode that a bank has does nothing (R240, R241). That the dirty bytes of the whole tile go back is the model's choice (log
entry 17). -/
def Claims.switchedBank : Prop :=
  ∀ (s : State) (tile bank mode : Nat), bank < 24 → mode < 3 → Map.risesFrom 0 s.bankModes = true →
    let t := s.switchBank tile bank mode
    (s.bankMode tile bank = mode → t = s) ∧
    (s.bankMode tile bank ≠ mode →
      t.bankMode tile bank = mode ∧
      (∀ tile' bank', bank' < 24 → ¬ (tile' = tile ∧ bank' = bank) → t.bankMode tile' bank' = s.bankMode tile' bank') ∧
      (∀ off, off < 65536 → t.bankByte tile bank off = 0) ∧
      (∀ tile' bank' off, bank' < 24 → off < 65536 → ¬ (tile' = tile ∧ bank' = bank) → t.bankByte tile' bank' off = s.bankByte tile' bank' off) ∧
      (s.bankMode tile bank ≠ 0 → t.mem = s.mem ∧ t.tileCache = s.tileCache) ∧
      (s.bankMode tile bank = 0 → Memory.wf s.mem = true → Map.risesFrom 0 s.tileCache = true →
        (∀ pa b, pa < 2 ^ 52 → s.cached? tile pa = some (b, true) → Memory.read t.mem pa = b) ∧
        (∀ pa, (∀ b, pa < 2 ^ 52 → s.cached? tile pa ≠ some (b, true)) → Memory.read t.mem pa = Memory.read s.mem pa) ∧
        ∀ pa b, pa < 2 ^ 52 → t.cached? tile pa ≠ some (b, true)))

/-- BANKCFG to CACHE or SCRATCH of a bank that is not FIFO, by any privilege that owns the tile, switches the bank (R240, R241, R271). To FIFO, from S on
of a bank that the partition's queue-bank mark names, likewise; out of FIFO while the tile backs no live queue. A bank under test makes it wait (the
model's choice, log entry 104), and which FIFO banks back queues is a free choice where the manual leaves it open (log entry 50). -/
def Claims.bankInstruction : Prop :=
  ∀ (s : State) (key : Nat) (c : Ctx) (f : Firing) (x : MForm) (a tile bank off : Nat), Issuing s key c f → c.guardOn x.kg →
    Operands s key c (mDs .g x :: mBase x :: mIdx x) [] → Claims.address c x a → inAperture a = true → a % 65536 = 0 →
    apertureAt s key c a 1 = .ok (.bank tile bank off) →
    ((clusterOfTile (tileOf key) = clusterOfTile tile ∧ onSystemTile key = false) ∨ (s.cluster (clusterOfTile tile)).refuses = false) →
    s.busyUnits.contains (unitWord 1 tile bank) = false →
    let mode := (c.rg x.ds.toNat).toNat % 4
    let marked := (Map.get 0 s.queueBanks tile).getLsbD bank = true
    (s.bankMode tile bank = 2 → mode < 2 → c.priv ≠ .u → marked → s.liveBanks tile = 0 →
      exec (.bankcfg x) s = .next ((State.switchBank { s with drawn := s.drawn + 1 } tile bank mode).completed key (c.advance 8))) ∧
    (s.bankMode tile bank = 2 → mode = 2 → c.priv ≠ .u → marked → exec (.bankcfg x) s = .next (s.completed key (c.advance 8))) ∧
    (s.bankMode tile bank ≠ 2 → (mode < 2 ∨ (mode = 2 ∧ c.priv ≠ .u ∧ marked)) →
      exec (.bankcfg x) s = .next ((s.switchBank tile bank mode).completed key (c.advance 8))) ∧
    (mode = 3 → exec (.bankcfg x) s = .next (s.trapped key f (.bankcfg x) { cause := cProtection, info := wd a }))

/-- Switches of banks, and the instruction that makes them. -/
def Obligations.BankSwitches : Prop := Claims.switchedBank ∧ Claims.bankInstruction

/-! ## Copies -/

/-- COPY and CHAIN start a copy when fewer than 64 wait on the engines of their side and no access of the context is in flight: the tile's dirty bytes are
written back, the copy stands among the copies with its record, event counter, scope and order, and no register changes (R260, R265, R266). That a copy waits
at issue for the older accesses of its context is the model's reading (logs 15, 71). -/
def Claims.copiesStart : Prop :=
  ∀ (s : State) (key : Nat) (c : Ctx) (f : Firing) (x : MForm), Issuing s key c f → c.guardOn x.kg → Operands s key c [mBase x] [] →
    s.noAccess key → (s.copies.filter fun r => copyGroup r.ctx == copyGroup key).length < 64 → (c.rg x.base.toNat).toNat % 64 = 0 →
    let s1 := s.writeBack (tileOf key) fun _ => true
    let run (i : Instr) (chain : Bool) (ev : Nat) : CopyRun :=
      { id := s1.fresh, ctx := key, asid := c.asid, pc := f.pc, word := instrWord i, record := (c.rg x.base.toNat).toNat, chain := chain, ev := ev, scope := x.sc.toNat,
        ord := x.ord.toNat }
    let starts (i : Instr) (r : CopyRun) : Prop :=
      exec i s = .next (State.completed { s1 with fresh := s1.fresh + 1, copies := s1.copies ++ [r] } key (c.advance 8))
    starts (.copy x) (run (.copy x) false 0) ∧ starts (.chain x) (run (.chain x) true (x.ds.toNat % 4))

/-! ## Counters and waits -/

/-- MCADD and MCREAD go in flight with their address, their faults to come later; EREAD and ECLR give an event counter, and ECLR clears it in the same
step; WCOND writes a wait slot (R162, R166, R168). -/
def Obligations.CounterInstructions : Prop :=
  ∀ (s : State) (key : Nat) (c : Ctx) (f : Firing) (x : SForm), Issuing s key c f → c.guardOn x.kg →
    (s.issueRoom key f → s.noAcquire key →
      (∀ srcs, srcs = (sA x :: if x.cnd = 1 then [] else [sB .g x]) → Operands s key c srcs [gDst x.d.toNat] →
        exec (.mcadd x) s = .next ((s.send (s.opOf key f (captured (.mcadd x) srcs x.kg.toNat c f) .counterAdd [x.d.toNat] []
          (c.rg x.a.toNat).toNat x.sc.toNat (storeOrd x.ord.toNat))).completed key
            ((c.markG x.d.toNat true).advance 8))) ∧
      (Operands s key c [sA x] [gDst x.d.toNat] →
        exec (.mcread x) s = .next ((s.send (s.opOf key f (captured (.mcread x) [sA x] x.kg.toNat c f) .counterRead [x.d.toNat] []
          (c.rg x.a.toNat).toNat x.sc.toNat (loadOrd x.ord.toNat))).completed key
            ((c.markG x.d.toNat true).advance 8)))) ∧
    (Operands s key c [] [gDst x.d.toNat] →
      exec (.eread x) s = .next (s.completed key ((c.wg x.d.toNat (c.re (x.imm.toNat % 4))).advance 8)) ∧
      exec (.eclr x) s = .next (s.completed key (((c.wg x.d.toNat (c.re (x.imm.toNat % 4))).we (x.imm.toNat % 4) 0).advance 8))) ∧
    (Operands s key c (wcondSrcs x) [] → ∃ a b, (x.cnd.toNat ≤ 1 → a = c.rg x.a.toNat) ∧ (x.cnd.toNat ≤ 4 → b = c.rg x.b.toNat) ∧
      exec (.wcond x) s = .next (s.completed key (Ctx.advance { c with slots := Map.set .never c.slots (x.imm.toNat % 4) (wcondOf x a b) } 8)))

/-- WAIT whose sample shows its conditions, or whose deadline has come, completes with the conditions seen, and bit 4 when it timed out; otherwise it goes on
waiting with its deadline min(gA, 2^32) ticks away and what it has seen (R167). -/
def Claims.waitInstruction : Prop :=
  ∀ (s : State) (key : Nat) (c : Ctx) (f : Firing) (x : SForm) (r : Sampled), Issuing s key c f → c.guardOn x.kg →
    Operands s key c [sA x] [gDst x.d.toNat] → f.wait = none → s.noAcquire key → sampleWait s key c x 0 = .ok r →
    let s1 := s.waitAcquire key c x r.seen
    let deadline := s.ticks + Nat.min (c.rg x.a.toNat).toNat (2 ^ 32)
    ((r.done = true ∨ deadline ≤ s.ticks) →
      exec (.wait x) s = .next (s1.completed key ((c.wg x.d.toNat (r.seen.setWidth 64 ||| if r.done then 0 else 16)).advance 8))) ∧
    (r.done = false → s.ticks < deadline →
      let f' : Firing := { f with wait := some { word := instrWord (.wait x), deadline := deadline, seen := r.seen }, stall := .waiting }
      exec (.wait x) s = .next (s1.completed key { c with firing := some f' }))

/-- WAIT_COMPLETION ends a wait whose conditions a sample shows, and WAIT_TIMEOUT one whose deadline has come: the destination gets the conditions seen,
with bit 4 for a time-out, and the firing goes on at the next word (R167). -/
def Claims.waitEnds : Prop :=
  ∀ (s : State) (key : Nat) (c : Ctx) (f : Firing) (w : WaitRun) (r : Sampled), s.ctx? key = some c → c.firing = some f → f.wait = some w → f.stall = .waiting →
    sampleWait s key c (SForm.ofWord w.word.toNat) w.seen = .ok r →
    let d := (SForm.ofWord w.word.toNat).d.toNat
    (r.done = true → ∃ t c', exec (.waitCompletion key) s = .next t ∧ Claims.movedOn t key c f 8 c' ∧ c'.g = (c.wg d (r.seen.setWidth 64)).g ∧ t.mem = s.mem) ∧
    (r.done = false → w.deadline ≤ s.ticks →
      ∃ t c', exec (.waitTimeout key) s = .next t ∧ Claims.movedOn t key c f 8 c' ∧ c'.g = (c.wg d (r.seen.setWidth 64 ||| 16)).g ∧ t.mem = s.mem)

/-- WAIT at its issue and at its end. -/
def Obligations.Waits : Prop := Claims.waitInstruction ∧ Claims.waitEnds

/-- A counter add at its home writes the sum, and a sum that does not fit 64 bits raises COUNTER_OVERFLOW and leaves the counter (R22); a credit of an
arrival word adds to its count, and at the target the generation advances and the count starts again (R23). -/
def Claims.counterArithmetic : Prop :=
  (∀ (s : State) (va pa n : Nat), s.dramBad pa 8 = false → Memory.wf s.mem = true →
    let old := leNat (Memory.readBytes s.mem pa 8)
    (old + n < 2 ^ 64 → ∃ t, addAtHome s va pa n = .ok (old, t) ∧ Memory.readBytes t.mem pa 8 = leBytes 8 (old + n) ∧
      ∀ a, (a < pa ∨ pa + 8 ≤ a) → Memory.read t.mem a = Memory.read s.mem a) ∧
    (2 ^ 64 ≤ old + n → ∃ tr, addAtHome s va pa n = .error tr ∧ tr.cause = cCounterOverflow)) ∧
  (∀ aw n : Nat, aw < 2 ^ 64 →
    (bits aw 27 0 + n < bits aw 55 28 → creditWord aw n = aw + n) ∧
    (bits aw 55 28 ≤ bits aw 27 0 + n →
      bits (creditWord aw n) 63 56 = (bits aw 63 56 + 1) % 256 ∧ bits (creditWord aw n) 55 28 = bits aw 55 28 ∧ bits (creditWord aw n) 27 0 = 0))

/-! ## Memory events -/

/-- An instruction in flight can act now: it is the one with this number, its context lives, and nothing that R277 and R280 order before it is in flight. -/
def Claims.due (s : State) (id : Nat) (o : Op) (c : Ctx) : Prop := s.op? id = some o ∧ s.ctx? o.ctx = some c ∧ s.mayPerform o = true

/-- LONG_LATENCY_RESULT of an LD without ordering from the DRAM region: the destination gets the bytes that the tile sees, little-endian, extended as the
type says, and is full; the instruction is no longer in flight, and memory and the other g registers are as they were (R37, R96, R254, R255). -/
def Claims.loadResultArrives : Prop :=
  ∀ (s : State) (id : Nat) (o : Op) (c : Ctx) (pa : Nat), Claims.due s id o c → o.kind = .load → o.ord = 0 → bits o.word.toNat 55 50 = 0 →
    let x := MForm.ofWord o.word.toNat
    let n := tyBytes x.ty.toNat
    placeOf s o.ctx c o.addr n .r = .ok (.dram pa) → s.dramBad pa n = false →
    let v := wd (leNat ((List.range n).map fun j => s.seenByte (tileOf o.ctx) (pa + j)))
    ∃ t c', exec (.longLatencyResult id) s = .next t ∧ t.mem = s.mem ∧ t.op? id = none ∧ t.ctx? o.ctx = some c' ∧
      c'.g = (c.wg x.ds.toNat (if x.ty.toNat < 8 then wrInt x.ty.toNat (rdInt x.ty.toNat v) else v)).g ∧ c'.emptyG x.ds.toNat = false ∧
      (∀ m, m ≠ x.ds.toNat → c'.rg m = c.rg m ∧ c'.emptyG m = c.emptyG m) ∧ c'.v = c.v ∧ c'.k = c.k

/-- LONG_LATENCY_RESULT of an instruction whose result is known writes its destinations full (R37). -/
def Claims.knownResultArrives : Prop :=
  ∀ (s : State) (id : Nat) (o : Op) (c : Ctx) (g : Word) (v : List VWord), s.op? id = some o → s.ctx? o.ctx = some c → o.kind = .value g v →
    ∃ t c', exec (.longLatencyResult id) s = .next t ∧ t.mem = s.mem ∧ t.op? id = none ∧ t.ctx? o.ctx = some c' ∧
      c'.g = (c.deliver o.dstG o.dstV g v).g ∧ c'.gEmpty = (c.deliver o.dstG o.dstV g v).gEmpty ∧ c'.v = (c.deliver o.dstG o.dstV g v).v ∧
      c'.vEmpty = (c.deliver o.dstG o.dstV g v).vEmpty ∧ c'.k = c.k

/-- LONG_LATENCY_RESULT. -/
def Obligations.ResultsArrive : Prop := Claims.loadResultArrives ∧ Claims.knownResultArrives

/-- POSTED_WRITE_ARRIVAL of an ST without ordering to the DRAM region: its bytes, the low bytes of the source, go to the place found at issue, into the
ways of the tile where it has any and else to memory, and every other byte is as it was (R243, R253, R254). -/
def Claims.storeArrives : Prop :=
  ∀ (s : State) (id : Nat) (o : Op) (c : Ctx) (pa : Nat), Claims.due s id o c → o.kind = .store → o.ord = 0 → bits o.word.toNat 55 50 = 0 →
    o.pas = [pa] → pa < 2 ^ 60 → Memory.wf s.mem = true →
    let bs := leBytes (tyBytes (MForm.ofWord o.word.toNat).ty.toNat) o.opA.toNat
    ∃ t, exec (.postedWriteArrival id) s = .next t ∧ t.op? id = none ∧
      (s.hasWays (tileOf o.ctx) = false → Memory.readBytes t.mem pa bs.length = bs ∧
        ∀ a, (a < pa ∨ pa + bs.length ≤ a) → Memory.read t.mem a = Memory.read s.mem a) ∧
      (s.hasWays (tileOf o.ctx) = true → t.mem = s.mem ∧ ∀ n (h : n < bs.length), t.cached? (tileOf o.ctx) (pa + n) = some (bs[n], true)) ∧
      (s.hasWays (tileOf o.ctx) = false → t.tileCache = s.tileCache) ∧
      (s.hasWays (tileOf o.ctx) = true → pa + bs.length ≤ 2 ^ 52 → ∀ tile a, a < 2 ^ 52 → ¬ (tile = tileOf o.ctx ∧ pa ≤ a ∧ a < pa + bs.length) →
        t.seenByte tile a = s.seenByte tile a ∧ ∀ b, t.cached? tile a = some (b, true) ↔ s.cached? tile a = some (b, true))

/-- The bytes that a store writes, by physical address: the element of an ST, the active elements of a VST and the active lanes of a VSTX, at the
addresses found at issue (R253, R254). -/
def Claims.written (o : Op) : List (Nat × List Byte) :=
  let ty := (MForm.ofWord o.word.toNat).ty.toNat
  match bits o.word.toNat 55 50 with
  | 0 => o.pas.map fun pa => (pa, leBytes (tyBytes ty) o.opA.toNat)
  | 1 => (o.pas.zip (activeElems ty o.mask)).map fun p => (p.1, trimT6 ty (vBytes o.opA p.2.2 (tyBytes ty)))
  | _ => (o.pas.zip (activeLanes o.mask)).map fun p => (p.1, vBytes o.opA (4 * p.2) 4)

/-- The byte at an address after writes in order. -/
def Claims.patched (ws : List (Nat × List Byte)) (before : Byte) (a : Nat) : Byte :=
  ws.foldl (fun b w => if w.1 ≤ a ∧ a < w.1 + w.2.length then w.2.getD (a - w.1) 0 else b) before

/-- POSTED_WRITE_ARRIVAL of a VST or VSTX without ordering whose elements all lie in the DRAM region: every byte is the one that its elements, in order,
put there, as the tile sees it through its ways, or, without ways, in memory; all others are as they were. A store to the aperture writes the
bytes of its bank that it names and no others, and one that meets a protected part of an ACTIVE buffer writes nothing (R239, R250, R253, R254). -/
def Claims.otherStoresArrive : Prop :=
  (∀ (s : State) (id : Nat) (o : Op) (c : Ctx), Claims.due s id o c → o.kind = .store → o.ord = 0 → 1 ≤ bits o.word.toNat 55 50 →
    o.pas.length = (storePieces o).length → (∀ pa ∈ o.pas, pa + 8 ≤ 2 ^ 52) → Memory.wf s.mem = true →
    ∃ t, exec (.postedWriteArrival id) s = .next t ∧ t.op? id = none ∧
      (s.hasWays (tileOf o.ctx) = false → t.tileCache = s.tileCache ∧
        ∀ a, Memory.read t.mem a = Claims.patched (Claims.written o) (Memory.read s.mem a) a) ∧
      (s.hasWays (tileOf o.ctx) = true → t.mem = s.mem ∧
        (∀ a, a < 2 ^ 52 → t.seenByte (tileOf o.ctx) a = Claims.patched (Claims.written o) (s.seenByte (tileOf o.ctx) a) a) ∧
        ∀ tile a, a < 2 ^ 52 → tile ≠ tileOf o.ctx → t.seenByte tile a = s.seenByte tile a)) ∧
  (∀ (s : State) (id : Nat) (o : Op) (c : Ctx) (tile bank off : Nat), Claims.due s id o c → o.kind = .store → o.ord = 0 → bits o.word.toNat 55 50 = 0 →
    let n := tyBytes (MForm.ofWord o.word.toNat).ty.toNat
    o.pas = [2 ^ 60] → placeOf s o.ctx c o.addr n .w = .ok (.bank tile bank off) → bankChecks s o.ctx o.addr tile bank = .ok () →
    Map.risesFrom 0 s.scratch = true →
    (bufferProtected s tile bank off n = false → ∃ t, exec (.postedWriteArrival id) s = .next t ∧ t.op? id = none ∧ t.mem = s.mem ∧
      t.tileCache = s.tileCache ∧ t.bankBytes tile bank off n = leBytes n o.opA.toNat ∧
      ∀ k, (k < bankKey tile bank off ∨ bankKey tile bank off + n ≤ k) → Map.get 0 t.scratch k = Map.get 0 s.scratch k) ∧
    (bufferProtected s tile bank off n = true →
      exec (.postedWriteArrival id) s = .next ((s.opFault o { cause := cProtection, info := wd o.addr, addr := wd o.addr }).wake o.ctx)))

/-- LONG_LATENCY_RESULT of a VLD or VLDX without ordering from the DRAM region: the destination is full with the bytes that the tile sees in the places of
its active elements or lanes, two bits of each t6 code as 0, and what it held in the other places; memory and the g registers are as they were
(R35, R254, R255). -/
def Claims.vectorLoadsArrive : Prop :=
  (∀ (s : State) (id : Nat) (o : Op) (c : Ctx) (pa : Nat → Nat), Claims.due s id o c → o.kind = .load → o.ord = 0 →
    let x := MForm.ofWord o.word.toNat
    let n := tyBytes x.ty.toNat
    let seen (a n : Nat) : List Byte := (List.range n).map fun j => s.seenByte (tileOf o.ctx) (pa a + j)
    let found (a n : Nat) : Prop := placeOf s o.ctx c a n .r = .ok (.dram (pa a)) ∧ s.dramBad (pa a) n = false
    let gives (v : VWord) : Prop := ∃ t c', exec (.longLatencyResult id) s = .next t ∧ t.mem = s.mem ∧ t.op? id = none ∧ t.ctx? o.ctx = some c' ∧
      c'.v = (c.wv x.ds.toNat v).v ∧ c'.emptyV x.ds.toNat = false ∧ c'.g = c.g ∧ c'.k = c.k
    (bits o.word.toNat 55 50 = 1 → inAperture o.addr = false →
      (∀ e ∈ activeElems x.ty.toNat o.mask, found ((o.addr + e.2) % 2 ^ 64) n) →
      gives ((activeElems x.ty.toNat o.mask).foldl (fun v e => putBytes v e.2 (trimT6 x.ty.toNat (seen ((o.addr + e.2) % 2 ^ 64) n))) (c.rv x.ds.toNat))) ∧
    (bits o.word.toNat 55 50 = 2 →
      let at_ (l : Nat) : Nat := laneAddr (o.opB.extractLsb' 0 64) o.opC x.disp.toInt l
      (∀ l ∈ activeLanes o.mask, found (at_ l) 4) →
      gives ((activeLanes o.mask).foldl (fun v l => putBytes v (4 * l) (seen (at_ l) 4)) (c.rv x.ds.toNat)))) ∧
  (∀ (v : VWord) (pos j : Nat) (bs : List Byte), pos + bs.length ≤ 128 → j < 128 →
    vBytes (putBytes v pos bs) j 1 = if pos ≤ j ∧ j < pos + bs.length then [bs.getD (j - pos) 0] else vBytes v j 1) ∧
  (∀ (ty : Nat) (mask : Mask) (i p : Nat),
    ((i, p) ∈ activeElems ty mask ↔ i < 128 / tyBytes ty ∧ p = tyBytes ty * i ∧ mask.getLsbD (p / 4) = true))

/-- ATOMIC_APPLY at the DRAM region, one step: the tile's sector is flushed, the old value is read, the operation's result is written, and a destination
gets the old value; every byte outside the element is as the flush left it (R256, R257). -/
def Claims.atomicApplies : Prop :=
  ∀ (s : State) (id : Nat) (o : Op) (c : Ctx) (pa : Nat), Claims.due s id o c → o.kind = .atomic →
    let n := tyBytes (MForm.ofWord o.word.toNat).ty.toNat
    placeOf s o.ctx c o.addr n .w = .ok (.dram pa) → s.dramBad pa n = false →
    let s1 := (if hasRel o.ord then s.releaseWays o.ctx o.scope else s).flushSector (tileOf o.ctx) pa
    let old := leNat (Memory.readBytes s1.mem pa n)
    ∃ t c', exec (.atomicApply id) s = .next t ∧ t.op? id = none ∧ t.mem = Memory.writeBytes s1.mem pa (leBytes n (o.atomicNew old)) ∧
      t.ctx? o.ctx = some c' ∧ c'.g = (c.deliver o.dstG o.dstV (atomOld (MForm.ofWord o.word.toNat).ty.toNat old) []).g ∧ c'.v = c.v

/-- Stores and atomics at their homes, and the results of vector loads. -/
def Obligations.StoresAndAtomicsAct : Prop := Claims.storeArrives ∧ Claims.otherStoresArrive ∧ Claims.vectorLoadsArrive ∧ Claims.atomicApplies

/-- The operations of ATOM on integers: addition modulo 2^w, the lesser and the greater by the type's sign, the bitwise ones and exchange (R256). -/
def Claims.atomicOperations : Prop :=
  ∀ ty old v, ty < 8 → old < 2 ^ tyWidth ty → v < 2 ^ tyWidth ty →
    let val (n : Nat) : Int := asInt (tySigned ty) (tyWidth ty) n
    atomNew ty 0 old v = (old + v) % 2 ^ tyWidth ty ∧ val (atomNew ty 1 old v) = min (val old) (val v) ∧ val (atomNew ty 2 old v) = max (val old) (val v) ∧
    atomNew ty 3 old v = old &&& v ∧ atomNew ty 4 old v = old ||| v ∧ atomNew ty 5 old v = old ^^^ v ∧ atomNew ty 6 old v = v

/-! ## Other events of instructions in flight -/

/-- MONOTONIC_COUNTER_ADD applies the add of an MCADD, whose old value is then on its way; LONG_LATENCY_RESULT of an MCREAD gives
its destination the counter's value, full;
ARRIVAL_WORD_CREDIT and POSTED_WRITE_ARRIVAL update the arrival word of an AWCRED and an AWARM; ASYNC_COMPLETION counts in the event counter and sets the
warnings and flags that the completion carries (R22, R23, R55, R162 to R164, R267). -/
def Claims.counterEvents : Prop :=
  ∀ (s : State) (id : Nat),
    (∀ o c old s1, Claims.due s id o c → o.kind = .counterAdd → performCounterAdd s o c = .ok (old, s1) →
      ∃ t, exec (.monotonicCounterAdd id) s = .next t ∧ t.mem = s1.mem ∧ ∃ p, t.op? id = some p ∧ p.kind = .value (wd old) [] ∧ p.dstG = o.dstG) ∧
    (∀ o c x s1, Claims.due s id o c → o.kind = .counterRead → performCounterRead s o c = .ok (x, s1) →
      ∃ t c', exec (.longLatencyResult id) s = .next t ∧ t.mem = s1.mem ∧ t.op? id = none ∧ t.ctx? o.ctx = some c' ∧
        c'.g = (c.deliver o.dstG o.dstV (wd x) []).g ∧ (∀ d, o.dstG = [d] → o.dstV = [] → c'.rg d = wd x ∧ c'.emptyG d = false) ∧ c'.v = (c.deliver o.dstG o.dstV (wd x) []).v) ∧
    (∀ o c s1, Claims.due s id o c → o.kind = .awcred →
      updateArrival (if hasRel o.ord then s.releaseWays o.ctx o.scope else s) o.ctx c o.addr (fun aw => creditWord aw (o.opA.toNat % 2 ^ 28)) = .ok s1 →
      ∃ t, exec (.arrivalWordCredit id) s = .next t ∧ t.scratch = s1.scratch ∧ t.op? id = none) ∧
    (∀ o c s1, Claims.due s id o c → o.kind = .awarm →
      updateArrival (if hasRel o.ord then s.releaseWays o.ctx o.scope else s) o.ctx c o.addr (fun aw => armWord aw (o.opA.toNat % 2 ^ 28)) = .ok s1 →
      ∃ t, exec (.postedWriteArrival id) s = .next t ∧ t.scratch = s1.scratch ∧ t.op? id = none) ∧
    (∀ d c, (s.asyncDone.find? fun d => d.id == id) = some d → s.ctx? d.ctx = some c →
      ∃ t c', exec (.asyncCompletion id) s = .next t ∧ t.ctx? d.ctx = some c' ∧ c'.warn = c.warn ||| d.warn ∧ c'.fpflags = c.fpflags ||| d.fpflags ∧
        (∀ n, d.ev = some n → c'.e = (c.we n (c.re n + 1)).e) ∧ c'.g = c.g ∧ c'.v = c.v ∧ (t.asyncDone.find? fun d => d.id == id) = none)

/-- Counters, arrival words and atomic operations at their homes. -/
def Obligations.CounterArithmetic : Prop := Claims.counterArithmetic ∧ Claims.atomicOperations ∧ Claims.counterEvents

/-- ATOMIC_DIVERSION puts an atomic whose translation, rights or data fail into the lowest free entry of the die's repair queue, with a record for the
supervisor; a retry that succeeds applies it and frees the entry, one that faults again stays in the entry with a new record;
the fifth fault, an abandon and 1,000,000 ticks free the entry with no effect and ATOMIC_UNREPAIRABLE for the issuer: as a fault that is pending for an
ATOM, and at its destination for ATOMR and CAS (R258, R259). The words of the record are the model's reading (log entry 68). -/
def Claims.repairQueue : Prop :=
  let record (s : State) (die entry : Nat) (o : Op) (c : Ctx) (t : Trap) : PendingRecord :=
    { target := if c.priv = .f then firmwareOf (dieOf o.ctx) else supervisorOf c.part
      words := [wd (t.cause.toNat + 2 ^ 16), handleOf o.ctx c, t.info, o.pc, o.word, wd (entry + 64 * die), t.addr, wd s.ticks] }
  let gone (s u : State) (e : RepairEntry) : Prop :=
    (e.op.isAtom = true → ∀ c, s.ctx? e.op.ctx = some c → c.pending.length < 4 → ∃ c', u.ctx? e.op.ctx = some c' ∧ c'.g = c.g ∧
      c'.pending = c.pending ++ [{ cause := cAtomicUnrepairable, info := wd e.op.addr, fpc := e.op.pc, fword := e.op.word, addr := wd e.op.addr }]) ∧
    (e.op.isAtom = false → ∃ o ∈ u.ops, o.id = e.op.id ∧ o.ctx = e.op.ctx ∧ o.dstG = e.op.dstG ∧ o.addr = e.op.addr ∧
      o.kind = .fault cAtomicUnrepairable (wd e.op.addr) 0)
  (∀ (s : State) (id : Nat) (o : Op) (c : Ctx) (t : Trap) (n : Nat), Claims.due s id o c → o.kind = .atomic → performAtomic s o c = .error t →
    diverts t.cause = true → ((List.range 64).find? fun n => (s.repair? (faultDie s o c) n).isNone) = some n →
    ∃ u, exec (.atomicDiversion id) s = .next u ∧ u.op? id = none ∧ u.mem = s.mem ∧
      (∀ m < n, (s.repair? (faultDie s o c) m).isSome = true) ∧
      u.repair? (faultDie s o c) n = some { op := o, cause := t.cause, info := t.info, syndrome := t.syndrome, faults := 1, since := s.ticks } ∧
      u.records = s.records ++ [record s (faultDie s o c) n o c t]) ∧
  (∀ (s : State) (die entry : Nat) (e : RepairEntry) (c : Ctx) (t : Trap), s.repair? die entry = some e → s.ctx? e.op.ctx = some c →
    performAtomic s e.op c = .error t → diverts t.cause = true →
    (e.faults < 4 → ∃ u, exec (.repairRetry die entry) s = .next u ∧ u.mem = s.mem ∧ u.records = s.records ++ [record s die entry e.op c t] ∧
      u.repair? die entry = some { e with cause := t.cause, info := t.info, syndrome := t.syndrome, faults := e.faults + 1 }) ∧
    (4 ≤ e.faults → ∃ u, exec (.repairRetry die entry) s = .next u ∧ u.mem = s.mem ∧ u.repair? die entry = none ∧ gone s u e)) ∧
  (∀ (s s1 : State) (die entry : Nat) (e : RepairEntry) (c : Ctx) (old : Nat), s.repair? die entry = some e → s.ctx? e.op.ctx = some c →
    performAtomic s e.op c = .ok (old, s1) →
    ∃ u, exec (.repairRetry die entry) s = .next u ∧ u.mem = s1.mem ∧ u.repair? die entry = none) ∧
  (∀ (s : State) (die entry : Nat) (e : RepairEntry), s.repair? die entry = some e →
    (∃ u, exec (.repairAbandon die entry) s = .next u ∧ u.mem = s.mem ∧ u.repair? die entry = none ∧ gone s u e) ∧
    (e.since + 1000000 ≤ s.ticks → ∃ u, exec (.repairTimeout die entry) s = .next u ∧ u.mem = s.mem ∧ u.repair? die entry = none ∧ gone s u e) ∧
    (s.ticks < e.since + 1000000 → exec (.repairTimeout die entry) s = .next s))

/-- BLEND_AT_BANK applies a fragment whose sequence tag has come and holds a later one while a slot is free; SEQRET_AT_BANK moves the tag of the buffer on,
and arms it with bit 16; the request is then no longer in flight (R250, R273, R274). -/
def Claims.blendingEvents : Prop :=
  ∀ (s : State) (id : Nat) (o : Op) (c : Ctx) (b : Buffer), Claims.due s id o c → bufferAt s o c = .ok b → hasRel o.ord = false →
    let d := (o.opA.extractLsb' 512 32).toNat
    let x := (o.opA.extractLsb' 0 512).toNat
    (o.kind = .blend → s.bufActive b = true → tagAfter (descSeq d) (s.curTag b) = false →
      ∃ t, exec (.blendAtBank id) s = .next t ∧ t.scratch = (s.applyFragment b d x).scratch ∧ t.op? id = none ∧ t.mem = s.mem) ∧
    (∀ s1, o.kind = .blend → s.bufActive b = true → tagAfter (descSeq d) (s.curTag b) = true → s.hold b d (some x) = some s1 →
      ∃ t, exec (.blendAtBank id) s = .next t ∧ t.scratch = s1.scratch ∧ t.op? id = none ∧ t.mem = s.mem) ∧
    (o.kind = .seqret → bits o.opA.toNat 16 16 = 1 → s.heldCount b = 0 →
      ∃ t, exec (.seqretAtBank id) s = .next t ∧ t.op? id = none ∧ t.mem = s.mem ∧ (Map.risesFrom 0 s.scratch = true → t.bufActive b = true) ∧
        t.scratch = ((s.setBuf b 0 2 (bits o.opA.toNat 15 0)).setBuf b 3 1 1).scratch) ∧
    (o.kind = .seqret → bits o.opA.toNat 16 16 = 0 → bits o.opA.toNat 17 17 = 0 → s.bufActive b = true → bits o.opA.toNat 15 0 = s.curTag b →
      ∃ t, exec (.seqretAtBank id) s = .next t ∧ t.op? id = none ∧ t.mem = s.mem ∧ t.scratch = (s.advanceTag b 16).scratch)

/-- The repair queue and the blending events. -/
def Obligations.BlendingAndRepair : Prop := Claims.repairQueue ∧ Claims.blendingEvents

/-- PAGE_WALK_COMPLETION caches a translation that a walk finds, for the tile that missed (log 18); TLBINV_COMPLETION takes the covered translations away, sends what every
tile has stored home (the model's choice, log entry 17), then adds 1 to the counter;
BINDING_TAKES_EFFECT makes the binding of a MODBIND the one of its slot with the next generation, and MODFREE_DRAIN_COMPLETE drops a binding without
references; both give the generation (R82, R93, R364, R365). -/
def Obligations.TranslationAndBindingEvents : Prop :=
  (∀ (s : State) (tlb va : Nat) (e : TlbEntry), let tile := tlb / 8192; let asid := tlb % 8192; (s.asid asid).live = true → va < 2 ^ 48 → s.tlbHit tile asid (s.asid asid).part va = none →
    walkBoth s asid (s.asid asid).part va .r = .ok e → exec (.pageWalkCompletion tlb va) s = .next { s with tlb := s.tlb ++ [{ e with tile := tile }] }) ∧
  (∀ (s s2 : State) (id : Nat) (o : Op) (c : Ctx), Claims.due s id o c → o.kind = .tlbinv → (s.ops.any fun p => s.usesOld o p) = false →
    agentAdd (State.writeBackAll { s with tlb := s.tlb.filter fun e => !covers o e }) o.ctx c o.addr 1 = .ok s2 →
    ∃ t, exec (.tlbinvCompletion id) s = .next t ∧ t.mem = s2.mem ∧ t.op? id = none ∧ ∀ e ∈ t.tlb, e ∈ s.tlb ∧ covers o e = false) ∧
  (∀ (s : State) (id asid slot tag : Nat) (o : Op) (c : Ctx), s.op? id = some o → s.ctx? o.ctx = some c → o.kind = .modbind asid slot tag →
    ∃ t c', exec (.bindingTakesEffect id) s = .next t ∧ t.op? id = none ∧ t.mem = s.mem ∧ t.ctx? o.ctx = some c' ∧
      c'.g = (c.deliver o.dstG o.dstV (wd ((Map.get 0 (s.asid asid).gens slot + 1) % 2 ^ 48)) []).g ∧ t.asids = (s.applyBind asid slot tag).2.asids) ∧
  (∀ (s : State) (id asid slot gen : Nat) (o : Op) (c : Ctx), s.op? id = some o → s.ctx? o.ctx = some c → o.kind = .modfree asid slot gen →
    s.referenced asid slot gen = false →
    ∃ t c', exec (.modfreeDrainComplete id) s = .next t ∧ t.op? id = none ∧ t.mem = s.mem ∧ t.ctx? o.ctx = some c' ∧
      c'.g = (c.deliver o.dstG o.dstV (wd gen) []).g ∧ ∀ b ∈ t.bindings, ¬ (b.asid = asid ∧ b.slot = slot ∧ b.gen = gen ∧ b.released = true))

/-- An instruction with an empty source marked trap-on-empty raises REGISTER_EMPTY before it has any effect, with the register of the highest such
field in %trapinfo; with an empty source that is not so marked, and no marked one, it waits at issue (R38). Said of the ten members of MAJ 0x10 with two sources. -/
def Claims.emptySources : Prop :=
  ∀ (s : State) (key : Nat) (c : Ctx) (f : Firing) (x : RForm), Issuing s key c f → c.guardOn x.kg → ∀ p ∈ Claims.intTwo x 0 0,
    let emptyA := c.emptyG x.a.toNat
    let emptyB := c.emptyG x.b.toNat
    let traps (n : Nat) : Prop := exec p.1 s = .next (s.trapped key f p.1 { cause := cRegisterEmpty, info := wd n })
    (emptyA = true → (rA .g x).trap = true → traps x.a.toNat) ∧
    (emptyB = true → (rB .g x).trap = true → ¬ (emptyA = true ∧ (rA .g x).trap = true) → traps x.b.toNat) ∧
    (emptyA = true → (rA .g x).trap = false → ¬ (emptyB = true ∧ (rB .g x).trap = true) →
      exec p.1 s = .next (s.setStall key (.operand false x.a.toNat false))) ∧
    (emptyB = true → (rB .g x).trap = false → emptyA = false → exec p.1 s = .next (s.setStall key (.operand false x.b.toNat false)))

/-- A firing that waits for an operand, for tokens or for space issues again once what it waits for has come about, and nothing else changes
(R38, R39, R149, R153, R157). -/
def Claims.waitsAtIssueEnd : Prop :=
  ∀ (s : State) (key : Nat) (c : Ctx) (f : Firing), s.ctx? key = some c → c.firing = some f → s.stallOver key c f.stall = true →
    let free : Result := .next (s.setCtx key { c with firing := some { f with stall := .none } })
    (∀ v n d, f.stall = .operand v n d → exec (.operandWaitRelease key) s = free) ∧
    (∀ q n, f.stall = .space q n → exec (.pushCreditWaitRelease key) s = free) ∧
    (∀ q n, f.stall = .tokens q n → exec (.popTokenWaitRelease key) s = free)

/-- Empty sources at issue, and the end of the waits at issue. -/
def Obligations.OperandWaits : Prop := Claims.emptySources ∧ Claims.waitsAtIssueEnd

/-! ## Queues -/

/-- The words that QPUSH takes from vB, and from vB + 1 for more than four, for a port of a format: 32 bytes each, of t6 with its pad bits as 0 (R142,
R156). -/
def Claims.pushWords (fmt : Nat) (c : Ctx) (x : SForm) : List LinkWord :=
  (List.range (hdrL (c.rg x.a.toNat))).map fun j =>
    let w : Payload := if j < 4 then (c.rv x.b.toNat).extractLsb' (256 * j) 256 else (c.rv (x.b.toNat + 1)).extractLsb' (256 * (j - 4)) 256
    { data := if fmt = 16 then w &&& BitVec.ofNat 256 (2 ^ 252 - 1) else w }

/-- The operands of a QPUSH: L at most 8, and vB + 1 full for more than four words (R156). -/
def Claims.pushReady (s : State) (key : Nat) (c : Ctx) (x : SForm) : Prop :=
  Operands s key c [sA x, sB .v x] [] ∧ hdrL (c.rg x.a.toNat) ≤ 8 ∧ (x.ord ≠ 0 → s.noAccess key) ∧
    (4 < hdrL (c.rg x.a.toNat) → x.b ≠ 63 ∧ c.emptyV (x.b.toNat + 1) = false ∧ c.vBad.getLsbD (x.b.toNat + 1) = false)

/-- QPUSH and QEOS to a port of the actor with enough reserved slots and credits: the token, with the port's format, is on its way to the consumer, the
reservation is used before credits, and QEOS gives the rest of the reservation back; no register changes (R145, R149, R156). That a push which a reservation
covers joins the ring while the ring is in use, and that QEOS with the order acq acts as rlx, are the model's reading (logs 130, 49). -/
def Claims.pushesComplete : Prop :=
  ∀ (s : State) (key : Nat) (c : Ctx) (f : Firing) (x : SForm) (p : OutPort) (o : Nat) (q : Queue), Issuing s key c f → c.guardOn x.kg →
    (c.rq x.p.toNat).isOut = true → s.outPort key c x.p.toNat = some p → p.proxy = false → p.consumer = some o → s.queue? p.graph p.edge o = some q →
    q.ring = [] →
    let r := c.reserved x.p.toNat
    (Claims.pushReady s key c x → x.cnd ≠ 1 → slotsOf (hdrL (c.rg x.a.toNat)) ≤ p.depth →
      let ws := Claims.pushWords p.fmt c x
      let k := deliveredSlots p.fmt p.inFmt { header := setFmt (setL (c.rg x.a.toNat) ws.length) p.fmt, words := ws }
      let tok : Token := { header := setFmt (setL (c.rg x.a.toNat) ws.length) p.fmt, words := ws, slots := k }
      k ≤ r + q.credits →
      ∃ t c', exec (.qpush x) s = .next t ∧ Claims.movedOn t key c f 8 c' ∧ c'.g = c.g ∧ c'.v = c.v ∧ c'.k = c.k ∧
        c'.resv = (c.setReserved x.p.toNat (r - k)).resv ∧
        t.queue? p.graph p.edge o = some { q with credits := q.credits - (k - r), transit := q.transit ++ [tok], producer := some key }) ∧
    (Operands s key c [sA x] [] → (hasRel x.ord.toNat = true → s.noAccess key) → Map.risesFrom 0 c.resv = true → slotsOf 0 ≤ p.depth →
      let h := setFmt (setL (setEos (setL (c.rg x.a.toNat) 0) true) 0) p.fmt
      let k := deliveredSlots p.fmt p.inFmt { header := h }
      k ≤ r + q.credits →
      ∃ t c', exec (.qeos x) s = .next t ∧ Claims.movedOn t key c f 8 c' ∧ c'.g = c.g ∧ c'.v = c.v ∧ c'.reserved x.p.toNat = 0 ∧
        t.queue? p.graph p.edge o =
          some { q with credits := q.credits - (k - r) + (r - k), transit := q.transit ++ [{ header := h, slots := k }], producer := some key })

/-- A push to a spilling queue that lacks credits, or whose ring is in use, goes to the ring and sets W_SPILL, and the reservation that covers it becomes
credits with which the ring drains; one to a proxy queue goes to the shadow in the producer's tile, owner-routed to the owner of its partition id; one to a
home queue writes its record at TAIL (R148, R150 to R152, R156). That a push to a home queue that is not resident sets PENDING, and that the credits a full
ring frees go to its draining, are the model's reading (logs 48, 130). -/
def Claims.otherPushesComplete : Prop :=
  ∀ (s : State) (key : Nat) (c : Ctx) (f : Firing) (x : SForm), Issuing s key c f → c.guardOn x.kg → Claims.pushReady s key c x →
    let r := c.reserved x.p.toNat
    (∀ p o q, (c.rq x.p.toNat).isOut = true → s.outPort key c x.p.toNat = some p → slotsOf (hdrL (c.rg x.a.toNat)) ≤ p.depth → p.proxy = false → x.cnd ≠ 1 →
      p.consumer = some o → s.queue? p.graph p.edge o = some q →
      let ws := Claims.pushWords p.fmt c x
      let h := setFmt (setL (c.rg x.a.toNat) ws.length) p.fmt
      let k := deliveredSlots p.fmt p.inFmt { header := h, words := ws }
      let tok : Token := { header := h, words := ws, slots := k }
      (((q.ring ≠ [] ∧ r < k) ∨ (q.ring = [] ∧ r + q.credits < k)) → k ≤ q.ringFree →
        ∃ t c', exec (.qpush x) s = .next t ∧ Claims.movedOn t key c f 8 c' ∧ c'.warn &&& wSpill = wSpill ∧ c'.resv = c.resv ∧
          t.queue? p.graph p.edge o = some { q with ring := q.ring ++ [tok], producer := some key }) ∧
      (q.ring ≠ [] → k ≤ r →
        ∃ t c', exec (.qpush x) s = .next t ∧ Claims.movedOn t key c f 8 c' ∧ c'.warn &&& wSpill = wSpill ∧
          c'.resv = (c.setReserved x.p.toNat (r - k)).resv ∧
          t.queue? p.graph p.edge o = some { q with ring := q.ring ++ [tok], credits := q.credits + k, producer := some key })) ∧
    (∀ p o sh h, (c.rq x.p.toNat).isOut = true → s.outPort key c x.p.toNat = some p → slotsOf (hdrL (c.rg x.a.toNat)) ≤ p.depth → p.proxy = true →
      ((x.cnd ≠ 1 ∧ p.consumer = some o ∧ h = c.rg x.a.toNat) ∨
        (x.cnd = 1 ∧ s.ownerOf p.graph p.actor (bits (c.rg x.a.toNat).toNat 19 0) = some o ∧ h = setTag (c.rg x.a.toNat) (slotOf o))) →
      s.shadow? p.graph p.edge key = some sh →
      let ws := Claims.pushWords p.fmt c x
      let k := slotsOf ws.length
      let e : ShadowEntry :=
        { consumer := o, owner := x.cnd == 1, token := { header := setFmt (setL h ws.length) p.fmt, words := ws, slots := k } }
      k ≤ r + sh.credits →
      ∃ t c', exec (.qpush x) s = .next t ∧ Claims.movedOn t key c f 8 c' ∧
        t.queues = (s.modQueue p.graph p.edge o fun q => { q with producer := some key }).queues ∧
        t.shadow? p.graph p.edge key = some { sh with credits := sh.credits - (k - r), entries := sh.entries ++ [e] }) ∧
    (∀ a tmpl q s1, c.rq x.p.toNat = .home a tmpl → x.cnd ≠ 1 → hdrL (c.rg x.a.toNat) = 4 → s.redundant key = false → s.subq? a = some q →
      q.queued < q.size →
      (State.noteSpawn (if x.ord = 0 then s else s.releaseWays key x.sc.toNat) key q).appendRecord q ((Claims.pushWords 7 c x).flatMap fun w => leBytes 32 w.data.toNat) = .ok s1 →
      ∃ t c', exec (.qpush x) s = .next t ∧ Claims.movedOn t key c f 8 c' ∧ t.mem = s1.mem ∧ t.subqs = s1.subqs)

/-- QPUSH and QEOS. -/
def Obligations.QueuePushes : Prop := Claims.pushesComplete ∧ Claims.otherPushesComplete

/-- QPOP of a port that holds a token completes: it takes the head token, whose slots go back as credits or are held, and goes in flight with its header and
link words; of an empty port it completes with the word of ones under CND 1, and waits otherwise. QPEEK completes with the token that it names, or with the
word of ones where there is none, and takes nothing. A link word that fails its check code makes a long-latency fault and nothing is taken (R146, R155, R157,
R405). That vB + 1 keeps its value where the token has at most four words, that a bad token stays at the head, and that IMM12 of QPEEK .held counts from 0 are
the model's choice (logs 45, 46, 132). -/
def Claims.popsComplete : Prop :=
  ∀ (s : State) (key : Nat) (c : Ctx) (f : Firing) (x : SForm), Issuing s key c f → c.guardOn x.kg → s.issueRoom key f →
    Operands s key c [] [gDst x.d.toNat, vDst x.b.toNat] → (c.rq x.p.toNat).isIn = true →
    let port := s.inQueue key c x.p.toNat
    let peeked := port.bind fun q => if x.cnd = 0 then q.queuedToken x.imm.toNat else q.held[x.imm.toNat]?
    let room (tok : Token) : Prop := 4 < tok.words.length → x.b ≠ 63 ∧ s.produced key (vDst (x.b.toNat + 1)) = false
    let sound (tok : Token) : Prop := (tok.words.any fun w => w.bad) = false
    let sent (t : State) (c' : Ctx) (dv : List Nat) (k : OpKind) : Prop := Claims.movedOn t key c f 8 c' ∧ c'.emptyG x.d.toNat = true ∧ t.mem = s.mem ∧
      ∃ op ∈ t.ops, op.ctx = key ∧ op.dstG = [x.d.toNat] ∧ op.dstV = dv ∧ op.kind = k
    let given (t : State) (c' : Ctx) (tok : Token) : Prop :=
      sent t c' (if 4 < tok.words.length then [x.b.toNat, x.b.toNat + 1] else [x.b.toNat])
        (.value tok.header (if 4 < tok.words.length then [wordsReg tok.words, wordsReg (tok.words.drop 4)] else [wordsReg tok.words]))
    (∀ q tok rest, port = some q → q.fifo = tok :: rest → room (q.headToken tok) →
      (sound (q.headToken tok) →
        ∃ t c', exec (.qpop x) s = .next t ∧ given t c' (q.headToken tok) ∧ t.queues = (s.popQueue q tok).queues) ∧
      (¬ sound (q.headToken tok) →
        ∃ t c' info, exec (.qpop x) s = .next t ∧ sent t c' [x.b.toNat] (.fault cMemUncorrectable info 0) ∧ t.queues = s.queues)) ∧
    ((∀ q, port = some q → q.fifo = []) →
      (x.cnd = 1 → ∃ t c', exec (.qpop x) s = .next t ∧ sent t c' [] (.value (BitVec.allOnes 64) []) ∧ t.queues = s.queues) ∧
      (x.cnd ≠ 1 → exec (.qpop x) s = .next (s.setStall key (.tokens x.p.toNat (s.tokensSeen key c x.p.toNat))))) ∧
    (∀ tok, peeked = some tok → room tok → sound tok → ∃ t c', exec (.qpeek x) s = .next t ∧ given t c' tok ∧ t.queues = s.queues) ∧
    (peeked = none → ∃ t c', exec (.qpeek x) s = .next t ∧ sent t c' [] (.value (BitVec.allOnes 64) []) ∧ t.queues = s.queues)

/-- QRES of free credits completes with them as its reservation, and with CND 1 gives how many, or 0; without enough it waits, and above the depth it raises
QUEUE_STATE WHY 8. QREL of reserved slots completes and gives them back, and above what is reserved raises WHY 8. QCRED completes with the credits of the
oldest held tokens on their way back; of an automatic queue it raises WHY 5, and above what is held WHY 4 (R146, R149, R154, R158). The order of the refusals,
and that QRES on a home queue sees no credits, are the model's reading (logs 114, 46). -/
def Claims.creditInstructions : Prop :=
  ∀ (s : State) (key : Nat) (c : Ctx) (f : Firing) (x : SForm), Issuing s key c f → c.guardOn x.kg →
    let n := x.p.toNat
    let k := x.imm.toNat
    let r := c.reserved n
    let traps (i : Instr) (why : Nat) : Prop := exec i s = .next (s.trapped key f i (queueTrap n why))
    let moved (t : State) (p : OutPort) (d : Int) : Prop := t.queues = (s.addCredits key p d).queues ∧ t.shadows = (s.addCredits key p d).shadows
    ((c.rq n).isOut = true →
      (∀ p, s.outPort key c n = some p →
        (k ≤ p.depth → k ≤ s.freeCredits key p → x.cnd ≠ 1 →
          ∃ t c', exec (.qres x) s = .next t ∧ Claims.movedOn t key c f 8 c' ∧ c'.resv = (c.setReserved n (r + k)).resv ∧ c'.g = c.g ∧
            moved t p (-(k : Int))) ∧
        (k ≤ p.depth → x.cnd = 1 → Operands s key c [] [gDst x.d.toNat] → s.issueRoom key f →
          ∃ t c', exec (.qres x) s = .next t ∧ Claims.movedOn t key c f 8 c' ∧ c'.emptyG x.d.toNat = true ∧
            (∃ op ∈ t.ops, op.ctx = key ∧ op.dstG = [x.d.toNat] ∧ op.kind = .value (wd (if k ≤ s.freeCredits key p then k else 0)) []) ∧
            c'.resv = if k ≤ s.freeCredits key p then (c.setReserved n (r + k)).resv else c.resv) ∧
        (k ≤ p.depth → s.freeCredits key p < k → x.cnd ≠ 1 → exec (.qres x) s = .next (s.setStall key (.space n (s.spaceSeen key c n)))) ∧
        (p.depth < k → x.cnd ≠ 1 → traps (.qres x) 8) ∧
        (k ≤ r →
          ∃ t c', exec (.qrel x) s = .next t ∧ Claims.movedOn t key c f 8 c' ∧ c'.g = c.g ∧
            c'.resv = (c.setReserved n (r - if k = 0 then r else k)).resv ∧ moved t p ((if k = 0 then r else k : Nat) : Int))) ∧
      (s.outPort key c n = none → k ≤ r →
        ∃ t c', exec (.qrel x) s = .next t ∧ Claims.movedOn t key c f 8 c' ∧ c'.g = c.g ∧ c'.resv = (c.setReserved n (r - if k = 0 then r else k)).resv ∧
          t.queues = s.queues) ∧
      (r < k → traps (.qrel x) 8)) ∧
    (∀ q, (c.rq n).isIn = true → s.inQueue key c n = some q →
      (q.manual = true → k ≤ q.held.length →
        ∃ t c', exec (.qcred x) s = .next t ∧ Claims.movedOn t key c f 8 c' ∧ c'.g = c.g ∧
          t.queues = (s.modQueue q.graph q.edge q.consumer fun y =>
            { y with held := y.held.drop k, returning := y.returning + slotsSum (y.held.take k) }).queues) ∧
      (q.manual = false → traps (.qcred x) 5) ∧
      (q.manual = true → q.held.length < k → traps (.qcred x) 4))

/-- QBIND of a declared port, of a device-fed submission queue or of a header template, and QUNBIND complete: they change the binding of one stream register
and give its reservation back; a port that is not declared or that another register has raises QUEUE_STATE WHY 9, and a template for no output WHY 1. QSTAT
gives the state of its port (R154, R159, R160). The order of the refusals, the empty template that QBIND .home gives, and TOKENS and FREE modulo 2^14 are the
model's choice (logs 114, 46, 132). -/
def Claims.bindingInstructions : Prop :=
  ∀ (s : State) (key : Nat) (c : Ctx) (f : Firing) (x : SForm), Issuing s key c f → c.guardOn x.kg →
    let n := x.p.toNat
    let port := (c.rg x.a.toNat).toNat
    let tmpl := templateBits (c.rg x.b.toNat)
    let taken : Prop := ∃ m < 16, m ≠ n ∧ (c.rq m).isPort port = true
    let traps (i : Instr) (why : Nat) : Prop := exec i s = .next (s.trapped key f i (queueTrap n why))
    let binds (i : Instr) (b : PortBind) : Prop := ∃ t c', exec i s = .next t ∧ Claims.movedOn t key c f 8 c' ∧ c'.g = c.g ∧ c'.q = (c.wq n b).q ∧
      c'.resv = (c.setReserved n 0).resv ∧ t.queues = (s.unreserve key n (c.reserved n)).queues ∧ t.mem = s.mem
    (Operands s key c [sA x, sB .g x] [] →
      (∀ ty out, s.portDesc c port = some (ty, out, true) → ¬ taken → binds (.qbindPort x) (if out then .output port tmpl else .input port)) ∧
      ((∀ ty out, s.portDesc c port ≠ some (ty, out, true)) ∨ taken → traps (.qbindPort x) 9)) ∧
    (Operands s key c [sA x] [] → c.priv ≠ .u → ∀ pa q, port % 128 = 0 → translateFor s key c port .r = .ok pa →
      s.subq? pa = some q → q.asid = c.asid → q.deviceFed = true → binds (.qbindHome x) (.home q.addr 0)) ∧
    (Operands s key c [sB .g x] [] →
      (∀ m tm, c.rq n = .output m tm → exec (.qbindTmpl x) s = .next (s.completed key ((c.wq n (.output m tmpl)).advance 8))) ∧
      (∀ a tm, c.rq n = .home a tm → exec (.qbindTmpl x) s = .next (s.completed key ((c.wq n (.home a tmpl)).advance 8))) ∧
      ((c.rq n).isOut = false → traps (.qbindTmpl x) 1)) ∧
    binds (.qunbind x) .unbound ∧
    (Operands s key c [] [gDst x.d.toNat] → exec (.qstat x) s = .next (s.completed key ((c.wg x.d.toNat (s.queueStatus key c n)).advance 8)))

/-- Credits and bindings of stream registers. -/
def Obligations.QueuePorts : Prop := Claims.creditInstructions ∧ Claims.bindingInstructions

/-- QFWD completes: it moves the head token of an input, as stream reads have left it, to an output with the same format and enough credits, with the tag of
the output's template; with no token it waits, and of another format it raises QUEUE_STATE WHY 11 (R154, R161). That a token taken in part keeps its header is
the model's reading (log 47). -/
def Claims.forwardCompletes : Prop :=
  ∀ (s : State) (key : Nat) (c : Ctx) (f : Firing) (x : SForm) (p : OutPort) (port : Nat) (tmpl : Word),
    Issuing s key c f → c.guardOn x.kg → x.cnd ≠ 1 → (c.rq x.p.toNat).isIn = true →
    let out := x.imm.toNat % 16
    c.rq out = .output port tmpl → s.outPort key c out = some p →
    (∀ (q qo : Queue) (tok : Token) (rest : List Token) (o : Nat), s.inQueue key c x.p.toNat = some q → q.fifo = tok :: rest → p.proxy = false →
      p.consumer = some o → s.queue? p.graph p.edge o = some qo → (qo.graph, qo.edge, qo.consumer) ≠ (q.graph, q.edge, q.consumer) → qo.ring = [] →
      let ws := (q.headToken tok).words
      hdrFmt tok.header = p.fmt → slotsOf ws.length ≤ p.depth →
      let h := setFmt (setL (setTag tok.header (hdrTag tmpl)) ws.length) p.fmt
      let k := deliveredSlots p.fmt p.inFmt { header := h, words := ws }
      let sent : Token := { header := h, words := ws, slots := k }
      k ≤ c.reserved out + qo.credits →
      ∃ t c', exec (.qfwd x) s = .next t ∧ Claims.movedOn t key c f 8 c' ∧ c'.g = c.g ∧ c'.v = c.v ∧
        t.queue? q.graph q.edge q.consumer = (s.popQueue q tok).queue? q.graph q.edge q.consumer ∧
        t.queue? p.graph p.edge o =
          some { qo with credits := qo.credits - (k - c.reserved out), transit := qo.transit ++ [sent], producer := some key }) ∧
    ((∀ q, s.inQueue key c x.p.toNat = some q → q.fifo = []) →
      exec (.qfwd x) s = .next (s.setStall key (.tokens x.p.toNat (s.tokensSeen key c x.p.toNat)))) ∧
    (∀ q tok rest, s.inQueue key c x.p.toNat = some q → q.fifo = tok :: rest → hdrFmt tok.header ≠ p.fmt →
      exec (.qfwd x) s = .next (s.trapped key f (.qfwd x) (queueTrap x.p.toNat 11)))

/-- QPOP and QFWD. -/
def Obligations.QueuePops : Prop := Claims.popsComplete ∧ Claims.forwardCompletes

/-- TOKEN_ARRIVAL, CREDIT_RETURN, SPILL_RING_DRAIN and the proxy batches: the oldest token on its way enters the FIFO repacked for the consumer, freed credits
reach the producer, the oldest token of the ring moves once its credits are free and none is on its way, and the entries of a shadow move in order
(R143, R145 to R150). -/
def Claims.queueEvents : Prop :=
  (∀ (s : State) (n : Nat) (q : Queue), s.queues[n]? = some q →
    (∀ t rest, q.transit = t :: rest → q.consumer % 2048 + 2048 * hdrTag t.header + q.consumer / 16384 * 16384 = q.consumer →
      ∃ u, exec (.tokenArrival n) s = .next u ∧ u.mem = s.mem ∧ u.ctxs = s.ctxs ∧
        u.queues = s.queues.map fun x => if x.graph = q.graph ∧ x.edge = q.edge ∧ x.consumer = q.consumer
          then { x with transit := rest, fifo := x.fifo ++ adaptToken q.outFmt q.inFmt t } else x) ∧
    (q.returning ≠ 0 → ∃ u, exec (.creditReturn n) s = .next u ∧ u.mem = s.mem ∧ u.ctxs = s.ctxs ∧
      u.queues = s.queues.map fun x => if x.graph = q.graph ∧ x.edge = q.edge ∧ x.consumer = q.consumer
        then { x with credits := x.credits + x.returning, returning := 0 } else x) ∧
    (∀ t rest, q.ring = t :: rest → q.transit = [] → t.slots ≤ q.credits →
      q.consumer % 2048 + 2048 * hdrTag t.header + q.consumer / 16384 * 16384 = q.consumer →
      ∃ u, exec (.spillRingDrain n) s = .next u ∧ u.mem = s.mem ∧ u.ctxs = s.ctxs ∧
        u.queues = s.queues.map fun x => if x.graph = q.graph ∧ x.edge = q.edge ∧ x.consumer = q.consumer
          then { x with ring := rest, credits := x.credits - t.slots, fifo := x.fifo ++ adaptToken q.outFmt q.inFmt t } else x)) ∧
  (∀ (s : State) (n : Nat) (sh : Shadow) (e : ShadowEntry) (rest : List ShadowEntry) (o : Nat) (tok : Token) (q : Queue),
    s.shadows[n]? = some sh → sh.entries = e :: rest → batchOf 64 sh.entries = [e] → s.routeEntry sh.graph sh.edge e = some (o, tok) →
    s.queue? sh.graph sh.edge o = some q → deliveredSlots q.outFmt q.inFmt tok ≤ q.credits →
    ∀ i ∈ [Instr.proxyForwardBatch n, .proxyBatchTimeout n], ∃ u, exec i s = .next u ∧ u.mem = s.mem ∧ u.ctxs = s.ctxs ∧
      u.queue? sh.graph sh.edge o = some { q with credits := q.credits - deliveredSlots q.outFmt q.inFmt tok, transit := q.transit ++ [tok], producer := some sh.producer } ∧
      u.shadows = s.shadows.map fun y => if y.graph = sh.graph ∧ y.edge = sh.edge ∧ y.producer = sh.producer
        then { y with entries := y.entries.tail, credits := y.credits + e.token.slots } else y)

/-- DEADLOCK_DETECTION of a graph whose timer has passed its threshold with a blocked queue marks the detector as fired and raises DEADLOCK in the
partition's supervisor; it does nothing while the threshold is 0, the timer has not passed it, or no queue is blocked (R169, R170). -/
def Claims.deadlockDetector : Prop :=
  ∀ (s : State) (h : Nat) (g : Graph), s.graph? h = some g →
    (g.thresh ≠ 0 → g.fired = false → g.thresh < g.timer → s.blockedQueues g ≠ [] → g.report = 0 →
      ∀ c, s.ctx? (supervisorOf g.part) = some c → c.pending.length < 4 →
      ∃ t c', exec (.deadlockDetection h) s = .next t ∧ t.mem = s.mem ∧ t.graph? h = some { g with fired := true } ∧
        t.ctx? (supervisorOf g.part) = some c' ∧ ∃ p, c'.pending = c.pending ++ [p] ∧ p.cause = cDeadlock) ∧
    ((g.thresh = 0 ∨ g.fired = true ∨ g.timer ≤ g.thresh ∨ s.blockedQueues g = []) → exec (.deadlockDetection h) s = .next s)

/-- The events of queues and the deadlock detector. -/
def Obligations.QueueEvents : Prop := Claims.queueEvents ∧ Claims.deadlockDetector

/-! ## Vectors -/

/-- The elements of a register, of the B operand, and of a list of codes. -/
def Claims.elem (ty : Nat) (v : VWord) (i : Nat) : Nat := (vCodes ty v).getD i 0
def Claims.elemB (c : Ctx) (x : RForm) (i : Nat) : Nat :=
  if fBg x then (c.rg x.b.toNat).toNat % 2 ^ codeBits x.ty.toNat else Claims.elem x.ty.toNat (c.rv x.b.toNat) i

/-- The warning of satfinite on an integer type (R80). -/
def Claims.combo (x : RForm) : Word := if x.sm = 2 then wModcombo else 0

/-- Members with one source, by the element that they make of element i, and the warning of their fields (R316, R320 to R324). -/
def Claims.vecOne (x : RForm) (a : Nat → Nat) : List (Instr × (Nat → Enc) × Word) :=
  let ty := x.ty.toNat
  let v (i : Nat) : Val := fetchVal ty (a i) (fFtz x)
  [ (.vabs x, fun i => intElem ty x.sm.toNat ((elemInt ty (a i)).natAbs : Int), Claims.combo x),
    (.vpopc x, fun i => { code := popCount (a i) (tyWidth ty) }, 0),
    (.fclass x, fun i => { code := 2 ^ classOf ty (v i) }, 0),
    (.frcps x, fun i => rcpSeed ty x.sm.toNat (fFtz x) (v i), 0), (.frsqs x, fun i => rsqSeed ty x.sm.toNat (fFtz x) (v i), 0),
    (.fexp2 x, fun i => exp2Fn ty x.sm.toNat (fFtz x) (v i), 0), (.flog2 x, fun i => log2Fn ty x.sm.toNat (fFtz x) (v i), 0),
    (.fsinp x, fun i => sinPiFn ty x.sm.toNat (fFtz x) (v i), 0), (.fcosp x, fun i => cosPiFn ty x.sm.toNat (fFtz x) (v i), 0),
    (.frnd x, fun i => roundElem ty x.rm.toNat x.sm.toNat (v i), 0) ]

/-- Members with two sources (R316, R317, R319, R320). A comparison gives all ones or zeros. -/
def Claims.vecTwo (x : RForm) (a b : Nat → Nat) : List (Instr × (Nat → Enc) × Word) :=
  let ty := x.ty.toNat
  let p (i : Nat) : Int := elemInt ty (a i)
  let q (i : Nat) : Int := elemInt ty (b i)
  let v (i : Nat) : Val := fetchVal ty (a i) (fFtz x)
  let w (i : Nat) : Val := fetchVal ty (b i) (fFtz x)
  let int (n : Int) : Enc := intElem ty x.sm.toNat n
  let ones (r : Bool) : Nat := if r then 2 ^ tyBits ty - 1 else 0
  [ (.vadd x, fun i => int (p i + q i), Claims.combo x), (.vsub x, fun i => int (p i - q i), Claims.combo x),
    (.vmul x, fun i => int (p i * q i), Claims.combo x), (.vmulh x, fun i => intElem ty 0 (p i * q i / 2 ^ tyWidth ty), 0),
    (.vand x, fun i => { code := (a i &&& b i) % 2 ^ tyWidth ty }, 0), (.vor x, fun i => { code := (a i ||| b i) % 2 ^ tyWidth ty }, 0),
    (.vxor x, fun i => { code := (a i ^^^ b i) % 2 ^ tyWidth ty }, 0), (.vshl x, fun i => int (shlExact (p i) (b i)), Claims.combo x),
    (.vshr x, fun i => intElem ty 0 (shrExact ty (wd (a i)) (b i)), 0), (.vsra x, fun i => intElem ty 0 (sraExact ty (wd (a i)) (b i)), 0),
    (.vmin x, fun i => intElem ty 0 (min (p i) (q i)), 0), (.vmax x, fun i => intElem ty 0 (max (p i) (q i)), 0),
    (.fadd x, fun i => fEnc x (addVal x.rm.toNat (v i) (w i)), 0), (.fsub x, fun i => fEnc x (addVal x.rm.toNat (v i) (w i).neg), 0),
    (.fmul x, fun i => fEnc x (mulVal (v i) (w i)), 0), (.fmin x, fun i => pickEnc ty minVal (v i) (w i), 0),
    (.fmax x, fun i => pickEnc ty maxVal (v i) (w i), 0), (.fsgn x, fun i => signOp x (a i) (b i), 0) ] ++
  (if fK x then [] else
    [ (.vcmp x, fun i => { code := ones (compareInt (fCond x) (p i) (q i)) }, 0),
      (.fcmp x, fun i => { code := ones (compareVal (fCond x) (v i) (w i)).1, fp := (compareVal (fCond x) (v i) (w i)).2 }, 0) ])

/-- Members with three sources (R316, R319). -/
def Claims.vecThree (x : RForm) (a b d : Nat → Nat) : List (Instr × (Nat → Enc) × Word) :=
  let ty := x.ty.toNat
  [ (.vmad x, fun i => intElem ty x.sm.toNat (elemInt ty (a i) * elemInt ty (b i) + elemInt ty (d i)), Claims.combo x),
    (.vsel x, fun i => { code := if d i ≠ 0 then a i else b i }, 0),
    (.ffma x, fun i => fEnc x (fmaVal x.rm.toNat (fetchVal ty (a i) (fFtz x)) (fetchVal ty (b i) (fFtz x)) (fetchVal ty (d i) (fFtz x))), 0) ]

/-- The elements of a result under the guard mask: an element that takes no part is none (R35, R311). -/
def Claims.lanes (ty : Nat) (mask : Mask) (e : Nat → Enc) : List (Option Enc) :=
  (List.range (1024 / tyBits ty)).map fun i => if mask.getLsbD (tyBits ty * i / 32) then some (e i) else none

/-- The context with a result in register d: the elements that take part are replaced, the others keep their bits, and what the elements raise and the
fields warn of is set (R310, R314). -/
def Claims.vecWritten (c : Ctx) (d ty : Nat) (rs : List (Option Enc)) (w : Word) : Ctx :=
  ((c.wv d (mergeCodes ty (c.rv d) (rs.map fun r => r.map (·.code)))).flagsFp (orFp rs)).warns (orWarn rs ||| w)

/-- Every lane-wise member of MAJ 0x80 and 0x81 whose operands are registers completes: each element that takes part gets the value that the member makes of
the elements at its place, its flags and warnings are set, and nothing else changes (R311 to R324). -/
def Claims.vectorResults : Prop :=
  ∀ (s : State) (key : Nat) (c : Ctx) (f : Firing) (x : RForm), Issuing s key c f → fQa x = false → fQd x = false →
    let a := Claims.elem x.ty.toNat (c.rv x.a.toNat)
    let b := Claims.elemB c x
    let d := Claims.elem x.ty.toNat (c.rv x.c.toNat)
    let bSrc : Src := if fBg x then rB .g x else rB .v x
    let done (p : Instr × (Nat → Enc) × Word) : Prop :=
      exec p.1 s = .next (s.completed key
        ((Claims.vecWritten c x.d.toNat x.ty.toNat (Claims.lanes x.ty.toNat (c.rk x.kg.toNat) p.2.1) p.2.2).advance 8))
    (Operands s key c [rA .v x] [vDst x.d.toNat] → ∀ p ∈ Claims.vecOne x a, done p) ∧
    (Operands s key c [rA .v x, bSrc] [vDst x.d.toNat] → ∀ p ∈ Claims.vecTwo x a b, done p) ∧
    (Operands s key c [rA .v x, bSrc, rC .v x] [vDst x.d.toNat] → ∀ p ∈ Claims.vecThree x a b d, done p) ∧
    (Operands s key c [if fBg x then rB .g x else rA .v x] [vDst x.d.toNat] →
      done (.vmov x, fun i => { code := if fBg x then b i else a i }, 0))

/-- A comparison into a mask register gives lane j the outcome of the element that holds the lane, and 0 where that element takes no part (R317, R320). -/
def Claims.vectorCompareMasks : Prop :=
  ∀ (s : State) (key : Nat) (c : Ctx) (f : Firing) (x : RForm), Issuing s key c f → fQa x = false → fK x = true →
    Operands s key c [rA .v x, if fBg x then rB .g x else rB .v x] [] →
    let ty := x.ty.toNat
    let a := Claims.elem ty (c.rv x.a.toNat)
    let b := Claims.elemB c x
    let outcome (i : Nat) : Bool × Word := compareVal (fCond x) (fetchVal ty (a i) (fFtz x)) (fetchVal ty (b i) (fFtz x))
    (∃ m : Mask, exec (.vcmp x) s = .next (s.completed key ((c.wk x.d.toNat m).advance 8)) ∧
      ∀ j < 32, m.getLsbD j = ((c.rk x.kg.toNat).getLsbD (tyBits ty * (32 * j / tyBits ty) / 32) &&
        compareInt (fCond x) (elemInt ty (a (32 * j / tyBits ty))) (elemInt ty (b (32 * j / tyBits ty))))) ∧
    (∃ m : Mask, exec (.fcmp x) s = .next (s.completed key (((c.wk x.d.toNat m).flagsFp
        (orFp (Claims.lanes ty (c.rk x.kg.toNat) fun i => { code := 0, fp := (outcome i).2 }))).advance 8)) ∧
      ∀ j < 32, m.getLsbD j = ((c.rk x.kg.toNat).getLsbD (tyBits ty * (32 * j / tyBits ty) / 32) && (outcome (32 * j / tyBits ty)).1))

/-- The vector members that work lane by lane. -/
def Obligations.VectorResults : Prop := Claims.vectorResults ∧ Claims.vectorCompareMasks

/-- A source stream gives the elements of the tokens at the head of its port, which are taken, and a destination stream gets a token of the result, with 0
for the elements that take no part; registers take no part in either (R153, R314). Said of every lane-wise member of MAJ 0x80 and 0x81 that
writes elements. -/
def Obligations.VectorStreams : Prop :=
  ∀ (s : State) (key : Nat) (c : Ctx) (f : Firing) (x : RForm), Issuing s key c f →
    let ty := x.ty.toNat
    let mask := c.rk x.kg.toNat
    let bSrc : Src := if fBg x then rB .g x else rB .v x
    let b := Claims.elemB c x
    let d := Claims.elem ty (c.rv x.c.toNat)
    (∀ q codes rest taken popped adj, fQa x = true → fQd x = false → (c.rq (x.a.toNat % 16)).isIn = true → s.inQueue key c (x.a.toNat % 16) = some q →
      streamAccepts q.inFmt ty = true → takeStream q.inFmt (1024 / tyBits ty) q.taken q.fifo = .ok codes rest taken popped adj →
      let a (i : Nat) : Nat := (codes.map (streamElem q.inFmt ty)).getD i 0
      let took (p : Instr × (Nat → Enc) × Word) : Prop :=
        ∃ t c', exec p.1 s = .next t ∧ Claims.movedOn t key c f 8 c' ∧ t.mem = s.mem ∧ c'.g = c.g ∧
          c'.v = (Claims.vecWritten c x.d.toNat ty (Claims.lanes ty mask p.2.1) 0).v ∧
          t.queues = (s.modQueue q.graph q.edge q.consumer fun y => { y with fifo := rest, taken := taken, held := if y.manual then y.held ++ popped else y.held, returning := if y.manual then y.returning else y.returning + slotsSum popped }).queues
      (Operands s key c [] [vDst x.d.toNat] → (∀ p ∈ Claims.vecOne x a, took p) ∧ (fBg x = false → took (.vmov x, fun i => { code := a i }, 0))) ∧
      (Operands s key c [bSrc] [vDst x.d.toNat] → ∀ p ∈ Claims.vecTwo x a b, took p) ∧
      (Operands s key c [bSrc, rC .v x] [vDst x.d.toNat] → ∀ p ∈ Claims.vecThree x a b d, took p)) ∧
    (∀ port tmpl p o q, fQa x = false → fQd x = true → c.rq (x.d.toNat % 16) = .output port tmpl → s.outPort key c (x.d.toNat % 16) = some p → p.fmt = ty →
      p.proxy = false → p.consumer = some o → s.queue? p.graph p.edge o = some q → q.ring = [] →
      let a := Claims.elem ty (c.rv x.a.toNat)
      let gave (m : Instr × (Nat → Enc) × Word) : Prop :=
        let codes := (Claims.lanes ty mask m.2.1).map fun r => match r with | some e => e.code | none => 0
        let ws := linkWords ty codes
        let h := setFmt (setL (setEos (templateBits tmpl) false) ws.length) p.fmt
        let k := deliveredSlots p.fmt p.inFmt { header := h, words := ws }
        slotsOf ws.length ≤ p.depth → k ≤ c.reserved (x.d.toNat % 16) + q.credits →
        ∃ t c', exec m.1 s = .next t ∧ Claims.movedOn t key c f 8 c' ∧ t.mem = s.mem ∧ c'.g = c.g ∧ c'.v = c.v ∧
          t.queue? p.graph p.edge o = some { q with credits := q.credits - (k - c.reserved (x.d.toNat % 16)), transit := q.transit ++ [{ header := h, words := ws, slots := k }], producer := some key }
      (Operands s key c [rA .v x] [] → ∀ m ∈ Claims.vecOne x a, gave m) ∧
      (Operands s key c [if fBg x then rB .g x else rA .v x] [] → gave (.vmov x, fun i => { code := if fBg x then b i else a i }, 0)) ∧
      (Operands s key c [rA .v x, bSrc] [] → ∀ m ∈ Claims.vecTwo x a b, gave m) ∧
      (Operands s key c [rA .v x, bSrc, rC .v x] [] → ∀ m ∈ Claims.vecThree x a b d, gave m))

/-- VBCAST, VPERM and VROT choose elements, VRED gives the value of the fixed pairwise tree to every element, VSCAN the running values with every NaN as the
canonical one, with the identity of the operation in place of an element that takes no part; VEXTL and VINSL are scalar instructions that read or write one element (R295, R325 to R327). -/
def Claims.acrossLanes : Prop :=
  ∀ (s : State) (key : Nat) (c : Ctx) (f : Firing) (x : RForm), Issuing s key c f → fQa x = false → fQd x = false →
    let ty := x.ty.toNat
    let n := 1024 / tyBits ty
    let mask := c.rk x.kg.toNat
    let a := Claims.elem ty (c.rv x.a.toNat)
    let done (i : Instr) (e : Nat → Enc) (fp w : Word) : Prop :=
      exec i s = .next (s.completed key (((Claims.vecWritten c x.d.toNat ty (Claims.lanes ty mask e) w).flagsFp fp).advance 8))
    (Operands s key c [rA .v x, rB .g x] [vDst x.d.toNat] →
      done (.vbcast x) (fun _ => { code := a ((c.rg x.b.toNat).toNat % n) }) 0 0 ∧
      done (.vrot x) (fun i => { code := a ((i + (c.rg x.b.toNat).toNat) % n) }) 0 0) ∧
    (Operands s key c [rA .v x, rB .v x] [vDst x.d.toNat] →
      done (.vperm x) (fun i => { code := a (Claims.elem ty (c.rv x.b.toNat) i % n) }) 0 0) ∧
    (Operands s key c [rA .v x] [vDst x.d.toNat] →
      let leaves := (List.range n).map fun i => if mask.getLsbD (tyBits ty * i / 32) then a i else identityOf (fOp x) ty
      let node := nodeOf (fOp x) ty x.rm.toNat x.sm.toNat
      let tree := reduceTree node 8 { codes := leaves }
      let scan := scanFrom node 8 1 { codes := leaves }
      let w := if isIntTy ty then Claims.combo x else 0
      done (.vred x) (fun _ => { code := tree.codes.headD 0 }) tree.fp (tree.warn ||| w) ∧
      done (.vscan x) (fun i => { code := canonNan ty (if fExcl x then (identityOf (fOp x) ty :: scan.codes).getD i 0 else scan.codes.getD i 0) }) scan.fp
        (scan.warn ||| w)) ∧
    (c.guardOn x.kg → Operands s key c [rA .v x, rB .g x] [gDst x.d.toNat] →
      let e := a ((c.rg x.b.toNat).toNat % n)
      exec (.vextl x) s = Claims.putG s key c (.vextl x) x.d (if isIntTy ty then wrInt ty (elemInt ty e) else wd e) 0) ∧
    (c.guardOn x.kg → Operands s key c [rA .g x, rB .g x, rOld .v x] [vDst x.d.toNat] →
      exec (.vinsl x) s = .next (s.completed key ((c.wv x.d.toNat (mergeCodes ty (c.rv x.d.toNat)
        ((List.range n).map fun i => if i = (c.rg x.b.toNat).toNat % n then some ((c.rg x.a.toNat).toNat % 2 ^ codeBits ty) else none))).advance 8)))

/-- The tree of VRED over powers of two of elements, and each place of the scan of VSCAN, are the sums of R326 and R327 when no node rounds or saturates: for
the addition of an integer type without saturation they are the sums modulo 2^w. -/
def Claims.reductionSums : Prop :=
  ∀ (ty : Nat) (leaves : List Nat) (k : Nat), ty < 8 → leaves.length = 2 ^ k → k ≤ 8 → (∀ e ∈ leaves, e < 2 ^ tyWidth ty) →
    (reduceTree (nodeOf 0 ty 0 0) 8 { codes := leaves }).codes = [leaves.sum % 2 ^ tyWidth ty] ∧
    ∀ i < leaves.length, (scanFrom (nodeOf 0 ty 0 0) 8 1 { codes := leaves }).codes[i]? = some ((leaves.take (i + 1)).sum % 2 ^ tyWidth ty)

/-- The vector members that work across lanes. -/
def Obligations.AcrossLanes : Prop := Claims.acrossLanes ∧ Claims.reductionSums

/-- CVT, CVTQ, CVTD and SCALE convert one part of a register, PACK two registers into one, UNPACK one into two; AMAX gives the largest magnitude of the elements
that take part, or its scale (R328 to R332). -/
def Obligations.Conversions : Prop :=
  ∀ (s : State) (key : Nat) (c : Ctx) (f : Firing) (x : RForm), Issuing s key c f → fQa x = false → fQd x = false →
    let sty := fSty x
    let ty := x.ty.toNat
    let mask := c.rk x.kg.toNat
    let a := Claims.elem sty (c.rv x.a.toNat)
    let l := layoutOf sty ty x.c.toNat
    let combo (nosat : Bool) : Word :=
      (if (nosat || x.sm != 0) && smCombo ty x.sm.toNat then wModcombo else 0) |||
        (if fFtz x && (!hasSubnormals sty || !hasSubnormals ty) then wModcombo else 0)
    let part (i : Instr) (g : Nat → Enc) : Prop :=
      exec i s = .next (s.completed key ((Claims.vecWritten c x.d.toNat ty ((List.range (1024 / tyBits ty)).map fun j =>
        if l.dst ≤ j ∧ j < l.dst + l.n ∧ mask.getLsbD (tyBits ty * j / 32) = true then some (g (a (l.src + (j - l.dst)))) else none) (combo true)).advance 8))
    let b8 := (c.rg x.b.toNat).toNat % 256
    let conv := convertElem sty ty x.rm.toNat x.sm.toNat (fFtz x)
    let old := if l.narrowing then [rOld .v x] else []
    (Operands s key c (rA .v x :: old) [vDst x.d.toNat] → (Instr.cvt x).wellFormed = true → part (.cvt x) conv) ∧
    (Operands s key c (rA .v x :: rB .g x :: old) [vDst x.d.toNat] →
      ((Instr.cvtq x).wellFormed = true → part (.cvtq x) fun e => if b8 = 255 then nanScaled x else scaledElem x (127 - (b8 : Int)) e) ∧
      ((Instr.cvtd x).wellFormed = true → part (.cvtd x) fun e => if b8 = 255 then nanScaled x else scaledElem x ((b8 : Int) - 127) e) ∧
      ((Instr.scale x).wellFormed = true → part (.scale x) (scaledElem x (c.rg x.b.toNat).toInt))) ∧
    (Operands s key c [rA .v x, rB .v x] [vDst x.d.toNat] → (Instr.pack x).wellFormed = true →
      let n := 1024 / tyBits sty
      exec (.pack x) s = .next (s.completed key ((Claims.vecWritten c x.d.toNat ty (Claims.lanes ty mask fun j =>
        conv (if j < n then a j else Claims.elem sty (c.rv x.b.toNat) (j - n))) (combo true)).advance 8))) ∧
    (Operands s key c [rA .v x] [vDst x.d.toNat, vDst (x.d.toNat + 1)] → (Instr.unpack x).wellFormed = true →
      let n := 1024 / tyBits ty
      ∃ t c', exec (.unpack x) s = .next t ∧ Claims.movedOn t key c f 8 c' ∧ t.mem = s.mem ∧ c'.g = c.g ∧
        let lo := Claims.lanes ty mask fun j => conv (a j)
        let hi := Claims.lanes ty mask fun j => conv (a (n + j))
        c'.v = ((c.wv x.d.toNat (mergeCodes ty (c.rv x.d.toNat) (lo.map fun r => r.map (·.code)))).wv (x.d.toNat + 1)
          (mergeCodes ty (c.rv (x.d.toNat + 1)) (hi.map fun r => r.map (·.code)))).v ∧
        c'.fpflags = c.fpflags ||| (orFp lo ||| orFp hi) ∧ c'.warn = c.warn ||| (orWarn lo ||| orWarn hi) ||| combo false) ∧
    (Operands s key c (rA .v x :: if amaxAcc x then [rC .g x] else []) [gDst x.d.toNat] →
      let elems := ((List.range (1024 / tyBits ty)).filter fun i => mask.getLsbD (tyBits ty * i / 32)).map fun i =>
        fetchVal ty (Claims.elem ty (c.rv x.a.toNat) i) (fFtz x)
      let vs := if amaxAcc x then fetchVal ty ((c.rg x.c.toNat).toNat % 2 ^ tyBits ty) (fFtz x) :: elems else elems
      let m := amaxFold vs
      let r : Enc := if amaxScl x then amaxScale x.rm.toNat x.sm.toNat (amaxQty x) m else { code := (encodeVal ty 0 0 false m).code }
      exec (.amax x) s = .next (s.completed key ((((c.wg x.d.toNat (wd r.code)).flagsFp (r.fp ||| sigFlag vs)).warns
        (r.warn ||| if fFtz x && amaxScl x then wModcombo else 0)).advance 8)))

/-! ## Leases and engines -/

/-- The table of engines is in its canonical order. -/
def Claims.enginesRise (s : State) : Prop := Map.risesFrom 0 s.engines = true

/-- LEASE completes: it gives a refusal at once, or its request joins the queue of its class and cluster and it goes in flight; with CND 1, once the grants
that the cycle owes to earlier requests are made, it is granted in the same step where it is the next that may be granted, or refused with 5, and the handle that is on its way names an engine of the
request's class and cluster (R171 to R178, R188). -/
def Claims.leaseRequests : Prop :=
  ∀ (s : State) (key : Nat) (c : Ctx) (f : Firing) (x : SForm), Issuing s key c f → c.guardOn x.kg → Operands s key c [sA x] [gDst x.d.toNat] →
    (∀ why, s.leaseRequest key c (c.rg x.a.toNat) (x.imm.toNat % 4) = .error why →
      exec (.lease x) s = .next (s.completed key ((c.wg x.d.toNat (wd why)).advance 8))) ∧
    (∀ r, s.leaseRequest key c (c.rg x.a.toNat) (x.imm.toNat % 4) = .ok r →
      (x.cnd ≠ 1 → s.issueRoom key f → ∃ t c', exec (.lease x) s = .next t ∧ Claims.movedOn t key c f 8 c' ∧ t.mem = s.mem ∧ c'.g = c.g ∧
        c'.emptyG x.d.toNat = true ∧ t.requests = s.requests ++ [r] ∧ t.engines = s.engines ∧
        ∃ o ∈ t.ops, o.ctx = key ∧ o.dstG = [x.d.toNat] ∧ o.kind = .lease r.id) ∧
      (x.cnd = 1 →
        let due := s.grantDue s.requests.length []
        ∀ c1, due.1.ctx? key = some c1 →
          ((due.1.grantable r = false ∨ due.2.contains (r.cls, r.cluster) = true) →
            exec (.lease x) s = .next (due.1.completed key ((c1.wg x.d.toNat 5).advance 8))) ∧
          (due.1.grantable r = true → due.2.contains (r.cls, r.cluster) = false → s.issueRoom key f →
            ∃ t c', exec (.lease x) s = .next t ∧ Claims.movedOn t key c f 8 c' ∧ t.mem = s.mem ∧ c'.g = c.g ∧ c'.emptyG x.d.toNat = true ∧
              ∃ e h, engineClass e = r.cls ∧ engineCluster e = r.cluster ∧ handleEngine h = some e ∧
                c'.leases = c1.leases ++ [{ handle := h, grantSerial := (due.1.engine e).serial + 1 }] ∧
                ∃ o ∈ t.ops, o.ctx = key ∧ o.dstG = [x.d.toNat] ∧ o.kind = .handle h e)))

/-- A malformed request word, one from a System Tile with scope cluster, and one without an open cluster are refused with 2, 4 and 6 (R171, R173, R176). -/
def Claims.leaseRefusals : Prop :=
  ∀ (s : State) (key : Nat) (c : Ctx) (w : Word) (ectr : Nat),
    (badRequest w = true → s.leaseRequest key c w ectr = .error 2) ∧
    (badRequest w = false → bits w.toNat 4 3 = 0 → onSystemTile key = true → s.leaseRequest key c w ectr = .error 4) ∧
    (badRequest w = false → (∀ cl, s.clusterOpen cl = false) → (bits w.toNat 4 3 ≠ 0 ∨ onSystemTile key = false) →
      s.leaseRequest key c w ectr = .error 6) ∧
    (∀ r, s.leaseRequest key c w ectr = .ok r → r.ctx = key ∧ r.cls = bits w.toNat 2 0 ∧ r.hold = bits w.toNat 47 16 ∧ r.prio ≤ bits w.toNat 7 5 ∧
      s.clusterOpen r.cluster = true ∧ r.tick = s.ticks ∧ (s.requests.filter fun q => q.cls == r.cls && q.cluster == r.cluster).length < 64)

/-- LEASE. -/
def Obligations.LeaseRequests : Prop := Claims.leaseRequests ∧ Claims.leaseRefusals

/-- LRENEW extends the hold of a live lease that is not closed unless it is under notice; LFREE .held of a dead handle does nothing and closes a live lease that
has work, releasing it at once where it has none; LFREE .pend withdraws a waiting request, whose destination gets 3; LQRY gives the state of a lease or a class; EVACK of a lease that is not under
notice is on its way with 2, EVACK .now of one that is releases it, so that the engine has no holder and no work and the context no lease of it, and is on its way with 1; EVACK .drain
closes it and waits for its work (R185, R189 to R192). That work issued before an LFREE runs on past a grace period is the model's reading (log 131). -/
def Obligations.LeaseInstructions : Prop :=
  ∀ (s : State) (key : Nat) (c : Ctx) (f : Firing) (x : SForm), Issuing s key c f → c.guardOn x.kg → Claims.enginesRise s →
    let h := c.rg x.a.toNat
    let done (i : Instr) (s' : State) (c' : Ctx) : Prop := exec i s = .next (s'.completed key (c'.advance 8))
    (∀ e, Operands s key c [sA x, sB .g x] [] → leaseOf s key c h = .ok e → (s.engine e).closed = false →
      ((s.engine e).notice ≠ none → done (.lrenew x) s c) ∧
      ((s.engine e).notice = none →
        done (.lrenew x) (s.setEngine e { s.engine e with
          holdEnd := s.ticks + Nat.min (if c.rg x.b.toNat = 0 then (s.engine e).hold else (c.rg x.b.toNat).toNat) (s.holdCap c), holding := true }) c)) ∧
    (Operands s key c [sA x] [] →
      (s.liveLease c h = none → done (.lfreeHeld x) s c) ∧
      (∀ e, s.liveLease c h = some e → (s.engine e).inflight ≠ 0 → done (.lfreeHeld x)
        (s.setEngine e { s.engine e with closed := true, freed := (s.engine e).freed || !(s.engine e).lost s.ticks }) c) ∧
      (∀ e, s.liveLease c h = some e → (s.engine e).inflight = 0 → (s.engine e).holder = some key →
        ∃ t c', exec (.lfreeHeld x) s = .next t ∧ Claims.movedOn t key c f 8 c' ∧ (t.engine e).holder = none ∧ (t.engine e).cmds = [] ∧
          (t.engine e).ops = [] ∧ ∀ r ∈ c'.leases, ¬ (handleEngine r.handle = some e ∧ r.grantSerial = (s.engine e).serial))) ∧
    (Operands s key c [] [] →
      ((∀ o ∈ s.ops, o.ctx = key → o.dstG = [x.a.toNat] → ∀ r, o.kind ≠ .lease r) → done (.lfreePend x) s c) ∧
      (∀ o r, (s.ops.find? fun o => o.ctx == key && o.dstG == [x.a.toNat] && (match o.kind with | .lease _ => true | _ => false)) = some o →
        o.kind = .lease r → ∃ t c', exec (.lfreePend x) s = .next t ∧ Claims.movedOn t key c f 8 c' ∧ t.mem = s.mem ∧ c'.g = (c.wg x.a.toNat 3).g ∧
          c'.emptyG x.a.toNat = false ∧ (∀ q ∈ t.requests, q.id ≠ r) ∧ t.op? o.id = none)) ∧
    (Operands s key c [sA x] [gDst x.d.toNat] →
      done (.lqryLease x) s (c.wg x.d.toNat (s.leaseStatus c h)) ∧
      ∀ e, leaseOf s key c h = .ok e →
        let given (i : Instr) (k : OpKind) (closed : Bool) : Prop := ∃ t c', exec i s = .next t ∧ Claims.movedOn t key c f 8 c' ∧
          c'.emptyG x.d.toNat = true ∧ (∃ o ∈ t.ops, o.ctx = key ∧ o.dstG = [x.d.toNat] ∧ o.kind = k) ∧ (closed = true → (t.engine e).closed = true)
        (s.issueRoom key f → (s.engine e).notice = none → given (.evackNow x) (.value 2 []) false ∧ given (.evackDrain x) (.value 2 []) false) ∧
        (((s.creditDone e).releaseLease e 0).issueRoom key f → (s.engine e).notice ≠ none → (s.engine e).holder = some key →
          ∃ t c', exec (.evackNow x) s = .next t ∧ Claims.movedOn t key c f 8 c' ∧ c'.emptyG x.d.toNat = true ∧
            (∃ o ∈ t.ops, o.ctx = key ∧ o.dstG = [x.d.toNat] ∧ o.kind = .value 1 []) ∧ (t.engine e).holder = none ∧ (t.engine e).cmds = [] ∧
            (t.engine e).ops = [] ∧ ∀ r ∈ c'.leases, ¬ (handleEngine r.handle = some e ∧ r.grantSerial = (s.engine e).serial)) ∧
        (s.issueRoom key f → (s.engine e).notice ≠ none → (s.engine e).inflight ≠ 0 → given (.evackDrain x) (.evack e) true)) ∧
    (Operands s key c [] [gDst x.d.toNat] → done (.lqryCls x) s (c.wg x.d.toNat (s.classStatus key (x.imm.toNat % 8))))

/-- LEASE_GRANT of a request that fits and that nothing blocks: an engine of its class and cluster that was free wakes for its context under the next serial
and with the hold that was asked for, up to the cap; the request waits no longer. ENGINE_WAKE_END lights the engine and makes the
destination of the LEASE full with the handle.
EVICTION_NOTICE starts the grace period and raises f7; HOLD_END, GRACE_PERIOD_EXPIRY and DOZE_EXPIRY end what their deadlines end, and an engine whose lease
is lost finishes the record that it is at (R172, R174, R178 to R184). -/
def Obligations.LeaseEvents : Prop :=
  (∀ (s : State) (r : LeaseReq) (c : Ctx), Claims.enginesRise s → (s.requests.find? fun q => q.id == r.id) = some r → s.grantable r = true →
    s.ctx? r.ctx = some c → r.only = none →
    ∃ t e, exec (.leaseGrant r.id) s = .next t ∧ t.mem = s.mem ∧ (s.engine e).power.isFree = true ∧ engineClass e = r.cls ∧ engineCluster e = r.cluster ∧
      (t.engine e).holder = some r.ctx ∧ (t.engine e).serial = (s.engine e).serial + 1 ∧ (t.engine e).ectr = r.ectr ∧ (t.engine e).prio = r.prio ∧
      (t.engine e).holdEnd = s.ticks + Nat.min r.hold (s.holdCap c) ∧ (t.engine e).cmds = [] ∧
      (t.engine e).power = .waking (s.ticks + if (s.engine e).power.isDozing then 6 else wakeTicks r.cls) ∧ ∀ q ∈ t.requests, q.id ≠ r.id) ∧
  (∀ (s : State) (e n k : Nat), Claims.enginesRise s → (s.engine e).power = .waking n → n ≤ s.ticks → (s.engine e).holder = some k →
    (s.engine e).closed = false →
    ∃ t, exec (.engineWakeEnd e) s = .next t ∧ (t.engine e).power = .lit ∧ (t.engine e).holder = some k ∧ (∀ o ∈ t.ops, ∀ h, o.kind ≠ .handle h e) ∧
      (∀ o h d c, (s.ops.filter fun o => match o.kind with | .handle _ i => i == e | _ => false) = [o] → o.kind = .handle h e → o.dstG = [d] → o.dstV = [] →
        s.ctx? o.ctx = some c → ∃ c', t.ctx? o.ctx = some c' ∧ c'.emptyG d = false ∧ c'.g = (c.wg d h).g ∧ c'.v = c.v) ∧
      ∀ o ∈ s.ops, (∀ h, o.kind ≠ .handle h e) → (∀ p ∈ s.ops, p.id = o.id → p = o) → o ∈ t.ops) ∧
  (∀ (s : State) (e k : Nat) (r : LeaseReq) (c : Ctx), Claims.enginesRise s → (s.requests.find? fun q => s.nextVictim q == some e) = some r →
    (s.engine e).holder = some k → s.ctx? k = some c →
    ∃ t, exec (.evictionNotice e) s = .next t ∧ t.mem = s.mem ∧ (t.engine e).notice = some (s.ticks + s.graceTicks c) ∧
      t.ctx? k = some ((c.raiseFlag 7).countCompletion (s.engine e).ectr) ∧ (s.engine e).prio < r.prio ∧ (s.engine e).holding = false) ∧
  (∀ (s : State) (e : Nat), let g := s.engine e
    (g.holder ≠ none → g.holding = true → g.holdEnd ≤ s.ticks → exec (.holdEnd e) s = .next (s.setEngine e { g with holding := false })) ∧
    (∀ n, g.power = .dozing n → n + 2000 ≤ s.ticks → exec (.dozeExpiry e) s = .next (s.setEngine e { g with power := .gated })) ∧
    (∀ n, g.power = .dozing n → s.ticks < n + 2000 → exec (.dozeExpiry e) s = .next s) ∧
    (∀ n k, Claims.enginesRise s → g.notice = some n → n ≤ s.ticks → g.holder = some k →
      g.freed = false → ∃ t, exec (.gracePeriodExpiry e) s = .next t ∧ (t.engine e).holder = none ∧ (t.engine e).ops = [] ∧ (t.engine e).serial = g.serial ∧
        (∀ o ∈ t.ops, o.kind ≠ .engine e) ∧
        ((∀ m ∈ g.cmds, m.tokens = none) → (t.engine e).notice = none ∧ (t.engine e).cmds = []) ∧
        (∀ m rest, g.power = .lit → g.cmds = m :: rest → m.tokens ≠ none → m.done < m.count → (∀ p ∈ rest, p.id ≠ m.id) →
          (t.engine e).power = .lit ∧ (t.engine e).cmds = [m])))

/-- RAST, TRACE, SAMPLE and CODEC queue a command on the engine of a live lease of their class, with the output stream register as bound; no register changes
(R193). ENGINE_RESULT_PUSH begins a record with its result tokens, or pushes the next one, and passes to the next record with the last;
ENGINE_COMMAND_COMPLETION takes the command away and sends its completion (R193 to R197). That a command waits at issue for the older accesses of its context,
that a record waits while a bank or way is busy, and the way in which a failed record ends its command are the model's choice (logs 15, 104, 66). -/
def Obligations.EngineCommands : Prop :=
  (∀ (s : State) (key : Nat) (c : Ctx) (f : Firing) (x : SForm), Issuing s key c f → c.guardOn x.kg → Claims.enginesRise s →
    Operands s key c [sA x, sB .g x] [] → s.noAccess key → (c.rg x.b.toNat).toNat % 32 = 0 → (c.rq x.p.toNat).isOut = true →
    ∀ p ∈ [(Instr.trace x, 1), (Instr.rast x, 2), (Instr.sample x, 3), (Instr.codec x, 4)],
      ∀ e, engineFor s key c (c.rg x.a.toNat) p.2 = .ok e → cmdFormat p.2 (s.outFormat key c x.p.toNat) = true →
        (p.2 = 3 → ∀ bs, agentRead (s.writeBack (tileOf key) fun _ => true) key c (c.rg x.b.toNat).toNat 32 = .ok bs → (textureOf bs).isSome = true) →
        ∃ t c', exec p.1 s = .next t ∧ Claims.movedOn t key c f 8 c' ∧ c'.g = c.g ∧ c'.v = c.v ∧
          t.mem = (s.writeBack (tileOf key) fun _ => true).mem ∧
          ∃ m, (t.engine e).cmds = (s.engine e).cmds ++ [m] ∧ m.ctx = key ∧ m.asid = c.asid ∧ m.q = x.p.toNat ∧ m.bind = c.rq x.p.toNat ∧
            m.block = (c.rg x.b.toNat).toNat ∧ m.count = x.imm.toNat + 1 ∧ m.ev = x.cnd.toNat % 4 ∧ m.mode = x.cnd.toNat / 4 ∧ m.done = 0 ∧ m.tokens = none) ∧
  (∀ (s : State) (e : Nat) (m : EngineCmd) (rest : List EngineCmd) (c : Ctx), Claims.enginesRise s → (s.engine e).cmds = m :: rest → (s.engine e).power = .lit →
    (s.engine e).holder ≠ none → m.done < m.count → s.storageBusy = false →
    s.ctx? m.ctx = some c →
    let cq := m.issuer c
    (∀ dst bs ts s1, m.tokens = none → (s.engine e).lost s.ticks = false → (bs ≠ [] → s.strayStore m.ctx dst bs.length = none) → commandRecord s (engineClass e) m cq = .ok (dst, bs, ts) →
      agentStore { s with drawn := s.drawn + 4 } m.ctx cq dst bs = (s1, none) → s1.engines = s.engines →
      ∃ t, exec (.engineResultPush e) s = .next t ∧ t.mem = s1.mem ∧ (t.engine e).cmds = m.left ts :: rest) ∧
    (∀ tok ts p o s1, m.tokens = some (tok :: ts) → s.outPort m.ctx cq m.q = some p → slotsOf tok.words.length ≤ p.depth → p.consumer = some o →
      s.push m.ctx m.q cq p o false { tok with header := setFmt (setL (tok.header ||| (p.template &&& 0x0000E00000000000)) tok.words.length) p.fmt } = .done s1 →
      s1.engines = s.engines →
      ∃ t, exec (.engineResultPush e) s = .next t ∧ t.mem = s1.mem ∧ t.queues = s1.queues ∧
        (t.engine e).cmds = { m.left ts with warn := m.warn ||| s.spillWarn s1 } :: rest)) ∧
  (∀ (s : State) (e : Nat) (m : EngineCmd) (rest : List EngineCmd), Claims.enginesRise s → (s.engine e).cmds = m :: rest → m.count ≤ m.done →
    (s.engine e).closed = false →
    ∃ t, exec (.engineCommandCompletion e) s = .next t ∧ t.mem = s.mem ∧ (t.engine e).cmds = rest ∧
      t.asyncDone = s.asyncDone ++ [{ id := s.fresh, ctx := m.ctx, ev := some m.ev, warn := m.warn }])

/-! ## Matrix engines -/

/-- The members of MAJ 0xC0 and 0xC1 that check nothing but their handle, with the sources that they capture (R347). -/
def Claims.mxPlain (x : XForm) : List (Instr × List Src) :=
  [ (.mxswap x, []), (.mxzero x, []), (.mxtrn x, []), (.mxperm x, [xB .v x]), (.mxrred x, []), (.mxescWiden x, []), (.mxescNarrow x, []),
    (.bdpropCvt x, [xB .g x]), (.bdpropScale x, [xB .g x]), (.bdpropSum x, []), (.bdwr x, [xB .v x, xC .g x]) ]

/-- The instruction is in the queue of engine e with the operands captured, and no register of its context has changed. -/
def Claims.mxQueued (s : State) (key : Nat) (c : Ctx) (f : Firing) (e : Nat) (i : Instr) (kg : BitVec 4) (srcs : List Src) (mem : Memory)
    (dstG dstV : List Nat) : Prop :=
  ∃ t c', exec i s = .next t ∧ Claims.movedOn t key c f 8 c' ∧ c'.g = c.g ∧ c'.v = c.v ∧ t.mem = mem ∧ (∀ n ∈ dstG, c'.emptyG n = true) ∧
    (∀ n ∈ dstV, c'.emptyV n = true) ∧
    ∃ m, (t.engine e).ops = (s.engine e).ops ++ [m] ∧ m.ctx = key ∧ m.asid = c.asid ∧ m.word = instrWord i ∧ m.step = 0 ∧
      m.opA = (captured i srcs kg.toNat c f).opA ∧ m.opB = (captured i srcs kg.toNat c f).opB ∧ m.opC = (captured i srcs kg.toNat c f).opC ∧
      (dstG ++ dstV ≠ [] → ∃ o ∈ t.ops, o.id = m.id ∧ o.ctx = key ∧ o.kind = .engine e ∧ o.dstG = dstG ∧ o.dstV = dstV)

/-- Every matrix and bound instruction with the handle of a live MX lease that takes work goes into the engine's queue while it holds fewer than sixteen, once
its own checks pass: the alignment of its address, the pitch of MXLDS, the rows of MXTILE, the position of MXRD and MXWR, the kind of BDTHR and the rows of
BDST and BDLD (R284, R335, R336, R347). That an instruction which addresses memory waits at issue for the older accesses of its context, whose tile's dirty
bytes then go home, is the model's reading (log 15). -/
def Claims.matrixIssue : Prop :=
  ∀ (s : State) (key : Nat) (c : Ctx) (f : Firing) (x : XForm) (e : Nat), Issuing s key c f → c.guardOn x.kg → Claims.enginesRise s →
    engineFor s key c (c.rg x.a.toNat) 0 = .ok e → (s.engine e).ops.length < 16 →
    let queued (i : Instr) (srcs : List Src) (mem : Memory) (dstG dstV : List Nat) : Prop := Claims.mxQueued s key c f e i x.kg srcs mem dstG dstV
    let b := (c.rg x.b.toNat).toNat
    let d := (c.rg x.c.toNat).toNat
    let back := (s.writeBack (tileOf key) fun _ => true).mem
    (∀ p ∈ Claims.mxPlain x, Operands s key c (xA x :: p.2) [] → queued p.1 (xA x :: p.2) s.mem [] []) ∧
    (Operands s key c [xA x, xB .g x] [] → b % 4 ≠ 3 → queued (.bdthr x) [xA x, xB .g x] s.mem [] []) ∧
    (Operands s key c [xA x, xB .v x, xC .g x] [] → ¬ (x.ty = 10 ∧ (c.rg x.c.toNat).getLsbD 9 = true) →
      queued (.mxwr x) [xA x, xB .v x, xC .g x] s.mem [] []) ∧
    (Operands s key c [xA x, xB .g x, xC .g x] [] → s.noAccess key →
      (b % 64 = 0 → d % 2 ^ 32 % 64 = 0 → rowBytes x.tyb.toNat ≤ d % 2 ^ 32 → queued (.mxlds x) [xA x, xB .g x, xC .g x] back [] []) ∧
      (b % 64 = 0 → 1 ≤ bits d 7 0 → bits d 7 0 + bits d 14 8 ≤ 128 → queued (.mxtile x) [xA x, xB .g x, xC .g x] back [] []) ∧
      (b % 2 = 0 → bits d 63 40 < bits d 23 0 →
        queued (.bdst x) [xA x, xB .g x, xC .g x] back [] [] ∧ queued (.bdld x) [xA x, xB .g x, xC .g x] back [] [])) ∧
    (s.issueRoom key f →
      (Operands s key c [xA x, xC .g x] [vDst x.b.toNat] →
        (¬ (x.ty = 10 ∧ (c.rg x.c.toNat).getLsbD 9 = true) → queued (.mxrd x) [xA x, xC .g x] s.mem [] [x.b.toNat]) ∧
        queued (.bdrdBnd x) [xA x, xC .g x] s.mem [] [x.b.toNat]) ∧
      (Operands s key c [xA x] [gDst x.b.toNat] → queued (.bdrdStat x) [xA x] s.mem [x.b.toNat] [])) ∧
    (Operands s key c [xA x] [] → (c.rq (x.b.toNat % 16)).isIn = true → (c.rq (x.c.toNat % 16)).isIn = true →
      (∀ q, s.inQueue key c (x.b.toNat % 16) = some q → q.inFmt = 7) → (∀ q, s.inQueue key c (x.c.toNat % 16) = some q → q.inFmt = x.ty.toNat) →
      queued (.mxstrm x) [xA x] s.mem [] [])

/-- MXTOK pushes a token without link words whose metadata names operation, tile, ACC, row count, first row and exponent (R349). -/
def Claims.controlTokens : Prop :=
  ∀ (s : State) (key : Nat) (c : Ctx) (f : Firing) (x : XForm) (port : Nat) (tmpl : Word) (p : OutPort) (o : Nat) (q : Queue), Issuing s key c f →
    c.guardOn x.kg → Operands s key c [xC .g x] [] → c.rq (x.b.toNat % 16) = .output port tmpl → s.outPort key c (x.b.toNat % 16) = some p → p.fmt = 7 →
    p.proxy = false → p.consumer = some o → s.queue? p.graph p.edge o = some q → q.ring = [] → 1 ≤ p.depth →
    ∀ k, k = deliveredSlots p.fmt p.inFmt { header := 0 } → k ≤ c.reserved (x.b.toNat % 16) + q.credits →
      ∃ t c' h, exec (.mxtok x) s = .next t ∧ Claims.movedOn t key c f 8 c' ∧ t.mem = s.mem ∧ c'.g = c.g ∧
        t.queue? p.graph p.edge o = some { q with credits := q.credits - (k - c.reserved (x.b.toNat % 16)),
                                                  transit := q.transit ++ [{ header := h, slots := k }], producer := some key } ∧
        (let d := (c.rg x.c.toNat).toNat
         bits h.toNat 1 0 = bits x.mod.toNat 1 0 ∧ bits h.toNat 4 2 = x.xt.toNat ∧ bits h.toNat 5 5 = bits x.mod.toNat 2 2 ∧
         bits h.toNat 8 6 = bits d 9 7 ∧ bits h.toNat 15 9 = bits d 6 0 ∧ bits h.toNat 31 16 = bits d 31 16 ∧ hdrEos h = false)

/-- The matrix instructions at issue. -/
def Obligations.MatrixIssue : Prop := Claims.matrixIssue ∧ Claims.controlTokens

/-- What takes its effect when MX_MACRO_OP_COMPLETION comes to it: MXSWAP exchanges the planes, MXZERO clears a tile and its bounds and keeps its threshold,
BDTHR sets the threshold, MXRD gives elements of a row, MXWR puts the elements of a register, converted where the formats differ, in place of those of the row
and leaves the rest of the row, BDRD gives bounds or the tile's state, BDWR writes bounds, and a member with steps
behind it sends its completion (R333, R335, R336, R347). That the effect waits while a bank or way is busy is the model's choice (log 104). -/
def Claims.matrixEffects : Prop :=
  ∀ (s : State) (e : Nat) (o : MacroOp) (rest : List MacroOp) (c : Ctx), Claims.enginesRise s → (s.engine e).ops = o :: rest → (s.engine e).power = .lit →
    (s.engine e).lost s.ticks = false → (∀ p ∈ rest, p.id ≠ o.id) → (s.engine e).closed = false → (s.engine e).holder ≠ none →
    s.storageBusy = false → s.ctx? o.ctx = some c → Map.risesFrom 0 (s.engine e).tiles = true →
    let g := s.engine e
    let x := o.form
    let t := x.xt.toNat
    let ends (P : Engine → Prop) : Prop := ∃ u, exec (.mxMacroOpCompletion e) s = .next u ∧ u.mem = s.mem ∧ (u.engine e).ops = rest ∧ P (u.engine e)
    (s.op? o.id = none →
      (o.member = 1 → ends fun h => h.active = g.shadow ∧ h.shadow = g.active ∧ h.tiles = g.tiles) ∧
      (o.member = 4 → g.isPair t = false → ends fun h => (h.tile t).elems = [] ∧ (h.tile t).bounds = [] ∧ (h.tile t).escd = false ∧
        (h.tile t).thr = (g.tile t).thr ∧ (h.tile t).mode = (if x.mod.getLsbD 0 then .free else .f32) ∧ ∀ m ≠ t, h.tile m = g.tile m) ∧
      (o.member = 6 → let old := g.row t o.span.1
        ends fun h => h.tiles = (g.setRow t o.span.1 (old.take o.span.2.1 ++ ((unpackCodes o.span.2.2.2 o.span.2.2.1 o.opB.toNat).map fun code =>
          if g.fmtOf t = x.ty.toNat then code else (convertElem x.ty.toNat (g.fmtOf t) 0 0 false code).code) ++ old.drop (o.span.2.1 + o.span.2.2.1))).tiles) ∧
      (o.member = 66 → ends fun h => h.tile (g.base t) = { g.tile (g.base t) with thr := wd o.b } ∧ ∀ m ≠ g.base t, h.tile m = g.tile m) ∧
      (o.member = 10 → x.mod.getLsbD 0 = true → g.isPair t = false → ends fun h => h.tiles = g.tiles) ∧
      (o.member = 10 → x.mod.getLsbD 0 = false → g.isPair t = false → (g.tile (partner t)).mode = .free →
        ends fun h => h.tiles = (g.widen t false).tiles) ∧
      (o.member = 65 → ends fun h => h.tiles = (((unpackCodes 16 64 o.opB.toNat).zipIdx).foldl (fun h p =>
        h.setBound t (64 * (o.c % 2) + p.2) (canonBound p.1)) g).tiles)) ∧
    (∀ p, s.op? o.id = some p → p.ctx = o.ctx →
      let gives (P : Ctx → Prop) : Prop := ends fun h => h.tiles = g.tiles ∧ ∃ u c', exec (.mxMacroOpCompletion e) s = .next u ∧ u.op? o.id = none ∧
        u.ctx? o.ctx = some c' ∧ P c'
      (o.member = 5 → g.fmtOf t = x.ty.toNat → p.dstG = [] → p.dstV = [x.b.toNat] →
        gives fun c' => c'.emptyV x.b.toNat = false ∧
          c'.v = (c.wv x.b.toNat (BitVec.ofNat 1024 (packCodes o.span.2.2.2 (((g.row t o.span.1).drop o.span.2.1).take o.span.2.2.1)))).v) ∧
      (o.member = 64 → x.mod.getLsbD 0 = true → p.dstG = [x.b.toNat] → p.dstV = [] →
        gives fun c' => c'.emptyG x.b.toNat = false ∧
          c'.g = (c.wg x.b.toNat (wd ((g.tile t).mode.code + b2n (g.tile (g.base t)).escd * 4 + bits (g.tile (g.base t)).thr.toNat 1 0 * 8))).g) ∧
      (o.member = 64 → x.mod.getLsbD 0 = false → p.dstG = [] → p.dstV = [x.b.toNat] →
        gives fun c' => c'.v = (c.wv x.b.toNat (BitVec.ofNat 1024 (packCodes 16 ((List.range 64).map fun n => g.bound t (64 * (o.c % 2) + n))))).v)) ∧
    (o.member ∈ [0, 2, 3, 7, 8, 9] → 0 < o.steps → o.steps ≤ o.step → ends fun h => h.tiles = g.tiles) ∧
    (o.member ∈ [0, 2, 3, 7, 8, 9] → 0 < o.steps → o.steps ≤ o.step → ∃ u, exec (.mxMacroOpCompletion e) s = .next u ∧
      u.asyncDone = s.asyncDone ++ [{ id := s.fresh, ctx := o.ctx, ev := some (bits x.mod.toNat 1 0), warn := o.warn ||| o.combo, fpflags := o.fpflags }])

/-- Writing a row of a tile or a pair is read back as written and changes no other row (R333, R334). -/
def Claims.rowsReadBack : Prop :=
  ∀ (g : Engine) (t i : Nat) (codes : List Nat), Map.risesFrom 0 g.tiles = true → (∀ m, Map.risesFrom 0 (g.tile m).elems = true) → codes.length = 128 →
    (∀ code ∈ codes, code < 2 ^ (if g.isPair t then 64 else 32)) → (g.setRow t i codes).row t i = codes ∧ ∀ j ≠ i, (g.setRow t i codes).row t j = g.row t j

/-- A group of 32 elements of an operand row: every element of the accumulator takes the rounded sum of itself and the exact sum of its 32 products, and the
bound takes the terms of R340 in their order; the groups run from 0 to 3, over the row as it is or over zeros (R339, R340, R348). -/
def Claims.groupsAccumulate : Prop :=
  (∀ (ty : Nat) (p : Plane) (a : List Val) (alpha : Val) (r : RowAcc) (n : Nat), r.codes.length = 128 →
    let av (k : Nat) : Val := a.getD (32 * n + k) zeroVal
    let hat := decodeVal 19 p.betaHat.toNat
    let bb := decodeVal 19 p.betaB.toNat
    let after := accumulateGroup ty p a alpha r n
    (∀ j < 128, after.codes[j]? = some (encodeFormed ty 0 0 false (addVal 0 (decodeVal ty (r.codes.getD j 0))
      (groupSum ((List.range 32).map fun k => mulVal (av k) (p.val (32 * n + k) j))).val)).code) ∧
    ((∀ k < 32, (av k).isNan = false ∧ (av k).isInf = false) → (∀ code ∈ after.codes, (decodeVal ty code).isNan = false ∧ (decodeVal ty code).isInf = false) →
      ∃ sign m ex, maxMag (after.codes.map (decodeVal ty)) = .fin sign m ex ∧
        after.bound = boundAdd (boundAdd (boundAdd (boundAdd r.bound (upBound (mulUp alpha hat)))
          (upBound (mulUp bb ((List.range 32).foldl (fun m k => (addVal 0 m (av k).abs).val) zeroVal)))) (upBound ((mulUp alpha bb).scale 5)))
          (upBound ((ulpVal ty m ex).scale (-1)))) ∧
    ((∃ k < 32, (av k).isNan = true ∨ (av k).isInf = true) ∨ (∃ code ∈ after.codes, (decodeVal ty code).isNan = true ∨ (decodeVal ty code).isInf = true) →
      after.bound = 0xFF00)) ∧
  (∀ (g : Engine) (t i alpha : Nat) (acc : Bool) (a : List Val),
    let start : RowAcc := if acc then { codes := g.row t i, bound := g.bound t i } else { codes := List.replicate 128 0, bound := 0 }
    let step (r : RowAcc) (n : Nat) : RowAcc := accumulateGroup (g.fmtOf t) g.active a (decodeVal 19 alpha) r n
    (g.accumulateRow t i acc alpha a).1.tiles =
      ((g.setRow t i (step (step (step (step start 0) 1) 2) 3).codes).setBound t i (step (step (step (step start 0) 1) 2) 3).bound).tiles)

/-- MX_ROW_GROUP_STEP of MXTRN puts row u transposed into t, of MXPERM the rows that the indices name, of MXRRED sums segments of rows, of MXLDS counts a step
until the last fills the shadow plane, and of MXTILE accumulates up to eight operand rows, each under its α, on the tiles as they were, until the last step,
which stands where no row exceeds its threshold; an MXLDS behind an MXSTRM steps while that streams; MXSTRM_CONTROL_TOKEN with EOS, or of the other kinds without rows,
takes the token and acts on the engine (R335, R337, R339, R342, R344, R347 to R349). That a step waits while a bank or way is busy is the model's choice (log 104). -/
def Claims.matrixSteps : Prop :=
  ∀ (s : State) (e : Nat) (o : MacroOp) (rest : List MacroOp) (c : Ctx), Claims.enginesRise s → (s.engine e).ops = o :: rest → (s.engine e).power = .lit →
    (s.engine e).lost s.ticks = false → (∀ p ∈ rest, p.id ≠ o.id) → s.ctx? o.ctx = some c →
    let g := s.engine e
    let x := o.form
    let t := x.xt.toNat
    let u := x.xu.toNat
    let steps (ev : Instr) (P : State → Engine → Prop) : Prop := ∃ v, exec ev s = .next v ∧ v.mem = s.mem ∧ P v (v.engine e)
    (s.storageBusy = false → ∀ p cp, o.member = 2 → g.filler = some p → p.step < 15 → s.ctx? p.ctx = some cp →
      steps (.mxRowGroupStep e) fun _ h => h.shadow = g.shadow ∧ h.ops = g.ops.map fun y => if y.id = p.id then { p with step := p.step + 1 } else y) ∧
    (s.storageBusy = false → g.filler = none →
    (o.member = 7 → o.step = 0 → g.isPair t = g.isPair u →
      steps (.mxRowGroupStep e) fun _ h => h.tiles = (g.transpose t u).tiles ∧ h.ops = { o with step := 1 } :: rest) ∧
    (o.member = 8 → o.step = 0 → g.isPair t = g.isPair u →
      steps (.mxRowGroupStep e) fun _ h => h.tiles = (g.permute t u o.opB).tiles ∧ h.ops = { o with step := 1 } :: rest) ∧
    (o.member = 0 → o.step < 15 → steps (.mxRowGroupStep e) fun _ h => h.shadow = g.shadow ∧ h.ops = { o with step := o.step + 1 } :: rest) ∧
    (o.member = 9 → o.step = 0 → g.isPair t = g.isPair u →
      let sums := g.reduce t u (2 ^ bits x.mod.toNat 5 3) (x.mod.getLsbD 2)
      sums.1.firstExcess t (List.range (128 / 2 ^ bits x.mod.toNat 5 3)) = none →
      steps (.mxRowGroupStep e) fun _ h => h.tiles = sums.1.tiles ∧ h.ops = { o with step := 1, fpflags := sums.2 } :: rest) ∧
    (∀ (codes : Nat → List Nat) (alpha : Nat → Nat), o.member = 3 → o.step < o.steps → (g.active.fmt = none ∨ g.active.fmt = some x.tyb.toNat) →
      let s0 := s.latchCadence (engineCluster e) (engineIndex e)
      let kept := if o.step = 0 ∧ o.escalated = false then some (t, g.tile t, g.tile (partner t)) else g.rollback
      let s1 := s0.setEngine e { g with rollback := kept }
      let m := bits o.c 7 0
      let row0 := bits o.c 14 8
      let here := ((List.range 8).map fun r => 8 * o.step + r).filter fun r => decide (r < m)
      let h1 := here.foldl (fun h r => (h.accumulateRow t (row0 + r) (x.mod.getLsbD 2) (alpha r) ((codes r).map (decodeVal x.ty.toNat))).1) g
      (∀ r ∈ here, mxRow s1 o.ctx (o.issuer c) ((o.b + r * rowBytes x.ty.toNat) % 2 ^ 64) x.ty.toNat = .ok (codes r) ∧
        (if x.mod.getLsbD 3 then mxBound s1 o.ctx (o.issuer c) (o.b + m * rowBytes x.ty.toNat + 2 * r) = .ok (alpha r) else alpha r = bits o.c 31 16)) →
      (o.step + 1 = o.steps → h1.firstExcess t ((List.range m).map fun r => row0 + r) = none) →
      steps (.mxRowGroupStep e) fun _ h => h.tiles = h1.tiles ∧ h.active = g.active ∧ h.rollback = kept ∧
        ∃ fp, h.ops = { o with step := o.step + 1, fpflags := fp } :: rest) ∧
    (∀ rows, o.member = 0 → o.step = 15 → mxRows (s.latchCadence (engineCluster e) (engineIndex e)) o.ctx (o.issuer c) o.b (o.c % 2 ^ 32) x.tyb.toNat 128 = .ok rows →
      steps (.mxRowGroupStep e) fun _ h => h.shadow = planeOf x.tyb.toNat (bits o.c 47 32) rows ∧ h.active = g.active ∧ h.tiles = g.tiles)) ∧
    (∀ q tok more, o.member = 2 → o.step = 0 → (g.active.fmt = none ∨ g.active.fmt = some x.tyb.toNat) → s.boundQueue o.ctx c o.control = some q →
      q.fifo = tok :: more →
      let n := bits tok.header.toNat 8 6 + 1
      let row0 := bits tok.header.toNat 15 9
      let sound : Prop := bits tok.header.toNat 34 32 = 0 ∧ row0 + n ≤ 128 ∧ g.isPair (bits tok.header.toNat 4 2) = false
      (hdrEos tok.header = true → steps (.mxstrmControlToken e) fun v h => v.queues = (s.popQueue q tok).queues ∧ h.ops = { o with step := 1 } :: rest ∧
        h.tiles = g.tiles) ∧
      (hdrEos tok.header = false → sound → bits tok.header.toNat 1 0 = 2 →
        steps (.mxstrmControlToken e) fun v h => v.queues = (s.popQueue q tok).queues ∧ h.ops = { o with step := 1 } :: rest ∧ h.tiles = g.tiles) ∧
      (hdrEos tok.header = false → sound → bits tok.header.toNat 1 0 = 1 →
        steps (.mxstrmControlToken e) fun v h => v.queues = (s.popQueue q tok).queues ∧ h.ops = o :: rest ∧
          h.tiles = (g.zeroRows (bits tok.header.toNat 4 2) row0 n).tiles))

/-- Macro-ops as the MX performs them. -/
def Obligations.MatrixActs : Prop := Claims.rowsReadBack ∧ Claims.groupsAccumulate ∧ Claims.matrixEffects ∧ Claims.matrixSteps

/-! ## Graphs, submission queues and launches -/

/-- The instruction has put the result x for register d in flight, and the state satisfies P. -/
def Claims.later (s : State) (key : Nat) (c : Ctx) (f : Firing) (i : Instr) (d : Nat) (x : Word) (P : State → Prop) : Prop :=
  ∃ t c', exec i s = .next t ∧ Claims.movedOn t key c f 8 c' ∧ c'.g = c.g ∧ c'.v = c.v ∧ c'.emptyG d = true ∧
    (∃ o ∈ t.ops, o.ctx = key ∧ o.dstG = [d] ∧ o.kind = .value x []) ∧ P t

/-- SPAWN appends a record of 128 bytes to a queue with room and gives its index; GLOAD of an image whose edges agree gives the number of edges and leaves
the graph LOADED; GARM and GSTART place every instance, leave the graph ARMED and give the population, or 0 without an effect where there is no room
(R225 to R231). -/
def Claims.graphInstructions : Prop :=
  ∀ (s : State) (key : Nat) (c : Ctx) (f : Firing) (x : SForm), Issuing s key c f → c.guardOn x.kg → s.issueRoom key f →
    Operands s key c [sA x, sB .g x] [gDst x.d.toNat] →
    let a := c.rg x.a.toNat
    let b := c.rg x.b.toNat
    let later (i : Instr) (r : Word) (P : State → Prop) : Prop := Claims.later s key c f i x.d.toNat r P
    (∀ q s2, s.noAccess key → a.toNat % 128 = 0 → b.toNat % 128 = 0 → s.redundant key = false → spawnQueue s key c b = .ok q → q.queued < q.size →
      spawnRecord (if x.ord = 2 then s.releaseWays key x.sc.toNat else s) key c a.toNat q = (s2, .ok (wd q.tail)) →
      later (.spawn x) (wd q.tail) fun t => t.mem = s2.mem ∧ t.subqs = s2.subqs) ∧
    (c.priv = .s → s.noAccess key → a.toNat % 64 = 0 → ∀ pa old d, let s1 := s.writeBack (tileOf key) fun _ => true
      ownGraph s1 key c b = .ok (pa, old) → (∀ g, old = some g → g.state = .empty ∨ g.state = .unarmed ∨ g.state = .drained) →
      readDescriptor s1 key c a.toNat = .ok (.ok d) →
      later (.gload x) (wd d.edges.length) fun t => t.graph? (pa + 1) ≠ none ∧ ∀ g ∈ t.graphs, g.handle = pa + 1 →
        g.state = .loaded ∧ g.actors = d.actors ∧ g.queues = d.queues ∧ g.edges = d.edges ∧ g.thresh = d.thresh ∧ g.running = (old.bind (·.running))) ∧
    (c.priv = .s → b.toNat % 4096 = 0 → ∀ pa g, ownGraph s key c a = .ok (pa, some g) → (b = 0 ∨ ∃ p, translateAs s (tileOf key) g.asid g.part b.toNat .w = .ok p) →
      ∀ m ∈ [(Instr.garm x, GraphState.loaded), (Instr.gstart x, GraphState.drained)], g.state = m.2 →
        (State.placeAll g.handle g.actors 0 s = none → later m.1 0 fun t => t.mem = s.mem) ∧
        (∀ s1, State.placeAll g.handle g.actors 0 s = some s1 → s1.ctx? key = some c →
          later m.1 (wd (((s1.modGraph g.handle fun g => { g with state := .armed, report := b.toNat }).pairAll g.handle).population g.handle)) fun t =>
            ∀ g' ∈ t.graphs, g'.handle = g.handle → g'.state = .armed ∧ g'.report = b.toNat))

/-- GDRAIN .graph of an ARMED graph whose launch runs leaves it DRAINING with its limit and waits, and of one at rest, whose instances have nothing in flight and no lease, leaves it DRAINED without
instances and queues and gives the number of tokens discarded; .qdrain tears a queue down and gives the number of records discarded, .qabort also aborts the
running launches that came from it: no instance of theirs dispatches again (R219, R230). What a teardown does to a
window and that a firing that runs goes on to its end is the model's choice (logs 85, 86). -/
def Claims.drainInstructions : Prop :=
  ∀ (s : State) (key : Nat) (c : Ctx) (f : Firing) (x : SForm), Issuing s key c f → c.guardOn x.kg → s.issueRoom key f → c.priv = .s → c.graph = 0 →
    let a := c.rg x.a.toNat
    (Operands s key c [sA x, sB .g x] [gDst x.d.toNat] → ∀ pa g, ownGraph s key c a = .ok (pa, some g) → g.state = .armed →
      (g.running ≠ none → ∃ t c', exec (.gdrainGraph x) s = .next t ∧ Claims.movedOn t key c f 8 c' ∧ c'.g = c.g ∧ c'.emptyG x.d.toNat = true ∧
        (∃ o ∈ t.ops, o.ctx = key ∧ o.dstG = [x.d.toNat] ∧ o.kind = .gdrain g.handle) ∧
        ∀ g' ∈ t.graphs, g'.handle = g.handle → g'.state = .draining ∧ g'.drainBy = some (s.ticks + (c.rg x.b.toNat).toNat)) ∧
      (g.running = none → Map.risesFrom 0 s.ctxs = true → (∀ o ∈ s.ops, o.kind ≠ .gdrain g.handle) →
        (∀ e ∈ s.allInstances g.handle, e.1 ≠ key ∧ (∀ o ∈ s.ops, o.ctx ≠ e.1) ∧ ∀ n ∈ s.engines, n.2.holder ≠ some e.1) →
        ∃ t c', exec (.gdrainGraph x) s = .next t ∧ Claims.movedOn t key c f 8 c' ∧ c'.emptyG x.d.toNat = false ∧
          c'.g = (c.wg x.d.toNat (wd (s.discardable g.handle))).g ∧ c'.v = c.v ∧ t.instances g.handle = [] ∧
          (∀ q ∈ t.queues, q.graph ≠ g.handle) ∧ ∀ g' ∈ t.graphs, g'.handle = g.handle → g'.state = .drained ∧ g'.drainBy = none)) ∧
    (Operands s key c [sA x] [gDst x.d.toNat] → ∀ pa q, a.toNat % 128 = 0 → translateFor s key c a.toNat .r = .ok pa → s.subq? pa = some q → q.part = c.part →
      Claims.later s key c f (.gdrainQdrain x) x.d.toNat (wd (q.window.length + q.queued)) (fun t =>
        ∃ q', t.subq? pa = some q' ∧ q'.tear = 1 ∧ q'.window = [] ∧ q'.head = q.tail ∧ q'.tail = q.tail ∧ q'.slot = none) ∧
      (s.launchedFrom pa = [] → Claims.later s key c f (.gdrainQabort x) x.d.toNat (wd (q.window.length + q.queued)) (fun t =>
        ∃ q', t.subq? pa = some q' ∧ q'.tear = 2 ∧ q'.window = [] ∧ q'.head = q.tail ∧ q'.slot = none)) ∧
      ((∀ h ∈ s.launchedFrom pa, ∀ e ∈ s.allInstances h, e.1 ≠ key) →
        Claims.later s key c f (.gdrainQabort x) x.d.toNat (wd (q.window.length + q.queued)) (fun t =>
          (∃ q', t.subq? pa = some q' ∧ q'.tear = 2 ∧ q'.window = [] ∧ q'.head = q.tail ∧ q'.slot = none) ∧
          ∀ h ∈ s.launchedFrom pa, (∀ g ∈ t.graphs, g.handle = h → ∀ l, g.running = some l → l.aborted = true) ∧
            ∀ k y, t.ctx? k = some y → y.graph = h → h ≠ 0 → y.aborted = true))) ∧
    (Operands s key c [sA x] [gDst x.d.toNat] → ∀ s1 n c1, tearQueue s key c a 2 = (s1, .ok n) → s1.cur = some key → s1.ctx? key = some c1 →
      c1.firing = some f → s1.issueRoom key f →
      ∃ t, exec (.gdrainQabort x) s = .next t ∧ t.mem = s1.mem ∧ ∃ o ∈ t.ops, o.ctx = key ∧ o.dstG = [x.d.toNat] ∧ o.kind = .value n [])

/-- The graph group. -/
def Obligations.GraphInstructions : Prop := Claims.graphInstructions ∧ Claims.drainInstructions

/-- PLACE .pin, .hint, .free and .own change the placement of an actor of the issuer's graph and nothing else; LSTAT gives word 0 of a launch's status record,
or of a graph that the device holds (R151, R232, R233). -/
def Claims.placementAndStatus : Prop :=
  ∀ (s : State) (key : Nat) (c : Ctx) (f : Firing) (x : SForm), Issuing s key c f → c.guardOn x.kg →
    let actor := x.imm.toNat % 256
    let placed (i : Instr) (h : Nat) (p : Graph → Graph) : Prop := exec i s = .next ((s.modGraph h p).completed key (c.advance 8))
    (∀ g, s.graph? c.graph = some g → actor < g.actors.length →
      (Operands s key c [sB .g x] [] → ∀ t, t = (c.rg x.b.toNat).toNat % 512 → t ≤ 383 → Map.get 0 s.tileOwner t = c.part + 1 →
        placed (.placePin x) g.handle (fun g => { g with pins := Map.insert g.pins actor t }) ∧
        placed (.placeHint x) g.handle (fun g => { g with hints := Map.insert g.hints actor t })) ∧
      placed (.placeFree x) g.handle fun g => { g with pins := Map.erase g.pins actor, hints := Map.erase g.hints actor }) ∧
    (Operands s key c [sA x, sB .g x] [] → ∀ g o k pid, k = (c.rg x.b.toNat).toNat % 2 ^ 14 → pid = (c.rg x.a.toNat).toNat % 2 ^ 20 →
      s.graph? c.graph = some g → s.ctx? k = some o → o.graph = g.handle → Map.get 0 s.tileOwner (tileOf k) = c.part + 1 →
      placed (.placeOwn x) g.handle fun g => { g with owners := (g.owners.filter fun e => !(e.1 == o.actor && e.2.1 == pid)) ++ [(o.actor, pid, k)] }) ∧
    (Operands s key c [sA x] [gDst x.d.toNat] → s.noAccess key → s.issueRoom key f → (c.rg x.a.toNat).toNat % 8 = 0 →
      (∀ bs s2, loadAt (s.acquireWays key 5) key c (c.rg x.a.toNat).toNat 8 = .ok (bs, s2) →
        Claims.later s key c f (.lstatLaunch x) x.d.toNat (wd (leNat bs)) fun t => t.mem = s.mem) ∧
      (∀ pa g, placeOf s key c (c.rg x.a.toNat).toNat 8 .r = .ok (.dram pa) → s.graph? (pa + 1) = some g →
        Claims.later s key c f (.lstatGraph x) x.d.toNat (wd (s.graphWord g)) fun t => t.mem = s.mem ∧ t.graphs = (s.progress c.graph).graphs))

/-- NOTIFY moves the tail of a host-fed queue forward or marks ERROR and interrupts the host; QUEUE_MAP gives the queue that waits longest a free slot,
QUEUE_UNMAP takes the one idle longest out; RECORD_FETCH puts the record at HEAD into the window, or ends it at once (R207 to R214). -/
def Claims.submissionEvents : Prop :=
  (∀ (s : State) (doorbell tail : Nat) (q : Subq), (s.subqs.find? fun q => !q.deviceFed && q.doorbell == doorbell) = some q →
    let n := tail % 2 ^ 32
    let d := (n + 2 ^ 32 - q.tail) % 2 ^ 32
    ∃ t, exec (.notify doorbell tail) s = .next t ∧ t.ctxs = s.ctxs ∧
      (q.size < (n + 2 ^ 32 - q.head) % 2 ^ 32 → t.irqs = s.irqs ++ [.notifyRange doorbell] ∧
        ∀ y ∈ t.subqs, y.addr = q.addr → y.error = true) ∧
      ((n + 2 ^ 32 - q.head) % 2 ^ 32 ≤ q.size → t.irqs = s.irqs ∧ ∃ y ∈ t.subqs, y.addr = q.addr ∧ y.head = q.head ∧
        y.tail = (if 0 < d ∧ d < 2 ^ 31 then n else q.tail) ∧ y.pending = (q.pending || q.slot.isNone || (s.part q.part).paused))) ∧
  (∀ (s : State) (qsb : Nat) (q : Subq), s.subq? qsb = some q →
    (q.wantsSlot = true → (∀ y ∈ s.subqs, y.wantsSlot = true → q.pendingAt ≤ y.pendingAt) → s.freeQueueSlots ≠ [] →
      ∃ t n q', exec (.queueMap qsb) s = .next t ∧ n ∈ s.freeQueueSlots ∧ t.subq? qsb = some q' ∧ q'.slot = some n ∧ q'.pending = false ∧
        q'.tail = q.tail ∧ q'.head = q.head) ∧
    (q.unmappable = true → (∀ y ∈ s.subqs, y.unmappable = true → q.idleSince ≤ y.idleSince) →
      ∃ t q', exec (.queueUnmap qsb) s = .next t ∧ t.subq? qsb = some q' ∧ q'.slot = none ∧ q'.tail = q.tail ∧ q'.head = q.head) ∧
    (∀ ws : List Word, q.slot ≠ none → q.tear = 0 → q.window.length < 16 → q.head ≠ q.tail → ws.length = 16 →
      (∀ j < 16, ∃ w, wordAs s q.asid q.part (q.base + 128 * (q.head % q.size) + 8 * j) = .ok w ∧ ws[j]? = some (wd w)) →
      let l : Launch := { words := ws, qsb := qsb, index := q.head, part := q.part, asid := q.asid,
                          prio := Nat.min (bits (ws.getD 1 0).toNat 2 0) q.maxprio, order := s.fresh }
      ∃ t q', exec (.recordFetch qsb) s = .next t ∧ t.subq? qsb = some q' ∧ q'.head = (q.head + 1) % 2 ^ 32 ∧ q'.tail = q.tail ∧
        q'.window = if q.withdrawn.contains q.head || (s.recordCause l).isSome then q.window else q.window ++ [l]))

/-- Placement, status and submission. -/
def Obligations.Submissions : Prop := Claims.placementAndStatus ∧ Claims.submissionEvents

/-- LAUNCH_DISPATCH starts the launch that is chosen: no dispatchable one has a higher priority, it leaves its window, its graph runs it, and every consumer of
the start edge gets the record as a token of four link words; LAUNCH_END of a graph at rest clears the running mark, and does nothing while it is not, while
a write of the launch is still on its way, or while a firing of an aborted launch runs; GRAPH_DRAIN_LIMIT_EXPIRY ends a drain whose limit has come (R215 to
R219, R230). What an end waits for is the model's choice (logs 85, 88). -/
def Claims.launchEvents : Prop :=
  (∀ (s : State) (l : Launch) (p served : Nat) (g : Graph), s.chosen = some (l, p, served) → s.graphOf l = some g →
    (∀ m ∈ s.dispatchables, m.prio ≤ l.prio) ∧ l ∈ s.dispatchables ∧
    ∃ t, exec .launchDispatch s = .next t ∧ t.rrPart = p ∧ t.rrServed = served ∧ (∀ q ∈ t.subqs, q.addr = l.qsb → ∀ m ∈ q.window, m.order ≠ l.order) ∧
      (∀ g' ∈ t.graphs, g'.handle = g.handle → ∃ r, g'.running = some r ∧ r.words = l.words ∧ r.qsb = l.qsb ∧ r.index = l.index ∧ r.loadedAt = g.loads) ∧
      (l.redundant = false → ∀ n d k y q, (n, d) ∈ g.edgesWhere (fun d => d.pact == 255) → y.actor = d.cact →
        ((s.allInstances g.handle).filter fun e => e.1 == k) = [(k, y)] → s.queue? g.handle n k = some q →
        ∃ q', t.queue? g.handle n k = some q' ∧ q'.transit = q.transit ++ [startToken l k 0] ∧ q'.fifo = q.fifo ∧
          q'.credits = q.credits + q.returning - 4)) ∧
  (∀ (l : Launch) (k : Nat), l.words.length = 16 → (startToken l k 0).words.length = 4 ∧ (startToken l k 0).slots = 4 ∧
    ∀ j < 4, ∀ i < 4, ∃ w, (startToken l k 0).words[j]? = some w ∧ l.words[4 * j + i]? = some (w.data.extractLsb' (64 * i) 64)) ∧
  (∀ s : State, s.dispatchables = [] → exec .launchDispatch s = .next s) ∧
  (∀ (s : State) (h : Nat) (g : Graph) (l : Launch), s.graph? h = some g → g.running = some l →
    (s.unsettled h = true → exec (.launchEnd h) s = .next s) ∧
    (s.unsettled h = false → l.replayDue = false →
      (l.aborted = true → s.firingRuns h = true → exec (.launchEnd h) s = .next s) ∧
      (l.aborted = false → l.unsafeEnd = false → l.failed = none → s.quiet h = false → exec (.launchEnd h) s = .next s) ∧
      (l.aborted = false → l.unsafeEnd = false → l.failed = none → s.quiet h = true → l.redundant = false →
        ∃ t, exec (.launchEnd h) s = .next t ∧ ∀ g' ∈ t.graphs, g'.handle = h → g'.running = none))) ∧
  (∀ (s : State) (h n : Nat) (g : Graph), s.graph? h = some g → g.drainBy = some n → g.state = .draining → (s.part g.part).paused = false →
    (n ≤ s.ticks → s.unsettled h = false → ∃ t, exec (.graphDrainLimitExpiry h) s = .next t ∧ ∀ g' ∈ t.graphs, g'.handle = h → g'.state = .drained ∧ g'.drainBy = none) ∧
    (s.ticks < n → exec (.graphDrainLimitExpiry h) s = .next s))

/-- FIRING_DISPATCH takes the context of the strand with the oldest stamp: one without a firing in flight begins a firing at the code pointer of its selected
entry, with its binding held; one with a firing gets a speculative firing behind it, and no committed state changes. TEMPLATE_REWRITE pairs a producer
without a firing in flight and leaves one with a firing, and one that has its pair; CURATOR_INTERVAL changes no graph's state and takes no context away that has a firing
(R113, R119 to R122, R126, R220, R221). The state on which a speculative firing starts is the model's reading (log 13). -/
def Claims.firingEvents : Prop :=
  (∀ (s : State) (strand key n : Nat) (c : Ctx) (b : Binding), oldest (s.candidates strand) = some (key, c, n) →
    let pc := (c.guard n).1 &&& 0x000FFFFFFFFFFFFF
    s.boundNow c.asid (cpSlot pc) = some b → cpOffset pc < b.len →
    (∀ e ∈ s.candidates strand, c.stamp ≤ e.2.1.stamp) ∧
    (c.firing ≠ none →
      ∃ t x, exec (.firingDispatch strand) s = .next t ∧ t.mem = s.mem ∧ t.queues = s.queues ∧
        (∃ c', t.ctx? key = some c' ∧ c'.uncounted = Ctx.uncounted { c with stamp := s.cycle + 1 }) ∧ t.specs = s.specs ++ [x] ∧ x.key = key ∧ x.start = pc ∧ x.ended = false ∧
        x.view.firing = some { pc := pc, serial := s.fresh, entry := n, refs := [{ asid := b.asid, slot := b.slot, gen := b.gen }] }) ∧
    (c.firing = none → ∃ t c', exec (.firingDispatch strand) s = .next t ∧ t.mem = s.mem ∧ t.cycle = s.cycle + 1 ∧ t.fresh = s.fresh + 1 ∧ t.ctx? key = some c' ∧
      c'.firing = some { pc := pc, serial := s.fresh, entry := n, refs := [{ asid := b.asid, slot := b.slot, gen := b.gen }] } ∧
      c'.stamp = s.cycle + 1 ∧ c'.g = c.g ∧ c'.v = c.v ∧ c'.guards = c.guards ∧ c'.flags = c.flags)) ∧
  (∀ (s : State) (strand : Nat), s.candidates strand = [] → exec (.firingDispatch strand) s = .next { s with cycle := s.cycle + 1 }) ∧
  (∀ (s : State) (key : Nat) (c : Ctx), s.ctx? key = some c →
    (c.firing ≠ none → exec (.templateRewrite key) s = .next s) ∧
    (∀ g n d o, c.inFlight = false → s.graph? c.graph = some g → g.edgesWhere (fun d => d.pact == c.actor) = [(n, d)] →
      s.partnerOf g d key c = some o →
      (g.pairOf n key = some o → exec (.templateRewrite key) s = .next s) ∧ (g.pairOf n key ≠ some o → ∃ t, exec (.templateRewrite key) s = .next t ∧ t.mem = s.mem ∧ t.ctx? key = some (c.retag d.pq (slotOf o)) ∧
        ∀ g' ∈ t.graphs, g'.handle = g.handle → (n, key, o) ∈ g'.pairs ∧ ∀ p ∈ g'.pairs, p.1 = n → p.2.1 = key → p.2.2 = o))) ∧
  (∀ s : State, ∃ t, exec .curatorInterval s = .next t ∧ (s.ticks < s.curated + 1000 → t = s) ∧
    (∀ g ∈ t.graphs, ∃ g0 ∈ s.graphs, g.handle = g0.handle ∧ g.state = g0.state ∧ g.running.isSome = g0.running.isSome ∧ g.actors = g0.actors ∧ g.edges = g0.edges) ∧
    ∀ key c, s.ctx? key = some c → c.firing ≠ none → ∃ c', t.ctx? key = some c' ∧ c'.firing = c.firing ∧ c'.g = c.g ∧ c'.v = c.v)

/-- Launches and firings. -/
def Obligations.LaunchesAndFirings : Prop := Claims.launchEvents ∧ Claims.firingEvents

/-- COPY_TOKEN_PUSH pushes the next elements of a record whose destination is a port; COPY_RECORD_COMPLETION moves the elements of any other record that are
not moved yet, and completes as its CKIND says; a run without a chain is then done, a chain clears OWN and goes on to NEXT; a chain at a record that it does
not own stops and counts; a record one of whose banks has been switched ends with a fault of its issuer (R242, R261 to R266). That a record is read again at
every step, that a copy waits while a bank or way is busy, which warnings stand, and the single step of an arrival word's credits are the model's choice (logs
71, 104, 118, 72). -/
def Claims.copyEvents : Prop :=
  ∀ (s : State) (id : Nat) (r : CopyRun) (c : Ctx) (x : CopyRec), (s.copies.find? fun r => r.id == id) = some r → (s.owner? r.ctx).map r.issuer = some c →
    (∀ p ∈ s.repairs, p.2.2.op.ctx ≠ r.ctx) →
    let warn : Word := if (List.range x.count).any fun n => x.clipped (copyIndex x.dims n) then wClip else 0
    (∀ va, s.storageBusy = false → r.cut = some va → exec (.copyRecordCompletion id) s =
      .next ((s.dropCopy id).asyncFault r.ctx { cause := cProtection, info := wd va, addr := wd r.record } r.pc r.word)) ∧
    (s.storageBusy = false → r.cut = none → readRecord s r c = .ok x →
    (∀ cs s1, x.dkind = 1 → r.pushed < x.tokens → (r.chain = true → x.own = true) → checkRecord s r.ctx c x r.record = none →
      copyCodes s r.ctx c x ((List.range (Nat.min x.perToken (x.count - r.pushed * x.perToken))).map fun j => r.pushed * x.perToken + j) = .ok cs →
      agentPush s r.ctx c x.dstq (x.eos && r.pushed + 1 == x.tokens) (linkWords x.fmt cs) = .ok (.done s1) → s1.copies = s.copies →
      ∃ t, exec (.copyTokenPush id) s = .next t ∧ t.mem = s1.mem ∧ t.queues = s1.queues ∧
        t.copies = s.copies.map fun y => if y.id = r.id then { r.begun x with pushed := r.pushed + 1, warn := r.warn ||| s.spillWarn s1 } else y) ∧
    (∀ s1 s2, x.dkind ≠ 1 → checkRecord s r.ctx c x r.record = none → moveRecord s r.ctx c x r.moved = (s1, none) →
      completeKind s1 r c x warn = .ok s2 →
      (r.chain = false →
        ∃ t, exec (.copyRecordCompletion id) s = .next t ∧ t.mem = s2.mem ∧ t.asyncDone = s2.asyncDone ∧ ∀ y ∈ t.copies, y.id ≠ r.id) ∧
      (∀ s3, r.chain = true → x.own = true → x.next % 64 = 0 → x.next ≠ 0 → agentWrite s2 r.ctx c (r.record + 232) (leBytes 8 0) = .ok s3 →
        ∃ t, exec (.copyRecordCompletion id) s = .next t ∧ t.mem = s3.mem ∧ t.copies = s3.copies.map fun y => if y.id = r.id then
          { r with record := x.next, done := r.done + 1, pushed := 0, moved := 0, banks := [], warn := r.warn ||| warn } else y)) ∧
    (r.chain = true → x.own = false →
      ∃ t, exec (.copyRecordCompletion id) s = .next t ∧ t.mem = s.mem ∧ (∀ y ∈ t.copies, y.id ≠ id) ∧
        t.asyncDone = s.asyncDone ++ [{ id := s.fresh, ctx := r.ctx, ev := some r.ev, warn := r.warn }]))

/-- Copies from their issue to their end. -/
def Obligations.CopiesRun : Prop := Claims.copiesStart ∧ Claims.copyEvents

/-! ## Isolation -/

/-- ASSET and TLBINV by a context that may name the partition: ASSET .make, .root and .kill change one ASID and give it, .self changes %asid alone, and TLBINV
goes in flight as a release with its operands captured; a foreign partition from S is refused (R358, R365, R374 to R376). That ASSET .self waits for a TLBINV
on its way and what ASSET .kill removes are the model's reading (logs 92, 94). -/
def Claims.addressSpaceInstructions : Prop :=
  ∀ (s : State) (key : Nat) (c : Ctx) (f : Firing) (x : SForm), Issuing s key c f → c.guardOn x.kg → c.priv ≠ .u →
    let p := x.imm.toNat % 64
    let asid := (c.rg x.a.toNat).toNat % 8192
    let b := c.rg x.b.toNat
    let later (i : Instr) (r : Word) (P : State → Prop) : Prop := Claims.later s key c f i x.d.toNat r P
    ((c.priv = .f ∨ c.part = p) → s.noAccess key → s.issueRoom key f → asid < 8128 →
      (Operands s key c [sA x, sB .g x] [gDst x.d.toNat] → b.toNat % 4096 = 0 →
        ((s.asid asid).live = false → (s.part p).isOpen = true → s.liveAsids p < (s.part p).quota →
          later (.assetMake x) (wd asid) fun t => t.mem = s.mem ∧ t.asids = (s.setAsid asid { live := true, part := p, root := b.toNat }).asids) ∧
        (s.asidOf asid p = true →
          later (.assetRoot x) (wd asid) fun t => t.mem = s.mem ∧ t.asids = (s.setAsid asid { s.asid asid with root := b.toNat }).asids)) ∧
      (Operands s key c [sA x] [gDst x.d.toNat] → s.asidOf asid p = true → s.asidInUse asid = false →
        later (.assetKill x) (wd asid) fun t => t.mem = s.mem ∧ t.asids = (s.setAsid asid {}).asids ∧ (∀ n ∈ t.bindings, n.asid = asid → n.released = true ∧ s.referenced asid n.slot n.gen = true) ∧
          (∀ e ∈ t.tlb, e.asid ≠ asid) ∧ ∀ g ∈ t.graphs, g.asid ≠ asid)) ∧
    (Operands s key c [sA x] [] → c.priv = .s → c.part = p → s.noAccess key → (∀ o ∈ s.ops, o.ctx = key → o.kind ≠ .tlbinv) → s.asidOf asid p = true →
      exec (.assetSelf x) s = .next (s.completed key (Ctx.advance { c with asid := asid } 8))) ∧
    (Operands s key c [sD x, sB .g x, sA x] [] → (c.priv = .f ∨ c.part = p) → (c.rg x.a.toNat).toNat % 65536 = 0 → bits b.toNat 31 13 = 0 →
      let sent (i : Instr) : Prop := exec i s = .next ((s.send (s.opOf key f (captured i [sD x, sB .g x, sA x] x.kg.toNat c f) .tlbinv [] []
        (c.rg x.d.toNat).toNat x.sc.toNat 2)).completed key (c.advance 8))
      (s.asidOf (b.toNat % 8192) p = true → sent (.tlbinvVa x) ∧ sent (.tlbinvAsid x)) ∧ sent (.tlbinvIpa x) ∧ sent (.tlbinvPart x)) ∧
    (c.priv = .s → c.part ≠ p → s.noAccess key → s.issueRoom key f → Operands s key c [sA x] [gDst x.d.toNat] →
      ∃ t c' info, exec (.assetKill x) s = .next t ∧ Claims.movedOn t key c f 8 c' ∧ t.asids = s.asids ∧ t.mem = s.mem ∧ c'.g = c.g ∧
        ∃ o ∈ t.ops, o.ctx = key ∧ o.dstG = [x.d.toNat] ∧ o.kind = .fault cProtection info 0)

/-- PARTCFG by firmware: .open creates the partition with its supervisor context, .shut closes an empty one, .assign gives or takes a clear tile, .ways the
ways of a cluster, and .share, .gang and .hostwin set what they name; .qbank, .qsb and .qdel by the partition's supervisor or firmware (R367 to R371, R377).
The supervisor's context that .open makes, the alignment of its root and that the block of .gang and .qsb is read as the issuer reads memory are the model's
choice (logs 39, 40, 74); which %trapinfo a refusal has is free (log 92). -/
def Claims.partitionInstructions : Prop :=
  ∀ (s : State) (key : Nat) (c : Ctx) (f : Firing) (x : SForm), Issuing s key c f → c.guardOn x.kg → s.noAccess key → s.issueRoom key f →
    let p := x.imm.toNat % 64
    let a := (c.rg x.a.toNat).toNat
    let b := (c.rg x.b.toNat).toNat
    let part := s.part p
    let later (i : Instr) (P : State → Prop) : Prop := Claims.later s key c f i x.d.toNat 1 P
    (c.priv = .f → Operands s key c [sA x, sB .g x] [gDst x.d.toNat] →
      (a % 4096 = 0 → part.isOpen = false → s.quotas + b % 8192 ≤ 8128 → key ≠ supervisorOf p →
        later (.partcfgOpen x) fun t =>
          t.parts = (s.setPart p { part with isOpen := true, root := a, quota := b % 8192, hostwin := bits b 13 13 == 1 }).parts ∧
          t.asids = (s.setAsid (8128 + p) { live := true, part := p }).asids ∧ 
          ∃ n, t.ctx? (supervisorOf p) = some { newSupervisor s p with stamp := n }) ∧
      (a < 384 → (Map.get 0 s.tileOwner a = 0 ∨ Map.get 0 s.tileOwner a = p + 1) → s.tileBusy a = false → s.tileOut a = false →
        (s.fifoBanks a = 0 ∨ s.liveBanks a = 0) →
        later (.partcfgAssign x) fun t => t.tileOwner = Map.set 0 s.tileOwner a (if b % 2 = 1 then p + 1 else 0) ∧
          t.mem = (s.flushWays a fun _ => true).mem) ∧
      (a < 48 → Map.risesFrom 0 s.wayOwner = true →
        later (.partcfgWays x) fun t => t.mem = s.mem ∧ ∀ n, Map.get 0 t.wayOwner n =
          if n / 16 = a ∧ b / 2 ^ (n % 16) % 2 = 1 ∧ Map.get 0 s.wayOwner n ≠ 65 then (if bits b 16 16 = 1 then 0 else p + 1) else Map.get 0 s.wayOwner n)) ∧
    (c.priv = .f → Operands s key c [] [gDst x.d.toNat] → part.isOpen = true → s.owns p = false → s.liveAsids p = 0 → key ≠ supervisorOf p →
      (∀ e ∈ s.engines, e.2.holder ≠ some (supervisorOf p)) → (∀ o ∈ s.ops, o.ctx ≠ supervisorOf p) →
      later (.partcfgShut x) fun t => t.parts = (s.setPart p {}).parts ∧ t.asids = (s.setAsid (8128 + p) {}).asids ∧ ∀ e ∈ t.tlb, e.part ≠ p) ∧
    (c.priv = .f → Operands s key c [sA x] [gDst x.d.toNat] →
      (let others := s.parts.foldl (fun n e => if e.1 != p then n + e.2.share else n) 0
       bits a 14 8 ≠ 0 → bits a 14 8 ≤ 64 → others + bits a 7 0 ≤ 256 →
        later (.partcfgShare x) fun t => t.mem = s.mem ∧ t.parts = (s.setPart p { part with share := bits a 7 0, weight := bits a 14 8 }).parts) ∧
      (∀ epoch slice s1, a % 8 = 0 → loadWords s key c a 2 = .ok ([epoch, slice], s1) → (slice = 0 ∨ (500 ≤ slice ∧ slice ≤ 100000)) →
        later (.partcfgGang x) fun t => t.mem = s.mem ∧
          t.parts = (s.setPart p { part with gang := if slice = 0 then none else some (epoch, slice), gangDone := gangPast epoch slice s.ptp }).parts)) ∧
    (c.priv = .f → Operands s key c [sB .g x] [gDst x.d.toNat] →
      later (.partcfgHostwin x) fun t => t.mem = s.mem ∧ t.parts = (s.setPart p { part with hostwin := b % 2 == 1 }).parts ∧ ∀ e ∈ t.tlb, e.part ≠ p) ∧
    ((c.priv = .f ∨ (c.priv = .s ∧ c.part = p)) →
      (Operands s key c [sA x, sB .g x] [gDst x.d.toNat] → a < 384 → Map.get 0 s.tileOwner a = p + 1 →
        (∀ n < 24, s.bankMode a n = 2 → b / 2 ^ n % 2 = 1) →
        later (.partcfgQbank x) fun t => t.mem = s.mem ∧ t.queueBanks = Map.set 0 s.queueBanks a (BitVec.ofNat 24 b)) ∧
      (Operands s key c [sA x] [gDst x.d.toNat] → a % 128 = 0 → ∀ pa, translateFor s key c a .w = .ok pa →
        (∀ q, s.dramBad pa 128 = false → newSubq s p pa ((List.range 16).map fun j => leNat (Memory.readBytes s.mem (pa + 8 * j) 8)) = some q →
          later (.partcfgQsb x) fun t => ∃ q', t.subq? pa = some q' ∧ q'.base = q.base ∧ q'.logsize = q.logsize ∧ q'.part = p ∧ q'.asid = q.asid ∧
            q'.deviceFed = q.deviceFed ∧ q'.doorbell = q.doorbell ∧ q'.head = 0 ∧ q'.tail = 0) ∧
        (∀ q, s.subq? pa = some q → q.part = p → q.tail = q.head → q.slot = none →
          later (.partcfgQdel x) fun t => t.mem = s.mem ∧ t.subq? pa = none)))

/-- QUOTE writes the quote of a partition over its 64-byte nonce, 1,568 bytes, and gives that number (R378); HOST_READ and HOST_WRITE of an open window of an open
partition read and write the bytes that its stage 2 names, and answer with an error outside it, with no effect on memory (R371). In the notify window a read of a
queue's PROGRESS gives the snapshot of its last commit, and a write of its NOTIFY is a notify (R207); in the management window a read gives the register, and a write
of RETMAP, FWADDR, FWLEN, CKMASK or CKBASE stores it. The addresses of the windows are the model's choice (log 120). -/
def Claims.quoteAndHostWindows : Prop :=
  (∀ (s : State) (key : Nat) (c : Ctx) (f : Firing) (x : SForm) (ws : List Nat) (s1 s2 : State), Issuing s key c f → c.guardOn x.kg → s.noAccess key →
    s.issueRoom key f → Operands s key c [sA x, sB .g x] [gDst x.d.toNat] →
    let p := x.imm.toNat % 64
    let a := (c.rg x.a.toNat).toNat
    let b := (c.rg x.b.toNat).toNat
    (c.priv = .f ∨ (c.priv = .s ∧ c.part = p)) → a % 64 = 0 → b % 64 = 0 → loadWords s key c a 8 = .ok (ws, s1) →
    let body := quoteBody s1 p (ws.flatMap fun w => leBytes 8 w)
    (body ++ signatureBytes body).length = 1568 ∧
    (agentStore s1 key c b (body ++ signatureBytes body) = (s2, none) → s2.ctx? key = some c → s2.ops = s.ops → s2.cur = some key →
      Claims.later s key c f (.quote x) x.d.toNat 1568 fun t => t.mem = s2.mem)) ∧
  (∀ (s : State) (addr n : Nat) (bytes : List Byte), hostPlace addr = .partition → (s.part (hostPart addr)).paused = false →
    (hostPas s addr n .r = none → exec (.hostRead addr n) s = .next { s with hostResp := .error }) ∧
    (hostPas s addr bytes.length .w = none → exec (.hostWrite addr bytes) s = .next { s with hostResp := .error }) ∧
    (∀ pas, hostPas s addr n .r = some pas → (∀ pa ∈ pas, s.dramBad pa 1 = false) →
      exec (.hostRead addr n) s = .next { s with hostResp := .data (pas.map (Memory.read s.mem)) }) ∧
    (∀ pas, hostPas s addr bytes.length .w = some pas → Memory.wf s.mem = true → (∀ pa ∈ pas, pa < 2 ^ 38) → pas.Nodup →
      ∃ t, exec (.hostWrite addr bytes) s = .next t ∧ t.hostResp = .written ∧ t.ctxs = s.ctxs ∧
        (∀ j (h : j < pas.length) (h' : j < bytes.length), Memory.read t.mem pas[j] = bytes[j]) ∧
        ∀ pa, pa ∉ pas → Memory.read t.mem pa = Memory.read s.mem pa) ∧
    ((s.part (hostPart addr)).isOpen = false ∨ (s.part (hostPart addr)).hostwin = false → hostPas s addr n .r = none ∧ hostPas s addr n .w = none)) ∧
  (∀ (s : State) (q : Subq), (s.subqs.find? fun x => !x.deviceFed && x.doorbell == q.doorbell) = some q → q.doorbell < 2 ^ 16 →
    exec (.hostRead (2 ^ 55 + 2 ^ 19 + 8 * q.doorbell) 8) s = .next { s with hostResp := .data (leBytes 8
      (q.snapHead % 2 ^ 32 + b2n q.snapResident * 2 ^ 32 + b2n q.snapPending * 2 ^ 33)) } ∧
    ∀ n t, exec (.notify q.doorbell n) s = .next t → n < 2 ^ 32 →
      exec (.hostWrite (2 ^ 55 + 8 * q.doorbell) (leBytes 8 n)) s = .next { t with hostResp := .written }) ∧
  (∀ (s : State) (w : Word) (reg : Nat), reg ∈ [0x008, 0x010, 0x018, 0x108, 0x110] → exec (.hostRead (2 ^ 56 + reg) 8) s =
      .next { s with hostResp := .data (leBytes 8 (s.mgmt.word reg)) } ∧
    ∃ t, exec (.hostWrite (2 ^ 56 + reg) (leBytes 8 w.toNat)) s = .next t ∧ t.hostResp = .written ∧ t.mem = s.mem ∧ t.ctxs = s.ctxs ∧
      t.mgmt.word reg = (if reg = 0x010 then w.toNat % 2 ^ 32 else if reg = 0x110 then w.toNat / 4096 * 4096 else w.toNat))

/-- The system group. -/
def Obligations.AddressSpaces : Prop := Claims.addressSpaceInstructions ∧ Claims.partitionInstructions ∧ Claims.quoteAndHostWindows

/-! ## Traps, recovery and switching -/

/-- What stands in the frame of a trap that an instruction raises at issue (R383, R385, R386). -/
def Claims.frameOf (fr : Frame) (f : Firing) (i : Instr) (t : Trap) (user : Bool) : Prop :=
  fr.cause = t.cause ∧ fr.info = t.info ∧ fr.user = user ∧ fr.async = false ∧ fr.delayed = false ∧ fr.fpc = f.pc ∧ fr.fword = instrWord i ∧
    fr.rpc = (if t.after then f.pc + wd (instrLen i) else f.pc) ∧
    fr.firing = some { f with wait := f.wait.map fun w => { w with seen := 0 }, stall := .none }

/-- The trap of an instruction forms a frame with its cause, %trapinfo, FPC, FWORD, RPC and an entry for every instruction of the firing that is still in
flight, and the firing stops. Where the context has a handler for the cause it runs next and no record is sent; otherwise the context is parked, and a record
of eight words goes to the supervisor of its partition, or to firmware for a supervisor; firmware without a handler starts again at its entry (R381 to R388).
Which instructions stand in the frame as entries, and that a hardware fault is judged here and acted on at the end of the launch, are the model's reading
(logs 28, 30); that firmware which starts again has the registers of a new context is its choice (log 25). -/
def Claims.trapEntry : Prop :=
  ∀ (s : State) (key : Nat) (c : Ctx) (f : Firing) (i : Instr) (t : Trap), Issuing s key c f → t.svc = false → t.free = false → t.park = false →
    ∀ s1 es c1, s.interruptOps key f.serial none = (s1, es) → s1.ctx? key = some c1 → c1.firing = some f → c1.frames = c.frames →
    let u := s.trapped key f i t
    (c.ownHandler t.cause false = true → ∃ c' fr, u.ctx? key = some c' ∧ c'.frames = fr :: c.frames ∧ Claims.frameOf fr f i t true ∧ fr.entries = es ∧
      c'.firing = none ∧ c'.parked = c.parked ∧ c'.trapcause = t.cause.setWidth 64 ∧ c'.trapinfo = t.info ∧ c'.g = c1.g ∧ c'.v = c1.v ∧ c'.k = c.k ∧
      c'.flags = c.flags ∧ u.records = s.records ∧ u.mem = s.mem) ∧
    (c.ownHandler t.cause false = false → c.priv ≠ .f → (c.priv = .u → hardwareCause t.cause t.info = false) →
      ∃ c' fr, u.ctx? key = some c' ∧ c'.frames = fr :: c.frames ∧ Claims.frameOf fr f i t false ∧ fr.entries = es ∧ c'.firing = none ∧ c'.parked = true ∧
        c'.trapcause = t.cause.setWidth 64 ∧ c'.trapinfo = t.info ∧ c'.g = c1.g ∧ c'.v = c1.v ∧ c'.k = c.k ∧ c'.flags = c.flags ∧ u.mem = s.mem ∧
        u.records = s.records ++ [{ target := if c.priv = .u then supervisorOf c.part else firmwareOf (dieOf key),
                                    words := [wd (t.cause.toNat + es.length * 2 ^ 8), handleOf key c, t.info, f.pc, instrWord i, t.syndrome, t.addr, t.gb.getD (wd s.ticks)] }]) ∧
    (∀ g l, c.ownHandler t.cause false = false → c.priv = .u → hardwareCause t.cause t.info = true → s.graph? c.graph = some g → g.running = some l →
      ∃ c', u.ctx? key = some c' ∧ c'.firing = none ∧ c'.aborted = true ∧ c'.frames = c.frames ∧ u.mem = s.mem ∧
        ∀ g' ∈ u.graphs, g'.handle = g.handle → g'.running = some (l.judge t.cause)) ∧
    (c.ownHandler t.cause false = false → c.priv = .f → ∃ c', u.ctx? key = some c' ∧ c'.frames = [] ∧ u.records = s.records ∧ u.mem = s.mem ∧
      ∃ f', c'.firing = some f' ∧ f'.pc = c.entry)

/-- The causes that a context at U takes in its own handler, once %trapvec is set and it is in none (R381). -/
def Claims.ownHandlerCauses : Prop :=
  ∀ (c : Ctx) (cause : BitVec 8), c.inHandler = false →
    (c.trapvec = 0 → c.ownHandler cause false = false) ∧
    (c.trapvec ≠ 0 → c.priv = .u → (c.ownHandler cause false = true ↔
      cause ∈ [cRegisterEmpty, cAlignment, cTargetGated, cCounterOverflow, cQueueState, cLeaseLost, cBoundExceeded, cArith, cSoftware])) ∧
    (c.trapvec ≠ 0 → c.priv = .s ∨ c.priv = .f → c.ownHandler cause false = true) ∧
    ∀ d : Ctx, d.inHandler = true → d.ownHandler cause false = false

/-- Taking a trap. -/
def Obligations.TrapEntry : Prop := Claims.trapEntry ∧ Claims.ownHandlerCauses

/-- TRAP raises SOFTWARE with its number once it has completed; SVC raises it in the supervisor with its operands in the record, its destination empty and
supplied by the supervisor; RESUME .self ends a handler and continues the interrupted firing at RPC with the replay queue; RESUME .ctx does so for a parked
context of the issuer's partition (R379, R391, R392). That a resumed context acquires and continues with its replay queue before its own instructions is the
model's reading (log 33). -/
def Obligations.TrapAndResume : Prop :=
  ∀ (s : State) (key : Nat) (c : Ctx) (f : Firing) (x : SForm), Issuing s key c f →
    (c.guardOn x.kg → Operands s key c [] [] →
      exec (.trap x) s = .next (s.trapped key f (.trap x) { cause := cSoftware, info := wd x.imm.toNat, after := true }) ∧
      ((c.priv = .f → c.ownHandler cSoftware false = true) → (∀ o ∈ s.ops, o.ctx ≠ key) → ∃ t c' fr, exec (.trap x) s = .next t ∧ t.ctx? key = some c' ∧ c'.frames = fr :: c.frames ∧
        fr.cause = cSoftware ∧ fr.info = wd x.imm.toNat ∧ fr.info.getLsbD 12 = false ∧ c'.trapinfo = wd x.imm.toNat ∧ fr.rpc = f.pc + 8 ∧
        fr.entries = [] ∧ c'.g = c.g ∧ c'.v = c.v ∧ t.mem = s.mem)) ∧
    (c.guardOn x.kg → Operands s key c [sA x, sB .g x] [gDst x.d.toNat] → s.noAccess key → s.issueRoom key f → c.priv = .u →
      ∀ s1 es c1, s.interruptOps key f.serial none = (s1, es) → s1.ctx? key = some c1 → c1.firing = some f → c1.frames = c.frames →
      ∃ t c' fr e, exec (.svc x) s = .next t ∧ t.ctx? key = some c' ∧ c'.parked = true ∧ c'.firing = none ∧ c'.frames = fr :: c.frames ∧
        fr.cause = cSoftware ∧ fr.info = wd (x.imm.toNat + 2 ^ 12) ∧ fr.user = false ∧ fr.rpc = f.pc + 8 ∧ fr.entries = es ++ [e] ∧ e.dstG = [x.d.toNat] ∧
        c'.emptyG x.d.toNat = true ∧ c'.g = c1.g ∧
        t.records = s.records ++ [{ target := supervisorOf c.part, words := [wd (cSoftware.toNat + (es.length + 1) * 256), handleOf key c, wd (x.imm.toNat + 2 ^ 12), f.pc,
                                                                            instrWord (.svc x), 0, c.rg x.a.toNat, c.rg x.b.toNat] }]) ∧
    (∀ top rest, f.handler = true → c.frames = top :: rest →
      exec (.resumeSelf x) s = .next (s.completed key (c.resumeFrame top rest).calm)) ∧
    (f.handler = false → exec (.resumeSelf x) s = .next (s.trapped key f (.resumeSelf x) { cause := cProtection, free := true })) ∧
    (∀ k y, c.priv ≠ .u → Operands s key c [sA x] [] → s.noAccess key → s.parkedBy c (c.rg x.a.toNat) = some (k, y) → k ≠ key →
      ∃ t c' y', exec (.resumeCtx x) s = .next t ∧ Claims.movedOn t key c f 8 c' ∧ c'.g = c.g ∧ t.ctx? k = some y' ∧ y'.parked = false ∧ y'.g = y.g ∧
        (∀ top rest, y.frames = top :: rest → y'.frames = rest ∧ y'.replay = top.entries ∧
          y'.firing = top.firing.map fun r => { r with pc := top.rpc }))

/-- RQRD gives a field of the innermost frame of the issuer or of a parked context, and RQWR writes one: MODE, an operand, a supplied value, or RPC within a
binding that the firing holds; CKPT names the checkpoint table, and stops the firing while a full switch waits on its tile (R393, R394, R400). That RQWR of a
g operand keeps the low 64 bits, that an RPC's high bits are ignored, and that CKPT stops the firing at its own offset are the model's reading (logs 35, 36);
which handles name a parked context is its choice (log 32). -/
def Claims.frameAccess : Prop :=
  ∀ (s : State) (key : Nat) (c : Ctx) (f : Firing) (x : SForm), Issuing s key c f → c.guardOn x.kg →
    let other := rqOther x
    let n := x.cnd.toNat
    (∀ k y top rest, (if other then c.priv ≠ .u ∧ s.parkedBy c (c.rg x.a.toNat) = some (k, y) ∧ k ≠ key else k = key ∧ y = c) → y.frames = top :: rest →
      (n < 5 ∨ rqEntry x < top.entries.length) →
      (Operands s key c (if other then [sA x] else []) [if fieldIsV n then vDst x.d.toNat else gDst x.d.toNat] →
        let value := top.field (decide (1 < y.frames.length)) (top.entries.getD (rqEntry x) { word := 0, pc := 0 }) n
        exec (.rqrd x) s = .next (s.completed key (Ctx.advance (if fieldIsV n then c.wv x.d.toNat value else c.wg x.d.toNat (value.setWidth 64)) 8))) ∧
      (Operands s key c ((if other then [sA x] else []) ++ [sB (if fieldIsV n then .v else .g) x]) [] →
        let b : VWord := if fieldIsV n then c.rv x.b.toNat else (c.rg x.b.toNat).setWidth 1024
        let put (top' : Frame) : Prop :=
          let y' : Ctx := { y with frames := top' :: rest }
          exec (.rqwr x) s = .next (if other then (s.setCtx k y').completed key (c.advance 8) else s.completed key (y'.advance 8))
        (n ≠ 4 → ¬ (n = 7 ∧ b.toNat % 4 = 3) → put { top with entries := putEntry (rqEntry x) n b top.entries }) ∧
        (∀ fr bd, n = 4 → let rpc := wd ((c.rg x.b.toNat).toNat % 2 ^ 52)
          rpc.toNat % 8 = 0 → top.firing = some fr → s.heldBinding fr (cpSlot rpc) = some bd → cpOffset rpc < bd.len →
          put { top with rpc := rpc, firing := some { fr with wait := none } }))) ∧
    (Operands s key c [sA x] [] → (c.rg x.a.toNat).toNat % 16 = 0 →
      (s.switching (tileOf key) = false → exec (.ckpt x) s = .next (s.completed key (Ctx.advance { c with ckpt := c.rg x.a.toNat } 8))) ∧
      (s.switching (tileOf key) = true → ∃ t c' fr, exec (.ckpt x) s = .next t ∧ t.mem = s.mem ∧ t.ctx? key = some c' ∧
        c'.ckpt = c.rg x.a.toNat ∧ c'.firing = none ∧ c'.stoppedAt = some f.pc ∧ c'.frames = fr :: c.frames ∧ fr.cause = 0 ∧ fr.rpc = f.pc + 8 ∧
        fr.entries = (s.interruptOps key f.serial none).2 ∧ ((∀ o ∈ s.ops, o.ctx ≠ key) → c'.g = c.g)))

/-- FAULT_RECORD_DELIVERY puts the oldest record for a context into its record queue; TRAP_HANDLER_DISPATCH begins the handler at %trapvec with a reference to
the present binding of its slot beside those of the interrupted firing, and raises ALIGNMENT where %trapvec is no multiple of 8 (R57); ASYNC_FAULT_DELIVERY
delivers the oldest pending fault as a trap with ASYNC set (R382, R384, R388). The form of a record's token and the place of a fault's frame without a firing
are the model's reading (logs 103, 29, 31); that a handler fetches from the binding that the interrupted firing holds where both name one slot is its choice
(log 125). -/
def Claims.trapEvents : Prop :=
  (∀ (s : State) (target : Nat) (r : PendingRecord) (q : Queue), (s.records.find? fun r => r.target == target) = some r → s.queue? 0 0 target = some q →
    s.firmwareBusy target = false →
    (2 ≤ q.credits + q.returning → ∃ t, exec (.faultRecordDelivery target) s = .next t ∧ t.ctxs = s.ctxs ∧ t.mem = s.mem ∧
      t.records = s.records.eraseP (fun x => x.target == target) ∧
      t.queue? 0 0 target = some { q with credits := q.credits + q.returning - 2, returning := 0, fifo := q.fifo ++ [recordToken target r.words] }) ∧
    (q.credits + q.returning < 2 → exec (.faultRecordDelivery target) s = .next s)) ∧
  (∀ (s : State) (key : Nat) (c : Ctx) (b : Binding) (fr : Frame) (rest : List Frame), s.ctx? key = some c → c.frames = fr :: rest → fr.user = true →
    c.firing = none → c.parked = false → c.aborted = false → inShadow key = false → s.switching (tileOf key) = false →
    let pc := c.trapvec &&& 0x000FFFFFFFFFFFFF
    let held : List BindRef := (fr.firing.map fun x => x.refs).getD []
    (pc.toNat % 8 ≠ 0 → c.priv ≠ .f → ∃ t c' fr', exec (.trapHandlerDispatch key) s = .next t ∧ t.mem = s.mem ∧ t.ctx? key = some c' ∧ c'.parked = true ∧
      c'.frames = fr' :: c.frames ∧ fr'.cause = cAlignment ∧ c'.firing = none ∧ c'.g = c.g) ∧
    (pc.toNat % 8 = 0 → s.boundNow c.asid (cpSlot pc) = some b → cpOffset pc < b.len →
    ∃ t c', exec (.trapHandlerDispatch key) s = .next t ∧ t.mem = s.mem ∧ t.ctx? key = some c' ∧ c'.frames = c.frames ∧ c'.g = c.g ∧
      c'.firing = some { pc := pc, serial := s.fresh, entry := 16, handler := true, refs := b.ref :: held.filter fun r => r != b.ref })) ∧
  (∀ (s : State) (key : Nat) (c : Ctx) (f : Firing) (p : PendingFault) (rest : List PendingFault), s.ctx? key = some c → c.pending = p :: rest →
    c.firing = some f → c.parked = false → c.aborted = false → c.inHandler = false → inShadow key = false → c.priv ≠ .f → (c.priv = .u → hardwareCause p.cause p.info = false) →
    ∃ t c' fr, exec (.asyncFaultDelivery key) s = .next t ∧ t.mem = s.mem ∧ t.ctx? key = some c' ∧ ((∀ e ∈ s.faultsWaiting, e.1 ≠ key) → c'.pending = rest) ∧ c'.firing = none ∧
      c'.frames = fr :: c.frames ∧ fr.cause = p.cause ∧ fr.info = p.info ∧ fr.async = true ∧ fr.fpc = p.fpc ∧ fr.fword = p.fword ∧ fr.rpc = f.pc ∧
      fr.entries = (s.interruptOps key f.serial none).2 ++ c.replay ∧ ((∀ o ∈ s.ops, o.ctx ≠ key) → c'.g = c.g))

/-- Frames and the events of traps. -/
def Obligations.FramesAndTrapEvents : Prop := Claims.frameAccess ∧ Claims.trapEvents

/-- SWAP .now exchanges the banks of a strand: every context of the strand is in the other bank, its firing stopped with a pre-emption frame that continues at
its pc, and the Archivist gets the descriptors. SWAP .stage puts descriptors aside, SWAP .full stops dispatch on a tile until its deadline; SPILLQ saves the
queues of a quiet graph, which are then empty, or puts them back (R395 to R397, R400 to R402). The checks of SWAP and what goes on in the bank that is left
are the model's choice (logs 97, 98), and so are the faults and the image of SPILLQ (log 52). -/
def Claims.switchingInstructions : Prop :=
  ∀ (s : State) (key : Nat) (c : Ctx) (f : Firing) (x : SForm), Issuing s key c f → c.priv ≠ .u → s.noAccess key →
    let a := (c.rg x.a.toNat).toNat
    let b := (c.rg x.b.toNat).toNat
    let d := (c.rg x.d.toNat).toNat
    (Operands s key c [sA x, sB .g x, sD x] [] → b % 128 = 0 → d % 128 = 0 →
      (a / 4 < 384 → (c.priv = .f ∨ Map.get 0 s.tileOwner (a / 4) = c.part + 1) →
        let job := SwapJob.whole key a d b []
        (¬ sameStrand key (strandKey a) = true → Map.risesFrom 0 s.ctxs = true → ∃ t c', exec (.swapNow x) s = .next t ∧ Claims.movedOn t key c f 8 c' ∧
          t.mem = s.mem ∧ c'.g = c.g ∧ job ∈ t.swaps ∧ (∀ j ∈ t.staged, j.strand ≠ a) ∧
          ∀ k y, k < 32768 → sameStrand k (strandKey a) = true → s.ctx? k = some y → (∀ o ∈ s.ops, o.ctx ≠ k) →
            ∃ y', t.ctx? (if inShadow k then k - 16384 else k + 16384) = some y' ∧ y'.g = y.g ∧ y'.v = y.v ∧
              (∀ r, inShadow k = false → y.firing = some r → y'.firing = none ∧ ∃ fr, y'.frames = fr :: y.frames ∧ fr.cause = 0 ∧ fr.rpc = r.pc)) ∧
        (∃ t, exec (.swapStage x) s = .next t ∧ t.ctxs = (s.completed key (c.advance 8)).ctxs ∧ t.mem = s.mem ∧
          t.staged = (s.staged.filter fun j => j.strand != a) ++ [job] ∧ { job with writing := [] } ∈ t.swaps)) ∧
      (a < 384 → (c.priv = .f ∨ Map.get 0 s.tileOwner a = c.part + 1) →
        ∃ t, exec (.swapFull x) s = .next t ∧ t.ctxs = (s.completed key (c.advance 8)).ctxs ∧ t.mem = s.mem ∧ t.switching a = true ∧
          { issuer := key, tile := a, incoming := d, outgoing := b, deadline := s.ticks + s.ckptTicks c } ∈ t.fullSwitches)) ∧
    (c.guardOn x.kg → Operands s key c [sA x, sB .g x] [gDst x.d.toNat] → b % 128 = 0 → ∀ pa g, graphAt s key c (c.rg x.a.toNat) = .ok (pa, some g) →
      s.spillBusy g.handle = false → (∀ q ∈ s.queues, q.graph = g.handle → q.transit = []) → c.graph = 0 → g.handle ≠ 0 →
      (∀ s2 n, spillSave s key c g (c.rg x.a.toNat) b = (s2, .ok n) → s2.ctx? key = some c → s2.ops = s.ops → s2.cur = some key → s.issueRoom key f →
        Claims.later s key c f (.spillqSave x) x.d.toNat n fun t => t.mem = s2.mem ∧ ∀ q ∈ t.queues, q.graph = g.handle →
          q.fifo = [] ∧ q.held = [] ∧ q.taken = 0 ∧ q.credits = q.depth) ∧
      (∀ s2 n, spillRestore s key c g (c.rg x.a.toNat) b = (s2, .ok n) → s2.ctx? key = some c → s.issueRoom key f →
        Claims.later s key c f (.spillqRestore x) x.d.toNat n fun t => t.queues = s2.queues ∧ t.shadows = s2.shadows))

/-- FULL_SWITCH_DEADLINE stops every firing of the tile; ARCHIVIST_WRITE_OUT writes the context of a slot to its image and frees the slot, ARCHIVIST_LOAD puts
the context of an image into its slot; GANG_SLICE_INSTANT happens at its instant and not before; PTP_LOCK_LOSS interrupts the host (R222, R397 to R401). When
the Archivist works, what it finds at an address and what stands in the parts of an image without a layout are the model's choice (logs 99, 100, 102, 115);
the interrupt at any loss of lock is its reading (log 116). -/
def Claims.switchingEvents : Prop :=
  (∀ (s : State) (tile : Nat) (w : FullSwitch), w ∈ s.fullSwitches → w.tile = tile → w.deadline ≤ s.ticks →
    ∃ t, exec (.fullSwitchDeadline tile) s = .next t ∧ t.tileRuns tile = false ∧ t.mem = s.mem) ∧
  (∀ (s : State) (strand slot : Nat) (j : SwapJob) (more : List Nat), (s.fullSwitches.find? fun w => w.tile == strand / 4 && !w.checkpoint && !s.tileRuns w.tile) = none →
    (s.swaps.find? fun j => j.strand == strand && !j.writing.isEmpty) = some j → j.writing = slot :: more →
    let k := strandKey strand + 2048 * slot + 16384
    (s.ctx? k = none → more ≠ [] → ∃ t, exec (.archivistWriteOut strand) s = .next t ∧ t.ctxs = s.ctxs ∧ t.mem = s.mem ∧
      { j with writing := more } ∈ t.swaps) ∧
    (∀ c va pa, s.ctx? k = some c → c.leases.length ≤ 128 → s.mayWriteOut k = true → Map.risesFrom 0 s.ctxs = true → k < 32768 →
      issuerWord s j.issuer (j.outgoing + 8 * slot) = .ok va → va ≠ 0 → imagePlace s j.issuer va 32768 .w = .ok pa →
      ∃ t, exec (.archivistWriteOut strand) s = .next t ∧ t.ctx? k = none ∧ ∃ i ∈ t.images, i.addr = pa ∧
        i.ctx = { c.masked ((j.masks.find? fun m => m.1 == slot).map fun m => m.2) with mxsave := mxsaveAt s pa, leases := [] })) ∧
  (∀ (s : State) (strand slot : Nat) (j : SwapJob) (more : List Nat) (i : CtxImage) (va pa : Nat), s.safeLoad strand = none →
    (s.swaps.find? fun j => j.strand == strand && j.writing.isEmpty) = some j → j.loading = slot :: more → j.live = false →
    issuerWord s j.issuer (j.incoming + 8 * slot) = .ok va → va ≠ 0 → imagePlace s j.issuer va 32768 .r = .ok pa →
    s.dramBad pa 32768 = false → (s.images.find? fun i => i.addr == pa) = some i → loadCheck s j.issuer i = true → i.leases = [] → s.leasesBack i.key = true →
    let k := strandKey strand + 2048 * slot + 16384
    s.ctx? k = none → inShadow k = true →
    ∃ t c, exec (.archivistLoad strand) s = .next t ∧ t.ctx? k = some c ∧ c.g = (i.read s.mem).g ∧ c.v = (i.read s.mem).v ∧ c.frames = (i.read s.mem).frames ∧
      c.guards = (i.read s.mem).guards ∧ ∀ y ∈ t.images, y.key ≠ i.key) ∧
  (∀ (s : State) (n epoch slice : Nat), (s.part n).gang = some (epoch, slice) →
    (s.ptp < epoch + (s.part n).gangDone * slice * 1000 → exec (.gangSliceInstant n) s = .next s) ∧
    (epoch + (s.part n).gangDone * slice * 1000 ≤ s.ptp →
      let k := (s.ptp - epoch) / (slice * 1000)
      ∃ t, exec (.gangSliceInstant n) s = .next t ∧ t.parts = (s.setPart n { s.part n with gangDone := k + 1 }).parts ∧ t.mem = s.mem ∧
        ((s.part n).isOpen = false ∨ (s.part n).paused = true ∨ epoch + k * slice * 1000 + 1000 < s.ptp → t.ctxs = s.ctxs))) ∧
  (∀ s : State, exec .ptpLockLoss s = .next { s with irqs := s.irqs ++ [.lockLoss] })

/-- Swaps, full switches and queue spills. -/
def Obligations.Switching : Prop := Claims.switchingInstructions ∧ Claims.switchingEvents

/-! ## Power control -/

/-- An event leaves one cluster as `c'` and changes no other cluster, memory or context. -/
def Claims.clusterOnly (s : State) (i : Instr) (cl : Nat) (c' : Cluster) : Prop :=
  ∃ t, exec i s = .next t ∧ t.cluster cl = c' ∧ (∀ n, n ≠ cl → t.cluster n = s.cluster n) ∧ t.mem = s.mem ∧ t.ctxs = s.ctxs ∧ t.engines = s.engines

/-- The operations of CLPM_REQ and of EN begin in the state that each asks for: QUIESCE in ON, HANDOFF in QUIESCED, CLKGATE in AWAY with a valid retention
state, CLKUNGATE and EN := 0 in CLKOFF, RESUME in QUIESCED or AWAY without RAILCYC, EN := 1 in RAILOFF. In another state the write is refused with code 1,
while the block is busy with code 2, and CLKGATE without a valid retention state with code 3; a RESUME cancels a QUIESCE (R199, R200). That the fields of
CLPM_RAIL act independently, and which of two refusals comes first, are the model's choice (logs 58, 59). -/
def Claims.clusterOperations : Prop :=
  ∀ (s : State) (cl : Nat), Map.risesFrom 0 s.clusters = true →
    let c := s.cluster cl
    let becomes (i : Instr) (c' : Cluster) : Prop := Claims.clusterOnly s i cl c'
    let starts (op : ClpmOp) (req : Nat) : Cluster := { c with op := some op, opSince := s.ticks, req := req }
    (c.busy = false →
      (c.state = .on → ∃ t, exec (.quiesce cl) s = .next t ∧ t.cluster cl = starts .quiesce 1 ∧ (s.images = [] → t.mem = s.mem) ∧ ∀ r ∈ t.requests, r.cluster ≠ cl) ∧
      (c.state ≠ .on → becomes (.quiesce cl) (c.error 1)) ∧
      becomes (.handoff cl) (if c.state = .quiesced then starts .handoff 2 else c.error 1) ∧
      becomes (.clkgate cl) (if c.retValid then if c.state = .away then starts .clkgate 3 else c.error 1 else c.error 3) ∧
      becomes (.clkungate cl)
        (if c.state = .clkoff then { starts .clkungate 4 with current := 0, lock := false, fllStep := s.ticks } else c.error 1) ∧
      becomes (.clpmResume cl) (if (c.state = .away ∨ c.state = .quiesced) ∧ c.railcyc = false then starts .resume 5 else c.error 1)) ∧
    (c.busy = true → c.op ≠ some .quiesce →
      ∀ i ∈ [Instr.quiesce cl, .handoff cl, .clkgate cl, .clkungate cl, .clpmResume cl], becomes i (c.error 2)) ∧
    (c.op = some .quiesce → c.waking = false → c.ringPending = false →
      becomes (.clpmResume cl) { c with req := 5, op := none, state := .on, done := true }) ∧
    (20 ≤ c.vset → c.vset ≤ 100 →
      (c.en = true → c.busy = false →
        becomes (.railOff cl) (if c.state = .clkoff then
          { c with op := some .railOff, opSince := s.ticks, en := false, pgood := false, railStep := s.ticks } else c.error 1)) ∧
      (c.en = false → c.busy = false →
        becomes (.railOn cl) (if c.state = .railoff then { c with op := some .railOn, opSince := s.ticks, en := true, pgood := false } else c.error 1)) ∧
      (c.busy = true → (c.en = true → becomes (.railOff cl) (c.error 2)) ∧ (c.en = false → becomes (.railOn cl) (c.error 2))))

/-- Outside a wake sequence each operation ends in its own state with DONE set: QUIESCE once nothing is left on the cluster, HANDOFF with the home role away
and the tiles' ways empty, CLKGATE with the clock stopped, CLKUNGATE once the loop has locked, the rail off with RAILCYC set and the scratchpad lost, the rail
on once it is good, RESUME with the home role back; a rail not good in 50 µs and a loop not locked in 100 µs are the errors 5 and 4 (R199, R200, R202, R419).
That an operation ends at an event which may come at any time is the model's reading (log 62), and that retired ways lead on to HANDOFF is its choice (log
105). -/
def Claims.clusterOperationEnds : Prop :=
  ∀ (s : State) (cl : Nat), Map.risesFrom 0 s.clusters = true →
    let c := s.cluster cl
    let becomes (i : Instr) (c' : Cluster) : Prop := Claims.clusterOnly s i cl c'
    c.waking = false → c.ringPending = false →
      (c.op = some .quiesce →
        (s.clusterEmpty cl = false → exec (.quiesceEnd cl) s = .next s) ∧
        (s.clusterEmpty cl = true → s.retiredWays cl ≤ 12 → becomes (.quiesceEnd cl) { c with op := none, state := .quiesced, done := true })) ∧
      (c.op = some .handoff → ∃ t, exec (.handoffEnd cl) s = .next t ∧ t.ctxs = s.ctxs ∧
        (∃ w a m l, t.cluster cl =
          { c with homeaway := true, op := none, state := .away, done := true, missWin := w, missAcc := a, misses := m, lowSince := l }) ∧ ∀ e ∈ t.tileCache, sectorTile e.1 ∉ clusterTiles cl) ∧
      (c.op = some .clkgate → becomes (.clpmOperationEnd cl)
        { c with current := 0, lock := false, droopSteps := 0, stretch := false, op := none, state := .clkoff, done := true }) ∧
      (c.op = some .clkungate → if c.lock then becomes (.clpmOperationEnd cl) { c with op := none, state := .away, done := true }
        else exec (.clpmOperationEnd cl) s = .next s) ∧
      (c.op = some .railOff → ∃ t, exec (.clpmOperationEnd cl) s = .next t ∧ t.ctxs = s.ctxs ∧ t.mem = s.mem ∧
        t.cluster cl = { c with railcyc := true, railCode := 0, op := none, state := .railoff, done := true } ∧
        (∀ e ∈ t.scratch, bankOfCluster cl (e.1 / 65536) = false) ∧
        ∀ e ∈ t.engines, engineCluster e.1 = cl → ∃ n, e.2 = { serial := n }) ∧
      (c.op = some .resume → ∃ t, exec (.clpmOperationEnd cl) s = .next t ∧ t.mem = s.mem ∧
        t.cluster cl = { c with homeaway := false, retValid := false, op := none, state := .on, done := true }) ∧
      (c.op = some .railOn → (s.ticks < c.opSince + 5000 →
          becomes (.railPgood cl) { c with pgood := true, railCode := c.vset, op := none, state := .clkoff, done := true }) ∧
        (c.opSince + 5000 ≤ s.ticks → exec (.railPgood cl) s = .next s) ∧
        if c.opSince + 5000 ≤ s.ticks then becomes (.railPgoodTimeout cl) { c with en := false, op := none, err := true, errcode := 5 }
        else exec (.railPgoodTimeout cl) s = .next s) ∧
      (c.op = some .clkungate → c.lock = false → if c.opSince + 10000 ≤ s.ticks then
          becomes (.fllLockTimeout cl) { c with op := none, err := true, errcode := 4 }
        else exec (.fllLockTimeout cl) s = .next s)

/-- A RING of a busy block waits, one in ON does nothing, and one of an idle cluster begins the wake sequence at its state: the rail, the clock, a RESTORE after a
rail cycle, or RESUME. SAVE records the retention state in AWAY, and RESTORE puts it back after a rail cycle, with no scratchpad byte and no
translation of the cluster left; both are refused elsewhere (R199 to R201, R418, R425). What a RING does while the block is busy is the model's reading (log 59). -/
def Claims.wakeAndRetention : Prop :=
  ∀ (s : State) (cl : Nat), Map.risesFrom 0 s.clusters = true →
    let c := s.cluster cl
    let becomes (i : Instr) (c' : Cluster) : Prop := Claims.clusterOnly s i cl c'
    (∀ src, let rung : Cluster := { c with ringPending := true, source := src % 4 }
      (c.busy = true ∨ c.retBusy ≠ none → becomes (.wakeRing cl src) rung) ∧
      (c.busy = false → c.retBusy = none →
        let woken : Cluster := { rung with waking := true, opSince := s.ticks }
        match c.state with
        | .on => exec (.wakeRing cl src) s = .next s
        | .railoff => becomes (.wakeRing cl src) { woken with op := some .railOn, en := true }
        | .clkoff => becomes (.wakeRing cl src) { woken with op := some .clkungate, req := 4, current := 0, lock := false, fllStep := s.ticks }
        | .quiesced => becomes (.wakeRing cl src) { woken with op := some .resume, req := 5 }
        | .away => becomes (.wakeRing cl src)
            (if c.railcyc then if c.retValid then { rung with waking := true, retBusy := some false }
              else { c with source := src % 4, waking := false, ringPending := false, err := true, errcode := 3 }
             else { woken with op := some .resume, req := 5 }))) ∧
    becomes (.retentionSave cl) (if c.state = .away ∧ c.busy = false ∧ c.retBusy = none then { c with retBusy := some true } else { c with retRefused := true }) ∧
    becomes (.retentionRestore cl)
      (if c.state = .away ∧ c.busy = false ∧ c.retBusy = none ∧ c.railcyc = true ∧ c.retValid = true then { c with retBusy := some false }
       else { c with retRefused := true }) ∧
    (c.retBusy = some true →
      (c.ringPending = false → becomes (.retentionSaveEnd cl) { c with retBusy := none, retValid := true, retention := s.retentionOf cl }) ∧
      (c.ringPending = true → c.state = .away → ∃ c', becomes (.retentionSaveEnd cl) c' ∧ c'.waking = true ∧ c'.retValid = true ∧
        c'.retention = s.retentionOf cl ∧ c'.retBusy = (if c.railcyc then some false else none) ∧ c'.op = (if c.railcyc then c.op else some .resume))) ∧
    (c.retBusy = some false → c.waking = false → c.ringPending = false → c.state = .away →
      ∃ t, exec (.retentionRestoreEnd cl) s = .next t ∧ t.mem = s.mem ∧ t.ctxs = s.ctxs ∧
        t.cluster cl = { c with wgEn := c.retention.wgEn, minWays := c.retention.minWays, missHi := c.retention.missHi, missLo := c.retention.missLo,
                                waysOn := c.retention.waysOn, mxcad := c.retention.mxcad, target := c.retention.target, lock := false, retBusy := none, railcyc := false } ∧
        (∀ e ∈ t.tlb, inCluster cl e.tile = false) ∧ ∀ e ∈ t.scratch, bankOfCluster cl (e.1 / 65536) = false)

/-- The handshake of a cluster. -/
def Obligations.ClusterPower : Prop := Claims.clusterOperations ∧ Claims.clusterOperationEnds ∧ Claims.wakeAndRetention

/-- VSET takes 20 to 100 and TARGET 0 to 52, and another value is error 6; a rail moves one code every 10 ticks and is good within two codes; a loop moves one
step every 50 ticks and locks at its goal; a sag stretches the clock and steps down at once and after every further microsecond, to four steps at most, and
after 10 µs without sag the steps come back (R199, R204, R426). That LOCK is set at a step of a loop that is at its goal, and that the fields of CLPM_RAIL act
independently, are the model's choice (logs 59, 58). -/
def Claims.clocksAndRails : Prop :=
  ∀ (s : State) (cl : Nat),
    let c := s.cluster cl
    let becomes (i : Instr) (c' : Cluster) : Prop := exec i s = .next (s.setCluster cl c')
    let stays (i : Instr) : Prop := exec i s = .next s
    let near (a b : Nat) : Bool := decide (((a : Int) - b).natAbs ≤ 2)
    (∀ w, let v := bits w.toNat 6 0
      (v < 20 ∨ 100 < v → becomes (.vsetWrite cl w) (c.error 6)) ∧
      (20 ≤ v → v ≤ 100 → c.en = false → becomes (.vsetWrite cl w) { c with vset := v }) ∧
      (20 ≤ v → v ≤ 100 → c.en = true → c.op ≠ some .railOn →
        becomes (.vsetWrite cl w) { c with vset := v, pgood := near c.railCode v, railStep := s.ticks })) ∧
    (∀ w, let v := bits w.toNat 5 0
      (52 < v → becomes (.fllTargetWrite cl w) (c.error 6)) ∧
      (v ≤ 52 → becomes (.fllTargetWrite cl w) { c with target := v, lock := !c.clocked && c.lock })) ∧
    (c.en = true → c.state ≠ .railoff → c.railStep + 10 ≤ s.ticks →
      (c.railCode < c.vset →
        becomes (.railSlewStep cl) { c with railCode := c.railCode + 1, railStep := s.ticks, pgood := near (c.railCode + 1) c.vset }) ∧
      (c.vset < c.railCode →
        becomes (.railSlewStep cl) { c with railCode := c.railCode - 1, railStep := s.ticks, pgood := near (c.railCode - 1) c.vset })) ∧
    (s.ticks < c.railStep + 10 → stays (.railSlewStep cl)) ∧
    (c.clocked = true →
      let goal := if s.hot.getLsbD (dieOfCluster cl) then 0 else c.target - c.droopSteps
      (c.current = goal → s.hot.getLsbD (dieOfCluster cl) = false → becomes (.fllStep cl) { c with lock := true }) ∧
      (c.current < goal → c.fllStep + 50 ≤ s.ticks → becomes (.fllStep cl) { c with current := c.current + 1, fllStep := s.ticks, lock := false }) ∧
      (goal < c.current → c.fllStep + 50 ≤ s.ticks → becomes (.fllStep cl) { c with current := c.current - 1, fllStep := s.ticks, lock := false }) ∧
      (c.current ≠ goal → s.ticks < c.fllStep + 50 → stays (.fllStep cl)) ∧
      (c.stretch = false → becomes (.droopSag cl)
        (if c.droopSteps < 4 then { c with droopSteps := c.droopSteps + 1, current := c.current - 1, lock := false, fllStep := s.ticks, stretch := true, droopSince := s.ticks }
         else { c with stretch := true, droopSince := s.ticks }))) ∧
    (c.stretch = true →
      (c.droopSince + 100 ≤ s.ticks → becomes (.droopStepDown cl)
        (if c.droopSteps < 4 then { c with droopSteps := c.droopSteps + 1, current := c.current - 1, lock := false, fllStep := s.ticks, droopSince := s.ticks }
         else { c with droopSince := s.ticks })) ∧
      (s.ticks < c.droopSince + 100 → stays (.droopStepDown cl)) ∧
      becomes (.droopSagEnd cl) { c with stretch := false, droopSince := s.ticks }) ∧
    (c.stretch = false → 0 < c.droopSteps →
      (c.droopSince + 1000 ≤ s.ticks → c.fllStep + 50 ≤ s.ticks → ∃ c', becomes (.droopRecoveryStep cl) c' ∧ c'.droopSteps = c.droopSteps - 1 ∧
        c'.current = (if c.current < c.target - (c.droopSteps - 1) then c.current + 1 else c.current) ∧ c'.target = c.target ∧ c'.state = c.state) ∧
      (s.ticks < c.droopSince + 1000 → stays (.droopRecoveryStep cl)))

/-- The package's own events: the power budget is taken as at most 1,600 LU, PMCOMMIT latches TARGET, VSET, CAD and BUDGET of every cluster, KICK starts the
watchdog again, its expiry after 10 ms clears RUNNING and sets EXPIRED, a CAD below FUSE is taken as FUSE, a way is gated after 100 µs of few misses or opened
again after 10 µs of many between MINWAYS and 16, and a thermal trip sets its clusters to the lowest step, grants nothing on the die and interrupts the host
until the recovery (R198, R203 to R205). That a value taken as a bound is held as the bound, the way that is gated or opened and how its misses are counted,
and the committed set before the first PMCOMMIT are the model's choice (logs 24, 60, 61); so is that a request of a hot die waits without blocking others (log
57). -/
def Claims.packagePower : Prop :=
  ∀ s : State,
    (∀ w, ∃ t, exec (.pmbudgetWrite w) s = .next t ∧ t.budget = min (bits w.toNat 12 0) 1600 ∧ (s.images = [] → t.mem = s.mem) ∧ t.clusters = s.clusters) ∧
    (∃ t, exec .pmcommit s = .next t ∧ t.latched = true ∧ t.comBudget = s.budget ∧ t.mem = s.mem ∧ t.ctxs = s.ctxs ∧ t.clusters.length = s.clusters.length ∧
      ∀ e ∈ s.clusters, (e.1, { e.2 with comTarget := e.2.target, comVset := e.2.vset, comCad := e.2.mxcad }) ∈ t.clusters) ∧
    (∃ t, exec .watchdogKick s = .next t ∧ t.kickedAt = s.ticks ∧ t.running = (s.running || !(s.mgmt.busy && s.mgmt.live)) ∧ t.budget = s.budget ∧
      t.clusters = s.clusters ∧ t.ticks = s.ticks ∧ (s.images = [] → t.mem = s.mem)) ∧
    (s.running = true → s.kickedAt + 1000000 ≤ s.ticks → ∃ t, exec .watchdogExpiry s = .next t ∧ t.running = false ∧ t.expired = true ∧ (s.images = [] → t.mem = s.mem) ∧
      (s.latched = true → t.budget = s.comBudget)) ∧
    (s.ticks < s.kickedAt + 1000000 → exec .watchdogExpiry s = .next s) ∧
    (∀ cl w, Map.risesFrom 0 s.clusters = true → ∃ t, exec (.mxcadWrite cl w) s = .next t ∧ t.mem = s.mem ∧ t.ctxs = s.ctxs ∧
      ∀ n < 8, (t.cluster cl).mxcad.toNat / 16 ^ n % 16 = max (w.toNat / 16 ^ n % 16) (Config.fuse cl).toNat % 16) ∧
    (∀ cl, let c := s.cluster cl
      let opens := c.state = .on ∧ c.wgEn = true ∧ c.waysOn < 16 ∧ c.manyMisses s.ticks = true
      let top := c.waysOn - 1
      let gates := c.state = .on ∧ c.wgEn = true ∧ c.minWays < c.waysOn ∧ c.quietMisses s.ticks = true ∧
        (s.wayOwnerOf cl top = 0 ∨ ∃ w < top, s.wayOwnerOf cl w = s.wayOwnerOf cl top)
      (opens → exec (.wayReopen cl) s = .next (s.setCluster cl { c.roll s.ticks with waysOn := c.waysOn + 1 })) ∧
      (¬ opens → exec (.wayReopen cl) s = .next s) ∧
      (gates → ∃ t, exec (.wayGate cl) s = .next t ∧ t.mem = s.mem ∧ t.ctxs = s.ctxs ∧
        t.clusters = (s.setCluster cl { c.roll s.ticks with waysOn := top, lowSince := s.ticks }).clusters ∧ ∀ e ∈ t.slices, ¬ (e.1 / 2 ^ 31 = cl ∧ e.2.way = top)) ∧
      (¬ gates → exec (.wayGate cl) s = .next s)) ∧
    (∀ die < 4, (s.hot.getLsbD die = false → Map.risesFrom 0 s.clusters = true → ∃ t, exec (.thermalTrip die) s = .next t ∧ t.hot.getLsbD die = true ∧
        t.irqs = s.irqs ++ [.thermal die] ∧ (s.images = [] → t.mem = s.mem) ∧
        ∀ i < 12, (t.cluster (12 * die + i)).current = 0 ∧ (t.cluster (12 * die + i)).target = (s.cluster (12 * die + i)).target) ∧
      ∃ t, exec (.thermalRecovery die) s = .next t ∧ t.hot.getLsbD die = false ∧ (∀ d, d ≠ die → t.hot.getLsbD d = s.hot.getLsbD d) ∧ t.ctxs = s.ctxs ∧ t.mem = s.mem) ∧
    (∀ r : LeaseReq, s.hot.getLsbD (dieOfCluster r.cluster) = true → s.grantable r = false ∧
      ((s.requests.find? fun q => q.id == r.id) = some r → exec (.leaseGrant r.id) s = .next s))

/-- Clocks, rails, and the package registers. -/
def Obligations.PowerRegisters : Prop := Claims.clocksAndRails ∧ Claims.packagePower

/-! ## Errors, firmware and checkpoints -/

/-- An error puts a record of KIND 4 aside for the die's firmware and, when its TYPE is 1, 2, 4, 5 or 6, makes its unit due for a test; a sector or a
register whose error is uncorrectable fails from then on, for a lane every v register of its strand, and a context with such an error is parked
with a record to its supervisor (log 113); a failed flit puts a record aside, and eight failures of one flit make its link due (log 106); a test passed is a
transient error, the fourth within an hour is lasting, and a test failed retires the unit with a record of CLASS 3 (R403 to R408). The die of an
error in a port or a device, the test that follows, and what a retirement changes are the model's choice (logs 104, 105). -/
def Claims.errorEvents : Prop :=
  ∀ s : State,
    (∀ die cls unit addr,
      let u := unit % 2 ^ 18
      let entry : PendingRecord :=
        { target := firmwareOf (errorDie u addr die), words := [wd (4 * 2 ^ 16 + cls % 4 * 2 ^ 24), 0, 0, 0, 0, wd u, wd addr, wd s.ticks] }
      let logs (P : State → Prop) : Prop := ∃ t l, exec (.errorLogRecord die cls unit addr) s = .next t ∧ t.records = l ++ [entry] ∧
        (unit % 16 ∈ [1, 2, 4, 5, 6] → u ∈ t.testDue ∨ u ∈ t.testing) ∧ P t
      let plain (t : State) : Prop := t.records = s.records ++ [entry] ∧ t.mem = s.mem
      let alone (k : Nat) (c : Ctx) : Prop := (s.ctxs.map fun e => e.1).filter (fun k => tileOf k == unitPlace u) = [k] ∧ s.ctx? k = some c
      (cls % 4 ≠ 1 ∨ unit % 16 ∉ [0, 1, 2, 3, 4, 7] → logs fun t => plain t ∧ t.ctxs = s.ctxs ∧ t.badSectors = s.badSectors) ∧
      (cls % 4 = 1 →
        (unit % 16 = 3 → logs fun t => plain t ∧ t.ctxs = s.ctxs ∧ addr % 2 ^ 38 / 32 ∈ t.badSectors) ∧
        (unit % 16 = 1 → s.bankMode (unitPlace u) (unitPart u) = 1 → logs fun t => plain t ∧ t.ctxs = s.ctxs ∧
          2 ^ 47 + bankKey (unitPlace u) (unitPart u) (addr % 65536) / 32 ∈ t.badSectors) ∧
        (∀ k c, alone k c →
          (unit % 16 = 0 → logs fun t => plain t ∧ t.ctx? k = some (c.spoilReg addr)) ∧
          (unit % 16 = 4 → logs fun t => plain t ∧ ∃ c', t.ctx? k = some c' ∧ (∀ n < 64, c'.vBad.getLsbD n = true) ∧ c'.v = c.v ∧ c'.g = c.g) ∧
          (unit % 16 = 7 → c.priv ≠ .f → c.parked = false → logs fun t => ∃ c', t.ctx? k = some c' ∧ c'.parked = true ∧ c'.firing = none ∧
            ∃ r ∈ t.records, r.target = recordTarget c k ∧ (r.words.headD 0).setWidth 8 = cMemUncorrectable)))) ∧
    (∀ link, ∃ t n die, exec (.linkFlitRetry link) s = .next t ∧ t.ctxs = s.ctxs ∧ t.mem = s.mem ∧ (n = Map.get 0 s.flitRetries link + 1 ∨ n = 1) ∧
      t.records = s.records ++ [{ target := firmwareOf die, words := [wd (4 * 2 ^ 16), 0, 0, 0, 0, wd (unitWord 5 (link % 512) 0), 0, wd s.ticks] }] ∧
      (n < 8 → t.testDue = s.testDue ∧ (Map.risesFrom 0 s.flitRetries = true → Map.get 0 t.flitRetries link = n)) ∧
      (8 ≤ n → unitWord 5 (link % 512) 0 ∈ t.testDue ∧ (Map.risesFrom 0 s.flitRetries = true → Map.get 0 t.flitRetries link = 0))) ∧
    (∀ unit, unit ∈ s.testDue → exec (.selfTest unit) s =
      .next { s with testDue := s.testDue.filter (fun u => u != unit), testing := s.testing ++ [unit] }) ∧
    (∀ unit, unit ∈ s.testing → unitType unit ≠ 2 → s.lastWalkers unit = false →
      let recent := (s.transients.filter fun t => t.unit == unit && decide (s.ticks < t.tick + 360000000000)).length
      let gone (u : State) : Prop := u.testing = s.testing.filter (fun v => v != unit) ∧ u.mem = s.mem
      (recent < 3 → ∃ t, exec (.selfTestEnd unit true) s = .next t ∧ gone t ∧ t.retired = s.retired ∧ t.records = s.records ∧
        { unit := unit, tick := s.ticks } ∈ t.transients) ∧
      (∀ passed, (passed = true → 3 ≤ recent) → ∃ t die, exec (.selfTestEnd unit passed) s = .next t ∧ gone t ∧ unit ∈ t.retired ∧
        t.records = s.records ++ [{ target := firmwareOf die, words := [wd (4 * 2 ^ 16 + 3 * 2 ^ 24), 0, 0, 0, 0, wd unit, 0, wd s.ticks] }]))

/-- A device reset leaves every part of the machine as after reset but the safe tier and what the host has been told; a warm reset also keeps GDDR-7, the
clocks and the host's registers. A PUSH that is not refused makes the boot ROM busy, a live one waits while a checkpoint runs, one of more than 2^26 bytes
fails with WHY 3; an image that fails leaves FAIL and its WHY, and one that verifies, with its own digest, is bound at slot 0 and starts a firmware context on
every die (R201, R372, R415 to R417). What a reset keeps for the host, a push while BUSY
and the entry of the firmware are the model's choice (logs 9, 11, 107, 108). -/
def Claims.resetsAndFirmware : Prop :=
  ∀ s : State,
    (∃ t, exec .deviceReset s = .next t ∧ t.safe = s.safe ∧ t.irqs = s.irqs ∧ t.ctxs = [] ∧ t.graphs = [] ∧ t.mem = [] ∧ t.ticks = 0 ∧ t.mgmt = State.reset.mgmt ∧
      t.clusters = State.reset.clusters ∧ t.parts = State.reset.parts ∧ t.queues = State.reset.queues ∧ t.bindings = State.reset.bindings) ∧
    (∃ t, exec .warmReset s = .next t ∧ t.mem = s.mem ∧ t.safe = s.safe ∧ t.ticks = s.ticks ∧ t.ctxs = [] ∧ t.graphs = [] ∧ t.mgmt.inrom = true ∧
      t.mgmt.busy = false ∧ t.clusters = State.reset.clusters ∧ t.parts = State.reset.parts ∧ t.tileCache = [] ∧ t.scratch = []) ∧
    (∀ addr len live, s.mgmt.busy = false → (live = true → s.mgmt.ckptBusy = false) →
      (2 ^ 26 < len → ∃ t, exec (.firmwarePush addr len live) s = .next t ∧ t.mgmt.fail = true ∧ t.mgmt.why = 3 ∧ t.mgmt.busy = false ∧ t.ctxs = s.ctxs ∧ t.mem = s.mem) ∧
      (len ≤ 2 ^ 26 → ∃ t, exec (.firmwarePush addr len live) s = .next t ∧ (s.images = [] → t.mem = s.mem) ∧ t.mgmt.busy = true ∧ t.mgmt.fail = false ∧ t.mgmt.why = 0 ∧ t.mgmt.live = live ∧
        t.mgmt.fwaddr = addr ∧ t.mgmt.fwlen = len ∧ (live = true → s.mgmt.inrom = false → t.running = false))) ∧
    (∀ addr len, s.mgmt.busy = false → s.mgmt.ckptBusy = true → ∃ t, exec (.firmwarePush addr len true) s = .next t ∧ t.mgmt.busy = false ∧
      t.mgmt.pushWaits = some (addr, len) ∧ t.mem = s.mem ∧ t.ctxs = s.ctxs ∧ t.running = s.running) ∧
    (∀ digest, s.mgmt.busy = true →
      let why := firmwareWhy (firmwareImage s.mgmt)
      (why ≠ 0 → exec (.firmwareVerifyEnd digest) s = .next { s with mgmt := { s.mgmt with busy := false, fail := true, why := why } }) ∧
      (why = 0 → digest = Config.shake256 (firmwareImage s.mgmt) → ∃ t, exec (.firmwareVerifyEnd digest) s = .next t ∧ t.mgmt.busy = false ∧ t.mgmt.inrom = false ∧
        t.fwdigest = digest ∧ (∃ b ∈ t.bindings, b.asid = firmwareAsid ∧ b.slot = 0 ∧ b.base = Config.firmwareBase ∧ b.digest = digest) ∧
        (Map.risesFrom 0 s.ctxs = true → ∀ die < 4, ∃ c f, t.ctx? (firmwareOf die) = some c ∧ c.priv = .f ∧ c.firing = some f ∧ f.pc = codePtr 0 Config.firmwareEntry)))

/-- A checkpoint command while one runs is error 1, one of an unreachable tier error 2, a RESTORE of an image of other firmware error 3. SAVE stops the
launches and the tiles of the open partitions that the mask names, and ends with an image of them in the safe tier at its base and DONE set; RESTORE ends with
the pages of the image in memory (R413 to R415). The low bits of the base, the order of the codes and what an image holds are the
model's choice (logs 109, 110). -/
def Claims.checkpoints : Prop :=
  ∀ (s : State) (mask base : Nat),
    let m := s.mgmt
    let m' := m.ckptRegs mask base
    (m.ckptBusy = true →
      exec (.checkpointSave mask base) s = .next { s with mgmt := { m' with ckptErr := true, ckptErrcode := 1 } } ∧
      exec (.checkpointRestore mask base) s = .next { s with mgmt := { m' with ckptErr := true, ckptErrcode := 1 } }) ∧
    (m.ckptBusy = false →
      (Config.safeTierReached base = false → exec (.checkpointSave mask base) s = .next { s with mgmt := { m' with ckptErr := true, ckptErrcode := 2 } }) ∧
      (Config.safeTierReached base = true → ∃ t, exec (.checkpointSave mask base) s = .next t ∧ t.mem = s.mem ∧ t.ctxs = s.ctxs ∧ t.mgmt.ckptBusy = true ∧
        t.mgmt.ckptRestore = false ∧ t.mgmt.ckptBase = base / 4096 * 4096 ∧
        (Map.risesFrom 0 s.parts = true → ∀ p < 64, mask.testBit p = true → (s.part p).isOpen = true → (t.part p).paused = true) ∧
        ∀ e ∈ s.tileOwner, 1 ≤ e.2 → e.2 ≤ 64 → mask.testBit (e.2 - 1) = true → (s.part (e.2 - 1)).isOpen = true → t.switching e.1 = true) ∧
      (∀ i, (s.safe.find? fun i => i.base == base / 4096 * 4096) = some i → Config.safeTierReached base = true →
        (i.digest ≠ s.fwdigest → exec (.checkpointRestore mask base) s = .next { s with mgmt := { m' with ckptErr := true, ckptErrcode := 3 } }) ∧
        (i.digest = s.fwdigest → ∃ t, exec (.checkpointRestore mask base) s = .next t ∧ t.mem = s.mem ∧ t.ctxs = s.ctxs ∧ t.mgmt.ckptBusy = true ∧
          t.mgmt.ckptRestore = true ∧ t.mgmt.ckptBase = i.base))) ∧
    (m.ckptBusy = true →
      (m.ckptRestore = false → s.tilesStopped (s.tilesOf (s.maskParts m.ckptMask.toNat)) = true →
        ∃ t, exec .checkpointEnd s = .next t ∧ t.mgmt.ckptBusy = false ∧ t.mgmt.ckptDone = true ∧ ∃ i ∈ t.safe, i.base = m.ckptBase ∧ i.digest = s.fwdigest) ∧
      (∀ i, m.ckptRestore = true → (s.safe.find? fun i => i.base == m.ckptBase) = some i → m.pushWaits = none → Memory.wf s.mem = true → Memory.wf i.pages = true →
        ∃ t, exec .checkpointEnd s = .next t ∧ t.mgmt.ckptBusy = false ∧ t.mgmt.ckptDone = true ∧ t.safe = s.safe ∧
          (∀ p ∈ i.pages, Memory.read t.mem p.1 = p.2)))

/-- Errors, resets, firmware and checkpoints. -/
def Obligations.ErrorsAndCheckpoints : Prop := Claims.errorEvents ∧ Claims.resetsAndFirmware ∧ Claims.checkpoints
end

