-- ==== Sys2Proof/Laws/Maps.lean ====
section
/-! SUPPORT. The laws of sparse tables and of memory: what a write changes, and that every operation keeps the canonical form. -/

namespace Sys2Proof.Machine

variable {α : Type}

/-! ## Tables without a default -/

@[simp] theorem Map.find?_insert_self (m : Map α) (k : Nat) (v : α) : Map.find? (Map.insert m k v) k = some v := by
  induction m with
  | nil => simp [Map.insert, Map.find?]
  | cons p rest ih =>
    obtain ⟨k', v'⟩ := p
    by_cases h1 : k < k'
    · simp [Map.insert, h1, Map.find?]
    · by_cases h2 : k = k'
      · simp [Map.insert, h2, Map.find?]
      · simp [Map.insert, h1, h2, Map.find?, ih]

theorem Map.find?_mapVal {β : Type} (g : Nat → α → β) (m : Map α) (k : Nat) :
    Map.find? (m.map fun e => (e.1, g e.1 e.2)) k = (Map.find? m k).map (g k) := by
  induction m with
  | nil => rfl
  | cons e rest ih =>
    by_cases h : k = e.1
    · subst h; simp [Map.find?]
    · simpa [Map.find?, h] using ih

theorem Map.find?_insert_ne (m : Map α) {j k : Nat} (v : α) (h : j ≠ k) : Map.find? (Map.insert m k v) j = Map.find? m j := by
  induction m with
  | nil => simp [Map.insert, Map.find?, h]
  | cons p rest ih =>
    obtain ⟨k', v'⟩ := p
    by_cases h1 : k < k'
    · simp [Map.insert, h1, Map.find?, h]
    · by_cases h2 : k = k'
      · subst h2; simp [Map.insert, Map.find?, h]
      · simp [Map.insert, h1, h2, Map.find?, ih]

@[simp] theorem Map.insert_insert (m : Map α) (k : Nat) (v w : α) : Map.insert (Map.insert m k v) k w = Map.insert m k w := by
  induction m with
  | nil => simp [Map.insert]
  | cons p rest ih =>
    obtain ⟨k', v'⟩ := p
    by_cases h1 : k < k'
    · simp [Map.insert, h1]
    · by_cases h2 : k = k'
      · simp [Map.insert, h2]
      · simp [Map.insert, h1, h2, ih]

/-! ## Tables with a default -/

section
variable [DecidableEq α]

theorem Map.get_set_ne (d : α) (m : Map α) {j k : Nat} (v : α) (h : j ≠ k) : Map.get d (Map.set d m k v) j = Map.get d m j := by
  induction m with
  | nil => by_cases hv : v = d <;> simp [Map.set, Map.get, hv, h]
  | cons p rest ih =>
    obtain ⟨k', v'⟩ := p
    by_cases h1 : k < k'
    · by_cases hv : v = d <;> simp [Map.set, h1, hv, Map.get, h]
    · by_cases h2 : k = k'
      · subst h2; by_cases hv : v = d <;> simp [Map.set, hv, Map.get, h]
      · simp [Map.set, h1, h2, Map.get, ih]

omit [DecidableEq α] in
theorem Map.get_of_below (d : α) (m : Map α) (n k : Nat) (h : Map.risesFrom n m = true) (hk : k < n) : Map.get d m k = d := by
  induction m generalizing n with
  | nil => rfl
  | cons p rest ih =>
    obtain ⟨k', v'⟩ := p
    simp only [Map.risesFrom, Bool.and_eq_true, decide_eq_true_eq] at h
    have : k ≠ k' := by omega
    simp only [Map.get, this, if_false]
    exact ih (k' + 1) h.2 (by omega)

theorem Map.get_set_self (d : α) (m : Map α) (n k : Nat) (v : α) (h : Map.risesFrom n m = true) : Map.get d (Map.set d m k v) k = v := by
  induction m generalizing n with
  | nil => by_cases hv : v = d <;> simp [Map.set, Map.get, hv]
  | cons p rest ih =>
    obtain ⟨k', v'⟩ := p
    simp only [Map.risesFrom, Bool.and_eq_true, decide_eq_true_eq] at h
    by_cases h1 : k < k'
    · by_cases hv : v = d
      · have hne : k ≠ k' := by omega
        simp only [Map.set, h1, hv, if_true, Map.get, hne, if_false]
        exact Map.get_of_below d rest (k' + 1) k h.2 (by omega)
      · simp [Map.set, h1, hv, Map.get]
    · by_cases h2 : k = k'
      · subst h2
        by_cases hv : v = d
        · simp only [Map.set, Nat.lt_irrefl, hv, if_true, if_false]
          exact Map.get_of_below d rest (k + 1) k h.2 (by omega)
        · simp [Map.set, hv, Map.get]
      · simp only [Map.set, h1, h2, if_false, Map.get]
        exact ih (k' + 1) h.2

omit [DecidableEq α] in
theorem Map.risesFrom_mono (m : Map α) {n n' : Nat} (h : n' ≤ n) (hr : Map.risesFrom n m = true) : Map.risesFrom n' m = true := by
  cases m with
  | nil => rfl
  | cons p rest =>
    simp only [Map.risesFrom, Bool.and_eq_true, decide_eq_true_eq] at hr ⊢
    exact ⟨by omega, hr.2⟩

theorem Map.risesFrom_set (d : α) (m : Map α) (n k : Nat) (v : α) (hk : n ≤ k) (h : Map.risesFrom n m = true) :
    Map.risesFrom n (Map.set d m k v) = true := by
  induction m generalizing n with
  | nil => by_cases hv : v = d <;> simp [Map.set, Map.risesFrom, hv, hk]
  | cons p rest ih =>
    obtain ⟨k', v'⟩ := p
    simp only [Map.risesFrom, Bool.and_eq_true, decide_eq_true_eq] at h
    by_cases h1 : k < k'
    · by_cases hv : v = d
      · simp [Map.set, h1, hv, Map.risesFrom, h]
      · simp only [Map.set, h1, hv, if_true, if_false, Map.risesFrom, Bool.and_eq_true, decide_eq_true_eq]
        exact ⟨hk, by omega, h.2⟩
    · by_cases h2 : k = k'
      · subst h2
        by_cases hv : v = d
        · simp only [Map.set, Nat.lt_irrefl, hv, if_true, if_false]
          exact Map.risesFrom_mono rest (by omega) h.2
        · simp [Map.set, hv, Map.risesFrom, h]
      · simp only [Map.set, h1, h2, if_false, Map.risesFrom, Bool.and_eq_true, decide_eq_true_eq]
        exact ⟨h.1, ih (k' + 1) (by omega) h.2⟩

/-- What a write leaves in the table: old entries, and the new one where its value is not the default. -/
theorem Map.mem_set (d : α) (m : Map α) (k : Nat) (v : α) (x : Nat × α) : x ∈ Map.set d m k v → x ∈ m ∨ (x = (k, v) ∧ v ≠ d) := by
  induction m with
  | nil => by_cases hv : v = d <;> simp_all [Map.set]
  | cons p rest ih =>
    have written (l : Map α) : x ∈ (if v = d then l else (k, v) :: l) → x ∈ l ∨ (x = (k, v) ∧ v ≠ d) := by
      by_cases hv : v = d <;> simp [hv]; tauto
    by_cases below : k < p.1
    · simpa only [Map.set, below, if_true] using written (p :: rest)
    · by_cases here : k = p.1
      · subst here
        simpa only [Map.set, Nat.lt_irrefl, if_true, if_false] using fun h => (written rest h).imp_left (.tail p)
      · simpa only [Map.set, below, here, if_false, List.mem_cons, or_assoc] using Or.imp_right ih

theorem Map.all_ne_set (d : α) (m : Map α) (k : Nat) (v : α) (h : (m.all fun c => decide (c.2 ≠ d)) = true) :
    ((Map.set d m k v).all fun c => decide (c.2 ≠ d)) = true := by
  simp only [List.all_eq_true, decide_eq_true_eq] at h ⊢
  intro x hx
  rcases Map.mem_set d m k v x hx with h1 | ⟨rfl, hv⟩
  · exact h x h1
  · exact hv

/-- Every write keeps the canonical form. -/
theorem Map.wf_set (d : α) (m : Map α) (k : Nat) (v : α) (h : Map.wf d m = true) : Map.wf d (Map.set d m k v) = true := by
  simp only [Map.wf, Bool.and_eq_true] at h ⊢
  exact ⟨Map.risesFrom_set d m 0 k v (Nat.zero_le _) h.1, Map.all_ne_set d m k v h.2⟩

omit [DecidableEq α] in
theorem Map.risesFrom_filter (m : Map α) (n : Nat) (f : Nat × α → Bool) (h : Map.risesFrom n m = true) :
    Map.risesFrom n (m.filter f) = true := by
  induction m generalizing n with
  | nil => rfl
  | cons p rest ih =>
    obtain ⟨k', v'⟩ := p
    simp only [Map.risesFrom, Bool.and_eq_true, decide_eq_true_eq] at h
    by_cases hf : f (k', v') = true
    · simp only [List.filter_cons, hf, if_true, Map.risesFrom, Bool.and_eq_true, decide_eq_true_eq]
      exact ⟨h.1, ih (k' + 1) h.2⟩
    · simp only [List.filter_cons, hf]
      exact Map.risesFrom_mono _ (by omega) (ih (k' + 1) h.2)

/-- Taking entries away keeps the canonical form. -/
theorem Map.wf_filter (d : α) (m : Map α) (f : Nat × α → Bool) (h : Map.wf d m = true) : Map.wf d (m.filter f) = true := by
  simp only [Map.wf, Bool.and_eq_true] at h ⊢
  refine ⟨Map.risesFrom_filter m 0 f h.1, ?_⟩
  simp only [List.all_eq_true, List.mem_filter] at h ⊢
  exact fun x hx => h.2 x hx.1

end

/-! ## Memory -/

theorem Memory.read_write_self (m : Memory) (a : Nat) (b : Byte) (h : m.wf = true) : (m.write a b).read a = b := by
  simp only [Memory.wf, Map.wf, Bool.and_eq_true] at h
  exact Map.get_set_self _ m 0 a b h.1

theorem Memory.read_write_ne (m : Memory) {a a' : Nat} (b : Byte) (h : a' ≠ a) : (m.write a b).read a' = m.read a' :=
  Map.get_set_ne _ m b h

theorem Memory.wf_write (m : Memory) (a : Nat) (b : Byte) (h : m.wf = true) : (m.write a b).wf = true := Map.wf_set _ m a b h

theorem Memory.wf_writeBytes (bs : List Byte) (m : Memory) (a : Nat) (h : m.wf = true) : (m.writeBytes a bs).wf = true := by
  induction bs generalizing m a with
  | nil => exact h
  | cons b rest ih => exact ih _ _ (Memory.wf_write m a b h)

theorem Memory.wf_filter (m : Memory) (f : Host.Cell → Bool) (h : m.wf = true) : Memory.wf (m.filter f) = true := Map.wf_filter _ m f h

/-- A byte outside the bytes written reads as before. -/
theorem Memory.read_writeBytes_outside (bs : List Byte) (m : Memory) (a x : Nat) (h : x < a ∨ a + bs.length ≤ x) :
    (m.writeBytes a bs).read x = m.read x := by
  induction bs generalizing m a with
  | nil => rfl
  | cons b rest ih =>
    simp only [List.length_cons] at h
    rw [Memory.writeBytes, ih _ _ (by omega), Memory.read_write_ne m b (by omega)]

/-- A byte among those written reads as written. -/
theorem Memory.read_writeBytes_inside (bs : List Byte) (m : Memory) (a n : Nat) (hm : m.wf = true) (h : n < bs.length) :
    (m.writeBytes a bs).read (a + n) = bs[n] := by
  induction bs generalizing m a n with
  | nil => simp at h
  | cons b rest ih =>
    cases n with
    | zero =>
      rw [Memory.writeBytes, Memory.read_writeBytes_outside rest _ _ _ (by omega)]
      simpa using Memory.read_write_self m a b hm
    | succ n =>
      simp only [List.length_cons] at h
      have := ih (m.write a b) (a + 1) n (Memory.wf_write m a b hm) (by omega)
      rw [Memory.writeBytes]
      simpa [Nat.add_assoc, Nat.add_comm 1 n] using this

@[simp] theorem Memory.length_readBytes (m : Memory) (a n : Nat) : (m.readBytes a n).length = n := by
  induction n generalizing a with
  | zero => rfl
  | succ n ih => simp [Memory.readBytes, ih]

theorem Memory.readBytes_eq_of_read (m : Memory) (bs : List Byte) (a : Nat) (h : ∀ n (hn : n < bs.length), m.read (a + n) = bs[n]) :
    m.readBytes a bs.length = bs := by
  induction bs generalizing a with
  | nil => rfl
  | cons b rest ih =>
    simp only [List.length_cons, Memory.readBytes, List.cons.injEq]
    refine ⟨h 0 (by simp), ih (a + 1) fun n hn => ?_⟩
    have := h (n + 1) (by simpa using hn)
    simpa [Nat.add_assoc, Nat.add_comm 1 n] using this

/-- Reading back what was written. -/
theorem Memory.readBytes_writeBytes (m : Memory) (a : Nat) (bs : List Byte) (hm : m.wf = true) :
    (m.writeBytes a bs).readBytes a bs.length = bs :=
  Memory.readBytes_eq_of_read _ _ _ fun n hn => Memory.read_writeBytes_inside bs m a n hm hn

end Sys2Proof.Machine
end

