-- ==== Sys2Proof/Laws/State.lean ====
section
/-! SUPPORT. What the updates of the state and of a context leave unchanged, field by field. -/

namespace Sys2Proof.Machine

/-! ## The state -/

@[simp] theorem State.setCtx_cur (s : State) (k : Nat) (x : Ctx) : (s.setCtx k x).cur = s.cur := rfl
@[simp] theorem State.setCtx_issuing (s : State) (k : Nat) (x : Ctx) : (s.setCtx k x).issuing = s.issuing := rfl
@[simp] theorem State.setCtx_replayNow (s : State) (k : Nat) (x : Ctx) : (s.setCtx k x).replayNow = s.replayNow := rfl
@[simp] theorem State.setCtx_inputs (s : State) (k : Nat) (x : Ctx) : (s.setCtx k x).inputs = s.inputs := rfl
@[simp] theorem State.setCtx_ticks (s : State) (k : Nat) (x : Ctx) : (s.setCtx k x).ticks = s.ticks := rfl
@[simp] theorem State.setCtx_ptp (s : State) (k : Nat) (x : Ctx) : (s.setCtx k x).ptp = s.ptp := rfl
@[simp] theorem State.setCtx_ptpset (s : State) (k : Nat) (x : Ctx) : (s.setCtx k x).ptpset = s.ptpset := rfl
@[simp] theorem State.setCtx_cycle (s : State) (k : Nat) (x : Ctx) : (s.setCtx k x).cycle = s.cycle := rfl
@[simp] theorem State.setCtx_fresh (s : State) (k : Nat) (x : Ctx) : (s.setCtx k x).fresh = s.fresh := rfl
@[simp] theorem State.setCtx_drawn (s : State) (k : Nat) (x : Ctx) : (s.setCtx k x).drawn = s.drawn := rfl
@[simp] theorem State.setCtx_specs (s : State) (k : Nat) (x : Ctx) : (s.setCtx k x).specs = s.specs := rfl
@[simp] theorem State.setCtx_ops (s : State) (k : Nat) (x : Ctx) : (s.setCtx k x).ops = s.ops := rfl
@[simp] theorem State.setCtx_copies (s : State) (k : Nat) (x : Ctx) : (s.setCtx k x).copies = s.copies := rfl
@[simp] theorem State.setCtx_asyncDone (s : State) (k : Nat) (x : Ctx) : (s.setCtx k x).asyncDone = s.asyncDone := rfl
@[simp] theorem State.setCtx_faultsWaiting (s : State) (k : Nat) (x : Ctx) : (s.setCtx k x).faultsWaiting = s.faultsWaiting := rfl
@[simp] theorem State.setCtx_records (s : State) (k : Nat) (x : Ctx) : (s.setCtx k x).records = s.records := rfl
@[simp] theorem State.setCtx_repairs (s : State) (k : Nat) (x : Ctx) : (s.setCtx k x).repairs = s.repairs := rfl
@[simp] theorem State.setCtx_queues (s : State) (k : Nat) (x : Ctx) : (s.setCtx k x).queues = s.queues := rfl
@[simp] theorem State.setCtx_shadows (s : State) (k : Nat) (x : Ctx) : (s.setCtx k x).shadows = s.shadows := rfl
@[simp] theorem State.setCtx_graphs (s : State) (k : Nat) (x : Ctx) : (s.setCtx k x).graphs = s.graphs := rfl
@[simp] theorem State.setCtx_subqs (s : State) (k : Nat) (x : Ctx) : (s.setCtx k x).subqs = s.subqs := rfl
@[simp] theorem State.setCtx_strays (s : State) (k : Nat) (x : Ctx) : (s.setCtx k x).strays = s.strays := rfl
@[simp] theorem State.setCtx_curated (s : State) (k : Nat) (x : Ctx) : (s.setCtx k x).curated = s.curated := rfl
@[simp] theorem State.setCtx_rrPart (s : State) (k : Nat) (x : Ctx) : (s.setCtx k x).rrPart = s.rrPart := rfl
@[simp] theorem State.setCtx_rrServed (s : State) (k : Nat) (x : Ctx) : (s.setCtx k x).rrServed = s.rrServed := rfl
@[simp] theorem State.setCtx_engines (s : State) (k : Nat) (x : Ctx) : (s.setCtx k x).engines = s.engines := rfl
@[simp] theorem State.setCtx_requests (s : State) (k : Nat) (x : Ctx) : (s.setCtx k x).requests = s.requests := rfl
@[simp] theorem State.setCtx_mem (s : State) (k : Nat) (x : Ctx) : (s.setCtx k x).mem = s.mem := rfl
@[simp] theorem State.setCtx_scratch (s : State) (k : Nat) (x : Ctx) : (s.setCtx k x).scratch = s.scratch := rfl
@[simp] theorem State.setCtx_holds (s : State) (k : Nat) (x : Ctx) : (s.setCtx k x).holds = s.holds := rfl
@[simp] theorem State.setCtx_bankModes (s : State) (k : Nat) (x : Ctx) : (s.setCtx k x).bankModes = s.bankModes := rfl
@[simp] theorem State.setCtx_queueBanks (s : State) (k : Nat) (x : Ctx) : (s.setCtx k x).queueBanks = s.queueBanks := rfl
@[simp] theorem State.setCtx_tileCache (s : State) (k : Nat) (x : Ctx) : (s.setCtx k x).tileCache = s.tileCache := rfl
@[simp] theorem State.setCtx_slices (s : State) (k : Nat) (x : Ctx) : (s.setCtx k x).slices = s.slices := rfl
@[simp] theorem State.setCtx_badSectors (s : State) (k : Nat) (x : Ctx) : (s.setCtx k x).badSectors = s.badSectors := rfl
@[simp] theorem State.setCtx_tlb (s : State) (k : Nat) (x : Ctx) : (s.setCtx k x).tlb = s.tlb := rfl
@[simp] theorem State.setCtx_asids (s : State) (k : Nat) (x : Ctx) : (s.setCtx k x).asids = s.asids := rfl
@[simp] theorem State.setCtx_bindings (s : State) (k : Nat) (x : Ctx) : (s.setCtx k x).bindings = s.bindings := rfl
@[simp] theorem State.setCtx_parts (s : State) (k : Nat) (x : Ctx) : (s.setCtx k x).parts = s.parts := rfl
@[simp] theorem State.setCtx_tileOwner (s : State) (k : Nat) (x : Ctx) : (s.setCtx k x).tileOwner = s.tileOwner := rfl
@[simp] theorem State.setCtx_wayOwner (s : State) (k : Nat) (x : Ctx) : (s.setCtx k x).wayOwner = s.wayOwner := rfl
@[simp] theorem State.setCtx_clusters (s : State) (k : Nat) (x : Ctx) : (s.setCtx k x).clusters = s.clusters := rfl
@[simp] theorem State.setCtx_budget (s : State) (k : Nat) (x : Ctx) : (s.setCtx k x).budget = s.budget := rfl
@[simp] theorem State.setCtx_latched (s : State) (k : Nat) (x : Ctx) : (s.setCtx k x).latched = s.latched := rfl
@[simp] theorem State.setCtx_comBudget (s : State) (k : Nat) (x : Ctx) : (s.setCtx k x).comBudget = s.comBudget := rfl
@[simp] theorem State.setCtx_expired (s : State) (k : Nat) (x : Ctx) : (s.setCtx k x).expired = s.expired := rfl
@[simp] theorem State.setCtx_running (s : State) (k : Nat) (x : Ctx) : (s.setCtx k x).running = s.running := rfl
@[simp] theorem State.setCtx_kickedAt (s : State) (k : Nat) (x : Ctx) : (s.setCtx k x).kickedAt = s.kickedAt := rfl
@[simp] theorem State.setCtx_hot (s : State) (k : Nat) (x : Ctx) : (s.setCtx k x).hot = s.hot := rfl
@[simp] theorem State.setCtx_swaps (s : State) (k : Nat) (x : Ctx) : (s.setCtx k x).swaps = s.swaps := rfl
@[simp] theorem State.setCtx_staged (s : State) (k : Nat) (x : Ctx) : (s.setCtx k x).staged = s.staged := rfl
@[simp] theorem State.setCtx_fullSwitches (s : State) (k : Nat) (x : Ctx) : (s.setCtx k x).fullSwitches = s.fullSwitches := rfl
@[simp] theorem State.setCtx_images (s : State) (k : Nat) (x : Ctx) : (s.setCtx k x).images = s.images := rfl
@[simp] theorem State.setCtx_scratchImages (s : State) (k : Nat) (x : Ctx) : (s.setCtx k x).scratchImages = s.scratchImages := rfl
@[simp] theorem State.setCtx_queueImages (s : State) (k : Nat) (x : Ctx) : (s.setCtx k x).queueImages = s.queueImages := rfl
@[simp] theorem State.setCtx_mgmt (s : State) (k : Nat) (x : Ctx) : (s.setCtx k x).mgmt = s.mgmt := rfl
@[simp] theorem State.setCtx_fwdigest (s : State) (k : Nat) (x : Ctx) : (s.setCtx k x).fwdigest = s.fwdigest := rfl
@[simp] theorem State.setCtx_safe (s : State) (k : Nat) (x : Ctx) : (s.setCtx k x).safe = s.safe := rfl
@[simp] theorem State.setCtx_retired (s : State) (k : Nat) (x : Ctx) : (s.setCtx k x).retired = s.retired := rfl
@[simp] theorem State.setCtx_transients (s : State) (k : Nat) (x : Ctx) : (s.setCtx k x).transients = s.transients := rfl
@[simp] theorem State.setCtx_testDue (s : State) (k : Nat) (x : Ctx) : (s.setCtx k x).testDue = s.testDue := rfl
@[simp] theorem State.setCtx_testing (s : State) (k : Nat) (x : Ctx) : (s.setCtx k x).testing = s.testing := rfl
@[simp] theorem State.setCtx_flitRetries (s : State) (k : Nat) (x : Ctx) : (s.setCtx k x).flitRetries = s.flitRetries := rfl
@[simp] theorem State.setCtx_linkLanes (s : State) (k : Nat) (x : Ctx) : (s.setCtx k x).linkLanes = s.linkLanes := rfl
@[simp] theorem State.setCtx_spares (s : State) (k : Nat) (x : Ctx) : (s.setCtx k x).spares = s.spares := rfl
@[simp] theorem State.setCtx_tilesOut (s : State) (k : Nat) (x : Ctx) : (s.setCtx k x).tilesOut = s.tilesOut := rfl
@[simp] theorem State.setCtx_modulesOff (s : State) (k : Nat) (x : Ctx) : (s.setCtx k x).modulesOff = s.modulesOff := rfl
@[simp] theorem State.setCtx_irqs (s : State) (k : Nat) (x : Ctx) : (s.setCtx k x).irqs = s.irqs := rfl
@[simp] theorem State.setCtx_hostResp (s : State) (k : Nat) (x : Ctx) : (s.setCtx k x).hostResp = s.hostResp := rfl

@[simp] theorem State.setPart_cur (s : State) (k : Nat) (x : Part) : (s.setPart k x).cur = s.cur := rfl
@[simp] theorem State.setPart_issuing (s : State) (k : Nat) (x : Part) : (s.setPart k x).issuing = s.issuing := rfl
@[simp] theorem State.setPart_replayNow (s : State) (k : Nat) (x : Part) : (s.setPart k x).replayNow = s.replayNow := rfl
@[simp] theorem State.setPart_inputs (s : State) (k : Nat) (x : Part) : (s.setPart k x).inputs = s.inputs := rfl
@[simp] theorem State.setPart_ticks (s : State) (k : Nat) (x : Part) : (s.setPart k x).ticks = s.ticks := rfl
@[simp] theorem State.setPart_ptp (s : State) (k : Nat) (x : Part) : (s.setPart k x).ptp = s.ptp := rfl
@[simp] theorem State.setPart_ptpset (s : State) (k : Nat) (x : Part) : (s.setPart k x).ptpset = s.ptpset := rfl
@[simp] theorem State.setPart_cycle (s : State) (k : Nat) (x : Part) : (s.setPart k x).cycle = s.cycle := rfl
@[simp] theorem State.setPart_fresh (s : State) (k : Nat) (x : Part) : (s.setPart k x).fresh = s.fresh := rfl
@[simp] theorem State.setPart_drawn (s : State) (k : Nat) (x : Part) : (s.setPart k x).drawn = s.drawn := rfl
@[simp] theorem State.setPart_ctxs (s : State) (k : Nat) (x : Part) : (s.setPart k x).ctxs = s.ctxs := rfl
@[simp] theorem State.setPart_specs (s : State) (k : Nat) (x : Part) : (s.setPart k x).specs = s.specs := rfl
@[simp] theorem State.setPart_ops (s : State) (k : Nat) (x : Part) : (s.setPart k x).ops = s.ops := rfl
@[simp] theorem State.setPart_copies (s : State) (k : Nat) (x : Part) : (s.setPart k x).copies = s.copies := rfl
@[simp] theorem State.setPart_asyncDone (s : State) (k : Nat) (x : Part) : (s.setPart k x).asyncDone = s.asyncDone := rfl
@[simp] theorem State.setPart_faultsWaiting (s : State) (k : Nat) (x : Part) : (s.setPart k x).faultsWaiting = s.faultsWaiting := rfl
@[simp] theorem State.setPart_records (s : State) (k : Nat) (x : Part) : (s.setPart k x).records = s.records := rfl
@[simp] theorem State.setPart_repairs (s : State) (k : Nat) (x : Part) : (s.setPart k x).repairs = s.repairs := rfl
@[simp] theorem State.setPart_queues (s : State) (k : Nat) (x : Part) : (s.setPart k x).queues = s.queues := rfl
@[simp] theorem State.setPart_shadows (s : State) (k : Nat) (x : Part) : (s.setPart k x).shadows = s.shadows := rfl
@[simp] theorem State.setPart_graphs (s : State) (k : Nat) (x : Part) : (s.setPart k x).graphs = s.graphs := rfl
@[simp] theorem State.setPart_subqs (s : State) (k : Nat) (x : Part) : (s.setPart k x).subqs = s.subqs := rfl
@[simp] theorem State.setPart_strays (s : State) (k : Nat) (x : Part) : (s.setPart k x).strays = s.strays := rfl
@[simp] theorem State.setPart_curated (s : State) (k : Nat) (x : Part) : (s.setPart k x).curated = s.curated := rfl
@[simp] theorem State.setPart_rrPart (s : State) (k : Nat) (x : Part) : (s.setPart k x).rrPart = s.rrPart := rfl
@[simp] theorem State.setPart_rrServed (s : State) (k : Nat) (x : Part) : (s.setPart k x).rrServed = s.rrServed := rfl
@[simp] theorem State.setPart_engines (s : State) (k : Nat) (x : Part) : (s.setPart k x).engines = s.engines := rfl
@[simp] theorem State.setPart_requests (s : State) (k : Nat) (x : Part) : (s.setPart k x).requests = s.requests := rfl
@[simp] theorem State.setPart_mem (s : State) (k : Nat) (x : Part) : (s.setPart k x).mem = s.mem := rfl
@[simp] theorem State.setPart_scratch (s : State) (k : Nat) (x : Part) : (s.setPart k x).scratch = s.scratch := rfl
@[simp] theorem State.setPart_holds (s : State) (k : Nat) (x : Part) : (s.setPart k x).holds = s.holds := rfl
@[simp] theorem State.setPart_bankModes (s : State) (k : Nat) (x : Part) : (s.setPart k x).bankModes = s.bankModes := rfl
@[simp] theorem State.setPart_queueBanks (s : State) (k : Nat) (x : Part) : (s.setPart k x).queueBanks = s.queueBanks := rfl
@[simp] theorem State.setPart_tileCache (s : State) (k : Nat) (x : Part) : (s.setPart k x).tileCache = s.tileCache := rfl
@[simp] theorem State.setPart_slices (s : State) (k : Nat) (x : Part) : (s.setPart k x).slices = s.slices := rfl
@[simp] theorem State.setPart_badSectors (s : State) (k : Nat) (x : Part) : (s.setPart k x).badSectors = s.badSectors := rfl
@[simp] theorem State.setPart_tlb (s : State) (k : Nat) (x : Part) : (s.setPart k x).tlb = s.tlb := rfl
@[simp] theorem State.setPart_asids (s : State) (k : Nat) (x : Part) : (s.setPart k x).asids = s.asids := rfl
@[simp] theorem State.setPart_bindings (s : State) (k : Nat) (x : Part) : (s.setPart k x).bindings = s.bindings := rfl
@[simp] theorem State.setPart_tileOwner (s : State) (k : Nat) (x : Part) : (s.setPart k x).tileOwner = s.tileOwner := rfl
@[simp] theorem State.setPart_wayOwner (s : State) (k : Nat) (x : Part) : (s.setPart k x).wayOwner = s.wayOwner := rfl
@[simp] theorem State.setPart_clusters (s : State) (k : Nat) (x : Part) : (s.setPart k x).clusters = s.clusters := rfl
@[simp] theorem State.setPart_budget (s : State) (k : Nat) (x : Part) : (s.setPart k x).budget = s.budget := rfl
@[simp] theorem State.setPart_latched (s : State) (k : Nat) (x : Part) : (s.setPart k x).latched = s.latched := rfl
@[simp] theorem State.setPart_comBudget (s : State) (k : Nat) (x : Part) : (s.setPart k x).comBudget = s.comBudget := rfl
@[simp] theorem State.setPart_expired (s : State) (k : Nat) (x : Part) : (s.setPart k x).expired = s.expired := rfl
@[simp] theorem State.setPart_running (s : State) (k : Nat) (x : Part) : (s.setPart k x).running = s.running := rfl
@[simp] theorem State.setPart_kickedAt (s : State) (k : Nat) (x : Part) : (s.setPart k x).kickedAt = s.kickedAt := rfl
@[simp] theorem State.setPart_hot (s : State) (k : Nat) (x : Part) : (s.setPart k x).hot = s.hot := rfl
@[simp] theorem State.setPart_swaps (s : State) (k : Nat) (x : Part) : (s.setPart k x).swaps = s.swaps := rfl
@[simp] theorem State.setPart_staged (s : State) (k : Nat) (x : Part) : (s.setPart k x).staged = s.staged := rfl
@[simp] theorem State.setPart_fullSwitches (s : State) (k : Nat) (x : Part) : (s.setPart k x).fullSwitches = s.fullSwitches := rfl
@[simp] theorem State.setPart_images (s : State) (k : Nat) (x : Part) : (s.setPart k x).images = s.images := rfl
@[simp] theorem State.setPart_scratchImages (s : State) (k : Nat) (x : Part) : (s.setPart k x).scratchImages = s.scratchImages := rfl
@[simp] theorem State.setPart_queueImages (s : State) (k : Nat) (x : Part) : (s.setPart k x).queueImages = s.queueImages := rfl
@[simp] theorem State.setPart_mgmt (s : State) (k : Nat) (x : Part) : (s.setPart k x).mgmt = s.mgmt := rfl
@[simp] theorem State.setPart_fwdigest (s : State) (k : Nat) (x : Part) : (s.setPart k x).fwdigest = s.fwdigest := rfl
@[simp] theorem State.setPart_safe (s : State) (k : Nat) (x : Part) : (s.setPart k x).safe = s.safe := rfl
@[simp] theorem State.setPart_retired (s : State) (k : Nat) (x : Part) : (s.setPart k x).retired = s.retired := rfl
@[simp] theorem State.setPart_transients (s : State) (k : Nat) (x : Part) : (s.setPart k x).transients = s.transients := rfl
@[simp] theorem State.setPart_testDue (s : State) (k : Nat) (x : Part) : (s.setPart k x).testDue = s.testDue := rfl
@[simp] theorem State.setPart_testing (s : State) (k : Nat) (x : Part) : (s.setPart k x).testing = s.testing := rfl
@[simp] theorem State.setPart_flitRetries (s : State) (k : Nat) (x : Part) : (s.setPart k x).flitRetries = s.flitRetries := rfl
@[simp] theorem State.setPart_linkLanes (s : State) (k : Nat) (x : Part) : (s.setPart k x).linkLanes = s.linkLanes := rfl
@[simp] theorem State.setPart_spares (s : State) (k : Nat) (x : Part) : (s.setPart k x).spares = s.spares := rfl
@[simp] theorem State.setPart_tilesOut (s : State) (k : Nat) (x : Part) : (s.setPart k x).tilesOut = s.tilesOut := rfl
@[simp] theorem State.setPart_modulesOff (s : State) (k : Nat) (x : Part) : (s.setPart k x).modulesOff = s.modulesOff := rfl
@[simp] theorem State.setPart_irqs (s : State) (k : Nat) (x : Part) : (s.setPart k x).irqs = s.irqs := rfl
@[simp] theorem State.setPart_hostResp (s : State) (k : Nat) (x : Part) : (s.setPart k x).hostResp = s.hostResp := rfl

@[simp] theorem State.setCluster_cur (s : State) (k : Nat) (x : Cluster) : (s.setCluster k x).cur = s.cur := rfl
@[simp] theorem State.setCluster_issuing (s : State) (k : Nat) (x : Cluster) : (s.setCluster k x).issuing = s.issuing := rfl
@[simp] theorem State.setCluster_replayNow (s : State) (k : Nat) (x : Cluster) : (s.setCluster k x).replayNow = s.replayNow := rfl
@[simp] theorem State.setCluster_inputs (s : State) (k : Nat) (x : Cluster) : (s.setCluster k x).inputs = s.inputs := rfl
@[simp] theorem State.setCluster_ticks (s : State) (k : Nat) (x : Cluster) : (s.setCluster k x).ticks = s.ticks := rfl
@[simp] theorem State.setCluster_ptp (s : State) (k : Nat) (x : Cluster) : (s.setCluster k x).ptp = s.ptp := rfl
@[simp] theorem State.setCluster_ptpset (s : State) (k : Nat) (x : Cluster) : (s.setCluster k x).ptpset = s.ptpset := rfl
@[simp] theorem State.setCluster_cycle (s : State) (k : Nat) (x : Cluster) : (s.setCluster k x).cycle = s.cycle := rfl
@[simp] theorem State.setCluster_fresh (s : State) (k : Nat) (x : Cluster) : (s.setCluster k x).fresh = s.fresh := rfl
@[simp] theorem State.setCluster_drawn (s : State) (k : Nat) (x : Cluster) : (s.setCluster k x).drawn = s.drawn := rfl
@[simp] theorem State.setCluster_ctxs (s : State) (k : Nat) (x : Cluster) : (s.setCluster k x).ctxs = s.ctxs := rfl
@[simp] theorem State.setCluster_specs (s : State) (k : Nat) (x : Cluster) : (s.setCluster k x).specs = s.specs := rfl
@[simp] theorem State.setCluster_ops (s : State) (k : Nat) (x : Cluster) : (s.setCluster k x).ops = s.ops := rfl
@[simp] theorem State.setCluster_copies (s : State) (k : Nat) (x : Cluster) : (s.setCluster k x).copies = s.copies := rfl
@[simp] theorem State.setCluster_asyncDone (s : State) (k : Nat) (x : Cluster) : (s.setCluster k x).asyncDone = s.asyncDone := rfl
@[simp] theorem State.setCluster_faultsWaiting (s : State) (k : Nat) (x : Cluster) : (s.setCluster k x).faultsWaiting = s.faultsWaiting := rfl
@[simp] theorem State.setCluster_records (s : State) (k : Nat) (x : Cluster) : (s.setCluster k x).records = s.records := rfl
@[simp] theorem State.setCluster_repairs (s : State) (k : Nat) (x : Cluster) : (s.setCluster k x).repairs = s.repairs := rfl
@[simp] theorem State.setCluster_queues (s : State) (k : Nat) (x : Cluster) : (s.setCluster k x).queues = s.queues := rfl
@[simp] theorem State.setCluster_shadows (s : State) (k : Nat) (x : Cluster) : (s.setCluster k x).shadows = s.shadows := rfl
@[simp] theorem State.setCluster_graphs (s : State) (k : Nat) (x : Cluster) : (s.setCluster k x).graphs = s.graphs := rfl
@[simp] theorem State.setCluster_subqs (s : State) (k : Nat) (x : Cluster) : (s.setCluster k x).subqs = s.subqs := rfl
@[simp] theorem State.setCluster_strays (s : State) (k : Nat) (x : Cluster) : (s.setCluster k x).strays = s.strays := rfl
@[simp] theorem State.setCluster_curated (s : State) (k : Nat) (x : Cluster) : (s.setCluster k x).curated = s.curated := rfl
@[simp] theorem State.setCluster_rrPart (s : State) (k : Nat) (x : Cluster) : (s.setCluster k x).rrPart = s.rrPart := rfl
@[simp] theorem State.setCluster_rrServed (s : State) (k : Nat) (x : Cluster) : (s.setCluster k x).rrServed = s.rrServed := rfl
@[simp] theorem State.setCluster_engines (s : State) (k : Nat) (x : Cluster) : (s.setCluster k x).engines = s.engines := rfl
@[simp] theorem State.setCluster_requests (s : State) (k : Nat) (x : Cluster) : (s.setCluster k x).requests = s.requests := rfl
@[simp] theorem State.setCluster_mem (s : State) (k : Nat) (x : Cluster) : (s.setCluster k x).mem = s.mem := rfl
@[simp] theorem State.setCluster_scratch (s : State) (k : Nat) (x : Cluster) : (s.setCluster k x).scratch = s.scratch := rfl
@[simp] theorem State.setCluster_holds (s : State) (k : Nat) (x : Cluster) : (s.setCluster k x).holds = s.holds := rfl
@[simp] theorem State.setCluster_bankModes (s : State) (k : Nat) (x : Cluster) : (s.setCluster k x).bankModes = s.bankModes := rfl
@[simp] theorem State.setCluster_queueBanks (s : State) (k : Nat) (x : Cluster) : (s.setCluster k x).queueBanks = s.queueBanks := rfl
@[simp] theorem State.setCluster_tileCache (s : State) (k : Nat) (x : Cluster) : (s.setCluster k x).tileCache = s.tileCache := rfl
@[simp] theorem State.setCluster_slices (s : State) (k : Nat) (x : Cluster) : (s.setCluster k x).slices = s.slices := rfl
@[simp] theorem State.setCluster_badSectors (s : State) (k : Nat) (x : Cluster) : (s.setCluster k x).badSectors = s.badSectors := rfl
@[simp] theorem State.setCluster_tlb (s : State) (k : Nat) (x : Cluster) : (s.setCluster k x).tlb = s.tlb := rfl
@[simp] theorem State.setCluster_asids (s : State) (k : Nat) (x : Cluster) : (s.setCluster k x).asids = s.asids := rfl
@[simp] theorem State.setCluster_bindings (s : State) (k : Nat) (x : Cluster) : (s.setCluster k x).bindings = s.bindings := rfl
@[simp] theorem State.setCluster_parts (s : State) (k : Nat) (x : Cluster) : (s.setCluster k x).parts = s.parts := rfl
@[simp] theorem State.setCluster_tileOwner (s : State) (k : Nat) (x : Cluster) : (s.setCluster k x).tileOwner = s.tileOwner := rfl
@[simp] theorem State.setCluster_wayOwner (s : State) (k : Nat) (x : Cluster) : (s.setCluster k x).wayOwner = s.wayOwner := rfl
@[simp] theorem State.setCluster_budget (s : State) (k : Nat) (x : Cluster) : (s.setCluster k x).budget = s.budget := rfl
@[simp] theorem State.setCluster_latched (s : State) (k : Nat) (x : Cluster) : (s.setCluster k x).latched = s.latched := rfl
@[simp] theorem State.setCluster_comBudget (s : State) (k : Nat) (x : Cluster) : (s.setCluster k x).comBudget = s.comBudget := rfl
@[simp] theorem State.setCluster_expired (s : State) (k : Nat) (x : Cluster) : (s.setCluster k x).expired = s.expired := rfl
@[simp] theorem State.setCluster_running (s : State) (k : Nat) (x : Cluster) : (s.setCluster k x).running = s.running := rfl
@[simp] theorem State.setCluster_kickedAt (s : State) (k : Nat) (x : Cluster) : (s.setCluster k x).kickedAt = s.kickedAt := rfl
@[simp] theorem State.setCluster_hot (s : State) (k : Nat) (x : Cluster) : (s.setCluster k x).hot = s.hot := rfl
@[simp] theorem State.setCluster_swaps (s : State) (k : Nat) (x : Cluster) : (s.setCluster k x).swaps = s.swaps := rfl
@[simp] theorem State.setCluster_staged (s : State) (k : Nat) (x : Cluster) : (s.setCluster k x).staged = s.staged := rfl
@[simp] theorem State.setCluster_fullSwitches (s : State) (k : Nat) (x : Cluster) : (s.setCluster k x).fullSwitches = s.fullSwitches := rfl
@[simp] theorem State.setCluster_images (s : State) (k : Nat) (x : Cluster) : (s.setCluster k x).images = s.images := rfl
@[simp] theorem State.setCluster_scratchImages (s : State) (k : Nat) (x : Cluster) : (s.setCluster k x).scratchImages = s.scratchImages := rfl
@[simp] theorem State.setCluster_queueImages (s : State) (k : Nat) (x : Cluster) : (s.setCluster k x).queueImages = s.queueImages := rfl
@[simp] theorem State.setCluster_mgmt (s : State) (k : Nat) (x : Cluster) : (s.setCluster k x).mgmt = s.mgmt := rfl
@[simp] theorem State.setCluster_fwdigest (s : State) (k : Nat) (x : Cluster) : (s.setCluster k x).fwdigest = s.fwdigest := rfl
@[simp] theorem State.setCluster_safe (s : State) (k : Nat) (x : Cluster) : (s.setCluster k x).safe = s.safe := rfl
@[simp] theorem State.setCluster_retired (s : State) (k : Nat) (x : Cluster) : (s.setCluster k x).retired = s.retired := rfl
@[simp] theorem State.setCluster_transients (s : State) (k : Nat) (x : Cluster) : (s.setCluster k x).transients = s.transients := rfl
@[simp] theorem State.setCluster_testDue (s : State) (k : Nat) (x : Cluster) : (s.setCluster k x).testDue = s.testDue := rfl
@[simp] theorem State.setCluster_testing (s : State) (k : Nat) (x : Cluster) : (s.setCluster k x).testing = s.testing := rfl
@[simp] theorem State.setCluster_flitRetries (s : State) (k : Nat) (x : Cluster) : (s.setCluster k x).flitRetries = s.flitRetries := rfl
@[simp] theorem State.setCluster_linkLanes (s : State) (k : Nat) (x : Cluster) : (s.setCluster k x).linkLanes = s.linkLanes := rfl
@[simp] theorem State.setCluster_spares (s : State) (k : Nat) (x : Cluster) : (s.setCluster k x).spares = s.spares := rfl
@[simp] theorem State.setCluster_tilesOut (s : State) (k : Nat) (x : Cluster) : (s.setCluster k x).tilesOut = s.tilesOut := rfl
@[simp] theorem State.setCluster_modulesOff (s : State) (k : Nat) (x : Cluster) : (s.setCluster k x).modulesOff = s.modulesOff := rfl
@[simp] theorem State.setCluster_irqs (s : State) (k : Nat) (x : Cluster) : (s.setCluster k x).irqs = s.irqs := rfl
@[simp] theorem State.setCluster_hostResp (s : State) (k : Nat) (x : Cluster) : (s.setCluster k x).hostResp = s.hostResp := rfl

@[simp] theorem State.setEngine_cur (s : State) (k : Nat) (x : Engine) : (s.setEngine k x).cur = s.cur := rfl
@[simp] theorem State.setEngine_issuing (s : State) (k : Nat) (x : Engine) : (s.setEngine k x).issuing = s.issuing := rfl
@[simp] theorem State.setEngine_replayNow (s : State) (k : Nat) (x : Engine) : (s.setEngine k x).replayNow = s.replayNow := rfl
@[simp] theorem State.setEngine_inputs (s : State) (k : Nat) (x : Engine) : (s.setEngine k x).inputs = s.inputs := rfl
@[simp] theorem State.setEngine_ticks (s : State) (k : Nat) (x : Engine) : (s.setEngine k x).ticks = s.ticks := rfl
@[simp] theorem State.setEngine_ptp (s : State) (k : Nat) (x : Engine) : (s.setEngine k x).ptp = s.ptp := rfl
@[simp] theorem State.setEngine_ptpset (s : State) (k : Nat) (x : Engine) : (s.setEngine k x).ptpset = s.ptpset := rfl
@[simp] theorem State.setEngine_cycle (s : State) (k : Nat) (x : Engine) : (s.setEngine k x).cycle = s.cycle := rfl
@[simp] theorem State.setEngine_fresh (s : State) (k : Nat) (x : Engine) : (s.setEngine k x).fresh = s.fresh := rfl
@[simp] theorem State.setEngine_drawn (s : State) (k : Nat) (x : Engine) : (s.setEngine k x).drawn = s.drawn := rfl
@[simp] theorem State.setEngine_ctxs (s : State) (k : Nat) (x : Engine) : (s.setEngine k x).ctxs = s.ctxs := rfl
@[simp] theorem State.setEngine_specs (s : State) (k : Nat) (x : Engine) : (s.setEngine k x).specs = s.specs := rfl
@[simp] theorem State.setEngine_ops (s : State) (k : Nat) (x : Engine) : (s.setEngine k x).ops = s.ops := rfl
@[simp] theorem State.setEngine_copies (s : State) (k : Nat) (x : Engine) : (s.setEngine k x).copies = s.copies := rfl
@[simp] theorem State.setEngine_asyncDone (s : State) (k : Nat) (x : Engine) : (s.setEngine k x).asyncDone = s.asyncDone := rfl
@[simp] theorem State.setEngine_faultsWaiting (s : State) (k : Nat) (x : Engine) : (s.setEngine k x).faultsWaiting = s.faultsWaiting := rfl
@[simp] theorem State.setEngine_records (s : State) (k : Nat) (x : Engine) : (s.setEngine k x).records = s.records := rfl
@[simp] theorem State.setEngine_repairs (s : State) (k : Nat) (x : Engine) : (s.setEngine k x).repairs = s.repairs := rfl
@[simp] theorem State.setEngine_queues (s : State) (k : Nat) (x : Engine) : (s.setEngine k x).queues = s.queues := rfl
@[simp] theorem State.setEngine_shadows (s : State) (k : Nat) (x : Engine) : (s.setEngine k x).shadows = s.shadows := rfl
@[simp] theorem State.setEngine_graphs (s : State) (k : Nat) (x : Engine) : (s.setEngine k x).graphs = s.graphs := rfl
@[simp] theorem State.setEngine_subqs (s : State) (k : Nat) (x : Engine) : (s.setEngine k x).subqs = s.subqs := rfl
@[simp] theorem State.setEngine_strays (s : State) (k : Nat) (x : Engine) : (s.setEngine k x).strays = s.strays := rfl
@[simp] theorem State.setEngine_curated (s : State) (k : Nat) (x : Engine) : (s.setEngine k x).curated = s.curated := rfl
@[simp] theorem State.setEngine_rrPart (s : State) (k : Nat) (x : Engine) : (s.setEngine k x).rrPart = s.rrPart := rfl
@[simp] theorem State.setEngine_rrServed (s : State) (k : Nat) (x : Engine) : (s.setEngine k x).rrServed = s.rrServed := rfl
@[simp] theorem State.setEngine_requests (s : State) (k : Nat) (x : Engine) : (s.setEngine k x).requests = s.requests := rfl
@[simp] theorem State.setEngine_mem (s : State) (k : Nat) (x : Engine) : (s.setEngine k x).mem = s.mem := rfl
@[simp] theorem State.setEngine_scratch (s : State) (k : Nat) (x : Engine) : (s.setEngine k x).scratch = s.scratch := rfl
@[simp] theorem State.setEngine_holds (s : State) (k : Nat) (x : Engine) : (s.setEngine k x).holds = s.holds := rfl
@[simp] theorem State.setEngine_bankModes (s : State) (k : Nat) (x : Engine) : (s.setEngine k x).bankModes = s.bankModes := rfl
@[simp] theorem State.setEngine_queueBanks (s : State) (k : Nat) (x : Engine) : (s.setEngine k x).queueBanks = s.queueBanks := rfl
@[simp] theorem State.setEngine_tileCache (s : State) (k : Nat) (x : Engine) : (s.setEngine k x).tileCache = s.tileCache := rfl
@[simp] theorem State.setEngine_slices (s : State) (k : Nat) (x : Engine) : (s.setEngine k x).slices = s.slices := rfl
@[simp] theorem State.setEngine_badSectors (s : State) (k : Nat) (x : Engine) : (s.setEngine k x).badSectors = s.badSectors := rfl
@[simp] theorem State.setEngine_tlb (s : State) (k : Nat) (x : Engine) : (s.setEngine k x).tlb = s.tlb := rfl
@[simp] theorem State.setEngine_asids (s : State) (k : Nat) (x : Engine) : (s.setEngine k x).asids = s.asids := rfl
@[simp] theorem State.setEngine_bindings (s : State) (k : Nat) (x : Engine) : (s.setEngine k x).bindings = s.bindings := rfl
@[simp] theorem State.setEngine_parts (s : State) (k : Nat) (x : Engine) : (s.setEngine k x).parts = s.parts := rfl
@[simp] theorem State.setEngine_tileOwner (s : State) (k : Nat) (x : Engine) : (s.setEngine k x).tileOwner = s.tileOwner := rfl
@[simp] theorem State.setEngine_wayOwner (s : State) (k : Nat) (x : Engine) : (s.setEngine k x).wayOwner = s.wayOwner := rfl
@[simp] theorem State.setEngine_clusters (s : State) (k : Nat) (x : Engine) : (s.setEngine k x).clusters = s.clusters := rfl
@[simp] theorem State.setEngine_budget (s : State) (k : Nat) (x : Engine) : (s.setEngine k x).budget = s.budget := rfl
@[simp] theorem State.setEngine_latched (s : State) (k : Nat) (x : Engine) : (s.setEngine k x).latched = s.latched := rfl
@[simp] theorem State.setEngine_comBudget (s : State) (k : Nat) (x : Engine) : (s.setEngine k x).comBudget = s.comBudget := rfl
@[simp] theorem State.setEngine_expired (s : State) (k : Nat) (x : Engine) : (s.setEngine k x).expired = s.expired := rfl
@[simp] theorem State.setEngine_running (s : State) (k : Nat) (x : Engine) : (s.setEngine k x).running = s.running := rfl
@[simp] theorem State.setEngine_kickedAt (s : State) (k : Nat) (x : Engine) : (s.setEngine k x).kickedAt = s.kickedAt := rfl
@[simp] theorem State.setEngine_hot (s : State) (k : Nat) (x : Engine) : (s.setEngine k x).hot = s.hot := rfl
@[simp] theorem State.setEngine_swaps (s : State) (k : Nat) (x : Engine) : (s.setEngine k x).swaps = s.swaps := rfl
@[simp] theorem State.setEngine_staged (s : State) (k : Nat) (x : Engine) : (s.setEngine k x).staged = s.staged := rfl
@[simp] theorem State.setEngine_fullSwitches (s : State) (k : Nat) (x : Engine) : (s.setEngine k x).fullSwitches = s.fullSwitches := rfl
@[simp] theorem State.setEngine_images (s : State) (k : Nat) (x : Engine) : (s.setEngine k x).images = s.images := rfl
@[simp] theorem State.setEngine_scratchImages (s : State) (k : Nat) (x : Engine) : (s.setEngine k x).scratchImages = s.scratchImages := rfl
@[simp] theorem State.setEngine_queueImages (s : State) (k : Nat) (x : Engine) : (s.setEngine k x).queueImages = s.queueImages := rfl
@[simp] theorem State.setEngine_mgmt (s : State) (k : Nat) (x : Engine) : (s.setEngine k x).mgmt = s.mgmt := rfl
@[simp] theorem State.setEngine_fwdigest (s : State) (k : Nat) (x : Engine) : (s.setEngine k x).fwdigest = s.fwdigest := rfl
@[simp] theorem State.setEngine_safe (s : State) (k : Nat) (x : Engine) : (s.setEngine k x).safe = s.safe := rfl
@[simp] theorem State.setEngine_retired (s : State) (k : Nat) (x : Engine) : (s.setEngine k x).retired = s.retired := rfl
@[simp] theorem State.setEngine_transients (s : State) (k : Nat) (x : Engine) : (s.setEngine k x).transients = s.transients := rfl
@[simp] theorem State.setEngine_testDue (s : State) (k : Nat) (x : Engine) : (s.setEngine k x).testDue = s.testDue := rfl
@[simp] theorem State.setEngine_testing (s : State) (k : Nat) (x : Engine) : (s.setEngine k x).testing = s.testing := rfl
@[simp] theorem State.setEngine_flitRetries (s : State) (k : Nat) (x : Engine) : (s.setEngine k x).flitRetries = s.flitRetries := rfl
@[simp] theorem State.setEngine_linkLanes (s : State) (k : Nat) (x : Engine) : (s.setEngine k x).linkLanes = s.linkLanes := rfl
@[simp] theorem State.setEngine_spares (s : State) (k : Nat) (x : Engine) : (s.setEngine k x).spares = s.spares := rfl
@[simp] theorem State.setEngine_tilesOut (s : State) (k : Nat) (x : Engine) : (s.setEngine k x).tilesOut = s.tilesOut := rfl
@[simp] theorem State.setEngine_modulesOff (s : State) (k : Nat) (x : Engine) : (s.setEngine k x).modulesOff = s.modulesOff := rfl
@[simp] theorem State.setEngine_irqs (s : State) (k : Nat) (x : Engine) : (s.setEngine k x).irqs = s.irqs := rfl
@[simp] theorem State.setEngine_hostResp (s : State) (k : Nat) (x : Engine) : (s.setEngine k x).hostResp = s.hostResp := rfl

@[simp] theorem State.setAsid_cur (s : State) (k : Nat) (x : Asid) : (s.setAsid k x).cur = s.cur := rfl
@[simp] theorem State.setAsid_issuing (s : State) (k : Nat) (x : Asid) : (s.setAsid k x).issuing = s.issuing := rfl
@[simp] theorem State.setAsid_replayNow (s : State) (k : Nat) (x : Asid) : (s.setAsid k x).replayNow = s.replayNow := rfl
@[simp] theorem State.setAsid_inputs (s : State) (k : Nat) (x : Asid) : (s.setAsid k x).inputs = s.inputs := rfl
@[simp] theorem State.setAsid_ticks (s : State) (k : Nat) (x : Asid) : (s.setAsid k x).ticks = s.ticks := rfl
@[simp] theorem State.setAsid_ptp (s : State) (k : Nat) (x : Asid) : (s.setAsid k x).ptp = s.ptp := rfl
@[simp] theorem State.setAsid_ptpset (s : State) (k : Nat) (x : Asid) : (s.setAsid k x).ptpset = s.ptpset := rfl
@[simp] theorem State.setAsid_cycle (s : State) (k : Nat) (x : Asid) : (s.setAsid k x).cycle = s.cycle := rfl
@[simp] theorem State.setAsid_fresh (s : State) (k : Nat) (x : Asid) : (s.setAsid k x).fresh = s.fresh := rfl
@[simp] theorem State.setAsid_drawn (s : State) (k : Nat) (x : Asid) : (s.setAsid k x).drawn = s.drawn := rfl
@[simp] theorem State.setAsid_ctxs (s : State) (k : Nat) (x : Asid) : (s.setAsid k x).ctxs = s.ctxs := rfl
@[simp] theorem State.setAsid_specs (s : State) (k : Nat) (x : Asid) : (s.setAsid k x).specs = s.specs := rfl
@[simp] theorem State.setAsid_ops (s : State) (k : Nat) (x : Asid) : (s.setAsid k x).ops = s.ops := rfl
@[simp] theorem State.setAsid_copies (s : State) (k : Nat) (x : Asid) : (s.setAsid k x).copies = s.copies := rfl
@[simp] theorem State.setAsid_asyncDone (s : State) (k : Nat) (x : Asid) : (s.setAsid k x).asyncDone = s.asyncDone := rfl
@[simp] theorem State.setAsid_faultsWaiting (s : State) (k : Nat) (x : Asid) : (s.setAsid k x).faultsWaiting = s.faultsWaiting := rfl
@[simp] theorem State.setAsid_records (s : State) (k : Nat) (x : Asid) : (s.setAsid k x).records = s.records := rfl
@[simp] theorem State.setAsid_repairs (s : State) (k : Nat) (x : Asid) : (s.setAsid k x).repairs = s.repairs := rfl
@[simp] theorem State.setAsid_queues (s : State) (k : Nat) (x : Asid) : (s.setAsid k x).queues = s.queues := rfl
@[simp] theorem State.setAsid_shadows (s : State) (k : Nat) (x : Asid) : (s.setAsid k x).shadows = s.shadows := rfl
@[simp] theorem State.setAsid_graphs (s : State) (k : Nat) (x : Asid) : (s.setAsid k x).graphs = s.graphs := rfl
@[simp] theorem State.setAsid_subqs (s : State) (k : Nat) (x : Asid) : (s.setAsid k x).subqs = s.subqs := rfl
@[simp] theorem State.setAsid_strays (s : State) (k : Nat) (x : Asid) : (s.setAsid k x).strays = s.strays := rfl
@[simp] theorem State.setAsid_curated (s : State) (k : Nat) (x : Asid) : (s.setAsid k x).curated = s.curated := rfl
@[simp] theorem State.setAsid_rrPart (s : State) (k : Nat) (x : Asid) : (s.setAsid k x).rrPart = s.rrPart := rfl
@[simp] theorem State.setAsid_rrServed (s : State) (k : Nat) (x : Asid) : (s.setAsid k x).rrServed = s.rrServed := rfl
@[simp] theorem State.setAsid_engines (s : State) (k : Nat) (x : Asid) : (s.setAsid k x).engines = s.engines := rfl
@[simp] theorem State.setAsid_requests (s : State) (k : Nat) (x : Asid) : (s.setAsid k x).requests = s.requests := rfl
@[simp] theorem State.setAsid_mem (s : State) (k : Nat) (x : Asid) : (s.setAsid k x).mem = s.mem := rfl
@[simp] theorem State.setAsid_scratch (s : State) (k : Nat) (x : Asid) : (s.setAsid k x).scratch = s.scratch := rfl
@[simp] theorem State.setAsid_holds (s : State) (k : Nat) (x : Asid) : (s.setAsid k x).holds = s.holds := rfl
@[simp] theorem State.setAsid_bankModes (s : State) (k : Nat) (x : Asid) : (s.setAsid k x).bankModes = s.bankModes := rfl
@[simp] theorem State.setAsid_queueBanks (s : State) (k : Nat) (x : Asid) : (s.setAsid k x).queueBanks = s.queueBanks := rfl
@[simp] theorem State.setAsid_tileCache (s : State) (k : Nat) (x : Asid) : (s.setAsid k x).tileCache = s.tileCache := rfl
@[simp] theorem State.setAsid_slices (s : State) (k : Nat) (x : Asid) : (s.setAsid k x).slices = s.slices := rfl
@[simp] theorem State.setAsid_badSectors (s : State) (k : Nat) (x : Asid) : (s.setAsid k x).badSectors = s.badSectors := rfl
@[simp] theorem State.setAsid_tlb (s : State) (k : Nat) (x : Asid) : (s.setAsid k x).tlb = s.tlb := rfl
@[simp] theorem State.setAsid_bindings (s : State) (k : Nat) (x : Asid) : (s.setAsid k x).bindings = s.bindings := rfl
@[simp] theorem State.setAsid_parts (s : State) (k : Nat) (x : Asid) : (s.setAsid k x).parts = s.parts := rfl
@[simp] theorem State.setAsid_tileOwner (s : State) (k : Nat) (x : Asid) : (s.setAsid k x).tileOwner = s.tileOwner := rfl
@[simp] theorem State.setAsid_wayOwner (s : State) (k : Nat) (x : Asid) : (s.setAsid k x).wayOwner = s.wayOwner := rfl
@[simp] theorem State.setAsid_clusters (s : State) (k : Nat) (x : Asid) : (s.setAsid k x).clusters = s.clusters := rfl
@[simp] theorem State.setAsid_budget (s : State) (k : Nat) (x : Asid) : (s.setAsid k x).budget = s.budget := rfl
@[simp] theorem State.setAsid_latched (s : State) (k : Nat) (x : Asid) : (s.setAsid k x).latched = s.latched := rfl
@[simp] theorem State.setAsid_comBudget (s : State) (k : Nat) (x : Asid) : (s.setAsid k x).comBudget = s.comBudget := rfl
@[simp] theorem State.setAsid_expired (s : State) (k : Nat) (x : Asid) : (s.setAsid k x).expired = s.expired := rfl
@[simp] theorem State.setAsid_running (s : State) (k : Nat) (x : Asid) : (s.setAsid k x).running = s.running := rfl
@[simp] theorem State.setAsid_kickedAt (s : State) (k : Nat) (x : Asid) : (s.setAsid k x).kickedAt = s.kickedAt := rfl
@[simp] theorem State.setAsid_hot (s : State) (k : Nat) (x : Asid) : (s.setAsid k x).hot = s.hot := rfl
@[simp] theorem State.setAsid_swaps (s : State) (k : Nat) (x : Asid) : (s.setAsid k x).swaps = s.swaps := rfl
@[simp] theorem State.setAsid_staged (s : State) (k : Nat) (x : Asid) : (s.setAsid k x).staged = s.staged := rfl
@[simp] theorem State.setAsid_fullSwitches (s : State) (k : Nat) (x : Asid) : (s.setAsid k x).fullSwitches = s.fullSwitches := rfl
@[simp] theorem State.setAsid_images (s : State) (k : Nat) (x : Asid) : (s.setAsid k x).images = s.images := rfl
@[simp] theorem State.setAsid_scratchImages (s : State) (k : Nat) (x : Asid) : (s.setAsid k x).scratchImages = s.scratchImages := rfl
@[simp] theorem State.setAsid_queueImages (s : State) (k : Nat) (x : Asid) : (s.setAsid k x).queueImages = s.queueImages := rfl
@[simp] theorem State.setAsid_mgmt (s : State) (k : Nat) (x : Asid) : (s.setAsid k x).mgmt = s.mgmt := rfl
@[simp] theorem State.setAsid_fwdigest (s : State) (k : Nat) (x : Asid) : (s.setAsid k x).fwdigest = s.fwdigest := rfl
@[simp] theorem State.setAsid_safe (s : State) (k : Nat) (x : Asid) : (s.setAsid k x).safe = s.safe := rfl
@[simp] theorem State.setAsid_retired (s : State) (k : Nat) (x : Asid) : (s.setAsid k x).retired = s.retired := rfl
@[simp] theorem State.setAsid_transients (s : State) (k : Nat) (x : Asid) : (s.setAsid k x).transients = s.transients := rfl
@[simp] theorem State.setAsid_testDue (s : State) (k : Nat) (x : Asid) : (s.setAsid k x).testDue = s.testDue := rfl
@[simp] theorem State.setAsid_testing (s : State) (k : Nat) (x : Asid) : (s.setAsid k x).testing = s.testing := rfl
@[simp] theorem State.setAsid_flitRetries (s : State) (k : Nat) (x : Asid) : (s.setAsid k x).flitRetries = s.flitRetries := rfl
@[simp] theorem State.setAsid_linkLanes (s : State) (k : Nat) (x : Asid) : (s.setAsid k x).linkLanes = s.linkLanes := rfl
@[simp] theorem State.setAsid_spares (s : State) (k : Nat) (x : Asid) : (s.setAsid k x).spares = s.spares := rfl
@[simp] theorem State.setAsid_tilesOut (s : State) (k : Nat) (x : Asid) : (s.setAsid k x).tilesOut = s.tilesOut := rfl
@[simp] theorem State.setAsid_modulesOff (s : State) (k : Nat) (x : Asid) : (s.setAsid k x).modulesOff = s.modulesOff := rfl
@[simp] theorem State.setAsid_irqs (s : State) (k : Nat) (x : Asid) : (s.setAsid k x).irqs = s.irqs := rfl
@[simp] theorem State.setAsid_hostResp (s : State) (k : Nat) (x : Asid) : (s.setAsid k x).hostResp = s.hostResp := rfl

@[simp] theorem State.modGraph_cur (s : State) (h : Nat) (f : Graph → Graph) : (s.modGraph h f).cur = s.cur := rfl
@[simp] theorem State.modGraph_issuing (s : State) (h : Nat) (f : Graph → Graph) : (s.modGraph h f).issuing = s.issuing := rfl
@[simp] theorem State.modGraph_replayNow (s : State) (h : Nat) (f : Graph → Graph) : (s.modGraph h f).replayNow = s.replayNow := rfl
@[simp] theorem State.modGraph_inputs (s : State) (h : Nat) (f : Graph → Graph) : (s.modGraph h f).inputs = s.inputs := rfl
@[simp] theorem State.modGraph_ticks (s : State) (h : Nat) (f : Graph → Graph) : (s.modGraph h f).ticks = s.ticks := rfl
@[simp] theorem State.modGraph_ptp (s : State) (h : Nat) (f : Graph → Graph) : (s.modGraph h f).ptp = s.ptp := rfl
@[simp] theorem State.modGraph_ptpset (s : State) (h : Nat) (f : Graph → Graph) : (s.modGraph h f).ptpset = s.ptpset := rfl
@[simp] theorem State.modGraph_cycle (s : State) (h : Nat) (f : Graph → Graph) : (s.modGraph h f).cycle = s.cycle := rfl
@[simp] theorem State.modGraph_fresh (s : State) (h : Nat) (f : Graph → Graph) : (s.modGraph h f).fresh = s.fresh := rfl
@[simp] theorem State.modGraph_drawn (s : State) (h : Nat) (f : Graph → Graph) : (s.modGraph h f).drawn = s.drawn := rfl
@[simp] theorem State.modGraph_ctxs (s : State) (h : Nat) (f : Graph → Graph) : (s.modGraph h f).ctxs = s.ctxs := rfl
@[simp] theorem State.modGraph_specs (s : State) (h : Nat) (f : Graph → Graph) : (s.modGraph h f).specs = s.specs := rfl
@[simp] theorem State.modGraph_ops (s : State) (h : Nat) (f : Graph → Graph) : (s.modGraph h f).ops = s.ops := rfl
@[simp] theorem State.modGraph_copies (s : State) (h : Nat) (f : Graph → Graph) : (s.modGraph h f).copies = s.copies := rfl
@[simp] theorem State.modGraph_asyncDone (s : State) (h : Nat) (f : Graph → Graph) : (s.modGraph h f).asyncDone = s.asyncDone := rfl
@[simp] theorem State.modGraph_faultsWaiting (s : State) (h : Nat) (f : Graph → Graph) : (s.modGraph h f).faultsWaiting = s.faultsWaiting := rfl
@[simp] theorem State.modGraph_records (s : State) (h : Nat) (f : Graph → Graph) : (s.modGraph h f).records = s.records := rfl
@[simp] theorem State.modGraph_repairs (s : State) (h : Nat) (f : Graph → Graph) : (s.modGraph h f).repairs = s.repairs := rfl
@[simp] theorem State.modGraph_queues (s : State) (h : Nat) (f : Graph → Graph) : (s.modGraph h f).queues = s.queues := rfl
@[simp] theorem State.modGraph_shadows (s : State) (h : Nat) (f : Graph → Graph) : (s.modGraph h f).shadows = s.shadows := rfl
@[simp] theorem State.modGraph_subqs (s : State) (h : Nat) (f : Graph → Graph) : (s.modGraph h f).subqs = s.subqs := rfl
@[simp] theorem State.modGraph_strays (s : State) (h : Nat) (f : Graph → Graph) : (s.modGraph h f).strays = s.strays := rfl
@[simp] theorem State.modGraph_curated (s : State) (h : Nat) (f : Graph → Graph) : (s.modGraph h f).curated = s.curated := rfl
@[simp] theorem State.modGraph_rrPart (s : State) (h : Nat) (f : Graph → Graph) : (s.modGraph h f).rrPart = s.rrPart := rfl
@[simp] theorem State.modGraph_rrServed (s : State) (h : Nat) (f : Graph → Graph) : (s.modGraph h f).rrServed = s.rrServed := rfl
@[simp] theorem State.modGraph_engines (s : State) (h : Nat) (f : Graph → Graph) : (s.modGraph h f).engines = s.engines := rfl
@[simp] theorem State.modGraph_requests (s : State) (h : Nat) (f : Graph → Graph) : (s.modGraph h f).requests = s.requests := rfl
@[simp] theorem State.modGraph_mem (s : State) (h : Nat) (f : Graph → Graph) : (s.modGraph h f).mem = s.mem := rfl
@[simp] theorem State.modGraph_scratch (s : State) (h : Nat) (f : Graph → Graph) : (s.modGraph h f).scratch = s.scratch := rfl
@[simp] theorem State.modGraph_holds (s : State) (h : Nat) (f : Graph → Graph) : (s.modGraph h f).holds = s.holds := rfl
@[simp] theorem State.modGraph_bankModes (s : State) (h : Nat) (f : Graph → Graph) : (s.modGraph h f).bankModes = s.bankModes := rfl
@[simp] theorem State.modGraph_queueBanks (s : State) (h : Nat) (f : Graph → Graph) : (s.modGraph h f).queueBanks = s.queueBanks := rfl
@[simp] theorem State.modGraph_tileCache (s : State) (h : Nat) (f : Graph → Graph) : (s.modGraph h f).tileCache = s.tileCache := rfl
@[simp] theorem State.modGraph_slices (s : State) (h : Nat) (f : Graph → Graph) : (s.modGraph h f).slices = s.slices := rfl
@[simp] theorem State.modGraph_badSectors (s : State) (h : Nat) (f : Graph → Graph) : (s.modGraph h f).badSectors = s.badSectors := rfl
@[simp] theorem State.modGraph_tlb (s : State) (h : Nat) (f : Graph → Graph) : (s.modGraph h f).tlb = s.tlb := rfl
@[simp] theorem State.modGraph_asids (s : State) (h : Nat) (f : Graph → Graph) : (s.modGraph h f).asids = s.asids := rfl
@[simp] theorem State.modGraph_bindings (s : State) (h : Nat) (f : Graph → Graph) : (s.modGraph h f).bindings = s.bindings := rfl
@[simp] theorem State.modGraph_parts (s : State) (h : Nat) (f : Graph → Graph) : (s.modGraph h f).parts = s.parts := rfl
@[simp] theorem State.modGraph_tileOwner (s : State) (h : Nat) (f : Graph → Graph) : (s.modGraph h f).tileOwner = s.tileOwner := rfl
@[simp] theorem State.modGraph_wayOwner (s : State) (h : Nat) (f : Graph → Graph) : (s.modGraph h f).wayOwner = s.wayOwner := rfl
@[simp] theorem State.modGraph_clusters (s : State) (h : Nat) (f : Graph → Graph) : (s.modGraph h f).clusters = s.clusters := rfl
@[simp] theorem State.modGraph_budget (s : State) (h : Nat) (f : Graph → Graph) : (s.modGraph h f).budget = s.budget := rfl
@[simp] theorem State.modGraph_latched (s : State) (h : Nat) (f : Graph → Graph) : (s.modGraph h f).latched = s.latched := rfl
@[simp] theorem State.modGraph_comBudget (s : State) (h : Nat) (f : Graph → Graph) : (s.modGraph h f).comBudget = s.comBudget := rfl
@[simp] theorem State.modGraph_expired (s : State) (h : Nat) (f : Graph → Graph) : (s.modGraph h f).expired = s.expired := rfl
@[simp] theorem State.modGraph_running (s : State) (h : Nat) (f : Graph → Graph) : (s.modGraph h f).running = s.running := rfl
@[simp] theorem State.modGraph_kickedAt (s : State) (h : Nat) (f : Graph → Graph) : (s.modGraph h f).kickedAt = s.kickedAt := rfl
@[simp] theorem State.modGraph_hot (s : State) (h : Nat) (f : Graph → Graph) : (s.modGraph h f).hot = s.hot := rfl
@[simp] theorem State.modGraph_swaps (s : State) (h : Nat) (f : Graph → Graph) : (s.modGraph h f).swaps = s.swaps := rfl
@[simp] theorem State.modGraph_staged (s : State) (h : Nat) (f : Graph → Graph) : (s.modGraph h f).staged = s.staged := rfl
@[simp] theorem State.modGraph_fullSwitches (s : State) (h : Nat) (f : Graph → Graph) : (s.modGraph h f).fullSwitches = s.fullSwitches := rfl
@[simp] theorem State.modGraph_images (s : State) (h : Nat) (f : Graph → Graph) : (s.modGraph h f).images = s.images := rfl
@[simp] theorem State.modGraph_scratchImages (s : State) (h : Nat) (f : Graph → Graph) : (s.modGraph h f).scratchImages = s.scratchImages := rfl
@[simp] theorem State.modGraph_queueImages (s : State) (h : Nat) (f : Graph → Graph) : (s.modGraph h f).queueImages = s.queueImages := rfl
@[simp] theorem State.modGraph_mgmt (s : State) (h : Nat) (f : Graph → Graph) : (s.modGraph h f).mgmt = s.mgmt := rfl
@[simp] theorem State.modGraph_fwdigest (s : State) (h : Nat) (f : Graph → Graph) : (s.modGraph h f).fwdigest = s.fwdigest := rfl
@[simp] theorem State.modGraph_safe (s : State) (h : Nat) (f : Graph → Graph) : (s.modGraph h f).safe = s.safe := rfl
@[simp] theorem State.modGraph_retired (s : State) (h : Nat) (f : Graph → Graph) : (s.modGraph h f).retired = s.retired := rfl
@[simp] theorem State.modGraph_transients (s : State) (h : Nat) (f : Graph → Graph) : (s.modGraph h f).transients = s.transients := rfl
@[simp] theorem State.modGraph_testDue (s : State) (h : Nat) (f : Graph → Graph) : (s.modGraph h f).testDue = s.testDue := rfl
@[simp] theorem State.modGraph_testing (s : State) (h : Nat) (f : Graph → Graph) : (s.modGraph h f).testing = s.testing := rfl
@[simp] theorem State.modGraph_flitRetries (s : State) (h : Nat) (f : Graph → Graph) : (s.modGraph h f).flitRetries = s.flitRetries := rfl
@[simp] theorem State.modGraph_linkLanes (s : State) (h : Nat) (f : Graph → Graph) : (s.modGraph h f).linkLanes = s.linkLanes := rfl
@[simp] theorem State.modGraph_spares (s : State) (h : Nat) (f : Graph → Graph) : (s.modGraph h f).spares = s.spares := rfl
@[simp] theorem State.modGraph_tilesOut (s : State) (h : Nat) (f : Graph → Graph) : (s.modGraph h f).tilesOut = s.tilesOut := rfl
@[simp] theorem State.modGraph_modulesOff (s : State) (h : Nat) (f : Graph → Graph) : (s.modGraph h f).modulesOff = s.modulesOff := rfl
@[simp] theorem State.modGraph_irqs (s : State) (h : Nat) (f : Graph → Graph) : (s.modGraph h f).irqs = s.irqs := rfl
@[simp] theorem State.modGraph_hostResp (s : State) (h : Nat) (f : Graph → Graph) : (s.modGraph h f).hostResp = s.hostResp := rfl

@[simp] theorem State.progress_cur (s : State) (h : Nat) : (s.progress h).cur = s.cur := rfl
@[simp] theorem State.progress_issuing (s : State) (h : Nat) : (s.progress h).issuing = s.issuing := rfl
@[simp] theorem State.progress_replayNow (s : State) (h : Nat) : (s.progress h).replayNow = s.replayNow := rfl
@[simp] theorem State.progress_inputs (s : State) (h : Nat) : (s.progress h).inputs = s.inputs := rfl
@[simp] theorem State.progress_ticks (s : State) (h : Nat) : (s.progress h).ticks = s.ticks := rfl
@[simp] theorem State.progress_ptp (s : State) (h : Nat) : (s.progress h).ptp = s.ptp := rfl
@[simp] theorem State.progress_ptpset (s : State) (h : Nat) : (s.progress h).ptpset = s.ptpset := rfl
@[simp] theorem State.progress_cycle (s : State) (h : Nat) : (s.progress h).cycle = s.cycle := rfl
@[simp] theorem State.progress_fresh (s : State) (h : Nat) : (s.progress h).fresh = s.fresh := rfl
@[simp] theorem State.progress_drawn (s : State) (h : Nat) : (s.progress h).drawn = s.drawn := rfl
@[simp] theorem State.progress_ctxs (s : State) (h : Nat) : (s.progress h).ctxs = s.ctxs := rfl
@[simp] theorem State.progress_specs (s : State) (h : Nat) : (s.progress h).specs = s.specs := rfl
@[simp] theorem State.progress_ops (s : State) (h : Nat) : (s.progress h).ops = s.ops := rfl
@[simp] theorem State.progress_copies (s : State) (h : Nat) : (s.progress h).copies = s.copies := rfl
@[simp] theorem State.progress_asyncDone (s : State) (h : Nat) : (s.progress h).asyncDone = s.asyncDone := rfl
@[simp] theorem State.progress_faultsWaiting (s : State) (h : Nat) : (s.progress h).faultsWaiting = s.faultsWaiting := rfl
@[simp] theorem State.progress_records (s : State) (h : Nat) : (s.progress h).records = s.records := rfl
@[simp] theorem State.progress_repairs (s : State) (h : Nat) : (s.progress h).repairs = s.repairs := rfl
@[simp] theorem State.progress_queues (s : State) (h : Nat) : (s.progress h).queues = s.queues := rfl
@[simp] theorem State.progress_shadows (s : State) (h : Nat) : (s.progress h).shadows = s.shadows := rfl
@[simp] theorem State.progress_subqs (s : State) (h : Nat) : (s.progress h).subqs = s.subqs := rfl
@[simp] theorem State.progress_strays (s : State) (h : Nat) : (s.progress h).strays = s.strays := rfl
@[simp] theorem State.progress_curated (s : State) (h : Nat) : (s.progress h).curated = s.curated := rfl
@[simp] theorem State.progress_rrPart (s : State) (h : Nat) : (s.progress h).rrPart = s.rrPart := rfl
@[simp] theorem State.progress_rrServed (s : State) (h : Nat) : (s.progress h).rrServed = s.rrServed := rfl
@[simp] theorem State.progress_engines (s : State) (h : Nat) : (s.progress h).engines = s.engines := rfl
@[simp] theorem State.progress_requests (s : State) (h : Nat) : (s.progress h).requests = s.requests := rfl
@[simp] theorem State.progress_mem (s : State) (h : Nat) : (s.progress h).mem = s.mem := rfl
@[simp] theorem State.progress_scratch (s : State) (h : Nat) : (s.progress h).scratch = s.scratch := rfl
@[simp] theorem State.progress_holds (s : State) (h : Nat) : (s.progress h).holds = s.holds := rfl
@[simp] theorem State.progress_bankModes (s : State) (h : Nat) : (s.progress h).bankModes = s.bankModes := rfl
@[simp] theorem State.progress_queueBanks (s : State) (h : Nat) : (s.progress h).queueBanks = s.queueBanks := rfl
@[simp] theorem State.progress_tileCache (s : State) (h : Nat) : (s.progress h).tileCache = s.tileCache := rfl
@[simp] theorem State.progress_slices (s : State) (h : Nat) : (s.progress h).slices = s.slices := rfl
@[simp] theorem State.progress_badSectors (s : State) (h : Nat) : (s.progress h).badSectors = s.badSectors := rfl
@[simp] theorem State.progress_tlb (s : State) (h : Nat) : (s.progress h).tlb = s.tlb := rfl
@[simp] theorem State.progress_asids (s : State) (h : Nat) : (s.progress h).asids = s.asids := rfl
@[simp] theorem State.progress_bindings (s : State) (h : Nat) : (s.progress h).bindings = s.bindings := rfl
@[simp] theorem State.progress_parts (s : State) (h : Nat) : (s.progress h).parts = s.parts := rfl
@[simp] theorem State.progress_tileOwner (s : State) (h : Nat) : (s.progress h).tileOwner = s.tileOwner := rfl
@[simp] theorem State.progress_wayOwner (s : State) (h : Nat) : (s.progress h).wayOwner = s.wayOwner := rfl
@[simp] theorem State.progress_clusters (s : State) (h : Nat) : (s.progress h).clusters = s.clusters := rfl
@[simp] theorem State.progress_budget (s : State) (h : Nat) : (s.progress h).budget = s.budget := rfl
@[simp] theorem State.progress_latched (s : State) (h : Nat) : (s.progress h).latched = s.latched := rfl
@[simp] theorem State.progress_comBudget (s : State) (h : Nat) : (s.progress h).comBudget = s.comBudget := rfl
@[simp] theorem State.progress_expired (s : State) (h : Nat) : (s.progress h).expired = s.expired := rfl
@[simp] theorem State.progress_running (s : State) (h : Nat) : (s.progress h).running = s.running := rfl
@[simp] theorem State.progress_kickedAt (s : State) (h : Nat) : (s.progress h).kickedAt = s.kickedAt := rfl
@[simp] theorem State.progress_hot (s : State) (h : Nat) : (s.progress h).hot = s.hot := rfl
@[simp] theorem State.progress_swaps (s : State) (h : Nat) : (s.progress h).swaps = s.swaps := rfl
@[simp] theorem State.progress_staged (s : State) (h : Nat) : (s.progress h).staged = s.staged := rfl
@[simp] theorem State.progress_fullSwitches (s : State) (h : Nat) : (s.progress h).fullSwitches = s.fullSwitches := rfl
@[simp] theorem State.progress_images (s : State) (h : Nat) : (s.progress h).images = s.images := rfl
@[simp] theorem State.progress_scratchImages (s : State) (h : Nat) : (s.progress h).scratchImages = s.scratchImages := rfl
@[simp] theorem State.progress_queueImages (s : State) (h : Nat) : (s.progress h).queueImages = s.queueImages := rfl
@[simp] theorem State.progress_mgmt (s : State) (h : Nat) : (s.progress h).mgmt = s.mgmt := rfl
@[simp] theorem State.progress_fwdigest (s : State) (h : Nat) : (s.progress h).fwdigest = s.fwdigest := rfl
@[simp] theorem State.progress_safe (s : State) (h : Nat) : (s.progress h).safe = s.safe := rfl
@[simp] theorem State.progress_retired (s : State) (h : Nat) : (s.progress h).retired = s.retired := rfl
@[simp] theorem State.progress_transients (s : State) (h : Nat) : (s.progress h).transients = s.transients := rfl
@[simp] theorem State.progress_testDue (s : State) (h : Nat) : (s.progress h).testDue = s.testDue := rfl
@[simp] theorem State.progress_testing (s : State) (h : Nat) : (s.progress h).testing = s.testing := rfl
@[simp] theorem State.progress_flitRetries (s : State) (h : Nat) : (s.progress h).flitRetries = s.flitRetries := rfl
@[simp] theorem State.progress_linkLanes (s : State) (h : Nat) : (s.progress h).linkLanes = s.linkLanes := rfl
@[simp] theorem State.progress_spares (s : State) (h : Nat) : (s.progress h).spares = s.spares := rfl
@[simp] theorem State.progress_tilesOut (s : State) (h : Nat) : (s.progress h).tilesOut = s.tilesOut := rfl
@[simp] theorem State.progress_modulesOff (s : State) (h : Nat) : (s.progress h).modulesOff = s.modulesOff := rfl
@[simp] theorem State.progress_irqs (s : State) (h : Nat) : (s.progress h).irqs = s.irqs := rfl
@[simp] theorem State.progress_hostResp (s : State) (h : Nat) : (s.progress h).hostResp = s.hostResp := rfl

@[simp] theorem State.modCtx_cur (s : State) (k : Nat) (f : Ctx → Ctx) : (s.modCtx k f).cur = s.cur := by unfold State.modCtx; split <;> rfl
@[simp] theorem State.modCtx_issuing (s : State) (k : Nat) (f : Ctx → Ctx) : (s.modCtx k f).issuing = s.issuing := by unfold State.modCtx; split <;> rfl
@[simp] theorem State.modCtx_replayNow (s : State) (k : Nat) (f : Ctx → Ctx) : (s.modCtx k f).replayNow = s.replayNow := by unfold State.modCtx; split <;> rfl
@[simp] theorem State.modCtx_inputs (s : State) (k : Nat) (f : Ctx → Ctx) : (s.modCtx k f).inputs = s.inputs := by unfold State.modCtx; split <;> rfl
@[simp] theorem State.modCtx_ticks (s : State) (k : Nat) (f : Ctx → Ctx) : (s.modCtx k f).ticks = s.ticks := by unfold State.modCtx; split <;> rfl
@[simp] theorem State.modCtx_ptp (s : State) (k : Nat) (f : Ctx → Ctx) : (s.modCtx k f).ptp = s.ptp := by unfold State.modCtx; split <;> rfl
@[simp] theorem State.modCtx_ptpset (s : State) (k : Nat) (f : Ctx → Ctx) : (s.modCtx k f).ptpset = s.ptpset := by unfold State.modCtx; split <;> rfl
@[simp] theorem State.modCtx_cycle (s : State) (k : Nat) (f : Ctx → Ctx) : (s.modCtx k f).cycle = s.cycle := by unfold State.modCtx; split <;> rfl
@[simp] theorem State.modCtx_fresh (s : State) (k : Nat) (f : Ctx → Ctx) : (s.modCtx k f).fresh = s.fresh := by unfold State.modCtx; split <;> rfl
@[simp] theorem State.modCtx_drawn (s : State) (k : Nat) (f : Ctx → Ctx) : (s.modCtx k f).drawn = s.drawn := by unfold State.modCtx; split <;> rfl
@[simp] theorem State.modCtx_specs (s : State) (k : Nat) (f : Ctx → Ctx) : (s.modCtx k f).specs = s.specs := by unfold State.modCtx; split <;> rfl
@[simp] theorem State.modCtx_ops (s : State) (k : Nat) (f : Ctx → Ctx) : (s.modCtx k f).ops = s.ops := by unfold State.modCtx; split <;> rfl
@[simp] theorem State.modCtx_copies (s : State) (k : Nat) (f : Ctx → Ctx) : (s.modCtx k f).copies = s.copies := by unfold State.modCtx; split <;> rfl
@[simp] theorem State.modCtx_asyncDone (s : State) (k : Nat) (f : Ctx → Ctx) : (s.modCtx k f).asyncDone = s.asyncDone := by unfold State.modCtx; split <;> rfl
@[simp] theorem State.modCtx_faultsWaiting (s : State) (k : Nat) (f : Ctx → Ctx) : (s.modCtx k f).faultsWaiting = s.faultsWaiting := by unfold State.modCtx; split <;> rfl
@[simp] theorem State.modCtx_records (s : State) (k : Nat) (f : Ctx → Ctx) : (s.modCtx k f).records = s.records := by unfold State.modCtx; split <;> rfl
@[simp] theorem State.modCtx_repairs (s : State) (k : Nat) (f : Ctx → Ctx) : (s.modCtx k f).repairs = s.repairs := by unfold State.modCtx; split <;> rfl
@[simp] theorem State.modCtx_queues (s : State) (k : Nat) (f : Ctx → Ctx) : (s.modCtx k f).queues = s.queues := by unfold State.modCtx; split <;> rfl
@[simp] theorem State.modCtx_shadows (s : State) (k : Nat) (f : Ctx → Ctx) : (s.modCtx k f).shadows = s.shadows := by unfold State.modCtx; split <;> rfl
@[simp] theorem State.modCtx_graphs (s : State) (k : Nat) (f : Ctx → Ctx) : (s.modCtx k f).graphs = s.graphs := by unfold State.modCtx; split <;> rfl
@[simp] theorem State.modCtx_subqs (s : State) (k : Nat) (f : Ctx → Ctx) : (s.modCtx k f).subqs = s.subqs := by unfold State.modCtx; split <;> rfl
@[simp] theorem State.modCtx_strays (s : State) (k : Nat) (f : Ctx → Ctx) : (s.modCtx k f).strays = s.strays := by unfold State.modCtx; split <;> rfl
@[simp] theorem State.modCtx_curated (s : State) (k : Nat) (f : Ctx → Ctx) : (s.modCtx k f).curated = s.curated := by unfold State.modCtx; split <;> rfl
@[simp] theorem State.modCtx_rrPart (s : State) (k : Nat) (f : Ctx → Ctx) : (s.modCtx k f).rrPart = s.rrPart := by unfold State.modCtx; split <;> rfl
@[simp] theorem State.modCtx_rrServed (s : State) (k : Nat) (f : Ctx → Ctx) : (s.modCtx k f).rrServed = s.rrServed := by unfold State.modCtx; split <;> rfl
@[simp] theorem State.modCtx_engines (s : State) (k : Nat) (f : Ctx → Ctx) : (s.modCtx k f).engines = s.engines := by unfold State.modCtx; split <;> rfl
@[simp] theorem State.modCtx_requests (s : State) (k : Nat) (f : Ctx → Ctx) : (s.modCtx k f).requests = s.requests := by unfold State.modCtx; split <;> rfl
@[simp] theorem State.modCtx_mem (s : State) (k : Nat) (f : Ctx → Ctx) : (s.modCtx k f).mem = s.mem := by unfold State.modCtx; split <;> rfl
@[simp] theorem State.modCtx_scratch (s : State) (k : Nat) (f : Ctx → Ctx) : (s.modCtx k f).scratch = s.scratch := by unfold State.modCtx; split <;> rfl
@[simp] theorem State.modCtx_holds (s : State) (k : Nat) (f : Ctx → Ctx) : (s.modCtx k f).holds = s.holds := by unfold State.modCtx; split <;> rfl
@[simp] theorem State.modCtx_bankModes (s : State) (k : Nat) (f : Ctx → Ctx) : (s.modCtx k f).bankModes = s.bankModes := by unfold State.modCtx; split <;> rfl
@[simp] theorem State.modCtx_queueBanks (s : State) (k : Nat) (f : Ctx → Ctx) : (s.modCtx k f).queueBanks = s.queueBanks := by unfold State.modCtx; split <;> rfl
@[simp] theorem State.modCtx_tileCache (s : State) (k : Nat) (f : Ctx → Ctx) : (s.modCtx k f).tileCache = s.tileCache := by unfold State.modCtx; split <;> rfl
@[simp] theorem State.modCtx_slices (s : State) (k : Nat) (f : Ctx → Ctx) : (s.modCtx k f).slices = s.slices := by unfold State.modCtx; split <;> rfl
@[simp] theorem State.modCtx_badSectors (s : State) (k : Nat) (f : Ctx → Ctx) : (s.modCtx k f).badSectors = s.badSectors := by unfold State.modCtx; split <;> rfl
@[simp] theorem State.modCtx_tlb (s : State) (k : Nat) (f : Ctx → Ctx) : (s.modCtx k f).tlb = s.tlb := by unfold State.modCtx; split <;> rfl
@[simp] theorem State.modCtx_asids (s : State) (k : Nat) (f : Ctx → Ctx) : (s.modCtx k f).asids = s.asids := by unfold State.modCtx; split <;> rfl
@[simp] theorem State.modCtx_bindings (s : State) (k : Nat) (f : Ctx → Ctx) : (s.modCtx k f).bindings = s.bindings := by unfold State.modCtx; split <;> rfl
@[simp] theorem State.modCtx_parts (s : State) (k : Nat) (f : Ctx → Ctx) : (s.modCtx k f).parts = s.parts := by unfold State.modCtx; split <;> rfl
@[simp] theorem State.modCtx_tileOwner (s : State) (k : Nat) (f : Ctx → Ctx) : (s.modCtx k f).tileOwner = s.tileOwner := by unfold State.modCtx; split <;> rfl
@[simp] theorem State.modCtx_wayOwner (s : State) (k : Nat) (f : Ctx → Ctx) : (s.modCtx k f).wayOwner = s.wayOwner := by unfold State.modCtx; split <;> rfl
@[simp] theorem State.modCtx_clusters (s : State) (k : Nat) (f : Ctx → Ctx) : (s.modCtx k f).clusters = s.clusters := by unfold State.modCtx; split <;> rfl
@[simp] theorem State.modCtx_budget (s : State) (k : Nat) (f : Ctx → Ctx) : (s.modCtx k f).budget = s.budget := by unfold State.modCtx; split <;> rfl
@[simp] theorem State.modCtx_latched (s : State) (k : Nat) (f : Ctx → Ctx) : (s.modCtx k f).latched = s.latched := by unfold State.modCtx; split <;> rfl
@[simp] theorem State.modCtx_comBudget (s : State) (k : Nat) (f : Ctx → Ctx) : (s.modCtx k f).comBudget = s.comBudget := by unfold State.modCtx; split <;> rfl
@[simp] theorem State.modCtx_expired (s : State) (k : Nat) (f : Ctx → Ctx) : (s.modCtx k f).expired = s.expired := by unfold State.modCtx; split <;> rfl
@[simp] theorem State.modCtx_running (s : State) (k : Nat) (f : Ctx → Ctx) : (s.modCtx k f).running = s.running := by unfold State.modCtx; split <;> rfl
@[simp] theorem State.modCtx_kickedAt (s : State) (k : Nat) (f : Ctx → Ctx) : (s.modCtx k f).kickedAt = s.kickedAt := by unfold State.modCtx; split <;> rfl
@[simp] theorem State.modCtx_hot (s : State) (k : Nat) (f : Ctx → Ctx) : (s.modCtx k f).hot = s.hot := by unfold State.modCtx; split <;> rfl
@[simp] theorem State.modCtx_swaps (s : State) (k : Nat) (f : Ctx → Ctx) : (s.modCtx k f).swaps = s.swaps := by unfold State.modCtx; split <;> rfl
@[simp] theorem State.modCtx_staged (s : State) (k : Nat) (f : Ctx → Ctx) : (s.modCtx k f).staged = s.staged := by unfold State.modCtx; split <;> rfl
@[simp] theorem State.modCtx_fullSwitches (s : State) (k : Nat) (f : Ctx → Ctx) : (s.modCtx k f).fullSwitches = s.fullSwitches := by unfold State.modCtx; split <;> rfl
@[simp] theorem State.modCtx_images (s : State) (k : Nat) (f : Ctx → Ctx) : (s.modCtx k f).images = s.images := by unfold State.modCtx; split <;> rfl
@[simp] theorem State.modCtx_scratchImages (s : State) (k : Nat) (f : Ctx → Ctx) : (s.modCtx k f).scratchImages = s.scratchImages := by unfold State.modCtx; split <;> rfl
@[simp] theorem State.modCtx_queueImages (s : State) (k : Nat) (f : Ctx → Ctx) : (s.modCtx k f).queueImages = s.queueImages := by unfold State.modCtx; split <;> rfl
@[simp] theorem State.modCtx_mgmt (s : State) (k : Nat) (f : Ctx → Ctx) : (s.modCtx k f).mgmt = s.mgmt := by unfold State.modCtx; split <;> rfl
@[simp] theorem State.modCtx_fwdigest (s : State) (k : Nat) (f : Ctx → Ctx) : (s.modCtx k f).fwdigest = s.fwdigest := by unfold State.modCtx; split <;> rfl
@[simp] theorem State.modCtx_safe (s : State) (k : Nat) (f : Ctx → Ctx) : (s.modCtx k f).safe = s.safe := by unfold State.modCtx; split <;> rfl
@[simp] theorem State.modCtx_retired (s : State) (k : Nat) (f : Ctx → Ctx) : (s.modCtx k f).retired = s.retired := by unfold State.modCtx; split <;> rfl
@[simp] theorem State.modCtx_transients (s : State) (k : Nat) (f : Ctx → Ctx) : (s.modCtx k f).transients = s.transients := by unfold State.modCtx; split <;> rfl
@[simp] theorem State.modCtx_testDue (s : State) (k : Nat) (f : Ctx → Ctx) : (s.modCtx k f).testDue = s.testDue := by unfold State.modCtx; split <;> rfl
@[simp] theorem State.modCtx_testing (s : State) (k : Nat) (f : Ctx → Ctx) : (s.modCtx k f).testing = s.testing := by unfold State.modCtx; split <;> rfl
@[simp] theorem State.modCtx_flitRetries (s : State) (k : Nat) (f : Ctx → Ctx) : (s.modCtx k f).flitRetries = s.flitRetries := by unfold State.modCtx; split <;> rfl
@[simp] theorem State.modCtx_linkLanes (s : State) (k : Nat) (f : Ctx → Ctx) : (s.modCtx k f).linkLanes = s.linkLanes := by unfold State.modCtx; split <;> rfl
@[simp] theorem State.modCtx_spares (s : State) (k : Nat) (f : Ctx → Ctx) : (s.modCtx k f).spares = s.spares := by unfold State.modCtx; split <;> rfl
@[simp] theorem State.modCtx_tilesOut (s : State) (k : Nat) (f : Ctx → Ctx) : (s.modCtx k f).tilesOut = s.tilesOut := by unfold State.modCtx; split <;> rfl
@[simp] theorem State.modCtx_modulesOff (s : State) (k : Nat) (f : Ctx → Ctx) : (s.modCtx k f).modulesOff = s.modulesOff := by unfold State.modCtx; split <;> rfl
@[simp] theorem State.modCtx_irqs (s : State) (k : Nat) (f : Ctx → Ctx) : (s.modCtx k f).irqs = s.irqs := by unfold State.modCtx; split <;> rfl
@[simp] theorem State.modCtx_hostResp (s : State) (k : Nat) (f : Ctx → Ctx) : (s.modCtx k f).hostResp = s.hostResp := by unfold State.modCtx; split <;> rfl

@[simp] theorem State.countEvent_cur (s : State) (k a n : Nat) : (s.countEvent k a n).cur = s.cur := by unfold State.countEvent; split <;> rfl
@[simp] theorem State.countEvent_issuing (s : State) (k a n : Nat) : (s.countEvent k a n).issuing = s.issuing := by unfold State.countEvent; split <;> rfl
@[simp] theorem State.countEvent_replayNow (s : State) (k a n : Nat) : (s.countEvent k a n).replayNow = s.replayNow := by unfold State.countEvent; split <;> rfl
@[simp] theorem State.countEvent_inputs (s : State) (k a n : Nat) : (s.countEvent k a n).inputs = s.inputs := by unfold State.countEvent; split <;> rfl
@[simp] theorem State.countEvent_ticks (s : State) (k a n : Nat) : (s.countEvent k a n).ticks = s.ticks := by unfold State.countEvent; split <;> rfl
@[simp] theorem State.countEvent_ptp (s : State) (k a n : Nat) : (s.countEvent k a n).ptp = s.ptp := by unfold State.countEvent; split <;> rfl
@[simp] theorem State.countEvent_ptpset (s : State) (k a n : Nat) : (s.countEvent k a n).ptpset = s.ptpset := by unfold State.countEvent; split <;> rfl
@[simp] theorem State.countEvent_cycle (s : State) (k a n : Nat) : (s.countEvent k a n).cycle = s.cycle := by unfold State.countEvent; split <;> rfl
@[simp] theorem State.countEvent_fresh (s : State) (k a n : Nat) : (s.countEvent k a n).fresh = s.fresh := by unfold State.countEvent; split <;> rfl
@[simp] theorem State.countEvent_drawn (s : State) (k a n : Nat) : (s.countEvent k a n).drawn = s.drawn := by unfold State.countEvent; split <;> rfl
@[simp] theorem State.countEvent_specs (s : State) (k a n : Nat) : (s.countEvent k a n).specs = s.specs := by unfold State.countEvent; split <;> rfl
@[simp] theorem State.countEvent_ops (s : State) (k a n : Nat) : (s.countEvent k a n).ops = s.ops := by unfold State.countEvent; split <;> rfl
@[simp] theorem State.countEvent_copies (s : State) (k a n : Nat) : (s.countEvent k a n).copies = s.copies := by unfold State.countEvent; split <;> rfl
@[simp] theorem State.countEvent_asyncDone (s : State) (k a n : Nat) : (s.countEvent k a n).asyncDone = s.asyncDone := by unfold State.countEvent; split <;> rfl
@[simp] theorem State.countEvent_faultsWaiting (s : State) (k a n : Nat) : (s.countEvent k a n).faultsWaiting = s.faultsWaiting := by unfold State.countEvent; split <;> rfl
@[simp] theorem State.countEvent_records (s : State) (k a n : Nat) : (s.countEvent k a n).records = s.records := by unfold State.countEvent; split <;> rfl
@[simp] theorem State.countEvent_repairs (s : State) (k a n : Nat) : (s.countEvent k a n).repairs = s.repairs := by unfold State.countEvent; split <;> rfl
@[simp] theorem State.countEvent_queues (s : State) (k a n : Nat) : (s.countEvent k a n).queues = s.queues := by unfold State.countEvent; split <;> rfl
@[simp] theorem State.countEvent_shadows (s : State) (k a n : Nat) : (s.countEvent k a n).shadows = s.shadows := by unfold State.countEvent; split <;> rfl
@[simp] theorem State.countEvent_graphs (s : State) (k a n : Nat) : (s.countEvent k a n).graphs = s.graphs := by unfold State.countEvent; split <;> rfl
@[simp] theorem State.countEvent_subqs (s : State) (k a n : Nat) : (s.countEvent k a n).subqs = s.subqs := by unfold State.countEvent; split <;> rfl
@[simp] theorem State.countEvent_strays (s : State) (k a n : Nat) : (s.countEvent k a n).strays = s.strays := by unfold State.countEvent; split <;> rfl
@[simp] theorem State.countEvent_curated (s : State) (k a n : Nat) : (s.countEvent k a n).curated = s.curated := by unfold State.countEvent; split <;> rfl
@[simp] theorem State.countEvent_rrPart (s : State) (k a n : Nat) : (s.countEvent k a n).rrPart = s.rrPart := by unfold State.countEvent; split <;> rfl
@[simp] theorem State.countEvent_rrServed (s : State) (k a n : Nat) : (s.countEvent k a n).rrServed = s.rrServed := by unfold State.countEvent; split <;> rfl
@[simp] theorem State.countEvent_engines (s : State) (k a n : Nat) : (s.countEvent k a n).engines = s.engines := by unfold State.countEvent; split <;> rfl
@[simp] theorem State.countEvent_requests (s : State) (k a n : Nat) : (s.countEvent k a n).requests = s.requests := by unfold State.countEvent; split <;> rfl
@[simp] theorem State.countEvent_mem (s : State) (k a n : Nat) : (s.countEvent k a n).mem = s.mem := by unfold State.countEvent; split <;> rfl
@[simp] theorem State.countEvent_scratch (s : State) (k a n : Nat) : (s.countEvent k a n).scratch = s.scratch := by unfold State.countEvent; split <;> rfl
@[simp] theorem State.countEvent_holds (s : State) (k a n : Nat) : (s.countEvent k a n).holds = s.holds := by unfold State.countEvent; split <;> rfl
@[simp] theorem State.countEvent_bankModes (s : State) (k a n : Nat) : (s.countEvent k a n).bankModes = s.bankModes := by unfold State.countEvent; split <;> rfl
@[simp] theorem State.countEvent_queueBanks (s : State) (k a n : Nat) : (s.countEvent k a n).queueBanks = s.queueBanks := by unfold State.countEvent; split <;> rfl
@[simp] theorem State.countEvent_tileCache (s : State) (k a n : Nat) : (s.countEvent k a n).tileCache = s.tileCache := by unfold State.countEvent; split <;> rfl
@[simp] theorem State.countEvent_slices (s : State) (k a n : Nat) : (s.countEvent k a n).slices = s.slices := by unfold State.countEvent; split <;> rfl
@[simp] theorem State.countEvent_badSectors (s : State) (k a n : Nat) : (s.countEvent k a n).badSectors = s.badSectors := by unfold State.countEvent; split <;> rfl
@[simp] theorem State.countEvent_tlb (s : State) (k a n : Nat) : (s.countEvent k a n).tlb = s.tlb := by unfold State.countEvent; split <;> rfl
@[simp] theorem State.countEvent_asids (s : State) (k a n : Nat) : (s.countEvent k a n).asids = s.asids := by unfold State.countEvent; split <;> rfl
@[simp] theorem State.countEvent_bindings (s : State) (k a n : Nat) : (s.countEvent k a n).bindings = s.bindings := by unfold State.countEvent; split <;> rfl
@[simp] theorem State.countEvent_parts (s : State) (k a n : Nat) : (s.countEvent k a n).parts = s.parts := by unfold State.countEvent; split <;> rfl
@[simp] theorem State.countEvent_tileOwner (s : State) (k a n : Nat) : (s.countEvent k a n).tileOwner = s.tileOwner := by unfold State.countEvent; split <;> rfl
@[simp] theorem State.countEvent_wayOwner (s : State) (k a n : Nat) : (s.countEvent k a n).wayOwner = s.wayOwner := by unfold State.countEvent; split <;> rfl
@[simp] theorem State.countEvent_clusters (s : State) (k a n : Nat) : (s.countEvent k a n).clusters = s.clusters := by unfold State.countEvent; split <;> rfl
@[simp] theorem State.countEvent_budget (s : State) (k a n : Nat) : (s.countEvent k a n).budget = s.budget := by unfold State.countEvent; split <;> rfl
@[simp] theorem State.countEvent_latched (s : State) (k a n : Nat) : (s.countEvent k a n).latched = s.latched := by unfold State.countEvent; split <;> rfl
@[simp] theorem State.countEvent_comBudget (s : State) (k a n : Nat) : (s.countEvent k a n).comBudget = s.comBudget := by unfold State.countEvent; split <;> rfl
@[simp] theorem State.countEvent_expired (s : State) (k a n : Nat) : (s.countEvent k a n).expired = s.expired := by unfold State.countEvent; split <;> rfl
@[simp] theorem State.countEvent_running (s : State) (k a n : Nat) : (s.countEvent k a n).running = s.running := by unfold State.countEvent; split <;> rfl
@[simp] theorem State.countEvent_kickedAt (s : State) (k a n : Nat) : (s.countEvent k a n).kickedAt = s.kickedAt := by unfold State.countEvent; split <;> rfl
@[simp] theorem State.countEvent_hot (s : State) (k a n : Nat) : (s.countEvent k a n).hot = s.hot := by unfold State.countEvent; split <;> rfl
@[simp] theorem State.countEvent_swaps (s : State) (k a n : Nat) : (s.countEvent k a n).swaps = s.swaps := by unfold State.countEvent; split <;> rfl
@[simp] theorem State.countEvent_staged (s : State) (k a n : Nat) : (s.countEvent k a n).staged = s.staged := by unfold State.countEvent; split <;> rfl
@[simp] theorem State.countEvent_fullSwitches (s : State) (k a n : Nat) : (s.countEvent k a n).fullSwitches = s.fullSwitches := by unfold State.countEvent; split <;> rfl
@[simp] theorem State.countEvent_images (s : State) (k a n : Nat) : (s.countEvent k a n).images = s.images := by unfold State.countEvent; split <;> rfl
@[simp] theorem State.countEvent_scratchImages (s : State) (k a n : Nat) : (s.countEvent k a n).scratchImages = s.scratchImages := by unfold State.countEvent; split <;> rfl
@[simp] theorem State.countEvent_queueImages (s : State) (k a n : Nat) : (s.countEvent k a n).queueImages = s.queueImages := by unfold State.countEvent; split <;> rfl
@[simp] theorem State.countEvent_mgmt (s : State) (k a n : Nat) : (s.countEvent k a n).mgmt = s.mgmt := by unfold State.countEvent; split <;> rfl
@[simp] theorem State.countEvent_fwdigest (s : State) (k a n : Nat) : (s.countEvent k a n).fwdigest = s.fwdigest := by unfold State.countEvent; split <;> rfl
@[simp] theorem State.countEvent_safe (s : State) (k a n : Nat) : (s.countEvent k a n).safe = s.safe := by unfold State.countEvent; split <;> rfl
@[simp] theorem State.countEvent_retired (s : State) (k a n : Nat) : (s.countEvent k a n).retired = s.retired := by unfold State.countEvent; split <;> rfl
@[simp] theorem State.countEvent_transients (s : State) (k a n : Nat) : (s.countEvent k a n).transients = s.transients := by unfold State.countEvent; split <;> rfl
@[simp] theorem State.countEvent_testDue (s : State) (k a n : Nat) : (s.countEvent k a n).testDue = s.testDue := by unfold State.countEvent; split <;> rfl
@[simp] theorem State.countEvent_testing (s : State) (k a n : Nat) : (s.countEvent k a n).testing = s.testing := by unfold State.countEvent; split <;> rfl
@[simp] theorem State.countEvent_flitRetries (s : State) (k a n : Nat) : (s.countEvent k a n).flitRetries = s.flitRetries := by unfold State.countEvent; split <;> rfl
@[simp] theorem State.countEvent_linkLanes (s : State) (k a n : Nat) : (s.countEvent k a n).linkLanes = s.linkLanes := by unfold State.countEvent; split <;> rfl
@[simp] theorem State.countEvent_spares (s : State) (k a n : Nat) : (s.countEvent k a n).spares = s.spares := by unfold State.countEvent; split <;> rfl
@[simp] theorem State.countEvent_tilesOut (s : State) (k a n : Nat) : (s.countEvent k a n).tilesOut = s.tilesOut := by unfold State.countEvent; split <;> rfl
@[simp] theorem State.countEvent_modulesOff (s : State) (k a n : Nat) : (s.countEvent k a n).modulesOff = s.modulesOff := by unfold State.countEvent; split <;> rfl
@[simp] theorem State.countEvent_irqs (s : State) (k a n : Nat) : (s.countEvent k a n).irqs = s.irqs := by unfold State.countEvent; split <;> rfl
@[simp] theorem State.countEvent_hostResp (s : State) (k a n : Nat) : (s.countEvent k a n).hostResp = s.hostResp := by unfold State.countEvent; split <;> rfl

@[simp] theorem State.issues_cur (s : State) (e : Option ReplayEntry) : (s.issues e).cur = s.cur := rfl
@[simp] theorem State.issues_replayNow (s : State) (e : Option ReplayEntry) : (s.issues e).replayNow = s.replayNow := rfl
@[simp] theorem State.issues_inputs (s : State) (e : Option ReplayEntry) : (s.issues e).inputs = s.inputs := rfl
@[simp] theorem State.issues_ticks (s : State) (e : Option ReplayEntry) : (s.issues e).ticks = s.ticks := rfl
@[simp] theorem State.issues_ptp (s : State) (e : Option ReplayEntry) : (s.issues e).ptp = s.ptp := rfl
@[simp] theorem State.issues_ptpset (s : State) (e : Option ReplayEntry) : (s.issues e).ptpset = s.ptpset := rfl
@[simp] theorem State.issues_cycle (s : State) (e : Option ReplayEntry) : (s.issues e).cycle = s.cycle := rfl
@[simp] theorem State.issues_fresh (s : State) (e : Option ReplayEntry) : (s.issues e).fresh = s.fresh := rfl
@[simp] theorem State.issues_drawn (s : State) (e : Option ReplayEntry) : (s.issues e).drawn = s.drawn := rfl
@[simp] theorem State.issues_ctxs (s : State) (e : Option ReplayEntry) : (s.issues e).ctxs = s.ctxs := rfl
@[simp] theorem State.issues_specs (s : State) (e : Option ReplayEntry) : (s.issues e).specs = s.specs := rfl
@[simp] theorem State.issues_ops (s : State) (e : Option ReplayEntry) : (s.issues e).ops = s.ops := rfl
@[simp] theorem State.issues_copies (s : State) (e : Option ReplayEntry) : (s.issues e).copies = s.copies := rfl
@[simp] theorem State.issues_asyncDone (s : State) (e : Option ReplayEntry) : (s.issues e).asyncDone = s.asyncDone := rfl
@[simp] theorem State.issues_faultsWaiting (s : State) (e : Option ReplayEntry) : (s.issues e).faultsWaiting = s.faultsWaiting := rfl
@[simp] theorem State.issues_records (s : State) (e : Option ReplayEntry) : (s.issues e).records = s.records := rfl
@[simp] theorem State.issues_repairs (s : State) (e : Option ReplayEntry) : (s.issues e).repairs = s.repairs := rfl
@[simp] theorem State.issues_queues (s : State) (e : Option ReplayEntry) : (s.issues e).queues = s.queues := rfl
@[simp] theorem State.issues_shadows (s : State) (e : Option ReplayEntry) : (s.issues e).shadows = s.shadows := rfl
@[simp] theorem State.issues_graphs (s : State) (e : Option ReplayEntry) : (s.issues e).graphs = s.graphs := rfl
@[simp] theorem State.issues_subqs (s : State) (e : Option ReplayEntry) : (s.issues e).subqs = s.subqs := rfl
@[simp] theorem State.issues_strays (s : State) (e : Option ReplayEntry) : (s.issues e).strays = s.strays := rfl
@[simp] theorem State.issues_curated (s : State) (e : Option ReplayEntry) : (s.issues e).curated = s.curated := rfl
@[simp] theorem State.issues_rrPart (s : State) (e : Option ReplayEntry) : (s.issues e).rrPart = s.rrPart := rfl
@[simp] theorem State.issues_rrServed (s : State) (e : Option ReplayEntry) : (s.issues e).rrServed = s.rrServed := rfl
@[simp] theorem State.issues_engines (s : State) (e : Option ReplayEntry) : (s.issues e).engines = s.engines := rfl
@[simp] theorem State.issues_requests (s : State) (e : Option ReplayEntry) : (s.issues e).requests = s.requests := rfl
@[simp] theorem State.issues_mem (s : State) (e : Option ReplayEntry) : (s.issues e).mem = s.mem := rfl
@[simp] theorem State.issues_scratch (s : State) (e : Option ReplayEntry) : (s.issues e).scratch = s.scratch := rfl
@[simp] theorem State.issues_holds (s : State) (e : Option ReplayEntry) : (s.issues e).holds = s.holds := rfl
@[simp] theorem State.issues_bankModes (s : State) (e : Option ReplayEntry) : (s.issues e).bankModes = s.bankModes := rfl
@[simp] theorem State.issues_queueBanks (s : State) (e : Option ReplayEntry) : (s.issues e).queueBanks = s.queueBanks := rfl
@[simp] theorem State.issues_tileCache (s : State) (e : Option ReplayEntry) : (s.issues e).tileCache = s.tileCache := rfl
@[simp] theorem State.issues_slices (s : State) (e : Option ReplayEntry) : (s.issues e).slices = s.slices := rfl
@[simp] theorem State.issues_badSectors (s : State) (e : Option ReplayEntry) : (s.issues e).badSectors = s.badSectors := rfl
@[simp] theorem State.issues_tlb (s : State) (e : Option ReplayEntry) : (s.issues e).tlb = s.tlb := rfl
@[simp] theorem State.issues_asids (s : State) (e : Option ReplayEntry) : (s.issues e).asids = s.asids := rfl
@[simp] theorem State.issues_bindings (s : State) (e : Option ReplayEntry) : (s.issues e).bindings = s.bindings := rfl
@[simp] theorem State.issues_parts (s : State) (e : Option ReplayEntry) : (s.issues e).parts = s.parts := rfl
@[simp] theorem State.issues_tileOwner (s : State) (e : Option ReplayEntry) : (s.issues e).tileOwner = s.tileOwner := rfl
@[simp] theorem State.issues_wayOwner (s : State) (e : Option ReplayEntry) : (s.issues e).wayOwner = s.wayOwner := rfl
@[simp] theorem State.issues_clusters (s : State) (e : Option ReplayEntry) : (s.issues e).clusters = s.clusters := rfl
@[simp] theorem State.issues_budget (s : State) (e : Option ReplayEntry) : (s.issues e).budget = s.budget := rfl
@[simp] theorem State.issues_latched (s : State) (e : Option ReplayEntry) : (s.issues e).latched = s.latched := rfl
@[simp] theorem State.issues_comBudget (s : State) (e : Option ReplayEntry) : (s.issues e).comBudget = s.comBudget := rfl
@[simp] theorem State.issues_expired (s : State) (e : Option ReplayEntry) : (s.issues e).expired = s.expired := rfl
@[simp] theorem State.issues_running (s : State) (e : Option ReplayEntry) : (s.issues e).running = s.running := rfl
@[simp] theorem State.issues_kickedAt (s : State) (e : Option ReplayEntry) : (s.issues e).kickedAt = s.kickedAt := rfl
@[simp] theorem State.issues_hot (s : State) (e : Option ReplayEntry) : (s.issues e).hot = s.hot := rfl
@[simp] theorem State.issues_swaps (s : State) (e : Option ReplayEntry) : (s.issues e).swaps = s.swaps := rfl
@[simp] theorem State.issues_staged (s : State) (e : Option ReplayEntry) : (s.issues e).staged = s.staged := rfl
@[simp] theorem State.issues_fullSwitches (s : State) (e : Option ReplayEntry) : (s.issues e).fullSwitches = s.fullSwitches := rfl
@[simp] theorem State.issues_images (s : State) (e : Option ReplayEntry) : (s.issues e).images = s.images := rfl
@[simp] theorem State.issues_scratchImages (s : State) (e : Option ReplayEntry) : (s.issues e).scratchImages = s.scratchImages := rfl
@[simp] theorem State.issues_queueImages (s : State) (e : Option ReplayEntry) : (s.issues e).queueImages = s.queueImages := rfl
@[simp] theorem State.issues_mgmt (s : State) (e : Option ReplayEntry) : (s.issues e).mgmt = s.mgmt := rfl
@[simp] theorem State.issues_fwdigest (s : State) (e : Option ReplayEntry) : (s.issues e).fwdigest = s.fwdigest := rfl
@[simp] theorem State.issues_safe (s : State) (e : Option ReplayEntry) : (s.issues e).safe = s.safe := rfl
@[simp] theorem State.issues_retired (s : State) (e : Option ReplayEntry) : (s.issues e).retired = s.retired := rfl
@[simp] theorem State.issues_transients (s : State) (e : Option ReplayEntry) : (s.issues e).transients = s.transients := rfl
@[simp] theorem State.issues_testDue (s : State) (e : Option ReplayEntry) : (s.issues e).testDue = s.testDue := rfl
@[simp] theorem State.issues_testing (s : State) (e : Option ReplayEntry) : (s.issues e).testing = s.testing := rfl
@[simp] theorem State.issues_flitRetries (s : State) (e : Option ReplayEntry) : (s.issues e).flitRetries = s.flitRetries := rfl
@[simp] theorem State.issues_linkLanes (s : State) (e : Option ReplayEntry) : (s.issues e).linkLanes = s.linkLanes := rfl
@[simp] theorem State.issues_spares (s : State) (e : Option ReplayEntry) : (s.issues e).spares = s.spares := rfl
@[simp] theorem State.issues_tilesOut (s : State) (e : Option ReplayEntry) : (s.issues e).tilesOut = s.tilesOut := rfl
@[simp] theorem State.issues_modulesOff (s : State) (e : Option ReplayEntry) : (s.issues e).modulesOff = s.modulesOff := rfl
@[simp] theorem State.issues_irqs (s : State) (e : Option ReplayEntry) : (s.issues e).irqs = s.irqs := rfl
@[simp] theorem State.issues_hostResp (s : State) (e : Option ReplayEntry) : (s.issues e).hostResp = s.hostResp := rfl

@[simp] theorem State.passTime_cur (s : State) (k : Nat) : (s.passTime k).cur = s.cur := rfl
@[simp] theorem State.passTime_issuing (s : State) (k : Nat) : (s.passTime k).issuing = s.issuing := rfl
@[simp] theorem State.passTime_replayNow (s : State) (k : Nat) : (s.passTime k).replayNow = s.replayNow := rfl
@[simp] theorem State.passTime_inputs (s : State) (k : Nat) : (s.passTime k).inputs = s.inputs := rfl
@[simp] theorem State.passTime_ticks (s : State) (k : Nat) : (s.passTime k).ticks = s.ticks := rfl
@[simp] theorem State.passTime_ptp (s : State) (k : Nat) : (s.passTime k).ptp = s.ptp := rfl
@[simp] theorem State.passTime_ptpset (s : State) (k : Nat) : (s.passTime k).ptpset = s.ptpset := rfl
@[simp] theorem State.passTime_cycle (s : State) (k : Nat) : (s.passTime k).cycle = s.cycle := rfl
@[simp] theorem State.passTime_fresh (s : State) (k : Nat) : (s.passTime k).fresh = s.fresh := rfl
@[simp] theorem State.passTime_drawn (s : State) (k : Nat) : (s.passTime k).drawn = s.drawn := rfl
@[simp] theorem State.passTime_specs (s : State) (k : Nat) : (s.passTime k).specs = s.specs := rfl
@[simp] theorem State.passTime_ops (s : State) (k : Nat) : (s.passTime k).ops = s.ops := rfl
@[simp] theorem State.passTime_copies (s : State) (k : Nat) : (s.passTime k).copies = s.copies := rfl
@[simp] theorem State.passTime_asyncDone (s : State) (k : Nat) : (s.passTime k).asyncDone = s.asyncDone := rfl
@[simp] theorem State.passTime_faultsWaiting (s : State) (k : Nat) : (s.passTime k).faultsWaiting = s.faultsWaiting := rfl
@[simp] theorem State.passTime_records (s : State) (k : Nat) : (s.passTime k).records = s.records := rfl
@[simp] theorem State.passTime_repairs (s : State) (k : Nat) : (s.passTime k).repairs = s.repairs := rfl
@[simp] theorem State.passTime_queues (s : State) (k : Nat) : (s.passTime k).queues = s.queues := rfl
@[simp] theorem State.passTime_shadows (s : State) (k : Nat) : (s.passTime k).shadows = s.shadows := rfl
@[simp] theorem State.passTime_graphs (s : State) (k : Nat) : (s.passTime k).graphs = s.graphs := rfl
@[simp] theorem State.passTime_subqs (s : State) (k : Nat) : (s.passTime k).subqs = s.subqs := rfl
@[simp] theorem State.passTime_strays (s : State) (k : Nat) : (s.passTime k).strays = s.strays := rfl
@[simp] theorem State.passTime_curated (s : State) (k : Nat) : (s.passTime k).curated = s.curated := rfl
@[simp] theorem State.passTime_rrPart (s : State) (k : Nat) : (s.passTime k).rrPart = s.rrPart := rfl
@[simp] theorem State.passTime_rrServed (s : State) (k : Nat) : (s.passTime k).rrServed = s.rrServed := rfl
@[simp] theorem State.passTime_engines (s : State) (k : Nat) : (s.passTime k).engines = s.engines := rfl
@[simp] theorem State.passTime_requests (s : State) (k : Nat) : (s.passTime k).requests = s.requests := rfl
@[simp] theorem State.passTime_mem (s : State) (k : Nat) : (s.passTime k).mem = s.mem := rfl
@[simp] theorem State.passTime_scratch (s : State) (k : Nat) : (s.passTime k).scratch = s.scratch := rfl
@[simp] theorem State.passTime_holds (s : State) (k : Nat) : (s.passTime k).holds = s.holds := rfl
@[simp] theorem State.passTime_bankModes (s : State) (k : Nat) : (s.passTime k).bankModes = s.bankModes := rfl
@[simp] theorem State.passTime_queueBanks (s : State) (k : Nat) : (s.passTime k).queueBanks = s.queueBanks := rfl
@[simp] theorem State.passTime_tileCache (s : State) (k : Nat) : (s.passTime k).tileCache = s.tileCache := rfl
@[simp] theorem State.passTime_slices (s : State) (k : Nat) : (s.passTime k).slices = s.slices := rfl
@[simp] theorem State.passTime_badSectors (s : State) (k : Nat) : (s.passTime k).badSectors = s.badSectors := rfl
@[simp] theorem State.passTime_tlb (s : State) (k : Nat) : (s.passTime k).tlb = s.tlb := rfl
@[simp] theorem State.passTime_asids (s : State) (k : Nat) : (s.passTime k).asids = s.asids := rfl
@[simp] theorem State.passTime_bindings (s : State) (k : Nat) : (s.passTime k).bindings = s.bindings := rfl
@[simp] theorem State.passTime_parts (s : State) (k : Nat) : (s.passTime k).parts = s.parts := rfl
@[simp] theorem State.passTime_tileOwner (s : State) (k : Nat) : (s.passTime k).tileOwner = s.tileOwner := rfl
@[simp] theorem State.passTime_wayOwner (s : State) (k : Nat) : (s.passTime k).wayOwner = s.wayOwner := rfl
@[simp] theorem State.passTime_clusters (s : State) (k : Nat) : (s.passTime k).clusters = s.clusters := rfl
@[simp] theorem State.passTime_budget (s : State) (k : Nat) : (s.passTime k).budget = s.budget := rfl
@[simp] theorem State.passTime_latched (s : State) (k : Nat) : (s.passTime k).latched = s.latched := rfl
@[simp] theorem State.passTime_comBudget (s : State) (k : Nat) : (s.passTime k).comBudget = s.comBudget := rfl
@[simp] theorem State.passTime_expired (s : State) (k : Nat) : (s.passTime k).expired = s.expired := rfl
@[simp] theorem State.passTime_running (s : State) (k : Nat) : (s.passTime k).running = s.running := rfl
@[simp] theorem State.passTime_kickedAt (s : State) (k : Nat) : (s.passTime k).kickedAt = s.kickedAt := rfl
@[simp] theorem State.passTime_hot (s : State) (k : Nat) : (s.passTime k).hot = s.hot := rfl
@[simp] theorem State.passTime_swaps (s : State) (k : Nat) : (s.passTime k).swaps = s.swaps := rfl
@[simp] theorem State.passTime_staged (s : State) (k : Nat) : (s.passTime k).staged = s.staged := rfl
@[simp] theorem State.passTime_fullSwitches (s : State) (k : Nat) : (s.passTime k).fullSwitches = s.fullSwitches := rfl
@[simp] theorem State.passTime_images (s : State) (k : Nat) : (s.passTime k).images = s.images := rfl
@[simp] theorem State.passTime_scratchImages (s : State) (k : Nat) : (s.passTime k).scratchImages = s.scratchImages := rfl
@[simp] theorem State.passTime_queueImages (s : State) (k : Nat) : (s.passTime k).queueImages = s.queueImages := rfl
@[simp] theorem State.passTime_mgmt (s : State) (k : Nat) : (s.passTime k).mgmt = s.mgmt := rfl
@[simp] theorem State.passTime_fwdigest (s : State) (k : Nat) : (s.passTime k).fwdigest = s.fwdigest := rfl
@[simp] theorem State.passTime_safe (s : State) (k : Nat) : (s.passTime k).safe = s.safe := rfl
@[simp] theorem State.passTime_retired (s : State) (k : Nat) : (s.passTime k).retired = s.retired := rfl
@[simp] theorem State.passTime_transients (s : State) (k : Nat) : (s.passTime k).transients = s.transients := rfl
@[simp] theorem State.passTime_testDue (s : State) (k : Nat) : (s.passTime k).testDue = s.testDue := rfl
@[simp] theorem State.passTime_testing (s : State) (k : Nat) : (s.passTime k).testing = s.testing := rfl
@[simp] theorem State.passTime_flitRetries (s : State) (k : Nat) : (s.passTime k).flitRetries = s.flitRetries := rfl
@[simp] theorem State.passTime_linkLanes (s : State) (k : Nat) : (s.passTime k).linkLanes = s.linkLanes := rfl
@[simp] theorem State.passTime_spares (s : State) (k : Nat) : (s.passTime k).spares = s.spares := rfl
@[simp] theorem State.passTime_tilesOut (s : State) (k : Nat) : (s.passTime k).tilesOut = s.tilesOut := rfl
@[simp] theorem State.passTime_modulesOff (s : State) (k : Nat) : (s.passTime k).modulesOff = s.modulesOff := rfl
@[simp] theorem State.passTime_irqs (s : State) (k : Nat) : (s.passTime k).irqs = s.irqs := rfl
@[simp] theorem State.passTime_hostResp (s : State) (k : Nat) : (s.passTime k).hostResp = s.hostResp := rfl

@[simp] theorem State.squash_cur (s : State) (k : Nat) : (s.squash k).cur = s.cur := by unfold State.squash; split <;> simp
@[simp] theorem State.squash_issuing (s : State) (k : Nat) : (s.squash k).issuing = s.issuing := by unfold State.squash; split <;> simp
@[simp] theorem State.squash_replayNow (s : State) (k : Nat) : (s.squash k).replayNow = s.replayNow := by unfold State.squash; split <;> simp
@[simp] theorem State.squash_inputs (s : State) (k : Nat) : (s.squash k).inputs = s.inputs := by unfold State.squash; split <;> simp
@[simp] theorem State.squash_ticks (s : State) (k : Nat) : (s.squash k).ticks = s.ticks := by unfold State.squash; split <;> simp
@[simp] theorem State.squash_ptp (s : State) (k : Nat) : (s.squash k).ptp = s.ptp := by unfold State.squash; split <;> simp
@[simp] theorem State.squash_ptpset (s : State) (k : Nat) : (s.squash k).ptpset = s.ptpset := by unfold State.squash; split <;> simp
@[simp] theorem State.squash_cycle (s : State) (k : Nat) : (s.squash k).cycle = s.cycle := by unfold State.squash; split <;> simp
@[simp] theorem State.squash_fresh (s : State) (k : Nat) : (s.squash k).fresh = s.fresh := by unfold State.squash; split <;> simp
@[simp] theorem State.squash_drawn (s : State) (k : Nat) : (s.squash k).drawn = s.drawn := by unfold State.squash; split <;> simp
@[simp] theorem State.squash_ops (s : State) (k : Nat) : (s.squash k).ops = s.ops := by unfold State.squash; split <;> simp
@[simp] theorem State.squash_copies (s : State) (k : Nat) : (s.squash k).copies = s.copies := by unfold State.squash; split <;> simp
@[simp] theorem State.squash_asyncDone (s : State) (k : Nat) : (s.squash k).asyncDone = s.asyncDone := by unfold State.squash; split <;> simp
@[simp] theorem State.squash_faultsWaiting (s : State) (k : Nat) : (s.squash k).faultsWaiting = s.faultsWaiting := by unfold State.squash; split <;> simp
@[simp] theorem State.squash_records (s : State) (k : Nat) : (s.squash k).records = s.records := by unfold State.squash; split <;> simp
@[simp] theorem State.squash_repairs (s : State) (k : Nat) : (s.squash k).repairs = s.repairs := by unfold State.squash; split <;> simp
@[simp] theorem State.squash_queues (s : State) (k : Nat) : (s.squash k).queues = s.queues := by unfold State.squash; split <;> simp
@[simp] theorem State.squash_shadows (s : State) (k : Nat) : (s.squash k).shadows = s.shadows := by unfold State.squash; split <;> simp
@[simp] theorem State.squash_graphs (s : State) (k : Nat) : (s.squash k).graphs = s.graphs := by unfold State.squash; split <;> simp
@[simp] theorem State.squash_subqs (s : State) (k : Nat) : (s.squash k).subqs = s.subqs := by unfold State.squash; split <;> simp
@[simp] theorem State.squash_strays (s : State) (k : Nat) : (s.squash k).strays = s.strays := by unfold State.squash; split <;> simp
@[simp] theorem State.squash_curated (s : State) (k : Nat) : (s.squash k).curated = s.curated := by unfold State.squash; split <;> simp
@[simp] theorem State.squash_rrPart (s : State) (k : Nat) : (s.squash k).rrPart = s.rrPart := by unfold State.squash; split <;> simp
@[simp] theorem State.squash_rrServed (s : State) (k : Nat) : (s.squash k).rrServed = s.rrServed := by unfold State.squash; split <;> simp
@[simp] theorem State.squash_engines (s : State) (k : Nat) : (s.squash k).engines = s.engines := by unfold State.squash; split <;> simp
@[simp] theorem State.squash_requests (s : State) (k : Nat) : (s.squash k).requests = s.requests := by unfold State.squash; split <;> simp
@[simp] theorem State.squash_mem (s : State) (k : Nat) : (s.squash k).mem = s.mem := by unfold State.squash; split <;> simp
@[simp] theorem State.squash_scratch (s : State) (k : Nat) : (s.squash k).scratch = s.scratch := by unfold State.squash; split <;> simp
@[simp] theorem State.squash_holds (s : State) (k : Nat) : (s.squash k).holds = s.holds := by unfold State.squash; split <;> simp
@[simp] theorem State.squash_bankModes (s : State) (k : Nat) : (s.squash k).bankModes = s.bankModes := by unfold State.squash; split <;> simp
@[simp] theorem State.squash_queueBanks (s : State) (k : Nat) : (s.squash k).queueBanks = s.queueBanks := by unfold State.squash; split <;> simp
@[simp] theorem State.squash_tileCache (s : State) (k : Nat) : (s.squash k).tileCache = s.tileCache := by unfold State.squash; split <;> simp
@[simp] theorem State.squash_slices (s : State) (k : Nat) : (s.squash k).slices = s.slices := by unfold State.squash; split <;> simp
@[simp] theorem State.squash_badSectors (s : State) (k : Nat) : (s.squash k).badSectors = s.badSectors := by unfold State.squash; split <;> simp
@[simp] theorem State.squash_tlb (s : State) (k : Nat) : (s.squash k).tlb = s.tlb := by unfold State.squash; split <;> simp
@[simp] theorem State.squash_asids (s : State) (k : Nat) : (s.squash k).asids = s.asids := by unfold State.squash; split <;> simp
@[simp] theorem State.squash_bindings (s : State) (k : Nat) : (s.squash k).bindings = s.bindings := by unfold State.squash; split <;> simp
@[simp] theorem State.squash_parts (s : State) (k : Nat) : (s.squash k).parts = s.parts := by unfold State.squash; split <;> simp
@[simp] theorem State.squash_tileOwner (s : State) (k : Nat) : (s.squash k).tileOwner = s.tileOwner := by unfold State.squash; split <;> simp
@[simp] theorem State.squash_wayOwner (s : State) (k : Nat) : (s.squash k).wayOwner = s.wayOwner := by unfold State.squash; split <;> simp
@[simp] theorem State.squash_clusters (s : State) (k : Nat) : (s.squash k).clusters = s.clusters := by unfold State.squash; split <;> simp
@[simp] theorem State.squash_budget (s : State) (k : Nat) : (s.squash k).budget = s.budget := by unfold State.squash; split <;> simp
@[simp] theorem State.squash_latched (s : State) (k : Nat) : (s.squash k).latched = s.latched := by unfold State.squash; split <;> simp
@[simp] theorem State.squash_comBudget (s : State) (k : Nat) : (s.squash k).comBudget = s.comBudget := by unfold State.squash; split <;> simp
@[simp] theorem State.squash_expired (s : State) (k : Nat) : (s.squash k).expired = s.expired := by unfold State.squash; split <;> simp
@[simp] theorem State.squash_running (s : State) (k : Nat) : (s.squash k).running = s.running := by unfold State.squash; split <;> simp
@[simp] theorem State.squash_kickedAt (s : State) (k : Nat) : (s.squash k).kickedAt = s.kickedAt := by unfold State.squash; split <;> simp
@[simp] theorem State.squash_hot (s : State) (k : Nat) : (s.squash k).hot = s.hot := by unfold State.squash; split <;> simp
@[simp] theorem State.squash_swaps (s : State) (k : Nat) : (s.squash k).swaps = s.swaps := by unfold State.squash; split <;> simp
@[simp] theorem State.squash_staged (s : State) (k : Nat) : (s.squash k).staged = s.staged := by unfold State.squash; split <;> simp
@[simp] theorem State.squash_fullSwitches (s : State) (k : Nat) : (s.squash k).fullSwitches = s.fullSwitches := by unfold State.squash; split <;> simp
@[simp] theorem State.squash_images (s : State) (k : Nat) : (s.squash k).images = s.images := by unfold State.squash; split <;> simp
@[simp] theorem State.squash_scratchImages (s : State) (k : Nat) : (s.squash k).scratchImages = s.scratchImages := by unfold State.squash; split <;> simp
@[simp] theorem State.squash_queueImages (s : State) (k : Nat) : (s.squash k).queueImages = s.queueImages := by unfold State.squash; split <;> simp
@[simp] theorem State.squash_mgmt (s : State) (k : Nat) : (s.squash k).mgmt = s.mgmt := by unfold State.squash; split <;> simp
@[simp] theorem State.squash_fwdigest (s : State) (k : Nat) : (s.squash k).fwdigest = s.fwdigest := by unfold State.squash; split <;> simp
@[simp] theorem State.squash_safe (s : State) (k : Nat) : (s.squash k).safe = s.safe := by unfold State.squash; split <;> simp
@[simp] theorem State.squash_retired (s : State) (k : Nat) : (s.squash k).retired = s.retired := by unfold State.squash; split <;> simp
@[simp] theorem State.squash_transients (s : State) (k : Nat) : (s.squash k).transients = s.transients := by unfold State.squash; split <;> simp
@[simp] theorem State.squash_testDue (s : State) (k : Nat) : (s.squash k).testDue = s.testDue := by unfold State.squash; split <;> simp
@[simp] theorem State.squash_testing (s : State) (k : Nat) : (s.squash k).testing = s.testing := by unfold State.squash; split <;> simp
@[simp] theorem State.squash_flitRetries (s : State) (k : Nat) : (s.squash k).flitRetries = s.flitRetries := by unfold State.squash; split <;> simp
@[simp] theorem State.squash_linkLanes (s : State) (k : Nat) : (s.squash k).linkLanes = s.linkLanes := by unfold State.squash; split <;> simp
@[simp] theorem State.squash_spares (s : State) (k : Nat) : (s.squash k).spares = s.spares := by unfold State.squash; split <;> simp
@[simp] theorem State.squash_tilesOut (s : State) (k : Nat) : (s.squash k).tilesOut = s.tilesOut := by unfold State.squash; split <;> simp
@[simp] theorem State.squash_modulesOff (s : State) (k : Nat) : (s.squash k).modulesOff = s.modulesOff := by unfold State.squash; split <;> simp
@[simp] theorem State.squash_irqs (s : State) (k : Nat) : (s.squash k).irqs = s.irqs := by unfold State.squash; split <;> simp
@[simp] theorem State.squash_hostResp (s : State) (k : Nat) : (s.squash k).hostResp = s.hostResp := by unfold State.squash; split <;> simp

@[simp] theorem State.issuedOne_cur (s : State) (k g : Nat) : (s.issuedOne k g).cur = s.cur := by simp [State.issuedOne]
@[simp] theorem State.issuedOne_issuing (s : State) (k g : Nat) : (s.issuedOne k g).issuing = s.issuing := by simp [State.issuedOne]
@[simp] theorem State.issuedOne_inputs (s : State) (k g : Nat) : (s.issuedOne k g).inputs = s.inputs := by simp [State.issuedOne]
@[simp] theorem State.issuedOne_ticks (s : State) (k g : Nat) : (s.issuedOne k g).ticks = s.ticks := by simp [State.issuedOne]
@[simp] theorem State.issuedOne_ptp (s : State) (k g : Nat) : (s.issuedOne k g).ptp = s.ptp := by simp [State.issuedOne]
@[simp] theorem State.issuedOne_ptpset (s : State) (k g : Nat) : (s.issuedOne k g).ptpset = s.ptpset := by simp [State.issuedOne]
@[simp] theorem State.issuedOne_cycle (s : State) (k g : Nat) : (s.issuedOne k g).cycle = s.cycle := by simp [State.issuedOne]
@[simp] theorem State.issuedOne_fresh (s : State) (k g : Nat) : (s.issuedOne k g).fresh = s.fresh := by simp [State.issuedOne]
@[simp] theorem State.issuedOne_drawn (s : State) (k g : Nat) : (s.issuedOne k g).drawn = s.drawn := by simp [State.issuedOne]
@[simp] theorem State.issuedOne_specs (s : State) (k g : Nat) : (s.issuedOne k g).specs = s.specs := by simp [State.issuedOne]
@[simp] theorem State.issuedOne_ops (s : State) (k g : Nat) : (s.issuedOne k g).ops = s.ops := by simp [State.issuedOne]
@[simp] theorem State.issuedOne_copies (s : State) (k g : Nat) : (s.issuedOne k g).copies = s.copies := by simp [State.issuedOne]
@[simp] theorem State.issuedOne_asyncDone (s : State) (k g : Nat) : (s.issuedOne k g).asyncDone = s.asyncDone := by simp [State.issuedOne]
@[simp] theorem State.issuedOne_faultsWaiting (s : State) (k g : Nat) : (s.issuedOne k g).faultsWaiting = s.faultsWaiting := by simp [State.issuedOne]
@[simp] theorem State.issuedOne_records (s : State) (k g : Nat) : (s.issuedOne k g).records = s.records := by simp [State.issuedOne]
@[simp] theorem State.issuedOne_repairs (s : State) (k g : Nat) : (s.issuedOne k g).repairs = s.repairs := by simp [State.issuedOne]
@[simp] theorem State.issuedOne_queues (s : State) (k g : Nat) : (s.issuedOne k g).queues = s.queues := by simp [State.issuedOne]
@[simp] theorem State.issuedOne_shadows (s : State) (k g : Nat) : (s.issuedOne k g).shadows = s.shadows := by simp [State.issuedOne]
@[simp] theorem State.issuedOne_subqs (s : State) (k g : Nat) : (s.issuedOne k g).subqs = s.subqs := by simp [State.issuedOne]
@[simp] theorem State.issuedOne_strays (s : State) (k g : Nat) : (s.issuedOne k g).strays = s.strays := by simp [State.issuedOne]
@[simp] theorem State.issuedOne_curated (s : State) (k g : Nat) : (s.issuedOne k g).curated = s.curated := by simp [State.issuedOne]
@[simp] theorem State.issuedOne_rrPart (s : State) (k g : Nat) : (s.issuedOne k g).rrPart = s.rrPart := by simp [State.issuedOne]
@[simp] theorem State.issuedOne_rrServed (s : State) (k g : Nat) : (s.issuedOne k g).rrServed = s.rrServed := by simp [State.issuedOne]
@[simp] theorem State.issuedOne_engines (s : State) (k g : Nat) : (s.issuedOne k g).engines = s.engines := by simp [State.issuedOne]
@[simp] theorem State.issuedOne_requests (s : State) (k g : Nat) : (s.issuedOne k g).requests = s.requests := by simp [State.issuedOne]
@[simp] theorem State.issuedOne_mem (s : State) (k g : Nat) : (s.issuedOne k g).mem = s.mem := by simp [State.issuedOne]
@[simp] theorem State.issuedOne_scratch (s : State) (k g : Nat) : (s.issuedOne k g).scratch = s.scratch := by simp [State.issuedOne]
@[simp] theorem State.issuedOne_holds (s : State) (k g : Nat) : (s.issuedOne k g).holds = s.holds := by simp [State.issuedOne]
@[simp] theorem State.issuedOne_bankModes (s : State) (k g : Nat) : (s.issuedOne k g).bankModes = s.bankModes := by simp [State.issuedOne]
@[simp] theorem State.issuedOne_queueBanks (s : State) (k g : Nat) : (s.issuedOne k g).queueBanks = s.queueBanks := by simp [State.issuedOne]
@[simp] theorem State.issuedOne_tileCache (s : State) (k g : Nat) : (s.issuedOne k g).tileCache = s.tileCache := by simp [State.issuedOne]
@[simp] theorem State.issuedOne_slices (s : State) (k g : Nat) : (s.issuedOne k g).slices = s.slices := by simp [State.issuedOne]
@[simp] theorem State.issuedOne_badSectors (s : State) (k g : Nat) : (s.issuedOne k g).badSectors = s.badSectors := by simp [State.issuedOne]
@[simp] theorem State.issuedOne_tlb (s : State) (k g : Nat) : (s.issuedOne k g).tlb = s.tlb := by simp [State.issuedOne]
@[simp] theorem State.issuedOne_asids (s : State) (k g : Nat) : (s.issuedOne k g).asids = s.asids := by simp [State.issuedOne]
@[simp] theorem State.issuedOne_bindings (s : State) (k g : Nat) : (s.issuedOne k g).bindings = s.bindings := by simp [State.issuedOne]
@[simp] theorem State.issuedOne_parts (s : State) (k g : Nat) : (s.issuedOne k g).parts = s.parts := by simp [State.issuedOne]
@[simp] theorem State.issuedOne_tileOwner (s : State) (k g : Nat) : (s.issuedOne k g).tileOwner = s.tileOwner := by simp [State.issuedOne]
@[simp] theorem State.issuedOne_wayOwner (s : State) (k g : Nat) : (s.issuedOne k g).wayOwner = s.wayOwner := by simp [State.issuedOne]
@[simp] theorem State.issuedOne_clusters (s : State) (k g : Nat) : (s.issuedOne k g).clusters = s.clusters := by simp [State.issuedOne]
@[simp] theorem State.issuedOne_budget (s : State) (k g : Nat) : (s.issuedOne k g).budget = s.budget := by simp [State.issuedOne]
@[simp] theorem State.issuedOne_latched (s : State) (k g : Nat) : (s.issuedOne k g).latched = s.latched := by simp [State.issuedOne]
@[simp] theorem State.issuedOne_comBudget (s : State) (k g : Nat) : (s.issuedOne k g).comBudget = s.comBudget := by simp [State.issuedOne]
@[simp] theorem State.issuedOne_expired (s : State) (k g : Nat) : (s.issuedOne k g).expired = s.expired := by simp [State.issuedOne]
@[simp] theorem State.issuedOne_running (s : State) (k g : Nat) : (s.issuedOne k g).running = s.running := by simp [State.issuedOne]
@[simp] theorem State.issuedOne_kickedAt (s : State) (k g : Nat) : (s.issuedOne k g).kickedAt = s.kickedAt := by simp [State.issuedOne]
@[simp] theorem State.issuedOne_hot (s : State) (k g : Nat) : (s.issuedOne k g).hot = s.hot := by simp [State.issuedOne]
@[simp] theorem State.issuedOne_swaps (s : State) (k g : Nat) : (s.issuedOne k g).swaps = s.swaps := by simp [State.issuedOne]
@[simp] theorem State.issuedOne_staged (s : State) (k g : Nat) : (s.issuedOne k g).staged = s.staged := by simp [State.issuedOne]
@[simp] theorem State.issuedOne_fullSwitches (s : State) (k g : Nat) : (s.issuedOne k g).fullSwitches = s.fullSwitches := by simp [State.issuedOne]
@[simp] theorem State.issuedOne_images (s : State) (k g : Nat) : (s.issuedOne k g).images = s.images := by simp [State.issuedOne]
@[simp] theorem State.issuedOne_scratchImages (s : State) (k g : Nat) : (s.issuedOne k g).scratchImages = s.scratchImages := by simp [State.issuedOne]
@[simp] theorem State.issuedOne_queueImages (s : State) (k g : Nat) : (s.issuedOne k g).queueImages = s.queueImages := by simp [State.issuedOne]
@[simp] theorem State.issuedOne_mgmt (s : State) (k g : Nat) : (s.issuedOne k g).mgmt = s.mgmt := by simp [State.issuedOne]
@[simp] theorem State.issuedOne_fwdigest (s : State) (k g : Nat) : (s.issuedOne k g).fwdigest = s.fwdigest := by simp [State.issuedOne]
@[simp] theorem State.issuedOne_safe (s : State) (k g : Nat) : (s.issuedOne k g).safe = s.safe := by simp [State.issuedOne]
@[simp] theorem State.issuedOne_retired (s : State) (k g : Nat) : (s.issuedOne k g).retired = s.retired := by simp [State.issuedOne]
@[simp] theorem State.issuedOne_transients (s : State) (k g : Nat) : (s.issuedOne k g).transients = s.transients := by simp [State.issuedOne]
@[simp] theorem State.issuedOne_testDue (s : State) (k g : Nat) : (s.issuedOne k g).testDue = s.testDue := by simp [State.issuedOne]
@[simp] theorem State.issuedOne_testing (s : State) (k g : Nat) : (s.issuedOne k g).testing = s.testing := by simp [State.issuedOne]
@[simp] theorem State.issuedOne_flitRetries (s : State) (k g : Nat) : (s.issuedOne k g).flitRetries = s.flitRetries := by simp [State.issuedOne]
@[simp] theorem State.issuedOne_linkLanes (s : State) (k g : Nat) : (s.issuedOne k g).linkLanes = s.linkLanes := by simp [State.issuedOne]
@[simp] theorem State.issuedOne_spares (s : State) (k g : Nat) : (s.issuedOne k g).spares = s.spares := by simp [State.issuedOne]
@[simp] theorem State.issuedOne_tilesOut (s : State) (k g : Nat) : (s.issuedOne k g).tilesOut = s.tilesOut := by simp [State.issuedOne]
@[simp] theorem State.issuedOne_modulesOff (s : State) (k g : Nat) : (s.issuedOne k g).modulesOff = s.modulesOff := by simp [State.issuedOne]
@[simp] theorem State.issuedOne_irqs (s : State) (k g : Nat) : (s.issuedOne k g).irqs = s.irqs := by simp [State.issuedOne]
@[simp] theorem State.issuedOne_hostResp (s : State) (k g : Nat) : (s.issuedOne k g).hostResp = s.hostResp := by simp [State.issuedOne]

/-! ## A context -/

@[simp] theorem Ctx.wg_priv (c : Ctx) (n : Nat) (x : Word) : (c.wg n x).priv = c.priv := rfl
@[simp] theorem Ctx.wg_asid (c : Ctx) (n : Nat) (x : Word) : (c.wg n x).asid = c.asid := rfl
@[simp] theorem Ctx.wg_part (c : Ctx) (n : Nat) (x : Word) : (c.wg n x).part = c.part := rfl
@[simp] theorem Ctx.wg_parked (c : Ctx) (n : Nat) (x : Word) : (c.wg n x).parked = c.parked := rfl
@[simp] theorem Ctx.wg_graph (c : Ctx) (n : Nat) (x : Word) : (c.wg n x).graph = c.graph := rfl
@[simp] theorem Ctx.wg_actor (c : Ctx) (n : Nat) (x : Word) : (c.wg n x).actor = c.actor := rfl
@[simp] theorem Ctx.wg_entry (c : Ctx) (n : Nat) (x : Word) : (c.wg n x).entry = c.entry := rfl
@[simp] theorem Ctx.wg_born (c : Ctx) (n : Nat) (x : Word) : (c.wg n x).born = c.born := rfl
@[simp] theorem Ctx.wg_v (c : Ctx) (n : Nat) (x : Word) : (c.wg n x).v = c.v := rfl
@[simp] theorem Ctx.wg_vEmpty (c : Ctx) (n : Nat) (x : Word) : (c.wg n x).vEmpty = c.vEmpty := rfl
@[simp] theorem Ctx.wg_vBad (c : Ctx) (n : Nat) (x : Word) : (c.wg n x).vBad = c.vBad := rfl
@[simp] theorem Ctx.wg_k (c : Ctx) (n : Nat) (x : Word) : (c.wg n x).k = c.k := rfl
@[simp] theorem Ctx.wg_flags (c : Ctx) (n : Nat) (x : Word) : (c.wg n x).flags = c.flags := rfl
@[simp] theorem Ctx.wg_flagsHeld (c : Ctx) (n : Nat) (x : Word) : (c.wg n x).flagsHeld = c.flagsHeld := rfl
@[simp] theorem Ctx.wg_q (c : Ctx) (n : Nat) (x : Word) : (c.wg n x).q = c.q := rfl
@[simp] theorem Ctx.wg_resv (c : Ctx) (n : Nat) (x : Word) : (c.wg n x).resv = c.resv := rfl
@[simp] theorem Ctx.wg_e (c : Ctx) (n : Nat) (x : Word) : (c.wg n x).e = c.e := rfl
@[simp] theorem Ctx.wg_fpflags (c : Ctx) (n : Nat) (x : Word) : (c.wg n x).fpflags = c.fpflags := rfl
@[simp] theorem Ctx.wg_warn (c : Ctx) (n : Nat) (x : Word) : (c.wg n x).warn = c.warn := rfl
@[simp] theorem Ctx.wg_trapcause (c : Ctx) (n : Nat) (x : Word) : (c.wg n x).trapcause = c.trapcause := rfl
@[simp] theorem Ctx.wg_trapinfo (c : Ctx) (n : Nat) (x : Word) : (c.wg n x).trapinfo = c.trapinfo := rfl
@[simp] theorem Ctx.wg_trapvec (c : Ctx) (n : Nat) (x : Word) : (c.wg n x).trapvec = c.trapvec := rfl
@[simp] theorem Ctx.wg_guardtab (c : Ctx) (n : Nat) (x : Word) : (c.wg n x).guardtab = c.guardtab := rfl
@[simp] theorem Ctx.wg_modtab (c : Ctx) (n : Nat) (x : Word) : (c.wg n x).modtab = c.modtab := rfl
@[simp] theorem Ctx.wg_pmsel (c : Ctx) (n : Nat) (x : Word) : (c.wg n x).pmsel = c.pmsel := rfl
@[simp] theorem Ctx.wg_pmcnt (c : Ctx) (n : Nat) (x : Word) : (c.wg n x).pmcnt = c.pmcnt := rfl
@[simp] theorem Ctx.wg_idled (c : Ctx) (n : Nat) (x : Word) : (c.wg n x).idled = c.idled := rfl
@[simp] theorem Ctx.wg_guards (c : Ctx) (n : Nat) (x : Word) : (c.wg n x).guards = c.guards := rfl
@[simp] theorem Ctx.wg_guardsHeld (c : Ctx) (n : Nat) (x : Word) : (c.wg n x).guardsHeld = c.guardsHeld := rfl
@[simp] theorem Ctx.wg_past (c : Ctx) (n : Nat) (x : Word) : (c.wg n x).past = c.past := rfl
@[simp] theorem Ctx.wg_stamp (c : Ctx) (n : Nat) (x : Word) : (c.wg n x).stamp = c.stamp := rfl
@[simp] theorem Ctx.wg_waited (c : Ctx) (n : Nat) (x : Word) : (c.wg n x).waited = c.waited := rfl
@[simp] theorem Ctx.wg_slots (c : Ctx) (n : Nat) (x : Word) : (c.wg n x).slots = c.slots := rfl
@[simp] theorem Ctx.wg_firing (c : Ctx) (n : Nat) (x : Word) : (c.wg n x).firing = c.firing := rfl
@[simp] theorem Ctx.wg_frames (c : Ctx) (n : Nat) (x : Word) : (c.wg n x).frames = c.frames := rfl
@[simp] theorem Ctx.wg_replay (c : Ctx) (n : Nat) (x : Word) : (c.wg n x).replay = c.replay := rfl
@[simp] theorem Ctx.wg_pending (c : Ctx) (n : Nat) (x : Word) : (c.wg n x).pending = c.pending := rfl
@[simp] theorem Ctx.wg_ckpt (c : Ctx) (n : Nat) (x : Word) : (c.wg n x).ckpt = c.ckpt := rfl
@[simp] theorem Ctx.wg_stoppedAt (c : Ctx) (n : Nat) (x : Word) : (c.wg n x).stoppedAt = c.stoppedAt := rfl
@[simp] theorem Ctx.wg_leases (c : Ctx) (n : Nat) (x : Word) : (c.wg n x).leases = c.leases := rfl
@[simp] theorem Ctx.wg_mxsave (c : Ctx) (n : Nat) (x : Word) : (c.wg n x).mxsave = c.mxsave := rfl
@[simp] theorem Ctx.wg_copy (c : Ctx) (n : Nat) (x : Word) : (c.wg n x).copy = c.copy := rfl
@[simp] theorem Ctx.wg_aborted (c : Ctx) (n : Nat) (x : Word) : (c.wg n x).aborted = c.aborted := rfl

@[simp] theorem Ctx.wv_priv (c : Ctx) (n : Nat) (x : VWord) : (c.wv n x).priv = c.priv := rfl
@[simp] theorem Ctx.wv_asid (c : Ctx) (n : Nat) (x : VWord) : (c.wv n x).asid = c.asid := rfl
@[simp] theorem Ctx.wv_part (c : Ctx) (n : Nat) (x : VWord) : (c.wv n x).part = c.part := rfl
@[simp] theorem Ctx.wv_parked (c : Ctx) (n : Nat) (x : VWord) : (c.wv n x).parked = c.parked := rfl
@[simp] theorem Ctx.wv_graph (c : Ctx) (n : Nat) (x : VWord) : (c.wv n x).graph = c.graph := rfl
@[simp] theorem Ctx.wv_actor (c : Ctx) (n : Nat) (x : VWord) : (c.wv n x).actor = c.actor := rfl
@[simp] theorem Ctx.wv_entry (c : Ctx) (n : Nat) (x : VWord) : (c.wv n x).entry = c.entry := rfl
@[simp] theorem Ctx.wv_born (c : Ctx) (n : Nat) (x : VWord) : (c.wv n x).born = c.born := rfl
@[simp] theorem Ctx.wv_g (c : Ctx) (n : Nat) (x : VWord) : (c.wv n x).g = c.g := rfl
@[simp] theorem Ctx.wv_gEmpty (c : Ctx) (n : Nat) (x : VWord) : (c.wv n x).gEmpty = c.gEmpty := rfl
@[simp] theorem Ctx.wv_gBad (c : Ctx) (n : Nat) (x : VWord) : (c.wv n x).gBad = c.gBad := rfl
@[simp] theorem Ctx.wv_k (c : Ctx) (n : Nat) (x : VWord) : (c.wv n x).k = c.k := rfl
@[simp] theorem Ctx.wv_flags (c : Ctx) (n : Nat) (x : VWord) : (c.wv n x).flags = c.flags := rfl
@[simp] theorem Ctx.wv_flagsHeld (c : Ctx) (n : Nat) (x : VWord) : (c.wv n x).flagsHeld = c.flagsHeld := rfl
@[simp] theorem Ctx.wv_q (c : Ctx) (n : Nat) (x : VWord) : (c.wv n x).q = c.q := rfl
@[simp] theorem Ctx.wv_resv (c : Ctx) (n : Nat) (x : VWord) : (c.wv n x).resv = c.resv := rfl
@[simp] theorem Ctx.wv_e (c : Ctx) (n : Nat) (x : VWord) : (c.wv n x).e = c.e := rfl
@[simp] theorem Ctx.wv_fpflags (c : Ctx) (n : Nat) (x : VWord) : (c.wv n x).fpflags = c.fpflags := rfl
@[simp] theorem Ctx.wv_warn (c : Ctx) (n : Nat) (x : VWord) : (c.wv n x).warn = c.warn := rfl
@[simp] theorem Ctx.wv_trapcause (c : Ctx) (n : Nat) (x : VWord) : (c.wv n x).trapcause = c.trapcause := rfl
@[simp] theorem Ctx.wv_trapinfo (c : Ctx) (n : Nat) (x : VWord) : (c.wv n x).trapinfo = c.trapinfo := rfl
@[simp] theorem Ctx.wv_trapvec (c : Ctx) (n : Nat) (x : VWord) : (c.wv n x).trapvec = c.trapvec := rfl
@[simp] theorem Ctx.wv_guardtab (c : Ctx) (n : Nat) (x : VWord) : (c.wv n x).guardtab = c.guardtab := rfl
@[simp] theorem Ctx.wv_modtab (c : Ctx) (n : Nat) (x : VWord) : (c.wv n x).modtab = c.modtab := rfl
@[simp] theorem Ctx.wv_pmsel (c : Ctx) (n : Nat) (x : VWord) : (c.wv n x).pmsel = c.pmsel := rfl
@[simp] theorem Ctx.wv_pmcnt (c : Ctx) (n : Nat) (x : VWord) : (c.wv n x).pmcnt = c.pmcnt := rfl
@[simp] theorem Ctx.wv_idled (c : Ctx) (n : Nat) (x : VWord) : (c.wv n x).idled = c.idled := rfl
@[simp] theorem Ctx.wv_guards (c : Ctx) (n : Nat) (x : VWord) : (c.wv n x).guards = c.guards := rfl
@[simp] theorem Ctx.wv_guardsHeld (c : Ctx) (n : Nat) (x : VWord) : (c.wv n x).guardsHeld = c.guardsHeld := rfl
@[simp] theorem Ctx.wv_past (c : Ctx) (n : Nat) (x : VWord) : (c.wv n x).past = c.past := rfl
@[simp] theorem Ctx.wv_stamp (c : Ctx) (n : Nat) (x : VWord) : (c.wv n x).stamp = c.stamp := rfl
@[simp] theorem Ctx.wv_waited (c : Ctx) (n : Nat) (x : VWord) : (c.wv n x).waited = c.waited := rfl
@[simp] theorem Ctx.wv_slots (c : Ctx) (n : Nat) (x : VWord) : (c.wv n x).slots = c.slots := rfl
@[simp] theorem Ctx.wv_firing (c : Ctx) (n : Nat) (x : VWord) : (c.wv n x).firing = c.firing := rfl
@[simp] theorem Ctx.wv_frames (c : Ctx) (n : Nat) (x : VWord) : (c.wv n x).frames = c.frames := rfl
@[simp] theorem Ctx.wv_replay (c : Ctx) (n : Nat) (x : VWord) : (c.wv n x).replay = c.replay := rfl
@[simp] theorem Ctx.wv_pending (c : Ctx) (n : Nat) (x : VWord) : (c.wv n x).pending = c.pending := rfl
@[simp] theorem Ctx.wv_ckpt (c : Ctx) (n : Nat) (x : VWord) : (c.wv n x).ckpt = c.ckpt := rfl
@[simp] theorem Ctx.wv_stoppedAt (c : Ctx) (n : Nat) (x : VWord) : (c.wv n x).stoppedAt = c.stoppedAt := rfl
@[simp] theorem Ctx.wv_leases (c : Ctx) (n : Nat) (x : VWord) : (c.wv n x).leases = c.leases := rfl
@[simp] theorem Ctx.wv_mxsave (c : Ctx) (n : Nat) (x : VWord) : (c.wv n x).mxsave = c.mxsave := rfl
@[simp] theorem Ctx.wv_copy (c : Ctx) (n : Nat) (x : VWord) : (c.wv n x).copy = c.copy := rfl
@[simp] theorem Ctx.wv_aborted (c : Ctx) (n : Nat) (x : VWord) : (c.wv n x).aborted = c.aborted := rfl

@[simp] theorem Ctx.wk_priv (c : Ctx) (n : Nat) (x : Mask) : (c.wk n x).priv = c.priv := by unfold Ctx.wk; split <;> rfl
@[simp] theorem Ctx.wk_asid (c : Ctx) (n : Nat) (x : Mask) : (c.wk n x).asid = c.asid := by unfold Ctx.wk; split <;> rfl
@[simp] theorem Ctx.wk_part (c : Ctx) (n : Nat) (x : Mask) : (c.wk n x).part = c.part := by unfold Ctx.wk; split <;> rfl
@[simp] theorem Ctx.wk_parked (c : Ctx) (n : Nat) (x : Mask) : (c.wk n x).parked = c.parked := by unfold Ctx.wk; split <;> rfl
@[simp] theorem Ctx.wk_graph (c : Ctx) (n : Nat) (x : Mask) : (c.wk n x).graph = c.graph := by unfold Ctx.wk; split <;> rfl
@[simp] theorem Ctx.wk_actor (c : Ctx) (n : Nat) (x : Mask) : (c.wk n x).actor = c.actor := by unfold Ctx.wk; split <;> rfl
@[simp] theorem Ctx.wk_entry (c : Ctx) (n : Nat) (x : Mask) : (c.wk n x).entry = c.entry := by unfold Ctx.wk; split <;> rfl
@[simp] theorem Ctx.wk_born (c : Ctx) (n : Nat) (x : Mask) : (c.wk n x).born = c.born := by unfold Ctx.wk; split <;> rfl
@[simp] theorem Ctx.wk_g (c : Ctx) (n : Nat) (x : Mask) : (c.wk n x).g = c.g := by unfold Ctx.wk; split <;> rfl
@[simp] theorem Ctx.wk_gEmpty (c : Ctx) (n : Nat) (x : Mask) : (c.wk n x).gEmpty = c.gEmpty := by unfold Ctx.wk; split <;> rfl
@[simp] theorem Ctx.wk_v (c : Ctx) (n : Nat) (x : Mask) : (c.wk n x).v = c.v := by unfold Ctx.wk; split <;> rfl
@[simp] theorem Ctx.wk_vEmpty (c : Ctx) (n : Nat) (x : Mask) : (c.wk n x).vEmpty = c.vEmpty := by unfold Ctx.wk; split <;> rfl
@[simp] theorem Ctx.wk_gBad (c : Ctx) (n : Nat) (x : Mask) : (c.wk n x).gBad = c.gBad := by unfold Ctx.wk; split <;> rfl
@[simp] theorem Ctx.wk_vBad (c : Ctx) (n : Nat) (x : Mask) : (c.wk n x).vBad = c.vBad := by unfold Ctx.wk; split <;> rfl
@[simp] theorem Ctx.wk_flags (c : Ctx) (n : Nat) (x : Mask) : (c.wk n x).flags = c.flags := by unfold Ctx.wk; split <;> rfl
@[simp] theorem Ctx.wk_flagsHeld (c : Ctx) (n : Nat) (x : Mask) : (c.wk n x).flagsHeld = c.flagsHeld := by unfold Ctx.wk; split <;> rfl
@[simp] theorem Ctx.wk_q (c : Ctx) (n : Nat) (x : Mask) : (c.wk n x).q = c.q := by unfold Ctx.wk; split <;> rfl
@[simp] theorem Ctx.wk_resv (c : Ctx) (n : Nat) (x : Mask) : (c.wk n x).resv = c.resv := by unfold Ctx.wk; split <;> rfl
@[simp] theorem Ctx.wk_e (c : Ctx) (n : Nat) (x : Mask) : (c.wk n x).e = c.e := by unfold Ctx.wk; split <;> rfl
@[simp] theorem Ctx.wk_fpflags (c : Ctx) (n : Nat) (x : Mask) : (c.wk n x).fpflags = c.fpflags := by unfold Ctx.wk; split <;> rfl
@[simp] theorem Ctx.wk_warn (c : Ctx) (n : Nat) (x : Mask) : (c.wk n x).warn = c.warn := by unfold Ctx.wk; split <;> rfl
@[simp] theorem Ctx.wk_trapcause (c : Ctx) (n : Nat) (x : Mask) : (c.wk n x).trapcause = c.trapcause := by unfold Ctx.wk; split <;> rfl
@[simp] theorem Ctx.wk_trapinfo (c : Ctx) (n : Nat) (x : Mask) : (c.wk n x).trapinfo = c.trapinfo := by unfold Ctx.wk; split <;> rfl
@[simp] theorem Ctx.wk_trapvec (c : Ctx) (n : Nat) (x : Mask) : (c.wk n x).trapvec = c.trapvec := by unfold Ctx.wk; split <;> rfl
@[simp] theorem Ctx.wk_guardtab (c : Ctx) (n : Nat) (x : Mask) : (c.wk n x).guardtab = c.guardtab := by unfold Ctx.wk; split <;> rfl
@[simp] theorem Ctx.wk_modtab (c : Ctx) (n : Nat) (x : Mask) : (c.wk n x).modtab = c.modtab := by unfold Ctx.wk; split <;> rfl
@[simp] theorem Ctx.wk_pmsel (c : Ctx) (n : Nat) (x : Mask) : (c.wk n x).pmsel = c.pmsel := by unfold Ctx.wk; split <;> rfl
@[simp] theorem Ctx.wk_pmcnt (c : Ctx) (n : Nat) (x : Mask) : (c.wk n x).pmcnt = c.pmcnt := by unfold Ctx.wk; split <;> rfl
@[simp] theorem Ctx.wk_idled (c : Ctx) (n : Nat) (x : Mask) : (c.wk n x).idled = c.idled := by unfold Ctx.wk; split <;> rfl
@[simp] theorem Ctx.wk_guards (c : Ctx) (n : Nat) (x : Mask) : (c.wk n x).guards = c.guards := by unfold Ctx.wk; split <;> rfl
@[simp] theorem Ctx.wk_guardsHeld (c : Ctx) (n : Nat) (x : Mask) : (c.wk n x).guardsHeld = c.guardsHeld := by unfold Ctx.wk; split <;> rfl
@[simp] theorem Ctx.wk_past (c : Ctx) (n : Nat) (x : Mask) : (c.wk n x).past = c.past := by unfold Ctx.wk; split <;> rfl
@[simp] theorem Ctx.wk_stamp (c : Ctx) (n : Nat) (x : Mask) : (c.wk n x).stamp = c.stamp := by unfold Ctx.wk; split <;> rfl
@[simp] theorem Ctx.wk_waited (c : Ctx) (n : Nat) (x : Mask) : (c.wk n x).waited = c.waited := by unfold Ctx.wk; split <;> rfl
@[simp] theorem Ctx.wk_slots (c : Ctx) (n : Nat) (x : Mask) : (c.wk n x).slots = c.slots := by unfold Ctx.wk; split <;> rfl
@[simp] theorem Ctx.wk_firing (c : Ctx) (n : Nat) (x : Mask) : (c.wk n x).firing = c.firing := by unfold Ctx.wk; split <;> rfl
@[simp] theorem Ctx.wk_frames (c : Ctx) (n : Nat) (x : Mask) : (c.wk n x).frames = c.frames := by unfold Ctx.wk; split <;> rfl
@[simp] theorem Ctx.wk_replay (c : Ctx) (n : Nat) (x : Mask) : (c.wk n x).replay = c.replay := by unfold Ctx.wk; split <;> rfl
@[simp] theorem Ctx.wk_pending (c : Ctx) (n : Nat) (x : Mask) : (c.wk n x).pending = c.pending := by unfold Ctx.wk; split <;> rfl
@[simp] theorem Ctx.wk_ckpt (c : Ctx) (n : Nat) (x : Mask) : (c.wk n x).ckpt = c.ckpt := by unfold Ctx.wk; split <;> rfl
@[simp] theorem Ctx.wk_stoppedAt (c : Ctx) (n : Nat) (x : Mask) : (c.wk n x).stoppedAt = c.stoppedAt := by unfold Ctx.wk; split <;> rfl
@[simp] theorem Ctx.wk_leases (c : Ctx) (n : Nat) (x : Mask) : (c.wk n x).leases = c.leases := by unfold Ctx.wk; split <;> rfl
@[simp] theorem Ctx.wk_mxsave (c : Ctx) (n : Nat) (x : Mask) : (c.wk n x).mxsave = c.mxsave := by unfold Ctx.wk; split <;> rfl
@[simp] theorem Ctx.wk_copy (c : Ctx) (n : Nat) (x : Mask) : (c.wk n x).copy = c.copy := by unfold Ctx.wk; split <;> rfl
@[simp] theorem Ctx.wk_aborted (c : Ctx) (n : Nat) (x : Mask) : (c.wk n x).aborted = c.aborted := by unfold Ctx.wk; split <;> rfl

@[simp] theorem Ctx.we_priv (c : Ctx) (n : Nat) (x : Word) : (c.we n x).priv = c.priv := rfl
@[simp] theorem Ctx.we_asid (c : Ctx) (n : Nat) (x : Word) : (c.we n x).asid = c.asid := rfl
@[simp] theorem Ctx.we_part (c : Ctx) (n : Nat) (x : Word) : (c.we n x).part = c.part := rfl
@[simp] theorem Ctx.we_parked (c : Ctx) (n : Nat) (x : Word) : (c.we n x).parked = c.parked := rfl
@[simp] theorem Ctx.we_graph (c : Ctx) (n : Nat) (x : Word) : (c.we n x).graph = c.graph := rfl
@[simp] theorem Ctx.we_actor (c : Ctx) (n : Nat) (x : Word) : (c.we n x).actor = c.actor := rfl
@[simp] theorem Ctx.we_entry (c : Ctx) (n : Nat) (x : Word) : (c.we n x).entry = c.entry := rfl
@[simp] theorem Ctx.we_born (c : Ctx) (n : Nat) (x : Word) : (c.we n x).born = c.born := rfl
@[simp] theorem Ctx.we_g (c : Ctx) (n : Nat) (x : Word) : (c.we n x).g = c.g := rfl
@[simp] theorem Ctx.we_gEmpty (c : Ctx) (n : Nat) (x : Word) : (c.we n x).gEmpty = c.gEmpty := rfl
@[simp] theorem Ctx.we_v (c : Ctx) (n : Nat) (x : Word) : (c.we n x).v = c.v := rfl
@[simp] theorem Ctx.we_vEmpty (c : Ctx) (n : Nat) (x : Word) : (c.we n x).vEmpty = c.vEmpty := rfl
@[simp] theorem Ctx.we_gBad (c : Ctx) (n : Nat) (x : Word) : (c.we n x).gBad = c.gBad := rfl
@[simp] theorem Ctx.we_vBad (c : Ctx) (n : Nat) (x : Word) : (c.we n x).vBad = c.vBad := rfl
@[simp] theorem Ctx.we_k (c : Ctx) (n : Nat) (x : Word) : (c.we n x).k = c.k := rfl
@[simp] theorem Ctx.we_flags (c : Ctx) (n : Nat) (x : Word) : (c.we n x).flags = c.flags := rfl
@[simp] theorem Ctx.we_flagsHeld (c : Ctx) (n : Nat) (x : Word) : (c.we n x).flagsHeld = c.flagsHeld := rfl
@[simp] theorem Ctx.we_q (c : Ctx) (n : Nat) (x : Word) : (c.we n x).q = c.q := rfl
@[simp] theorem Ctx.we_resv (c : Ctx) (n : Nat) (x : Word) : (c.we n x).resv = c.resv := rfl
@[simp] theorem Ctx.we_fpflags (c : Ctx) (n : Nat) (x : Word) : (c.we n x).fpflags = c.fpflags := rfl
@[simp] theorem Ctx.we_warn (c : Ctx) (n : Nat) (x : Word) : (c.we n x).warn = c.warn := rfl
@[simp] theorem Ctx.we_trapcause (c : Ctx) (n : Nat) (x : Word) : (c.we n x).trapcause = c.trapcause := rfl
@[simp] theorem Ctx.we_trapinfo (c : Ctx) (n : Nat) (x : Word) : (c.we n x).trapinfo = c.trapinfo := rfl
@[simp] theorem Ctx.we_trapvec (c : Ctx) (n : Nat) (x : Word) : (c.we n x).trapvec = c.trapvec := rfl
@[simp] theorem Ctx.we_guardtab (c : Ctx) (n : Nat) (x : Word) : (c.we n x).guardtab = c.guardtab := rfl
@[simp] theorem Ctx.we_modtab (c : Ctx) (n : Nat) (x : Word) : (c.we n x).modtab = c.modtab := rfl
@[simp] theorem Ctx.we_pmsel (c : Ctx) (n : Nat) (x : Word) : (c.we n x).pmsel = c.pmsel := rfl
@[simp] theorem Ctx.we_pmcnt (c : Ctx) (n : Nat) (x : Word) : (c.we n x).pmcnt = c.pmcnt := rfl
@[simp] theorem Ctx.we_idled (c : Ctx) (n : Nat) (x : Word) : (c.we n x).idled = c.idled := rfl
@[simp] theorem Ctx.we_guards (c : Ctx) (n : Nat) (x : Word) : (c.we n x).guards = c.guards := rfl
@[simp] theorem Ctx.we_guardsHeld (c : Ctx) (n : Nat) (x : Word) : (c.we n x).guardsHeld = c.guardsHeld := rfl
@[simp] theorem Ctx.we_past (c : Ctx) (n : Nat) (x : Word) : (c.we n x).past = c.past := rfl
@[simp] theorem Ctx.we_stamp (c : Ctx) (n : Nat) (x : Word) : (c.we n x).stamp = c.stamp := rfl
@[simp] theorem Ctx.we_waited (c : Ctx) (n : Nat) (x : Word) : (c.we n x).waited = c.waited := rfl
@[simp] theorem Ctx.we_slots (c : Ctx) (n : Nat) (x : Word) : (c.we n x).slots = c.slots := rfl
@[simp] theorem Ctx.we_firing (c : Ctx) (n : Nat) (x : Word) : (c.we n x).firing = c.firing := rfl
@[simp] theorem Ctx.we_frames (c : Ctx) (n : Nat) (x : Word) : (c.we n x).frames = c.frames := rfl
@[simp] theorem Ctx.we_replay (c : Ctx) (n : Nat) (x : Word) : (c.we n x).replay = c.replay := rfl
@[simp] theorem Ctx.we_pending (c : Ctx) (n : Nat) (x : Word) : (c.we n x).pending = c.pending := rfl
@[simp] theorem Ctx.we_ckpt (c : Ctx) (n : Nat) (x : Word) : (c.we n x).ckpt = c.ckpt := rfl
@[simp] theorem Ctx.we_stoppedAt (c : Ctx) (n : Nat) (x : Word) : (c.we n x).stoppedAt = c.stoppedAt := rfl
@[simp] theorem Ctx.we_leases (c : Ctx) (n : Nat) (x : Word) : (c.we n x).leases = c.leases := rfl
@[simp] theorem Ctx.we_mxsave (c : Ctx) (n : Nat) (x : Word) : (c.we n x).mxsave = c.mxsave := rfl
@[simp] theorem Ctx.we_copy (c : Ctx) (n : Nat) (x : Word) : (c.we n x).copy = c.copy := rfl
@[simp] theorem Ctx.we_aborted (c : Ctx) (n : Nat) (x : Word) : (c.we n x).aborted = c.aborted := rfl

@[simp] theorem Ctx.wq_priv (c : Ctx) (n : Nat) (x : PortBind) : (c.wq n x).priv = c.priv := rfl
@[simp] theorem Ctx.wq_asid (c : Ctx) (n : Nat) (x : PortBind) : (c.wq n x).asid = c.asid := rfl
@[simp] theorem Ctx.wq_part (c : Ctx) (n : Nat) (x : PortBind) : (c.wq n x).part = c.part := rfl
@[simp] theorem Ctx.wq_parked (c : Ctx) (n : Nat) (x : PortBind) : (c.wq n x).parked = c.parked := rfl
@[simp] theorem Ctx.wq_graph (c : Ctx) (n : Nat) (x : PortBind) : (c.wq n x).graph = c.graph := rfl
@[simp] theorem Ctx.wq_actor (c : Ctx) (n : Nat) (x : PortBind) : (c.wq n x).actor = c.actor := rfl
@[simp] theorem Ctx.wq_entry (c : Ctx) (n : Nat) (x : PortBind) : (c.wq n x).entry = c.entry := rfl
@[simp] theorem Ctx.wq_born (c : Ctx) (n : Nat) (x : PortBind) : (c.wq n x).born = c.born := rfl
@[simp] theorem Ctx.wq_g (c : Ctx) (n : Nat) (x : PortBind) : (c.wq n x).g = c.g := rfl
@[simp] theorem Ctx.wq_gEmpty (c : Ctx) (n : Nat) (x : PortBind) : (c.wq n x).gEmpty = c.gEmpty := rfl
@[simp] theorem Ctx.wq_v (c : Ctx) (n : Nat) (x : PortBind) : (c.wq n x).v = c.v := rfl
@[simp] theorem Ctx.wq_vEmpty (c : Ctx) (n : Nat) (x : PortBind) : (c.wq n x).vEmpty = c.vEmpty := rfl
@[simp] theorem Ctx.wq_gBad (c : Ctx) (n : Nat) (x : PortBind) : (c.wq n x).gBad = c.gBad := rfl
@[simp] theorem Ctx.wq_vBad (c : Ctx) (n : Nat) (x : PortBind) : (c.wq n x).vBad = c.vBad := rfl
@[simp] theorem Ctx.wq_k (c : Ctx) (n : Nat) (x : PortBind) : (c.wq n x).k = c.k := rfl
@[simp] theorem Ctx.wq_flags (c : Ctx) (n : Nat) (x : PortBind) : (c.wq n x).flags = c.flags := rfl
@[simp] theorem Ctx.wq_flagsHeld (c : Ctx) (n : Nat) (x : PortBind) : (c.wq n x).flagsHeld = c.flagsHeld := rfl
@[simp] theorem Ctx.wq_resv (c : Ctx) (n : Nat) (x : PortBind) : (c.wq n x).resv = c.resv := rfl
@[simp] theorem Ctx.wq_e (c : Ctx) (n : Nat) (x : PortBind) : (c.wq n x).e = c.e := rfl
@[simp] theorem Ctx.wq_fpflags (c : Ctx) (n : Nat) (x : PortBind) : (c.wq n x).fpflags = c.fpflags := rfl
@[simp] theorem Ctx.wq_warn (c : Ctx) (n : Nat) (x : PortBind) : (c.wq n x).warn = c.warn := rfl
@[simp] theorem Ctx.wq_trapcause (c : Ctx) (n : Nat) (x : PortBind) : (c.wq n x).trapcause = c.trapcause := rfl
@[simp] theorem Ctx.wq_trapinfo (c : Ctx) (n : Nat) (x : PortBind) : (c.wq n x).trapinfo = c.trapinfo := rfl
@[simp] theorem Ctx.wq_trapvec (c : Ctx) (n : Nat) (x : PortBind) : (c.wq n x).trapvec = c.trapvec := rfl
@[simp] theorem Ctx.wq_guardtab (c : Ctx) (n : Nat) (x : PortBind) : (c.wq n x).guardtab = c.guardtab := rfl
@[simp] theorem Ctx.wq_modtab (c : Ctx) (n : Nat) (x : PortBind) : (c.wq n x).modtab = c.modtab := rfl
@[simp] theorem Ctx.wq_pmsel (c : Ctx) (n : Nat) (x : PortBind) : (c.wq n x).pmsel = c.pmsel := rfl
@[simp] theorem Ctx.wq_pmcnt (c : Ctx) (n : Nat) (x : PortBind) : (c.wq n x).pmcnt = c.pmcnt := rfl
@[simp] theorem Ctx.wq_idled (c : Ctx) (n : Nat) (x : PortBind) : (c.wq n x).idled = c.idled := rfl
@[simp] theorem Ctx.wq_guards (c : Ctx) (n : Nat) (x : PortBind) : (c.wq n x).guards = c.guards := rfl
@[simp] theorem Ctx.wq_guardsHeld (c : Ctx) (n : Nat) (x : PortBind) : (c.wq n x).guardsHeld = c.guardsHeld := rfl
@[simp] theorem Ctx.wq_past (c : Ctx) (n : Nat) (x : PortBind) : (c.wq n x).past = c.past := rfl
@[simp] theorem Ctx.wq_stamp (c : Ctx) (n : Nat) (x : PortBind) : (c.wq n x).stamp = c.stamp := rfl
@[simp] theorem Ctx.wq_waited (c : Ctx) (n : Nat) (x : PortBind) : (c.wq n x).waited = c.waited := rfl
@[simp] theorem Ctx.wq_slots (c : Ctx) (n : Nat) (x : PortBind) : (c.wq n x).slots = c.slots := rfl
@[simp] theorem Ctx.wq_firing (c : Ctx) (n : Nat) (x : PortBind) : (c.wq n x).firing = c.firing := rfl
@[simp] theorem Ctx.wq_frames (c : Ctx) (n : Nat) (x : PortBind) : (c.wq n x).frames = c.frames := rfl
@[simp] theorem Ctx.wq_replay (c : Ctx) (n : Nat) (x : PortBind) : (c.wq n x).replay = c.replay := rfl
@[simp] theorem Ctx.wq_pending (c : Ctx) (n : Nat) (x : PortBind) : (c.wq n x).pending = c.pending := rfl
@[simp] theorem Ctx.wq_ckpt (c : Ctx) (n : Nat) (x : PortBind) : (c.wq n x).ckpt = c.ckpt := rfl
@[simp] theorem Ctx.wq_stoppedAt (c : Ctx) (n : Nat) (x : PortBind) : (c.wq n x).stoppedAt = c.stoppedAt := rfl
@[simp] theorem Ctx.wq_leases (c : Ctx) (n : Nat) (x : PortBind) : (c.wq n x).leases = c.leases := rfl
@[simp] theorem Ctx.wq_mxsave (c : Ctx) (n : Nat) (x : PortBind) : (c.wq n x).mxsave = c.mxsave := rfl
@[simp] theorem Ctx.wq_copy (c : Ctx) (n : Nat) (x : PortBind) : (c.wq n x).copy = c.copy := rfl
@[simp] theorem Ctx.wq_aborted (c : Ctx) (n : Nat) (x : PortBind) : (c.wq n x).aborted = c.aborted := rfl

@[simp] theorem Ctx.markG_priv (c : Ctx) (n : Nat) (b : Bool) : (c.markG n b).priv = c.priv := rfl
@[simp] theorem Ctx.markG_asid (c : Ctx) (n : Nat) (b : Bool) : (c.markG n b).asid = c.asid := rfl
@[simp] theorem Ctx.markG_part (c : Ctx) (n : Nat) (b : Bool) : (c.markG n b).part = c.part := rfl
@[simp] theorem Ctx.markG_parked (c : Ctx) (n : Nat) (b : Bool) : (c.markG n b).parked = c.parked := rfl
@[simp] theorem Ctx.markG_graph (c : Ctx) (n : Nat) (b : Bool) : (c.markG n b).graph = c.graph := rfl
@[simp] theorem Ctx.markG_actor (c : Ctx) (n : Nat) (b : Bool) : (c.markG n b).actor = c.actor := rfl
@[simp] theorem Ctx.markG_entry (c : Ctx) (n : Nat) (b : Bool) : (c.markG n b).entry = c.entry := rfl
@[simp] theorem Ctx.markG_born (c : Ctx) (n : Nat) (b : Bool) : (c.markG n b).born = c.born := rfl
@[simp] theorem Ctx.markG_g (c : Ctx) (n : Nat) (b : Bool) : (c.markG n b).g = c.g := rfl
@[simp] theorem Ctx.markG_v (c : Ctx) (n : Nat) (b : Bool) : (c.markG n b).v = c.v := rfl
@[simp] theorem Ctx.markG_vEmpty (c : Ctx) (n : Nat) (b : Bool) : (c.markG n b).vEmpty = c.vEmpty := rfl
@[simp] theorem Ctx.markG_gBad (c : Ctx) (n : Nat) (b : Bool) : (c.markG n b).gBad = c.gBad := rfl
@[simp] theorem Ctx.markG_vBad (c : Ctx) (n : Nat) (b : Bool) : (c.markG n b).vBad = c.vBad := rfl
@[simp] theorem Ctx.markG_k (c : Ctx) (n : Nat) (b : Bool) : (c.markG n b).k = c.k := rfl
@[simp] theorem Ctx.markG_flags (c : Ctx) (n : Nat) (b : Bool) : (c.markG n b).flags = c.flags := rfl
@[simp] theorem Ctx.markG_flagsHeld (c : Ctx) (n : Nat) (b : Bool) : (c.markG n b).flagsHeld = c.flagsHeld := rfl
@[simp] theorem Ctx.markG_q (c : Ctx) (n : Nat) (b : Bool) : (c.markG n b).q = c.q := rfl
@[simp] theorem Ctx.markG_resv (c : Ctx) (n : Nat) (b : Bool) : (c.markG n b).resv = c.resv := rfl
@[simp] theorem Ctx.markG_e (c : Ctx) (n : Nat) (b : Bool) : (c.markG n b).e = c.e := rfl
@[simp] theorem Ctx.markG_fpflags (c : Ctx) (n : Nat) (b : Bool) : (c.markG n b).fpflags = c.fpflags := rfl
@[simp] theorem Ctx.markG_warn (c : Ctx) (n : Nat) (b : Bool) : (c.markG n b).warn = c.warn := rfl
@[simp] theorem Ctx.markG_trapcause (c : Ctx) (n : Nat) (b : Bool) : (c.markG n b).trapcause = c.trapcause := rfl
@[simp] theorem Ctx.markG_trapinfo (c : Ctx) (n : Nat) (b : Bool) : (c.markG n b).trapinfo = c.trapinfo := rfl
@[simp] theorem Ctx.markG_trapvec (c : Ctx) (n : Nat) (b : Bool) : (c.markG n b).trapvec = c.trapvec := rfl
@[simp] theorem Ctx.markG_guardtab (c : Ctx) (n : Nat) (b : Bool) : (c.markG n b).guardtab = c.guardtab := rfl
@[simp] theorem Ctx.markG_modtab (c : Ctx) (n : Nat) (b : Bool) : (c.markG n b).modtab = c.modtab := rfl
@[simp] theorem Ctx.markG_pmsel (c : Ctx) (n : Nat) (b : Bool) : (c.markG n b).pmsel = c.pmsel := rfl
@[simp] theorem Ctx.markG_pmcnt (c : Ctx) (n : Nat) (b : Bool) : (c.markG n b).pmcnt = c.pmcnt := rfl
@[simp] theorem Ctx.markG_idled (c : Ctx) (n : Nat) (b : Bool) : (c.markG n b).idled = c.idled := rfl
@[simp] theorem Ctx.markG_guards (c : Ctx) (n : Nat) (b : Bool) : (c.markG n b).guards = c.guards := rfl
@[simp] theorem Ctx.markG_guardsHeld (c : Ctx) (n : Nat) (b : Bool) : (c.markG n b).guardsHeld = c.guardsHeld := rfl
@[simp] theorem Ctx.markG_past (c : Ctx) (n : Nat) (b : Bool) : (c.markG n b).past = c.past := rfl
@[simp] theorem Ctx.markG_stamp (c : Ctx) (n : Nat) (b : Bool) : (c.markG n b).stamp = c.stamp := rfl
@[simp] theorem Ctx.markG_waited (c : Ctx) (n : Nat) (b : Bool) : (c.markG n b).waited = c.waited := rfl
@[simp] theorem Ctx.markG_slots (c : Ctx) (n : Nat) (b : Bool) : (c.markG n b).slots = c.slots := rfl
@[simp] theorem Ctx.markG_firing (c : Ctx) (n : Nat) (b : Bool) : (c.markG n b).firing = c.firing := rfl
@[simp] theorem Ctx.markG_frames (c : Ctx) (n : Nat) (b : Bool) : (c.markG n b).frames = c.frames := rfl
@[simp] theorem Ctx.markG_replay (c : Ctx) (n : Nat) (b : Bool) : (c.markG n b).replay = c.replay := rfl
@[simp] theorem Ctx.markG_pending (c : Ctx) (n : Nat) (b : Bool) : (c.markG n b).pending = c.pending := rfl
@[simp] theorem Ctx.markG_ckpt (c : Ctx) (n : Nat) (b : Bool) : (c.markG n b).ckpt = c.ckpt := rfl
@[simp] theorem Ctx.markG_stoppedAt (c : Ctx) (n : Nat) (b : Bool) : (c.markG n b).stoppedAt = c.stoppedAt := rfl
@[simp] theorem Ctx.markG_leases (c : Ctx) (n : Nat) (b : Bool) : (c.markG n b).leases = c.leases := rfl
@[simp] theorem Ctx.markG_mxsave (c : Ctx) (n : Nat) (b : Bool) : (c.markG n b).mxsave = c.mxsave := rfl
@[simp] theorem Ctx.markG_copy (c : Ctx) (n : Nat) (b : Bool) : (c.markG n b).copy = c.copy := rfl
@[simp] theorem Ctx.markG_aborted (c : Ctx) (n : Nat) (b : Bool) : (c.markG n b).aborted = c.aborted := rfl

@[simp] theorem Ctx.markV_priv (c : Ctx) (n : Nat) (b : Bool) : (c.markV n b).priv = c.priv := rfl
@[simp] theorem Ctx.markV_asid (c : Ctx) (n : Nat) (b : Bool) : (c.markV n b).asid = c.asid := rfl
@[simp] theorem Ctx.markV_part (c : Ctx) (n : Nat) (b : Bool) : (c.markV n b).part = c.part := rfl
@[simp] theorem Ctx.markV_parked (c : Ctx) (n : Nat) (b : Bool) : (c.markV n b).parked = c.parked := rfl
@[simp] theorem Ctx.markV_graph (c : Ctx) (n : Nat) (b : Bool) : (c.markV n b).graph = c.graph := rfl
@[simp] theorem Ctx.markV_actor (c : Ctx) (n : Nat) (b : Bool) : (c.markV n b).actor = c.actor := rfl
@[simp] theorem Ctx.markV_entry (c : Ctx) (n : Nat) (b : Bool) : (c.markV n b).entry = c.entry := rfl
@[simp] theorem Ctx.markV_born (c : Ctx) (n : Nat) (b : Bool) : (c.markV n b).born = c.born := rfl
@[simp] theorem Ctx.markV_g (c : Ctx) (n : Nat) (b : Bool) : (c.markV n b).g = c.g := rfl
@[simp] theorem Ctx.markV_gEmpty (c : Ctx) (n : Nat) (b : Bool) : (c.markV n b).gEmpty = c.gEmpty := rfl
@[simp] theorem Ctx.markV_v (c : Ctx) (n : Nat) (b : Bool) : (c.markV n b).v = c.v := rfl
@[simp] theorem Ctx.markV_gBad (c : Ctx) (n : Nat) (b : Bool) : (c.markV n b).gBad = c.gBad := rfl
@[simp] theorem Ctx.markV_vBad (c : Ctx) (n : Nat) (b : Bool) : (c.markV n b).vBad = c.vBad := rfl
@[simp] theorem Ctx.markV_k (c : Ctx) (n : Nat) (b : Bool) : (c.markV n b).k = c.k := rfl
@[simp] theorem Ctx.markV_flags (c : Ctx) (n : Nat) (b : Bool) : (c.markV n b).flags = c.flags := rfl
@[simp] theorem Ctx.markV_flagsHeld (c : Ctx) (n : Nat) (b : Bool) : (c.markV n b).flagsHeld = c.flagsHeld := rfl
@[simp] theorem Ctx.markV_q (c : Ctx) (n : Nat) (b : Bool) : (c.markV n b).q = c.q := rfl
@[simp] theorem Ctx.markV_resv (c : Ctx) (n : Nat) (b : Bool) : (c.markV n b).resv = c.resv := rfl
@[simp] theorem Ctx.markV_e (c : Ctx) (n : Nat) (b : Bool) : (c.markV n b).e = c.e := rfl
@[simp] theorem Ctx.markV_fpflags (c : Ctx) (n : Nat) (b : Bool) : (c.markV n b).fpflags = c.fpflags := rfl
@[simp] theorem Ctx.markV_warn (c : Ctx) (n : Nat) (b : Bool) : (c.markV n b).warn = c.warn := rfl
@[simp] theorem Ctx.markV_trapcause (c : Ctx) (n : Nat) (b : Bool) : (c.markV n b).trapcause = c.trapcause := rfl
@[simp] theorem Ctx.markV_trapinfo (c : Ctx) (n : Nat) (b : Bool) : (c.markV n b).trapinfo = c.trapinfo := rfl
@[simp] theorem Ctx.markV_trapvec (c : Ctx) (n : Nat) (b : Bool) : (c.markV n b).trapvec = c.trapvec := rfl
@[simp] theorem Ctx.markV_guardtab (c : Ctx) (n : Nat) (b : Bool) : (c.markV n b).guardtab = c.guardtab := rfl
@[simp] theorem Ctx.markV_modtab (c : Ctx) (n : Nat) (b : Bool) : (c.markV n b).modtab = c.modtab := rfl
@[simp] theorem Ctx.markV_pmsel (c : Ctx) (n : Nat) (b : Bool) : (c.markV n b).pmsel = c.pmsel := rfl
@[simp] theorem Ctx.markV_pmcnt (c : Ctx) (n : Nat) (b : Bool) : (c.markV n b).pmcnt = c.pmcnt := rfl
@[simp] theorem Ctx.markV_idled (c : Ctx) (n : Nat) (b : Bool) : (c.markV n b).idled = c.idled := rfl
@[simp] theorem Ctx.markV_guards (c : Ctx) (n : Nat) (b : Bool) : (c.markV n b).guards = c.guards := rfl
@[simp] theorem Ctx.markV_guardsHeld (c : Ctx) (n : Nat) (b : Bool) : (c.markV n b).guardsHeld = c.guardsHeld := rfl
@[simp] theorem Ctx.markV_past (c : Ctx) (n : Nat) (b : Bool) : (c.markV n b).past = c.past := rfl
@[simp] theorem Ctx.markV_stamp (c : Ctx) (n : Nat) (b : Bool) : (c.markV n b).stamp = c.stamp := rfl
@[simp] theorem Ctx.markV_waited (c : Ctx) (n : Nat) (b : Bool) : (c.markV n b).waited = c.waited := rfl
@[simp] theorem Ctx.markV_slots (c : Ctx) (n : Nat) (b : Bool) : (c.markV n b).slots = c.slots := rfl
@[simp] theorem Ctx.markV_firing (c : Ctx) (n : Nat) (b : Bool) : (c.markV n b).firing = c.firing := rfl
@[simp] theorem Ctx.markV_frames (c : Ctx) (n : Nat) (b : Bool) : (c.markV n b).frames = c.frames := rfl
@[simp] theorem Ctx.markV_replay (c : Ctx) (n : Nat) (b : Bool) : (c.markV n b).replay = c.replay := rfl
@[simp] theorem Ctx.markV_pending (c : Ctx) (n : Nat) (b : Bool) : (c.markV n b).pending = c.pending := rfl
@[simp] theorem Ctx.markV_ckpt (c : Ctx) (n : Nat) (b : Bool) : (c.markV n b).ckpt = c.ckpt := rfl
@[simp] theorem Ctx.markV_stoppedAt (c : Ctx) (n : Nat) (b : Bool) : (c.markV n b).stoppedAt = c.stoppedAt := rfl
@[simp] theorem Ctx.markV_leases (c : Ctx) (n : Nat) (b : Bool) : (c.markV n b).leases = c.leases := rfl
@[simp] theorem Ctx.markV_mxsave (c : Ctx) (n : Nat) (b : Bool) : (c.markV n b).mxsave = c.mxsave := rfl
@[simp] theorem Ctx.markV_copy (c : Ctx) (n : Nat) (b : Bool) : (c.markV n b).copy = c.copy := rfl
@[simp] theorem Ctx.markV_aborted (c : Ctx) (n : Nat) (b : Bool) : (c.markV n b).aborted = c.aborted := rfl

@[simp] theorem Ctx.warns_priv (c : Ctx) (w : Word) : (c.warns w).priv = c.priv := rfl
@[simp] theorem Ctx.warns_asid (c : Ctx) (w : Word) : (c.warns w).asid = c.asid := rfl
@[simp] theorem Ctx.warns_part (c : Ctx) (w : Word) : (c.warns w).part = c.part := rfl
@[simp] theorem Ctx.warns_parked (c : Ctx) (w : Word) : (c.warns w).parked = c.parked := rfl
@[simp] theorem Ctx.warns_graph (c : Ctx) (w : Word) : (c.warns w).graph = c.graph := rfl
@[simp] theorem Ctx.warns_actor (c : Ctx) (w : Word) : (c.warns w).actor = c.actor := rfl
@[simp] theorem Ctx.warns_entry (c : Ctx) (w : Word) : (c.warns w).entry = c.entry := rfl
@[simp] theorem Ctx.warns_born (c : Ctx) (w : Word) : (c.warns w).born = c.born := rfl
@[simp] theorem Ctx.warns_g (c : Ctx) (w : Word) : (c.warns w).g = c.g := rfl
@[simp] theorem Ctx.warns_gEmpty (c : Ctx) (w : Word) : (c.warns w).gEmpty = c.gEmpty := rfl
@[simp] theorem Ctx.warns_v (c : Ctx) (w : Word) : (c.warns w).v = c.v := rfl
@[simp] theorem Ctx.warns_vEmpty (c : Ctx) (w : Word) : (c.warns w).vEmpty = c.vEmpty := rfl
@[simp] theorem Ctx.warns_gBad (c : Ctx) (w : Word) : (c.warns w).gBad = c.gBad := rfl
@[simp] theorem Ctx.warns_vBad (c : Ctx) (w : Word) : (c.warns w).vBad = c.vBad := rfl
@[simp] theorem Ctx.warns_k (c : Ctx) (w : Word) : (c.warns w).k = c.k := rfl
@[simp] theorem Ctx.warns_flags (c : Ctx) (w : Word) : (c.warns w).flags = c.flags := rfl
@[simp] theorem Ctx.warns_flagsHeld (c : Ctx) (w : Word) : (c.warns w).flagsHeld = c.flagsHeld := rfl
@[simp] theorem Ctx.warns_q (c : Ctx) (w : Word) : (c.warns w).q = c.q := rfl
@[simp] theorem Ctx.warns_resv (c : Ctx) (w : Word) : (c.warns w).resv = c.resv := rfl
@[simp] theorem Ctx.warns_e (c : Ctx) (w : Word) : (c.warns w).e = c.e := rfl
@[simp] theorem Ctx.warns_fpflags (c : Ctx) (w : Word) : (c.warns w).fpflags = c.fpflags := rfl
@[simp] theorem Ctx.warns_trapcause (c : Ctx) (w : Word) : (c.warns w).trapcause = c.trapcause := rfl
@[simp] theorem Ctx.warns_trapinfo (c : Ctx) (w : Word) : (c.warns w).trapinfo = c.trapinfo := rfl
@[simp] theorem Ctx.warns_trapvec (c : Ctx) (w : Word) : (c.warns w).trapvec = c.trapvec := rfl
@[simp] theorem Ctx.warns_guardtab (c : Ctx) (w : Word) : (c.warns w).guardtab = c.guardtab := rfl
@[simp] theorem Ctx.warns_modtab (c : Ctx) (w : Word) : (c.warns w).modtab = c.modtab := rfl
@[simp] theorem Ctx.warns_pmsel (c : Ctx) (w : Word) : (c.warns w).pmsel = c.pmsel := rfl
@[simp] theorem Ctx.warns_pmcnt (c : Ctx) (w : Word) : (c.warns w).pmcnt = c.pmcnt := rfl
@[simp] theorem Ctx.warns_idled (c : Ctx) (w : Word) : (c.warns w).idled = c.idled := rfl
@[simp] theorem Ctx.warns_guards (c : Ctx) (w : Word) : (c.warns w).guards = c.guards := rfl
@[simp] theorem Ctx.warns_guardsHeld (c : Ctx) (w : Word) : (c.warns w).guardsHeld = c.guardsHeld := rfl
@[simp] theorem Ctx.warns_past (c : Ctx) (w : Word) : (c.warns w).past = c.past := rfl
@[simp] theorem Ctx.warns_stamp (c : Ctx) (w : Word) : (c.warns w).stamp = c.stamp := rfl
@[simp] theorem Ctx.warns_waited (c : Ctx) (w : Word) : (c.warns w).waited = c.waited := rfl
@[simp] theorem Ctx.warns_slots (c : Ctx) (w : Word) : (c.warns w).slots = c.slots := rfl
@[simp] theorem Ctx.warns_firing (c : Ctx) (w : Word) : (c.warns w).firing = c.firing := rfl
@[simp] theorem Ctx.warns_frames (c : Ctx) (w : Word) : (c.warns w).frames = c.frames := rfl
@[simp] theorem Ctx.warns_replay (c : Ctx) (w : Word) : (c.warns w).replay = c.replay := rfl
@[simp] theorem Ctx.warns_pending (c : Ctx) (w : Word) : (c.warns w).pending = c.pending := rfl
@[simp] theorem Ctx.warns_ckpt (c : Ctx) (w : Word) : (c.warns w).ckpt = c.ckpt := rfl
@[simp] theorem Ctx.warns_stoppedAt (c : Ctx) (w : Word) : (c.warns w).stoppedAt = c.stoppedAt := rfl
@[simp] theorem Ctx.warns_leases (c : Ctx) (w : Word) : (c.warns w).leases = c.leases := rfl
@[simp] theorem Ctx.warns_mxsave (c : Ctx) (w : Word) : (c.warns w).mxsave = c.mxsave := rfl
@[simp] theorem Ctx.warns_copy (c : Ctx) (w : Word) : (c.warns w).copy = c.copy := rfl
@[simp] theorem Ctx.warns_aborted (c : Ctx) (w : Word) : (c.warns w).aborted = c.aborted := rfl

@[simp] theorem Ctx.flagsFp_priv (c : Ctx) (w : Word) : (c.flagsFp w).priv = c.priv := rfl
@[simp] theorem Ctx.flagsFp_asid (c : Ctx) (w : Word) : (c.flagsFp w).asid = c.asid := rfl
@[simp] theorem Ctx.flagsFp_part (c : Ctx) (w : Word) : (c.flagsFp w).part = c.part := rfl
@[simp] theorem Ctx.flagsFp_parked (c : Ctx) (w : Word) : (c.flagsFp w).parked = c.parked := rfl
@[simp] theorem Ctx.flagsFp_graph (c : Ctx) (w : Word) : (c.flagsFp w).graph = c.graph := rfl
@[simp] theorem Ctx.flagsFp_actor (c : Ctx) (w : Word) : (c.flagsFp w).actor = c.actor := rfl
@[simp] theorem Ctx.flagsFp_entry (c : Ctx) (w : Word) : (c.flagsFp w).entry = c.entry := rfl
@[simp] theorem Ctx.flagsFp_born (c : Ctx) (w : Word) : (c.flagsFp w).born = c.born := rfl
@[simp] theorem Ctx.flagsFp_g (c : Ctx) (w : Word) : (c.flagsFp w).g = c.g := rfl
@[simp] theorem Ctx.flagsFp_gEmpty (c : Ctx) (w : Word) : (c.flagsFp w).gEmpty = c.gEmpty := rfl
@[simp] theorem Ctx.flagsFp_v (c : Ctx) (w : Word) : (c.flagsFp w).v = c.v := rfl
@[simp] theorem Ctx.flagsFp_vEmpty (c : Ctx) (w : Word) : (c.flagsFp w).vEmpty = c.vEmpty := rfl
@[simp] theorem Ctx.flagsFp_gBad (c : Ctx) (w : Word) : (c.flagsFp w).gBad = c.gBad := rfl
@[simp] theorem Ctx.flagsFp_vBad (c : Ctx) (w : Word) : (c.flagsFp w).vBad = c.vBad := rfl
@[simp] theorem Ctx.flagsFp_k (c : Ctx) (w : Word) : (c.flagsFp w).k = c.k := rfl
@[simp] theorem Ctx.flagsFp_flags (c : Ctx) (w : Word) : (c.flagsFp w).flags = c.flags := rfl
@[simp] theorem Ctx.flagsFp_flagsHeld (c : Ctx) (w : Word) : (c.flagsFp w).flagsHeld = c.flagsHeld := rfl
@[simp] theorem Ctx.flagsFp_q (c : Ctx) (w : Word) : (c.flagsFp w).q = c.q := rfl
@[simp] theorem Ctx.flagsFp_resv (c : Ctx) (w : Word) : (c.flagsFp w).resv = c.resv := rfl
@[simp] theorem Ctx.flagsFp_e (c : Ctx) (w : Word) : (c.flagsFp w).e = c.e := rfl
@[simp] theorem Ctx.flagsFp_warn (c : Ctx) (w : Word) : (c.flagsFp w).warn = c.warn := rfl
@[simp] theorem Ctx.flagsFp_trapcause (c : Ctx) (w : Word) : (c.flagsFp w).trapcause = c.trapcause := rfl
@[simp] theorem Ctx.flagsFp_trapinfo (c : Ctx) (w : Word) : (c.flagsFp w).trapinfo = c.trapinfo := rfl
@[simp] theorem Ctx.flagsFp_trapvec (c : Ctx) (w : Word) : (c.flagsFp w).trapvec = c.trapvec := rfl
@[simp] theorem Ctx.flagsFp_guardtab (c : Ctx) (w : Word) : (c.flagsFp w).guardtab = c.guardtab := rfl
@[simp] theorem Ctx.flagsFp_modtab (c : Ctx) (w : Word) : (c.flagsFp w).modtab = c.modtab := rfl
@[simp] theorem Ctx.flagsFp_pmsel (c : Ctx) (w : Word) : (c.flagsFp w).pmsel = c.pmsel := rfl
@[simp] theorem Ctx.flagsFp_pmcnt (c : Ctx) (w : Word) : (c.flagsFp w).pmcnt = c.pmcnt := rfl
@[simp] theorem Ctx.flagsFp_idled (c : Ctx) (w : Word) : (c.flagsFp w).idled = c.idled := rfl
@[simp] theorem Ctx.flagsFp_guards (c : Ctx) (w : Word) : (c.flagsFp w).guards = c.guards := rfl
@[simp] theorem Ctx.flagsFp_guardsHeld (c : Ctx) (w : Word) : (c.flagsFp w).guardsHeld = c.guardsHeld := rfl
@[simp] theorem Ctx.flagsFp_past (c : Ctx) (w : Word) : (c.flagsFp w).past = c.past := rfl
@[simp] theorem Ctx.flagsFp_stamp (c : Ctx) (w : Word) : (c.flagsFp w).stamp = c.stamp := rfl
@[simp] theorem Ctx.flagsFp_waited (c : Ctx) (w : Word) : (c.flagsFp w).waited = c.waited := rfl
@[simp] theorem Ctx.flagsFp_slots (c : Ctx) (w : Word) : (c.flagsFp w).slots = c.slots := rfl
@[simp] theorem Ctx.flagsFp_firing (c : Ctx) (w : Word) : (c.flagsFp w).firing = c.firing := rfl
@[simp] theorem Ctx.flagsFp_frames (c : Ctx) (w : Word) : (c.flagsFp w).frames = c.frames := rfl
@[simp] theorem Ctx.flagsFp_replay (c : Ctx) (w : Word) : (c.flagsFp w).replay = c.replay := rfl
@[simp] theorem Ctx.flagsFp_pending (c : Ctx) (w : Word) : (c.flagsFp w).pending = c.pending := rfl
@[simp] theorem Ctx.flagsFp_ckpt (c : Ctx) (w : Word) : (c.flagsFp w).ckpt = c.ckpt := rfl
@[simp] theorem Ctx.flagsFp_stoppedAt (c : Ctx) (w : Word) : (c.flagsFp w).stoppedAt = c.stoppedAt := rfl
@[simp] theorem Ctx.flagsFp_leases (c : Ctx) (w : Word) : (c.flagsFp w).leases = c.leases := rfl
@[simp] theorem Ctx.flagsFp_mxsave (c : Ctx) (w : Word) : (c.flagsFp w).mxsave = c.mxsave := rfl
@[simp] theorem Ctx.flagsFp_copy (c : Ctx) (w : Word) : (c.flagsFp w).copy = c.copy := rfl
@[simp] theorem Ctx.flagsFp_aborted (c : Ctx) (w : Word) : (c.flagsFp w).aborted = c.aborted := rfl

@[simp] theorem Ctx.goOn_priv (c : Ctx) (p : Firing → Word) : (c.goOn p).priv = c.priv := rfl
@[simp] theorem Ctx.goOn_asid (c : Ctx) (p : Firing → Word) : (c.goOn p).asid = c.asid := rfl
@[simp] theorem Ctx.goOn_part (c : Ctx) (p : Firing → Word) : (c.goOn p).part = c.part := rfl
@[simp] theorem Ctx.goOn_parked (c : Ctx) (p : Firing → Word) : (c.goOn p).parked = c.parked := rfl
@[simp] theorem Ctx.goOn_graph (c : Ctx) (p : Firing → Word) : (c.goOn p).graph = c.graph := rfl
@[simp] theorem Ctx.goOn_actor (c : Ctx) (p : Firing → Word) : (c.goOn p).actor = c.actor := rfl
@[simp] theorem Ctx.goOn_entry (c : Ctx) (p : Firing → Word) : (c.goOn p).entry = c.entry := rfl
@[simp] theorem Ctx.goOn_born (c : Ctx) (p : Firing → Word) : (c.goOn p).born = c.born := rfl
@[simp] theorem Ctx.goOn_g (c : Ctx) (p : Firing → Word) : (c.goOn p).g = c.g := rfl
@[simp] theorem Ctx.goOn_gEmpty (c : Ctx) (p : Firing → Word) : (c.goOn p).gEmpty = c.gEmpty := rfl
@[simp] theorem Ctx.goOn_v (c : Ctx) (p : Firing → Word) : (c.goOn p).v = c.v := rfl
@[simp] theorem Ctx.goOn_vEmpty (c : Ctx) (p : Firing → Word) : (c.goOn p).vEmpty = c.vEmpty := rfl
@[simp] theorem Ctx.goOn_gBad (c : Ctx) (p : Firing → Word) : (c.goOn p).gBad = c.gBad := rfl
@[simp] theorem Ctx.goOn_vBad (c : Ctx) (p : Firing → Word) : (c.goOn p).vBad = c.vBad := rfl
@[simp] theorem Ctx.goOn_k (c : Ctx) (p : Firing → Word) : (c.goOn p).k = c.k := rfl
@[simp] theorem Ctx.goOn_flags (c : Ctx) (p : Firing → Word) : (c.goOn p).flags = c.flags := rfl
@[simp] theorem Ctx.goOn_flagsHeld (c : Ctx) (p : Firing → Word) : (c.goOn p).flagsHeld = c.flagsHeld := rfl
@[simp] theorem Ctx.goOn_q (c : Ctx) (p : Firing → Word) : (c.goOn p).q = c.q := rfl
@[simp] theorem Ctx.goOn_resv (c : Ctx) (p : Firing → Word) : (c.goOn p).resv = c.resv := rfl
@[simp] theorem Ctx.goOn_e (c : Ctx) (p : Firing → Word) : (c.goOn p).e = c.e := rfl
@[simp] theorem Ctx.goOn_fpflags (c : Ctx) (p : Firing → Word) : (c.goOn p).fpflags = c.fpflags := rfl
@[simp] theorem Ctx.goOn_warn (c : Ctx) (p : Firing → Word) : (c.goOn p).warn = c.warn := rfl
@[simp] theorem Ctx.goOn_trapcause (c : Ctx) (p : Firing → Word) : (c.goOn p).trapcause = c.trapcause := rfl
@[simp] theorem Ctx.goOn_trapinfo (c : Ctx) (p : Firing → Word) : (c.goOn p).trapinfo = c.trapinfo := rfl
@[simp] theorem Ctx.goOn_trapvec (c : Ctx) (p : Firing → Word) : (c.goOn p).trapvec = c.trapvec := rfl
@[simp] theorem Ctx.goOn_guardtab (c : Ctx) (p : Firing → Word) : (c.goOn p).guardtab = c.guardtab := rfl
@[simp] theorem Ctx.goOn_modtab (c : Ctx) (p : Firing → Word) : (c.goOn p).modtab = c.modtab := rfl
@[simp] theorem Ctx.goOn_pmsel (c : Ctx) (p : Firing → Word) : (c.goOn p).pmsel = c.pmsel := rfl
@[simp] theorem Ctx.goOn_pmcnt (c : Ctx) (p : Firing → Word) : (c.goOn p).pmcnt = c.pmcnt := rfl
@[simp] theorem Ctx.goOn_idled (c : Ctx) (p : Firing → Word) : (c.goOn p).idled = c.idled := rfl
@[simp] theorem Ctx.goOn_guards (c : Ctx) (p : Firing → Word) : (c.goOn p).guards = c.guards := rfl
@[simp] theorem Ctx.goOn_guardsHeld (c : Ctx) (p : Firing → Word) : (c.goOn p).guardsHeld = c.guardsHeld := rfl
@[simp] theorem Ctx.goOn_past (c : Ctx) (p : Firing → Word) : (c.goOn p).past = c.past := rfl
@[simp] theorem Ctx.goOn_stamp (c : Ctx) (p : Firing → Word) : (c.goOn p).stamp = c.stamp := rfl
@[simp] theorem Ctx.goOn_waited (c : Ctx) (p : Firing → Word) : (c.goOn p).waited = c.waited := rfl
@[simp] theorem Ctx.goOn_slots (c : Ctx) (p : Firing → Word) : (c.goOn p).slots = c.slots := rfl
@[simp] theorem Ctx.goOn_frames (c : Ctx) (p : Firing → Word) : (c.goOn p).frames = c.frames := rfl
@[simp] theorem Ctx.goOn_replay (c : Ctx) (p : Firing → Word) : (c.goOn p).replay = c.replay := rfl
@[simp] theorem Ctx.goOn_pending (c : Ctx) (p : Firing → Word) : (c.goOn p).pending = c.pending := rfl
@[simp] theorem Ctx.goOn_ckpt (c : Ctx) (p : Firing → Word) : (c.goOn p).ckpt = c.ckpt := rfl
@[simp] theorem Ctx.goOn_stoppedAt (c : Ctx) (p : Firing → Word) : (c.goOn p).stoppedAt = c.stoppedAt := rfl
@[simp] theorem Ctx.goOn_leases (c : Ctx) (p : Firing → Word) : (c.goOn p).leases = c.leases := rfl
@[simp] theorem Ctx.goOn_mxsave (c : Ctx) (p : Firing → Word) : (c.goOn p).mxsave = c.mxsave := rfl
@[simp] theorem Ctx.goOn_copy (c : Ctx) (p : Firing → Word) : (c.goOn p).copy = c.copy := rfl
@[simp] theorem Ctx.goOn_aborted (c : Ctx) (p : Firing → Word) : (c.goOn p).aborted = c.aborted := rfl

/-! ## Reading back -/

@[simp] theorem State.ctx?_setCtx (s : State) (k : Nat) (x : Ctx) : (s.setCtx k x).ctx? k = some x := by
  simp [State.ctx?, State.setCtx]

theorem State.ctx?_setCtx_ne (s : State) {j k : Nat} (x : Ctx) (h : j ≠ k) : (s.setCtx k x).ctx? j = s.ctx? j := by
  simp [State.ctx?, State.setCtx, Map.find?_insert_ne _ _ h]

@[simp] theorem State.setCtx_setCtx (s : State) (k : Nat) (x y : Ctx) : (s.setCtx k x).setCtx k y = s.setCtx k y := by
  simp [State.setCtx]

@[simp] theorem State.ctx?_issues (s : State) (e : Option ReplayEntry) (k : Nat) : (s.issues e).ctx? k = s.ctx? k := rfl
@[simp] theorem State.issuing_issues (s : State) (e : Option ReplayEntry) : (s.issues e).issuing = e := rfl
@[simp] theorem State.issues_issues (s : State) (e e' : Option ReplayEntry) : (s.issues e).issues e' = s.issues e' := rfl
@[simp] theorem State.issues_setCtx (s : State) (e : Option ReplayEntry) (k : Nat) (x : Ctx) : (s.setCtx k x).issues e = (s.issues e).setCtx k x := rfl

@[simp] theorem State.modCtx_setCtx (s : State) (k : Nat) (x : Ctx) (f : Ctx → Ctx) : (s.setCtx k x).modCtx k f = s.setCtx k (f x) := by
  simp [State.modCtx]

theorem State.modCtx_eq (s : State) (k : Nat) (f : Ctx → Ctx) (c : Ctx) (h : s.ctx? k = some c) : s.modCtx k f = s.setCtx k (f c) := by
  simp [State.modCtx, h]

@[simp] theorem Ctx.warns_zero (c : Ctx) : c.warns 0 = c := by simp [Ctx.warns]
@[simp] theorem Ctx.flagsFp_zero (c : Ctx) : c.flagsFp 0 = c := by simp [Ctx.flagsFp]
@[simp] theorem wd_b2n (b : Bool) : wd (b2n b) = if b then 1 else 0 := by cases b <;> rfl

theorem setBit_get {w : Nat} (x : BitVec w) (n : Nat) (b : Bool) (h : n < w) : (setBit x n b).getLsbD n = b := by
  cases b <;> simp [setBit, h]

theorem setBit_get_ne {w : Nat} (x : BitVec w) {m n : Nat} (b : Bool) (h : m ≠ n) : (setBit x n b).getLsbD m = x.getLsbD m := by
  cases b with
  | false =>
    simp [setBit, BitVec.getLsbD_twoPow, Ne.symm h]
    intro hx
    exact BitVec.lt_of_getLsbD hx
  | true => simp [setBit, BitVec.getLsbD_twoPow, Ne.symm h]

/-- A written g register is full. -/
theorem Ctx.emptyG_wg (c : Ctx) (n : Nat) (x : Word) (h : n < 64) : (c.wg n x).emptyG n = false := setBit_get _ n false h

/-- The other g registers keep their value and their full/empty bit. -/
theorem Ctx.rg_wg_ne (c : Ctx) {m n : Nat} (x : Word) (h : m ≠ n) : (c.wg n x).rg m = c.rg m := Map.get_set_ne _ _ x h
theorem Ctx.emptyG_wg_ne (c : Ctx) {m n : Nat} (x : Word) (h : m ≠ n) : (c.wg n x).emptyG m = c.emptyG m := setBit_get_ne _ false h

/-- The other v registers keep their value. -/
theorem Ctx.rv_wv_ne (c : Ctx) {m n : Nat} (x : VWord) (h : m ≠ n) : (c.wv n x).rv m = c.rv m := Map.get_set_ne _ _ x h

/-- k0 is hard-wired: it reads as all ones, and a write of it has no effect (R33). -/
theorem Ctx.rk_zero (c : Ctx) : c.rk 0 = BitVec.allOnes 32 := rfl
theorem Ctx.wk_zero (c : Ctx) (x : Mask) : c.wk 0 x = c := rfl

end Sys2Proof.Machine
end

