-- ==== Sys2Proof/Laws/Issue.lean ====
section
/-! SUPPORT. What issuing an instruction can do, said once: it completes with its body, waits, or traps; and how the bodies' steps evaluate. -/

namespace Sys2Proof.Machine

/-! ## Steps of a body -/

@[simp] theorem M.ok_bind {α β : Type} (x : α) (f : α → Except Exn β) : (Except.ok x >>= f) = f x := rfl
@[simp] theorem M.error_bind {α β : Type} (e : Exn) (f : α → Except Exn β) : ((Except.error e : Except Exn α) >>= f) = .error e := rfl
@[simp] theorem M.pure_eq {α : Type} (x : α) : (pure x : Except Exn α) = .ok x := rfl

@[simp] theorem M.throw_eq {α : Type} (e : Exn) : (throw e : Except Exn α) = .error e := rfl

@[simp] theorem M.run_pure {α : Type} (x : α) (s : State) : (pure x : M α).run s = .ok (x, s) := rfl

theorem M.run_bind {α β : Type} (m : M α) (k : α → M β) (s : State) :
    (m >>= k).run s = (match m.run s with | .ok r => (k r.1).run r.2 | .error e => .error e) := by
  show Except.bind (m.run s) (fun r => (k r.1).run r.2) = _
  cases m.run s <;> rfl

/-- A step that succeeds is followed by the rest. -/
theorem M.run_bind_ok {α β : Type} {m : M α} {k : α → M β} {s s' : State} {x : α} (h : m.run s = .ok (x, s')) :
    (m >>= k).run s = (k x).run s' := by rw [M.run_bind, h]

/-- A step that ends the instruction ends the body. -/
theorem M.run_bind_error {α β : Type} {m : M α} {k : α → M β} {s : State} {e : Exn} (h : m.run s = .error e) :
    (m >>= k).run s = .error e := by rw [M.run_bind, h]

@[simp] theorem M.run_get (s : State) : (get : M State).run s = .ok (s, s) := rfl
@[simp] theorem M.run_set (t s : State) : (set t : M PUnit).run s = .ok (⟨⟩, t) := rfl
@[simp] theorem M.run_modify (f : State → State) (s : State) : (modify f : M PUnit).run s = .ok (⟨⟩, f s) := rfl
@[simp] theorem M.run_throw {α : Type} (e : Exn) (s : State) : (throw e : M α).run s = .error e := rfl
@[simp] theorem run_raise {α : Type} (c : BitVec 8) (x : Word) (s : State) : (raise c x : M α).run s = .error (.trap { cause := c, info := x }) := rfl
@[simp] theorem run_raiseFree {α : Type} (c : BitVec 8) (s : State) : (raiseFree c : M α).run s = .error (.trap { cause := c, free := true }) := rfl
@[simp] theorem run_stall {α : Type} (w : Stall) (s : State) : (stall w : M α).run s = .error (.wait w) := rfl

/-! Without hypotheses: `simp` evaluates a body with these, `M.run_bind` and what is known of `cur`, `ctx?` and `issuing`. -/

@[simp] theorem run_curKey_eq (s : State) : curKey.run s = (match s.cur with | some k => .ok (k, s) | none => .error (.stop .noFiring)) := by
  unfold curKey; rw [M.run_bind_ok (M.run_get s)]; cases s.cur <;> rfl

@[simp] theorem run_curCtx_eq (s : State) :
    curCtx.run s = (match s.cur.bind s.ctx? with | some c => .ok (c, s) | none => .error (.stop .noFiring)) := by
  unfold curCtx; rw [M.run_bind, run_curKey_eq]
  cases s.cur with
  | none => rfl
  | some k =>
    show (get >>= fun t => match t.ctx? k with | some x => pure x | none => throw (.stop .noFiring) : M Ctx).run s = _
    rw [M.run_bind_ok (M.run_get s)]
    cases h : s.ctx? k <;> simp [h]

@[simp] theorem run_curFiring_eq (s : State) :
    curFiring.run s = (match (s.cur.bind s.ctx?).bind (·.firing) with | some f => .ok (f, s) | none => .error (.stop .noFiring)) := by
  unfold curFiring; rw [M.run_bind, run_curCtx_eq]
  cases h : s.cur.bind s.ctx? with
  | none => rfl
  | some c => cases hf : c.firing <;> simp [hf]

@[simp] theorem run_modCur_eq (f : Ctx → Ctx) (s : State) :
    (modCur f).run s = (match s.cur with | some k => .ok ((), s.modCtx k f) | none => .error (.stop .noFiring)) := by
  unfold modCur; rw [M.run_bind, run_curKey_eq]; cases s.cur <;> rfl

@[simp] theorem run_issuing_eq (s : State) :
    issuing.run s = (match s.issuing with | some e => .ok (e, s) | none => .error (.stop .noFiring)) := by
  unfold issuing; rw [M.run_bind_ok (M.run_get s)]; cases s.issuing <;> rfl

@[simp] theorem run_opG_eq (sl : Slot) (s : State) :
    (opG sl).run s = (match s.issuing with | some e => .ok ((e.op sl).extractLsb' 0 64, s) | none => .error (.stop .noFiring)) := by
  unfold opG; rw [M.run_bind, run_issuing_eq]; cases s.issuing <;> rfl

@[simp] theorem run_opV_eq (sl : Slot) (s : State) :
    (opV sl).run s = (match s.issuing with | some e => .ok (e.op sl, s) | none => .error (.stop .noFiring)) := by
  unfold opV; rw [M.run_bind, run_issuing_eq]; cases s.issuing <;> rfl

@[simp] theorem run_opMask_eq (s : State) :
    opMask.run s = (match s.issuing with | some e => .ok (e.mask, s) | none => .error (.stop .noFiring)) := by
  unfold opMask; rw [M.run_bind, run_issuing_eq]; cases s.issuing <;> rfl

@[simp] theorem run_curPc_eq (s : State) :
    curPc.run s = (match s.issuing with | some e => .ok (e.pc, s) | none => .error (.stop .noFiring)) := by
  unfold curPc; rw [M.run_bind, run_issuing_eq]; cases s.issuing <;> rfl

@[simp] theorem run_writeG_eq (n : Nat) (x : Word) (s : State) :
    (writeG n x).run s = (match s.cur with | some k => .ok ((), s.modCtx k fun c => c.wg n x) | none => .error (.stop .noFiring)) := run_modCur_eq _ s
@[simp] theorem run_writeV_eq (n : Nat) (x : VWord) (s : State) :
    (writeV n x).run s = (match s.cur with | some k => .ok ((), s.modCtx k fun c => c.wv n x) | none => .error (.stop .noFiring)) := run_modCur_eq _ s
@[simp] theorem run_warn_eq (w : Word) (s : State) :
    (warn w).run s = (match s.cur with | some k => .ok ((), s.modCtx k fun c => c.warns w) | none => .error (.stop .noFiring)) := run_modCur_eq _ s
@[simp] theorem run_raiseFp_eq (w : Word) (s : State) :
    (raiseFp w).run s = (match s.cur with | some k => .ok ((), s.modCtx k fun c => c.flagsFp w) | none => .error (.stop .noFiring)) := run_modCur_eq _ s

theorem run_curKey {s : State} {key : Nat} (h : s.cur = some key) : curKey.run s = .ok (key, s) := by
  simp [curKey, h]

theorem run_curCtx {s : State} {key : Nat} {c : Ctx} (h : s.cur = some key) (hc : s.ctx? key = some c) : curCtx.run s = .ok (c, s) := by
  simp [curCtx, run_curKey h, hc]

theorem run_curFiring {s : State} {key : Nat} {c : Ctx} {f : Firing} (h : s.cur = some key) (hc : s.ctx? key = some c) (hf : c.firing = some f) :
    curFiring.run s = .ok (f, s) := by
  simp [curFiring, run_curCtx h hc, hf]

theorem run_modCur {s : State} {key : Nat} {c : Ctx} (f : Ctx → Ctx) (h : s.cur = some key) (hc : s.ctx? key = some c) :
    (modCur f).run s = .ok ((), s.setCtx key (f c)) := by
  simp [modCur, run_curKey h, State.modCtx_eq s key f c hc]

theorem run_issuing {s : State} {e : ReplayEntry} (h : s.issuing = some e) : issuing.run s = .ok (e, s) := by
  simp [issuing, h]

theorem run_opG {s : State} {e : ReplayEntry} (h : s.issuing = some e) (sl : Slot) : (opG sl).run s = .ok ((e.op sl).extractLsb' 0 64, s) := by
  simp [opG, run_issuing h]

theorem run_opV {s : State} {e : ReplayEntry} (h : s.issuing = some e) (sl : Slot) : (opV sl).run s = .ok (e.op sl, s) := by
  simp [opV, run_issuing h]

theorem run_opMask {s : State} {e : ReplayEntry} (h : s.issuing = some e) : opMask.run s = .ok (e.mask, s) := by
  simp [opMask, run_issuing h]

theorem run_curPc {s : State} {e : ReplayEntry} (h : s.issuing = some e) : curPc.run s = .ok (e.pc, s) := by
  simp [curPc, run_issuing h]

theorem run_writeG {s : State} {key : Nat} {c : Ctx} (n : Nat) (x : Word) (h : s.cur = some key) (hc : s.ctx? key = some c) :
    (writeG n x).run s = .ok ((), s.setCtx key (c.wg n x)) := run_modCur _ h hc

theorem run_writeV {s : State} {key : Nat} {c : Ctx} (n : Nat) (x : VWord) (h : s.cur = some key) (hc : s.ctx? key = some c) :
    (writeV n x).run s = .ok ((), s.setCtx key (c.wv n x)) := run_modCur _ h hc

theorem run_warn {s : State} {key : Nat} {c : Ctx} (w : Word) (h : s.cur = some key) (hc : s.ctx? key = some c) :
    (warn w).run s = .ok ((), s.setCtx key (c.warns w)) := run_modCur _ h hc

theorem run_raiseFp {s : State} {key : Nat} {c : Ctx} (w : Word) (h : s.cur = some key) (hc : s.ctx? key = some c) :
    (raiseFp w).run s = .ok ((), s.setCtx key (c.flagsFp w)) := run_modCur _ h hc

theorem run_putInt {s : State} {key : Nat} {c : Ctx} (ty sm d : Nat) (n : Int) (h : s.cur = some key) (hc : s.ctx? key = some c) :
    (putInt ty sm d n).run s = .ok ((), s.setCtx key ((c.wg d (intValue ty sm n)).warns (intWarns ty sm n))) := by
  unfold putInt
  rw [M.run_bind_ok (run_writeG _ _ h hc), run_warn _ (by simpa using h) (State.ctx?_setCtx _ _ _), State.setCtx_setCtx]

theorem Issuing.issues {s : State} {key : Nat} {c : Ctx} {f : Firing} (h : Issuing s key c f) (e : Option ReplayEntry) :
    Issuing (s.issues e) key c f := ⟨h.cur, h.ctx, h.firing, h.first⟩

/-! ## Captured operands -/

@[simp] theorem capture_pc (c : Ctx) (e : ReplayEntry) (l : List Src) : (capture c e l).pc = e.pc := by
  induction l generalizing e with
  | nil => rfl
  | cons r rest ih => rw [capture, ih]; cases h : r.slot <;> simp [ReplayEntry.setOp]

@[simp] theorem capture_mask (c : Ctx) (e : ReplayEntry) (l : List Src) : (capture c e l).mask = e.mask := by
  induction l generalizing e with
  | nil => rfl
  | cons r rest ih => rw [capture, ih]; cases h : r.slot <;> simp [ReplayEntry.setOp]

@[simp] theorem captured_pc (i : Instr) (l : List Src) (kg : Nat) (c : Ctx) (f : Firing) : (captured i l kg c f).pc = f.pc := by simp [captured]
@[simp] theorem captured_mask (i : Instr) (l : List Src) (kg : Nat) (c : Ctx) (f : Firing) : (captured i l kg c f).mask = c.rk kg := by simp [captured]

/-- A source whose slot no later source takes reads as its register. -/
theorem capture_op (c : Ctx) (e : ReplayEntry) (r : Src) (l : List Src) (h : ∀ x ∈ l, x.slot ≠ r.slot) :
    (capture c e (r :: l)).op r.slot = c.readSrc r := by
  have keep : ∀ (l : List Src) (e : ReplayEntry) (sl : Slot), (∀ x ∈ l, x.slot ≠ sl) → (capture c e l).op sl = e.op sl := by
    intro l
    induction l with
    | nil => intro _ _ _; rfl
    | cons y rest ih =>
      intro e sl hl
      rw [capture, ih _ sl fun x hx => hl x (List.mem_cons_of_mem _ hx)]
      have := hl y List.mem_cons_self
      cases hy : y.slot <;> cases sl <;> simp_all [ReplayEntry.setOp, ReplayEntry.op]
  rw [capture, keep l _ r.slot h]
  cases hr : r.slot <;> simp [ReplayEntry.setOp, ReplayEntry.op]

/-- A g value and a mask value come back from their captured form. -/
@[simp] theorem captured_word (x : Word) : (x.setWidth 1024 : VWord).extractLsb' 0 64 = x := by
  ext i hi; simp [hi]; omega
@[simp] theorem captured_kmask (x : Mask) : (x.setWidth 1024 : VWord).extractLsb' 0 32 = x := by
  ext i hi; simp [hi]; omega

/-! ## Issue -/

/-- A list none of whose sources is empty has no trapping one. -/
theorem topTrapping_none (c : Ctx) (l : List Src) (h : ∀ r ∈ l, c.isEmptySrc r = false) : topTrapping c l = none := by
  induction l with
  | nil => rfl
  | cons r rest ih => simp [topTrapping, ih fun x hx => h x (List.mem_cons_of_mem _ hx), h r List.mem_cons_self]

/-- What the issue adds to a body that has answered: where the firing goes on, and the counts. -/
def closing (i : Instr) (key graph : Nat) (n : Next) (s : State) : State := ((s.issues none).leave i key false n).issuedOne key graph

/-- Operands that are ready are captured. -/
theorem readSources_ready {i : Instr} {a : Ask} {s : State} {key : Nat} {c : Ctx} (f : Firing) (ho : Operands s key c a.srcs a.dsts) :
    readSources i a key c f s = .ok (captured i a.srcs a.kg c f) := by
  have hbad : badSource c a.srcs = none := by
    simp only [badSource, List.find?_eq_none]; intro r hr; simp [ho.sound r hr]
  have hempty : a.srcs.find? c.isEmptySrc = none := by
    simp only [List.find?_eq_none]; intro r hr; simp [ho.full r hr]
  have hdst : a.dsts.find? (s.produced key) = none := by
    simp only [List.find?_eq_none]; intro d hd; simp [ho.free d hd]
  simp [readSources, topTrapping_none c a.srcs ho.full, hempty, hbad, hdst, captured]

/-- An instruction whose guard is on, whose privilege suffices and whose operands are ready does what its body does. -/
theorem issueBody_ready {i : Instr} {a : Ask} {body : M Next} {s : State} {key : Nat} {c : Ctx} {f : Firing} (h : Issuing s key c f)
    (hp : ¬ c.priv.level < a.priv.level) (hg : a.guard = .scalar → (c.rk a.kg).getLsbD 0 = true) (ho : Operands s key c a.srcs a.dsts) :
    (issueBody i a body).run s =
      (match body.run (s.issues (some (captured i a.srcs a.kg c f))) with
       | .ok r => .ok ((), closing i key c.graph r.1 r.2)
       | .error e => .error e) := by
  have hon : (decide (a.guard ≠ .scalar) || (c.rk a.kg).getLsbD 0) = true := by
    by_cases hs : a.guard = .scalar
    · rw [hg hs, Bool.or_true]
    · simp [hs]
  unfold issueBody
  rw [M.run_bind_ok (run_curKey h.cur), M.run_bind_ok (run_curCtx h.cur h.ctx), M.run_bind_ok (run_curFiring h.cur h.ctx h.firing),
    M.run_bind_ok (M.run_get s)]
  simp only [hp, if_false, h.first, Bool.false_eq_true, Option.isSome_none, Bool.or_false, hon, if_true, readSources_ready f ho]
  rw [pure_bind, M.run_bind_ok (M.run_modify _ _), M.run_bind]
  cases body.run (s.issues (some (captured i a.srcs a.kg c f))) <;> rfl

/-- The outcome of an instruction that is ready: its body's. -/
theorem runControl_ready {i : Instr} {a : Ask} {body : M Next} {s : State} {key : Nat} {c : Ctx} {f : Firing} (h : Issuing s key c f)
    (hp : ¬ c.priv.level < a.priv.level) (hg : a.guard = .scalar → (c.rk a.kg).getLsbD 0 = true) (ho : Operands s key c a.srcs a.dsts) :
    runControl i a body s =
      (match body.run (s.issues (some (captured i a.srcs a.kg c f))) with
       | .ok r => .next (closing i key c.graph r.1 r.2)
       | .error (.stop x) => .fault x
       | .error (.wait w) => .next (s.setStall key w)
       | .error (.trap t) =>
         .next { s.takeTrap key t (if t.svc then { issuePoint i s c f with opA := t.addr.setWidth 1024, opB := (t.gb.getD 0).setWidth 1024, reads := 3 }
           else issuePoint i s c f) (instrLen i) with replayNow := false }) := by
  unfold runControl
  rw [issueBody_ready h hp hg ho]
  cases body.run (s.issues (some (captured i a.srcs a.kg c f))) with
  | ok r => rfl
  | error e =>
    cases e with
    | stop x => rfl
    | wait w => simp [conclude, h.cur]
    | trap t => cases hs : t.svc <;> simp [conclude, h.cur, h.ctx, h.firing, h.first, hs]

/-- An instruction whose body changes only its own context completes with that change and the advance of its pc. -/
theorem runInstr_completes {i : Instr} {a : Ask} {body : M Unit} {s : State} {key : Nat} {c c' : Ctx} {f : Firing} (h : Issuing s key c f)
    (hp : ¬ c.priv.level < a.priv.level) (hg : a.guard = .scalar → (c.rk a.kg).getLsbD 0 = true) (ho : Operands s key c a.srcs a.dsts)
    (hb : body.run (s.issues (some (captured i a.srcs a.kg c f))) = .ok ((), (s.issues (some (captured i a.srcs a.kg c f))).setCtx key c')) (hgr : c'.graph = c.graph) :
    runInstr i a body s = .next (s.completed key (c'.advance (instrLen i))) := by
  unfold runInstr
  rw [runControl_ready h hp hg ho, M.run_bind_ok hb]
  simp [closing, State.leave, State.completed, Ctx.advance, hgr]

/-- `runInstr_completes` for a body that also changes the rest of the state. -/
theorem runInstr_ready {i : Instr} {a : Ask} {body : M Unit} {s t : State} {key : Nat} {c c' : Ctx} {f : Firing} (h : Issuing s key c f)
    (hp : ¬ c.priv.level < a.priv.level) (hg : a.guard = .scalar → (c.rk a.kg).getLsbD 0 = true) (ho : Operands s key c a.srcs a.dsts)
    (hb : body.run (s.issues (some (captured i a.srcs a.kg c f))) = .ok ((), t)) (ht : t.ctx? key = some c') (hgr : c'.graph = c.graph) :
    runInstr i a body s = .next (t.completed key (c'.advance (instrLen i))) := by
  unfold runInstr
  rw [runControl_ready h hp hg ho, M.run_bind_ok hb]
  have h1 : (t.issues none).ctx? key = some c' := ht
  simp [closing, State.leave, State.completed, Ctx.advance, hgr, State.modCtx_eq _ _ _ _ h1]

/-- An instruction that is ready and whose body faults takes the trap, with no effect of its own. -/
theorem runControl_traps {i : Instr} {a : Ask} {body : M Next} {s : State} {key : Nat} {c : Ctx} {f : Firing} {t : Trap} (h : Issuing s key c f)
    (hp : ¬ c.priv.level < a.priv.level) (hg : a.guard = .scalar → (c.rk a.kg).getLsbD 0 = true) (ho : Operands s key c a.srcs a.dsts)
    (hb : body.run (s.issues (some (captured i a.srcs a.kg c f))) = .error (.trap t)) (hs : t.svc = false) :
    runControl i a body s = .next (s.trapped key f i t) := by
  rw [runControl_ready h hp hg ho, hb]
  simp [hs, State.trapped, issuePoint, h.first]

theorem runInstr_traps {i : Instr} {a : Ask} {body : M Unit} {s : State} {key : Nat} {c : Ctx} {f : Firing} {t : Trap} (h : Issuing s key c f)
    (hp : ¬ c.priv.level < a.priv.level) (hg : a.guard = .scalar → (c.rk a.kg).getLsbD 0 = true) (ho : Operands s key c a.srcs a.dsts)
    (hb : body.run (s.issues (some (captured i a.srcs a.kg c f))) = .error (.trap t)) (hs : t.svc = false) :
    runInstr i a body s = .next (s.trapped key f i t) := runControl_traps h hp hg ho (M.run_bind_error hb) hs

/-- An instruction that is ready and whose body waits leaves its firing at it. -/
theorem runInstr_waits {i : Instr} {a : Ask} {body : M Unit} {s : State} {key : Nat} {c : Ctx} {f : Firing} {w : Stall} (h : Issuing s key c f)
    (hp : ¬ c.priv.level < a.priv.level) (hg : a.guard = .scalar → (c.rk a.kg).getLsbD 0 = true) (ho : Operands s key c a.srcs a.dsts)
    (hb : body.run (s.issues (some (captured i a.srcs a.kg c f))) = .error (.wait w)) :
    runInstr i a body s = .next (s.setStall key w) := by
  unfold runInstr
  rw [runControl_ready h hp hg ho, M.run_bind_error hb]

/-- An instruction below its privilege raises PRIVILEGE before anything else (R76). -/
theorem runControl_privilege {i : Instr} {a : Ask} {body : M Next} {s : State} {key : Nat} {c : Ctx} {f : Firing} (h : Issuing s key c f)
    (hp : c.priv.level < a.priv.level) :
    runControl i a body s = .next (s.trapped key f i { cause := cPrivilege, info := wd a.priv.level }) := by
  have hb : (issueBody i a body).run s = .error (.trap { cause := cPrivilege, info := wd a.priv.level }) := by
    unfold issueBody
    rw [M.run_bind_ok (run_curKey h.cur), M.run_bind_ok (run_curCtx h.cur h.ctx), M.run_bind_ok (run_curFiring h.cur h.ctx h.firing),
      M.run_bind_ok (M.run_get s)]
    simp only [hp, if_true]
    exact M.run_bind_error (run_raise _ _ _)
  unfold runControl
  rw [hb]
  simp [conclude, h.cur, h.ctx, h.firing, h.first, State.trapped, issuePoint]

/-- A scalar instruction whose guard bit is 0 only moves its firing on (R58). -/
theorem runControl_guardOff {i : Instr} {a : Ask} {body : M Next} {s : State} {key : Nat} {c : Ctx} {f : Firing} (h : Issuing s key c f)
    (hp : ¬ c.priv.level < a.priv.level) (hs : a.guard = .scalar) (hg : (c.rk a.kg).getLsbD 0 = false) :
    runControl i a body s =
      .next ((s.setCtx key { c with firing := some { f with pc := nextPc f.pc (instrLen i), stall := .none } }).issuedOne key c.graph) := by
  have hb : (issueBody i a body).run s =
      .ok ((), (s.setCtx key { c with firing := some { f with pc := nextPc f.pc (instrLen i), stall := .none } }).issuedOne key c.graph) := by
    unfold issueBody
    rw [M.run_bind_ok (run_curKey h.cur), M.run_bind_ok (run_curCtx h.cur h.ctx), M.run_bind_ok (run_curFiring h.cur h.ctx h.firing),
      M.run_bind_ok (M.run_get s)]
    simp only [hp, if_false, hs, ne_eq, not_true_eq_false, decide_false, hg, h.first, Bool.false_eq_true, Option.isSome_none, Bool.or_self]
    rw [M.run_bind_ok (run_modCur _ h.cur h.ctx)]
    simp [h.firing]
  unfold runControl
  rw [hb]
  rfl

/-- An instruction goes in flight when its firing has room for it. -/
theorem run_issueOp {s : State} {key : Nat} {c : Ctx} {f : Firing} {e : ReplayEntry} (kind : OpKind) (dstG dstV : List Nat) (addr scope ord : Nat)
    (h : Issuing s key c f) (he : s.issuing = some e) (hr : s.issueRoom key f) :
    (issueOp kind dstG dstV addr scope ord).run s =
      .ok (s.fresh, (s.send (s.opOf key f e kind dstG dstV addr scope ord)).setCtx key
        (dstV.foldl (fun c n => c.markV n true) (dstG.foldl (fun c n => c.markG n true) c))) := by
  unfold issueOp
  rw [M.run_bind_ok (run_curKey h.cur), M.run_bind_ok (run_curFiring h.cur h.ctx h.firing), M.run_bind_ok (run_issuing he), M.run_bind_ok (M.run_get s)]
  have hlt : s.fullFlight key f.serial = false := by
    have := hr; unfold State.issueRoom at this; simp only [State.fullFlight, decide_eq_false_iff_not]; omega
  simp only [hlt, Bool.and_false, Bool.false_eq_true, if_false]
  rw [M.run_bind_ok (M.run_set _ _)]
  exact M.run_bind_ok (run_modCur (s := s.send (s.opOf key f e kind dstG dstV addr scope ord)) _ h.cur h.ctx)

end Sys2Proof.Machine
end

