-- ==== Sys2Proof/Laws/Memory.lean ====
section
/-! SUPPORT. What the operations on memory can do: each keeps its canonical form, and says which bytes it leaves alone. -/

namespace Sys2Proof.Machine

/-- Memory of a state is in canonical form. -/
def State.memWf (s : State) : Prop := Memory.wf s.mem = true

theorem State.memWf_of_mem {s t : State} (h : t.mem = s.mem) (w : s.memWf) : t.memWf := by unfold memWf; rw [h]; exact w

/-! ## The DRAM region and the ways -/

theorem State.dramWrite_memWf {s : State} (pa : Nat) (bs : List Byte) (w : s.memWf) : (s.dramWrite pa bs).memWf := Memory.wf_writeBytes bs s.mem pa w

theorem State.dramWrite_outside (s : State) (pa : Nat) (bs : List Byte) (a : Nat) (h : a < pa ∨ pa + bs.length ≤ a) :
    Memory.read (s.dramWrite pa bs).mem a = Memory.read s.mem a := Memory.read_writeBytes_outside bs s.mem pa a h

theorem State.dramWrite_inside (s : State) (pa : Nat) (bs : List Byte) (w : s.memWf) :
    Memory.readBytes (s.dramWrite pa bs).mem pa bs.length = bs := Memory.readBytes_writeBytes s.mem pa bs w

@[simp] theorem State.dramWrite_ctxs (s : State) (pa : Nat) (bs : List Byte) : (s.dramWrite pa bs).ctxs = s.ctxs := rfl
@[simp] theorem State.dramWrite_tileCache (s : State) (pa : Nat) (bs : List Byte) : (s.dramWrite pa bs).tileCache = s.tileCache := rfl
@[simp] theorem State.dramWrite_clusters (s : State) (pa : Nat) (bs : List Byte) : (s.dramWrite pa bs).clusters = s.clusters := rfl
@[simp] theorem State.dramWrite_queues (s : State) (pa : Nat) (bs : List Byte) : (s.dramWrite pa bs).queues = s.queues := rfl

/-- A fold of steps that each keep a property keeps it. -/
theorem foldl_keeps {α β : Type} (P : β → Prop) (f : β → α → β) (hf : ∀ b a, P b → P (f b a)) (l : List α) (b : β) (h : P b) : P (l.foldl f b) := by
  induction l generalizing b with
  | nil => exact h
  | cons a rest ih => exact ih _ (hf b a h)

/-- A fold of steps that each leave a projection alone leaves it alone. -/
theorem foldl_same {α β γ : Type} (g : β → γ) (f : β → α → β) (hf : ∀ b a, g (f b a) = g b) (l : List α) (b : β) : g (l.foldl f b) = g b :=
  foldl_keeps (fun x => g x = g b) f (fun x a hx => (hf x a).trans hx) l b rfl

@[simp] theorem State.dropLines_mem (s : State) (p : Nat → Nat → SliceLine → Bool) : (s.dropLines p).mem = s.mem := rfl

/-- Choosing a way for a line changes the slices and the counter of free values at most. -/
theorem State.newWay_eq (s : State) (cl owner pa : Nat) : ∃ l n, (s.newWay cl owner pa).2 = { s with slices := l, drawn := n } := by
  unfold State.newWay
  dsimp only
  split
  · exact ⟨_, _, rfl⟩
  · split
    · exact ⟨_, _, rfl⟩
    · exact ⟨_, _, rfl⟩

theorem State.lineFor_eq (s : State) (cl tile pa : Nat) : ∃ l n, (s.lineFor cl tile pa).2 = { s with slices := l, drawn := n } := by
  obtain ⟨l, n, h⟩ := s.newWay_eq cl (Map.get 0 s.tileOwner tile) pa
  unfold State.lineFor
  split
  · exact ⟨_, _, rfl⟩
  · split <;> rename_i heq <;> rw [heq] at h <;> exact ⟨l, n, h⟩

/-- An access to a slice changes the slices, the estimators of the clusters and the counter of free values at most. -/
theorem State.sliceAccess_eq (s : State) (tile pa : Nat) (w : Bool) :
    ∃ l n c, s.sliceAccess tile pa w = { s with slices := l, drawn := n, clusters := c } := by
  unfold State.sliceAccess
  split
  · exact ⟨_, _, _, rfl⟩
  · extract_lets cl n old hit s1 s2
    have h2 : ∃ l c, s2 = { s with slices := l, clusters := c } := by cases w <;> exact ⟨_, _, rfl⟩
    obtain ⟨l, c, h2⟩ := h2
    obtain ⟨l', m, h⟩ := s2.lineFor_eq cl tile pa
    split <;> rename_i heq <;> rw [heq] at h <;> simp only at h <;> subst h <;> rw [h2] <;> exact ⟨_, _, _, rfl⟩

theorem State.sliceAccess_mem (s : State) (tile pa : Nat) (w : Bool) : (s.sliceAccess tile pa w).mem = s.mem := by
  obtain ⟨_, _, _, h⟩ := s.sliceAccess_eq tile pa w; rw [h]

/-- A sector sent home changes memory at its stored bytes alone. -/
theorem State.sendSector_mem (s : State) (tile pa : Nat) (x : Sector) :
    (s.sendSector tile pa x).mem = (List.range 32).foldl (fun m j => if x.own.getLsbD j then Memory.write m (pa + j) (x.byte j) else m) s.mem :=
  State.sliceAccess_mem _ _ _ _

theorem State.sendSector_memWf {s : State} (tile pa : Nat) (x : Sector) (w : s.memWf) : (s.sendSector tile pa x).memWf := by
  unfold State.memWf
  rw [State.sendSector_mem]
  refine foldl_keeps (fun m => Memory.wf m = true) _ (fun m j h => ?_) _ _ w
  split
  · exact Memory.wf_write m _ _ h
  · exact h

theorem State.sendSector_outside (s : State) (tile pa : Nat) (x : Sector) (a : Nat) (h : ∀ j < 32, x.own.getLsbD j = true → pa + j ≠ a) :
    Memory.read (s.sendSector tile pa x).mem a = Memory.read s.mem a := by
  rw [State.sendSector_mem]
  suffices H : ∀ (l : List Nat) (m : Memory), (∀ j ∈ l, j < 32) →
      Memory.read (l.foldl (fun m j => if x.own.getLsbD j then Memory.write m (pa + j) (x.byte j) else m) m) a = Memory.read m a from
    H _ _ fun j hj => List.mem_range.mp hj
  intro l
  induction l with
  | nil => intro m _; rfl
  | cons j rest ih =>
    intro m hl
    rw [List.foldl_cons, ih _ fun k hk => hl k (List.mem_cons_of_mem _ hk)]
    split
    · exact Memory.read_write_ne _ _ (Ne.symm (h j (hl j List.mem_cons_self) ‹_›))
    · rfl

/-- A write-back sends home the dirty sectors of the tile that have an address for which p holds, in ascending order. -/
theorem State.writeBack_mem (s : State) (tile : Nat) (p : Nat → Bool) :
    (s.writeBack tile p).mem =
      ((s.tileCache.filter fun e => e.2.dirty && ofTile tile p e).foldl (fun s e => s.sendSector tile (sectorPa e.1) e.2) s).mem := rfl

theorem State.writeBack_memWf {s : State} (tile : Nat) (p : Nat → Bool) (w : s.memWf) : (s.writeBack tile p).memWf := by
  unfold State.memWf
  rw [State.writeBack_mem]
  exact foldl_keeps State.memWf _ (fun _ e h => State.sendSector_memWf tile (sectorPa e.1) e.2 h) _ s w

/-- A write-back changes memory at the stored bytes of the tile's sectors alone. -/
theorem State.writeBack_outside (s : State) (tile : Nat) (p : Nat → Bool) (a : Nat)
    (h : ∀ e ∈ s.tileCache, sectorTile e.1 = tile → ∀ j < 32, e.2.own.getLsbD j = true → sectorPa e.1 + j ≠ a) :
    Memory.read (s.writeBack tile p).mem a = Memory.read s.mem a := by
  suffices H : ∀ (l : List (Nat × Sector)) (t : State), (∀ e ∈ l, ∀ j < 32, e.2.own.getLsbD j = true → sectorPa e.1 + j ≠ a) →
      Memory.read (l.foldl (fun s e => s.sendSector tile (sectorPa e.1) e.2) t).mem a = Memory.read t.mem a by
    rw [State.writeBack_mem]
    refine H _ s fun e he => ?_
    simp only [ofTile, List.mem_filter, Bool.and_eq_true, beq_iff_eq] at he
    exact h e he.1 he.2.2.1
  intro l
  induction l with
  | nil => intro t _; rfl
  | cons e rest ih =>
    intro t hl
    rw [List.foldl_cons, ih _ fun x hx => hl x (List.mem_cons_of_mem _ hx)]
    exact State.sendSector_outside _ _ _ _ _ (hl e List.mem_cons_self)

@[simp] theorem State.setSector_mem (s : State) (tile pa : Nat) (x : Sector) : (s.setSector tile pa x).mem = s.mem := rfl
theorem State.storeWays_mem (s : State) (tile pa : Nat) (bs : List Byte) : (s.storeWays tile pa bs).mem = s.mem := by
  induction bs generalizing s pa with
  | nil => rfl
  | cons b rest ih => exact (ih _ _).trans rfl

/-- A store into the ways of a tile leaves every other sector alone. -/
theorem State.storeWays_outside (s : State) (tile pa : Nat) (bs : List Byte) (k : Nat) (h : ∀ n < bs.length, k ≠ cacheKey tile (pa + n)) :
    Map.find? (s.storeWays tile pa bs).tileCache k = Map.find? s.tileCache k := by
  induction bs generalizing s pa with
  | nil => rfl
  | cons b rest ih =>
    rw [State.storeWays, ih _ _ fun n hn => ?_]
    · exact Map.find?_insert_ne _ _ (h 0 (by simp))
    · have := h (n + 1) (by simp; omega)
      rwa [Nat.add_assoc, Nat.add_comm 1 n]

@[simp] theorem State.dropClean_mem (s : State) (tile : Nat) (p : Nat → Bool) : (s.dropClean tile p).mem = s.mem := rfl
@[simp] theorem State.dropSectors_mem (s : State) (tile : Nat) (p : Nat → Bool) : (s.dropSectors tile p).mem = s.mem := rfl
@[simp] theorem State.dropClean_ctxs (s : State) (tile : Nat) (p : Nat → Bool) : (s.dropClean tile p).ctxs = s.ctxs := rfl
/-- A write-back changes memory, the caches, the estimators of the clusters, the bad sectors and the counter of free values at most. -/
theorem State.writeBack_eq (s : State) (tile : Nat) (p : Nat → Bool) :
    ∃ m tc sl b c n, s.writeBack tile p = { s with mem := m, tileCache := tc, slices := sl, badSectors := b, clusters := c, drawn := n } := by
  unfold State.writeBack
  extract_lets hit s1
  let P (t : State) : Prop := ∃ m tc sl b c n, t = { s with mem := m, tileCache := tc, slices := sl, badSectors := b, clusters := c, drawn := n }
  have h1 : P s1 := by
    refine foldl_keeps P _ (fun t e ht => ?_) _ s ⟨s.mem, s.tileCache, s.slices, s.badSectors, s.clusters, s.drawn, rfl⟩
    obtain ⟨m, tc, sl, b, c, n, rfl⟩ := ht
    obtain ⟨l, n', c', h⟩ := State.sliceAccess_eq _ tile (sectorPa e.1) true
    exact ⟨_, _, _, _, _, _, h⟩
  obtain ⟨m, tc, sl, b, c, n, h⟩ := h1
  rw [h]
  exact ⟨_, _, _, _, _, _, rfl⟩

theorem State.writeBack_ctxs (s : State) (tile : Nat) (p : Nat → Bool) : (s.writeBack tile p).ctxs = s.ctxs := by
  obtain ⟨_, _, _, _, _, _, h⟩ := s.writeBack_eq tile p; rw [h]
theorem State.writeBack_ops (s : State) (tile : Nat) (p : Nat → Bool) : (s.writeBack tile p).ops = s.ops := by
  obtain ⟨_, _, _, _, _, _, h⟩ := s.writeBack_eq tile p; rw [h]

theorem State.flushWays_memWf {s : State} (tile : Nat) (p : Nat → Bool) (w : s.memWf) : (s.flushWays tile p).memWf :=
  State.memWf_of_mem rfl (State.writeBack_memWf tile p w)
theorem State.flushSector_memWf {s : State} (tile pa : Nat) (w : s.memWf) : (s.flushSector tile pa).memWf := State.flushWays_memWf _ _ w
theorem State.releaseWays_memWf {s : State} (key scope : Nat) (w : s.memWf) : (s.releaseWays key scope).memWf := by
  unfold State.releaseWays; split
  · exact State.writeBack_memWf _ _ w
  · exact w
theorem State.acquireWays_mem (s : State) (key scope : Nat) : (s.acquireWays key scope).mem = s.mem := by
  unfold State.acquireWays; split <;> rfl

/-- A way that takes a sector in leaves memory alone. -/
theorem State.fillSector_mem (s : State) (tile pa : Nat) : (s.fillSector tile pa).mem = s.mem := by
  unfold State.fillSector
  dsimp only
  split
  · split
    · rfl
    · split <;> simp [State.sliceAccess_mem]
  · exact State.sliceAccess_mem _ _ _ _

theorem State.bankWrite_mem (s : State) (tile bank off : Nat) (bs : List Byte) : (s.bankWrite tile bank off bs).mem = s.mem := by
  induction bs generalizing s off with
  | nil => rfl
  | cons b rest ih => rw [State.bankWrite, ih]

theorem State.sendBytes_memWf {s : State} (tile pa : Nat) (bs : List Byte) (w : s.memWf) : (s.sendBytes tile pa bs).memWf := by
  unfold State.sendBytes; split
  · exact State.memWf_of_mem ((State.sliceAccess_mem _ _ _ _).trans (State.sliceAccess_mem _ _ _ _)) (Memory.wf_writeBytes _ _ _ w)
  · exact State.dramWrite_memWf _ _ w

theorem writePlace_memWf {s t : State} {key va : Nat} {bs : List Byte} {p : Place} (h : writePlace s key va bs p = .ok t) (w : s.memWf) : t.memWf := by
  unfold writePlace at h
  split at h
  · split at h
    · cases h
      exact State.memWf_of_mem (by simp [State.storeWays_mem, State.fillSector_mem]) w
    · cases h
      exact State.sendBytes_memWf _ _ _ w
  · split at h
    · cases h
    · cases h; exact State.memWf_of_mem (State.bankWrite_mem _ _ _ _ _) w

theorem storeAt_memWf {s t : State} {key : Nat} {c : Ctx} {va : Nat} {bs : List Byte} (h : storeAt s key c va bs = .ok t) (w : s.memWf) : t.memWf := by
  unfold storeAt at h
  split at h
  · cases h
  · exact writePlace_memWf h w

theorem homeWrite_memWf {s t : State} {key va : Nat} {bs : List Byte} {p : Place} (h : homeWrite s key va bs p = .ok t) (w : s.memWf) : t.memWf := by
  unfold homeWrite at h
  split at h
  · cases h; exact State.dramWrite_memWf _ _ w
  · split at h
    · cases h
    · cases h; exact State.memWf_of_mem (State.bankWrite_mem _ _ _ _ _) w

/-! ## Contexts written out to images -/

theorem CtxImage.store_wf {m : Memory} (i : CtxImage) (c : Ctx) (w : Memory.wf m = true) : Memory.wf (i.store c m) = true := by
  unfold CtxImage.store; split
  · exact w
  · exact Memory.wf_writeBytes _ _ _ (Memory.wf_writeBytes _ _ _ w)

theorem State.modImage_memWf {s : State} (i : CtxImage) (f : Ctx → Ctx) (w : s.memWf) : (s.modImage i f).memWf := CtxImage.store_wf i _ w

theorem State.modOwner_memWf {s : State} (k : Nat) (f : Ctx → Ctx) (w : s.memWf) : (s.modOwner k f).memWf := by
  unfold State.modOwner; split
  · exact w
  · split
    · exact State.modImage_memWf _ _ w
    · exact w

/-- A change of a context in a slot leaves memory alone. -/
theorem State.modOwner_slot {s : State} {k : Nat} {c : Ctx} (f : Ctx → Ctx) (h : s.ctx? k = some c) : s.modOwner k f = s.setCtx k (f c) := by
  simp [State.modOwner, h]

theorem State.wake_mem (s : State) (k : Nat) : (s.wake k).mem = s.mem := State.modCtx_mem _ _ _
@[simp] theorem State.wakeAll_mem (s : State) : s.wakeAll.mem = s.mem := rfl

/-- The end of an instruction in flight keeps memory in canonical form, and leaves it alone when its context is in a slot. -/
theorem State.finishOp_memWf {s : State} (o : Op) (g : Word) (v : List VWord) (w : s.memWf) : (s.finishOp o g v).memWf :=
  State.memWf_of_mem (State.wake_mem _ _) (State.modOwner_memWf _ _ w)

end Sys2Proof.Machine
end

