-- ==== Sys2Proof/Laws/PerInstr.lean ====
section
/-! SUPPORT. For every instruction: the row of the decoder's table that its own word selects gives the instruction back (R57 to R69, R73). -/

namespace Sys2Proof.Laws.TableRow
open Sys2Proof Sys2Proof.Machine

/-- The decoder's row for the MAJ and MIN of an instruction, at the instruction's own word, gives the instruction: every field is read from where it was
written. An event row has no word. -/
def Statement (i : Instr) : Prop :=
  ∀ v, i.view = some v → v.sub = true →
    ∃ sub forms, (opcodeRows v.maj v.word (v.form.literal.getD 0).toNat)[v.min]? = some (sub, forms) ∧ forms[sub]? = some i

/-- A field of w bits at place k of a number, between what stands above it and what stands below. -/
theorem field_at {w : Nat} (x : BitVec w) (k top low : Nat) (h : low < 2 ^ k) :
    BitVec.ofNat w ((top * 2 ^ (k + w) + x.toNat * 2 ^ k + low) >>> k) = x := by
  apply BitVec.eq_of_toNat_eq
  rw [BitVec.toNat_ofNat, Nat.shiftRight_eq_div_pow, Nat.pow_add, show top * (2 ^ k * 2 ^ w) + x.toNat * 2 ^ k + low = low + 2 ^ k * (x.toNat + 2 ^ w * top) by ring,
    Nat.add_mul_div_left _ _ (by positivity), Nat.div_eq_of_lt h, Nat.zero_add, Nat.add_mul_mod_self_left, Nat.mod_eq_of_lt x.isLt]

/-- The R format is read back from its word. -/
theorem r_back (maj min : Nat) (f : RForm) : RForm.ofWord (maj * 2 ^ 56 + min * 2 ^ 50 + f.low) = f := by
  have hkg := f.kg.isLt
  have hd := f.d.isLt
  have ha := f.a.isLt
  have hb := f.b.isLt
  have hc := f.c.isLt
  have hty := f.ty.isLt
  have hrm := f.rm.isLt
  have hsm := f.sm.isLt
  have hfe := f.fe.isLt
  have hmod := f.mod.isLt
  obtain ⟨xkg, xd, xa, xb, xc, xty, xrm, xsm, xfe, xmod⟩ := f
  simp only [RForm.ofWord, RForm.low, RForm.mk.injEq] at *
  exact ⟨(congrArg (BitVec.ofNat _) (by omega)).trans (field_at xkg 46 (maj * 2 ^ 6 + min * 2 ^ 0) (xd.toNat * 2 ^ 40 + xa.toNat * 2 ^ 34 + xb.toNat * 2 ^ 28 + xc.toNat * 2 ^ 22 + xty.toNat * 2 ^ 17 + xrm.toNat * 2 ^ 14 + xsm.toNat * 2 ^ 12 + xfe.toNat * 2 ^ 9 + xmod.toNat) (by omega)),
    (congrArg (BitVec.ofNat _) (by omega)).trans (field_at xd 40 (maj * 2 ^ 10 + min * 2 ^ 4 + xkg.toNat * 2 ^ 0) (xa.toNat * 2 ^ 34 + xb.toNat * 2 ^ 28 + xc.toNat * 2 ^ 22 + xty.toNat * 2 ^ 17 + xrm.toNat * 2 ^ 14 + xsm.toNat * 2 ^ 12 + xfe.toNat * 2 ^ 9 + xmod.toNat) (by omega)),
    (congrArg (BitVec.ofNat _) (by omega)).trans (field_at xa 34 (maj * 2 ^ 16 + min * 2 ^ 10 + xkg.toNat * 2 ^ 6 + xd.toNat * 2 ^ 0) (xb.toNat * 2 ^ 28 + xc.toNat * 2 ^ 22 + xty.toNat * 2 ^ 17 + xrm.toNat * 2 ^ 14 + xsm.toNat * 2 ^ 12 + xfe.toNat * 2 ^ 9 + xmod.toNat) (by omega)),
    (congrArg (BitVec.ofNat _) (by omega)).trans (field_at xb 28 (maj * 2 ^ 22 + min * 2 ^ 16 + xkg.toNat * 2 ^ 12 + xd.toNat * 2 ^ 6 + xa.toNat * 2 ^ 0) (xc.toNat * 2 ^ 22 + xty.toNat * 2 ^ 17 + xrm.toNat * 2 ^ 14 + xsm.toNat * 2 ^ 12 + xfe.toNat * 2 ^ 9 + xmod.toNat) (by omega)),
    (congrArg (BitVec.ofNat _) (by omega)).trans (field_at xc 22 (maj * 2 ^ 28 + min * 2 ^ 22 + xkg.toNat * 2 ^ 18 + xd.toNat * 2 ^ 12 + xa.toNat * 2 ^ 6 + xb.toNat * 2 ^ 0) (xty.toNat * 2 ^ 17 + xrm.toNat * 2 ^ 14 + xsm.toNat * 2 ^ 12 + xfe.toNat * 2 ^ 9 + xmod.toNat) (by omega)),
    (congrArg (BitVec.ofNat _) (by omega)).trans (field_at xty 17 (maj * 2 ^ 34 + min * 2 ^ 28 + xkg.toNat * 2 ^ 24 + xd.toNat * 2 ^ 18 + xa.toNat * 2 ^ 12 + xb.toNat * 2 ^ 6 + xc.toNat * 2 ^ 0) (xrm.toNat * 2 ^ 14 + xsm.toNat * 2 ^ 12 + xfe.toNat * 2 ^ 9 + xmod.toNat) (by omega)),
    (congrArg (BitVec.ofNat _) (by omega)).trans (field_at xrm 14 (maj * 2 ^ 39 + min * 2 ^ 33 + xkg.toNat * 2 ^ 29 + xd.toNat * 2 ^ 23 + xa.toNat * 2 ^ 17 + xb.toNat * 2 ^ 11 + xc.toNat * 2 ^ 5 + xty.toNat * 2 ^ 0) (xsm.toNat * 2 ^ 12 + xfe.toNat * 2 ^ 9 + xmod.toNat) (by omega)),
    (congrArg (BitVec.ofNat _) (by omega)).trans (field_at xsm 12 (maj * 2 ^ 42 + min * 2 ^ 36 + xkg.toNat * 2 ^ 32 + xd.toNat * 2 ^ 26 + xa.toNat * 2 ^ 20 + xb.toNat * 2 ^ 14 + xc.toNat * 2 ^ 8 + xty.toNat * 2 ^ 3 + xrm.toNat * 2 ^ 0) (xfe.toNat * 2 ^ 9 + xmod.toNat) (by omega)),
    (congrArg (BitVec.ofNat _) (by omega)).trans (field_at xfe 9 (maj * 2 ^ 44 + min * 2 ^ 38 + xkg.toNat * 2 ^ 34 + xd.toNat * 2 ^ 28 + xa.toNat * 2 ^ 22 + xb.toNat * 2 ^ 16 + xc.toNat * 2 ^ 10 + xty.toNat * 2 ^ 5 + xrm.toNat * 2 ^ 2 + xsm.toNat * 2 ^ 0) (xmod.toNat) (by omega)),
    (congrArg (BitVec.ofNat _) (by omega)).trans (field_at xmod 0 (maj * 2 ^ 47 + min * 2 ^ 41 + xkg.toNat * 2 ^ 37 + xd.toNat * 2 ^ 31 + xa.toNat * 2 ^ 25 + xb.toNat * 2 ^ 19 + xc.toNat * 2 ^ 13 + xty.toNat * 2 ^ 8 + xrm.toNat * 2 ^ 5 + xsm.toNat * 2 ^ 3 + xfe.toNat * 2 ^ 0) (0) (by omega))⟩

/-- The I format is read back from its word. -/
theorem i_back (maj min : Nat) (f : IForm) : IForm.ofWord (maj * 2 ^ 56 + min * 2 ^ 50 + f.low) = f := by
  have hkg := f.kg.isLt
  have hd := f.d.isLt
  have ha := f.a.isLt
  have hty := f.ty.isLt
  have hfea := f.fea.isLt
  have hmod := f.mod.isLt
  have himm := f.imm.isLt
  obtain ⟨xkg, xd, xa, xty, xfea, xmod, ximm⟩ := f
  simp only [IForm.ofWord, IForm.low, IForm.mk.injEq] at *
  exact ⟨(congrArg (BitVec.ofNat _) (by omega)).trans (field_at xkg 46 (maj * 2 ^ 6 + min * 2 ^ 0) (xd.toNat * 2 ^ 40 + xa.toNat * 2 ^ 34 + xty.toNat * 2 ^ 29 + xfea.toNat * 2 ^ 28 + xmod.toNat * 2 ^ 24 + ximm.toNat) (by omega)),
    (congrArg (BitVec.ofNat _) (by omega)).trans (field_at xd 40 (maj * 2 ^ 10 + min * 2 ^ 4 + xkg.toNat * 2 ^ 0) (xa.toNat * 2 ^ 34 + xty.toNat * 2 ^ 29 + xfea.toNat * 2 ^ 28 + xmod.toNat * 2 ^ 24 + ximm.toNat) (by omega)),
    (congrArg (BitVec.ofNat _) (by omega)).trans (field_at xa 34 (maj * 2 ^ 16 + min * 2 ^ 10 + xkg.toNat * 2 ^ 6 + xd.toNat * 2 ^ 0) (xty.toNat * 2 ^ 29 + xfea.toNat * 2 ^ 28 + xmod.toNat * 2 ^ 24 + ximm.toNat) (by omega)),
    (congrArg (BitVec.ofNat _) (by omega)).trans (field_at xty 29 (maj * 2 ^ 22 + min * 2 ^ 16 + xkg.toNat * 2 ^ 12 + xd.toNat * 2 ^ 6 + xa.toNat * 2 ^ 0) (xfea.toNat * 2 ^ 28 + xmod.toNat * 2 ^ 24 + ximm.toNat) (by omega)),
    (congrArg (BitVec.ofNat _) (by omega)).trans (field_at xfea 28 (maj * 2 ^ 27 + min * 2 ^ 21 + xkg.toNat * 2 ^ 17 + xd.toNat * 2 ^ 11 + xa.toNat * 2 ^ 5 + xty.toNat * 2 ^ 0) (xmod.toNat * 2 ^ 24 + ximm.toNat) (by omega)),
    (congrArg (BitVec.ofNat _) (by omega)).trans (field_at xmod 24 (maj * 2 ^ 28 + min * 2 ^ 22 + xkg.toNat * 2 ^ 18 + xd.toNat * 2 ^ 12 + xa.toNat * 2 ^ 6 + xty.toNat * 2 ^ 1 + xfea.toNat * 2 ^ 0) (ximm.toNat) (by omega)),
    (congrArg (BitVec.ofNat _) (by omega)).trans (field_at ximm 0 (maj * 2 ^ 32 + min * 2 ^ 26 + xkg.toNat * 2 ^ 22 + xd.toNat * 2 ^ 16 + xa.toNat * 2 ^ 10 + xty.toNat * 2 ^ 5 + xfea.toNat * 2 ^ 4 + xmod.toNat * 2 ^ 0) (0) (by omega))⟩

/-- The J format is read back from its word. -/
theorem j_back (maj min : Nat) (f : JForm) : JForm.ofWord (maj * 2 ^ 56 + min * 2 ^ 50 + f.low) = f := by
  have hkg := f.kg.isLt
  have ha := f.a.isLt
  have hmod := f.mod.isLt
  have hoff := f.off.isLt
  obtain ⟨xkg, xa, xmod, xoff⟩ := f
  simp only [JForm.ofWord, JForm.low, JForm.mk.injEq] at *
  exact ⟨(congrArg (BitVec.ofNat _) (by omega)).trans (field_at xkg 46 (maj * 2 ^ 6 + min * 2 ^ 0) (xa.toNat * 2 ^ 40 + xmod.toNat * 2 ^ 32 + xoff.toNat) (by omega)),
    (congrArg (BitVec.ofNat _) (by omega)).trans (field_at xa 40 (maj * 2 ^ 10 + min * 2 ^ 4 + xkg.toNat * 2 ^ 0) (xmod.toNat * 2 ^ 32 + xoff.toNat) (by omega)),
    (congrArg (BitVec.ofNat _) (by omega)).trans (field_at xmod 32 (maj * 2 ^ 16 + min * 2 ^ 10 + xkg.toNat * 2 ^ 6 + xa.toNat * 2 ^ 0) (xoff.toNat) (by omega)),
    (congrArg (BitVec.ofNat _) (by omega)).trans (field_at xoff 0 (maj * 2 ^ 24 + min * 2 ^ 18 + xkg.toNat * 2 ^ 14 + xa.toNat * 2 ^ 8 + xmod.toNat * 2 ^ 0) (0) (by omega))⟩

/-- The M format is read back from its word. -/
theorem m_back (maj min : Nat) (f : MForm) : MForm.ofWord (maj * 2 ^ 56 + min * 2 ^ 50 + f.low) = f := by
  have hkg := f.kg.isLt
  have hds := f.ds.isLt
  have hbase := f.base.isLt
  have hidx := f.idx.isLt
  have hty := f.ty.isLt
  have hsc := f.sc.isLt
  have hord := f.ord.isLt
  have hfe := f.fe.isLt
  have hdisp := f.disp.isLt
  obtain ⟨xkg, xds, xbase, xidx, xty, xsc, xord, xfe, xdisp⟩ := f
  simp only [MForm.ofWord, MForm.low, MForm.mk.injEq] at *
  exact ⟨(congrArg (BitVec.ofNat _) (by omega)).trans (field_at xkg 46 (maj * 2 ^ 6 + min * 2 ^ 0) (xds.toNat * 2 ^ 40 + xbase.toNat * 2 ^ 34 + xidx.toNat * 2 ^ 28 + xty.toNat * 2 ^ 23 + xsc.toNat * 2 ^ 20 + xord.toNat * 2 ^ 18 + xfe.toNat * 2 ^ 16 + xdisp.toNat) (by omega)),
    (congrArg (BitVec.ofNat _) (by omega)).trans (field_at xds 40 (maj * 2 ^ 10 + min * 2 ^ 4 + xkg.toNat * 2 ^ 0) (xbase.toNat * 2 ^ 34 + xidx.toNat * 2 ^ 28 + xty.toNat * 2 ^ 23 + xsc.toNat * 2 ^ 20 + xord.toNat * 2 ^ 18 + xfe.toNat * 2 ^ 16 + xdisp.toNat) (by omega)),
    (congrArg (BitVec.ofNat _) (by omega)).trans (field_at xbase 34 (maj * 2 ^ 16 + min * 2 ^ 10 + xkg.toNat * 2 ^ 6 + xds.toNat * 2 ^ 0) (xidx.toNat * 2 ^ 28 + xty.toNat * 2 ^ 23 + xsc.toNat * 2 ^ 20 + xord.toNat * 2 ^ 18 + xfe.toNat * 2 ^ 16 + xdisp.toNat) (by omega)),
    (congrArg (BitVec.ofNat _) (by omega)).trans (field_at xidx 28 (maj * 2 ^ 22 + min * 2 ^ 16 + xkg.toNat * 2 ^ 12 + xds.toNat * 2 ^ 6 + xbase.toNat * 2 ^ 0) (xty.toNat * 2 ^ 23 + xsc.toNat * 2 ^ 20 + xord.toNat * 2 ^ 18 + xfe.toNat * 2 ^ 16 + xdisp.toNat) (by omega)),
    (congrArg (BitVec.ofNat _) (by omega)).trans (field_at xty 23 (maj * 2 ^ 28 + min * 2 ^ 22 + xkg.toNat * 2 ^ 18 + xds.toNat * 2 ^ 12 + xbase.toNat * 2 ^ 6 + xidx.toNat * 2 ^ 0) (xsc.toNat * 2 ^ 20 + xord.toNat * 2 ^ 18 + xfe.toNat * 2 ^ 16 + xdisp.toNat) (by omega)),
    (congrArg (BitVec.ofNat _) (by omega)).trans (field_at xsc 20 (maj * 2 ^ 33 + min * 2 ^ 27 + xkg.toNat * 2 ^ 23 + xds.toNat * 2 ^ 17 + xbase.toNat * 2 ^ 11 + xidx.toNat * 2 ^ 5 + xty.toNat * 2 ^ 0) (xord.toNat * 2 ^ 18 + xfe.toNat * 2 ^ 16 + xdisp.toNat) (by omega)),
    (congrArg (BitVec.ofNat _) (by omega)).trans (field_at xord 18 (maj * 2 ^ 36 + min * 2 ^ 30 + xkg.toNat * 2 ^ 26 + xds.toNat * 2 ^ 20 + xbase.toNat * 2 ^ 14 + xidx.toNat * 2 ^ 8 + xty.toNat * 2 ^ 3 + xsc.toNat * 2 ^ 0) (xfe.toNat * 2 ^ 16 + xdisp.toNat) (by omega)),
    (congrArg (BitVec.ofNat _) (by omega)).trans (field_at xfe 16 (maj * 2 ^ 38 + min * 2 ^ 32 + xkg.toNat * 2 ^ 28 + xds.toNat * 2 ^ 22 + xbase.toNat * 2 ^ 16 + xidx.toNat * 2 ^ 10 + xty.toNat * 2 ^ 5 + xsc.toNat * 2 ^ 2 + xord.toNat * 2 ^ 0) (xdisp.toNat) (by omega)),
    (congrArg (BitVec.ofNat _) (by omega)).trans (field_at xdisp 0 (maj * 2 ^ 40 + min * 2 ^ 34 + xkg.toNat * 2 ^ 30 + xds.toNat * 2 ^ 24 + xbase.toNat * 2 ^ 18 + xidx.toNat * 2 ^ 12 + xty.toNat * 2 ^ 7 + xsc.toNat * 2 ^ 4 + xord.toNat * 2 ^ 2 + xfe.toNat * 2 ^ 0) (0) (by omega))⟩

/-- The S format is read back from its word. -/
theorem s_back (maj min : Nat) (f : SForm) : SForm.ofWord (maj * 2 ^ 56 + min * 2 ^ 50 + f.low) = f := by
  have hkg := f.kg.isLt
  have hd := f.d.isLt
  have ha := f.a.isLt
  have hb := f.b.isLt
  have hp := f.p.isLt
  have hcnd := f.cnd.isLt
  have hsc := f.sc.isLt
  have hord := f.ord.isLt
  have hfe := f.fe.isLt
  have himm := f.imm.isLt
  obtain ⟨xkg, xd, xa, xb, xp, xcnd, xsc, xord, xfe, ximm⟩ := f
  simp only [SForm.ofWord, SForm.low, SForm.mk.injEq] at *
  exact ⟨(congrArg (BitVec.ofNat _) (by omega)).trans (field_at xkg 46 (maj * 2 ^ 6 + min * 2 ^ 0) (xd.toNat * 2 ^ 40 + xa.toNat * 2 ^ 34 + xb.toNat * 2 ^ 28 + xp.toNat * 2 ^ 24 + xcnd.toNat * 2 ^ 20 + xsc.toNat * 2 ^ 17 + xord.toNat * 2 ^ 15 + xfe.toNat * 2 ^ 12 + ximm.toNat) (by omega)),
    (congrArg (BitVec.ofNat _) (by omega)).trans (field_at xd 40 (maj * 2 ^ 10 + min * 2 ^ 4 + xkg.toNat * 2 ^ 0) (xa.toNat * 2 ^ 34 + xb.toNat * 2 ^ 28 + xp.toNat * 2 ^ 24 + xcnd.toNat * 2 ^ 20 + xsc.toNat * 2 ^ 17 + xord.toNat * 2 ^ 15 + xfe.toNat * 2 ^ 12 + ximm.toNat) (by omega)),
    (congrArg (BitVec.ofNat _) (by omega)).trans (field_at xa 34 (maj * 2 ^ 16 + min * 2 ^ 10 + xkg.toNat * 2 ^ 6 + xd.toNat * 2 ^ 0) (xb.toNat * 2 ^ 28 + xp.toNat * 2 ^ 24 + xcnd.toNat * 2 ^ 20 + xsc.toNat * 2 ^ 17 + xord.toNat * 2 ^ 15 + xfe.toNat * 2 ^ 12 + ximm.toNat) (by omega)),
    (congrArg (BitVec.ofNat _) (by omega)).trans (field_at xb 28 (maj * 2 ^ 22 + min * 2 ^ 16 + xkg.toNat * 2 ^ 12 + xd.toNat * 2 ^ 6 + xa.toNat * 2 ^ 0) (xp.toNat * 2 ^ 24 + xcnd.toNat * 2 ^ 20 + xsc.toNat * 2 ^ 17 + xord.toNat * 2 ^ 15 + xfe.toNat * 2 ^ 12 + ximm.toNat) (by omega)),
    (congrArg (BitVec.ofNat _) (by omega)).trans (field_at xp 24 (maj * 2 ^ 28 + min * 2 ^ 22 + xkg.toNat * 2 ^ 18 + xd.toNat * 2 ^ 12 + xa.toNat * 2 ^ 6 + xb.toNat * 2 ^ 0) (xcnd.toNat * 2 ^ 20 + xsc.toNat * 2 ^ 17 + xord.toNat * 2 ^ 15 + xfe.toNat * 2 ^ 12 + ximm.toNat) (by omega)),
    (congrArg (BitVec.ofNat _) (by omega)).trans (field_at xcnd 20 (maj * 2 ^ 32 + min * 2 ^ 26 + xkg.toNat * 2 ^ 22 + xd.toNat * 2 ^ 16 + xa.toNat * 2 ^ 10 + xb.toNat * 2 ^ 4 + xp.toNat * 2 ^ 0) (xsc.toNat * 2 ^ 17 + xord.toNat * 2 ^ 15 + xfe.toNat * 2 ^ 12 + ximm.toNat) (by omega)),
    (congrArg (BitVec.ofNat _) (by omega)).trans (field_at xsc 17 (maj * 2 ^ 36 + min * 2 ^ 30 + xkg.toNat * 2 ^ 26 + xd.toNat * 2 ^ 20 + xa.toNat * 2 ^ 14 + xb.toNat * 2 ^ 8 + xp.toNat * 2 ^ 4 + xcnd.toNat * 2 ^ 0) (xord.toNat * 2 ^ 15 + xfe.toNat * 2 ^ 12 + ximm.toNat) (by omega)),
    (congrArg (BitVec.ofNat _) (by omega)).trans (field_at xord 15 (maj * 2 ^ 39 + min * 2 ^ 33 + xkg.toNat * 2 ^ 29 + xd.toNat * 2 ^ 23 + xa.toNat * 2 ^ 17 + xb.toNat * 2 ^ 11 + xp.toNat * 2 ^ 7 + xcnd.toNat * 2 ^ 3 + xsc.toNat * 2 ^ 0) (xfe.toNat * 2 ^ 12 + ximm.toNat) (by omega)),
    (congrArg (BitVec.ofNat _) (by omega)).trans (field_at xfe 12 (maj * 2 ^ 41 + min * 2 ^ 35 + xkg.toNat * 2 ^ 31 + xd.toNat * 2 ^ 25 + xa.toNat * 2 ^ 19 + xb.toNat * 2 ^ 13 + xp.toNat * 2 ^ 9 + xcnd.toNat * 2 ^ 5 + xsc.toNat * 2 ^ 2 + xord.toNat * 2 ^ 0) (ximm.toNat) (by omega)),
    (congrArg (BitVec.ofNat _) (by omega)).trans (field_at ximm 0 (maj * 2 ^ 44 + min * 2 ^ 38 + xkg.toNat * 2 ^ 34 + xd.toNat * 2 ^ 28 + xa.toNat * 2 ^ 22 + xb.toNat * 2 ^ 16 + xp.toNat * 2 ^ 12 + xcnd.toNat * 2 ^ 8 + xsc.toNat * 2 ^ 5 + xord.toNat * 2 ^ 3 + xfe.toNat * 2 ^ 0) (0) (by omega))⟩

/-- The X format is read back from its word. -/
theorem x_back (maj min : Nat) (f : XForm) : XForm.ofWord (maj * 2 ^ 56 + min * 2 ^ 50 + f.low) = f := by
  have hkg := f.kg.isLt
  have hxt := f.xt.isLt
  have hxu := f.xu.isLt
  have ha := f.a.isLt
  have hb := f.b.isLt
  have hc := f.c.isLt
  have hty := f.ty.isLt
  have htyb := f.tyb.isLt
  have hmod := f.mod.isLt
  obtain ⟨xkg, xxt, xxu, xa, xb, xc, xty, xtyb, xmod⟩ := f
  simp only [XForm.ofWord, XForm.low, XForm.mk.injEq] at *
  exact ⟨(congrArg (BitVec.ofNat _) (by omega)).trans (field_at xkg 46 (maj * 2 ^ 6 + min * 2 ^ 0) (xxt.toNat * 2 ^ 43 + xxu.toNat * 2 ^ 40 + xa.toNat * 2 ^ 34 + xb.toNat * 2 ^ 28 + xc.toNat * 2 ^ 22 + xty.toNat * 2 ^ 17 + xtyb.toNat * 2 ^ 12 + xmod.toNat) (by omega)),
    (congrArg (BitVec.ofNat _) (by omega)).trans (field_at xxt 43 (maj * 2 ^ 10 + min * 2 ^ 4 + xkg.toNat * 2 ^ 0) (xxu.toNat * 2 ^ 40 + xa.toNat * 2 ^ 34 + xb.toNat * 2 ^ 28 + xc.toNat * 2 ^ 22 + xty.toNat * 2 ^ 17 + xtyb.toNat * 2 ^ 12 + xmod.toNat) (by omega)),
    (congrArg (BitVec.ofNat _) (by omega)).trans (field_at xxu 40 (maj * 2 ^ 13 + min * 2 ^ 7 + xkg.toNat * 2 ^ 3 + xxt.toNat * 2 ^ 0) (xa.toNat * 2 ^ 34 + xb.toNat * 2 ^ 28 + xc.toNat * 2 ^ 22 + xty.toNat * 2 ^ 17 + xtyb.toNat * 2 ^ 12 + xmod.toNat) (by omega)),
    (congrArg (BitVec.ofNat _) (by omega)).trans (field_at xa 34 (maj * 2 ^ 16 + min * 2 ^ 10 + xkg.toNat * 2 ^ 6 + xxt.toNat * 2 ^ 3 + xxu.toNat * 2 ^ 0) (xb.toNat * 2 ^ 28 + xc.toNat * 2 ^ 22 + xty.toNat * 2 ^ 17 + xtyb.toNat * 2 ^ 12 + xmod.toNat) (by omega)),
    (congrArg (BitVec.ofNat _) (by omega)).trans (field_at xb 28 (maj * 2 ^ 22 + min * 2 ^ 16 + xkg.toNat * 2 ^ 12 + xxt.toNat * 2 ^ 9 + xxu.toNat * 2 ^ 6 + xa.toNat * 2 ^ 0) (xc.toNat * 2 ^ 22 + xty.toNat * 2 ^ 17 + xtyb.toNat * 2 ^ 12 + xmod.toNat) (by omega)),
    (congrArg (BitVec.ofNat _) (by omega)).trans (field_at xc 22 (maj * 2 ^ 28 + min * 2 ^ 22 + xkg.toNat * 2 ^ 18 + xxt.toNat * 2 ^ 15 + xxu.toNat * 2 ^ 12 + xa.toNat * 2 ^ 6 + xb.toNat * 2 ^ 0) (xty.toNat * 2 ^ 17 + xtyb.toNat * 2 ^ 12 + xmod.toNat) (by omega)),
    (congrArg (BitVec.ofNat _) (by omega)).trans (field_at xty 17 (maj * 2 ^ 34 + min * 2 ^ 28 + xkg.toNat * 2 ^ 24 + xxt.toNat * 2 ^ 21 + xxu.toNat * 2 ^ 18 + xa.toNat * 2 ^ 12 + xb.toNat * 2 ^ 6 + xc.toNat * 2 ^ 0) (xtyb.toNat * 2 ^ 12 + xmod.toNat) (by omega)),
    (congrArg (BitVec.ofNat _) (by omega)).trans (field_at xtyb 12 (maj * 2 ^ 39 + min * 2 ^ 33 + xkg.toNat * 2 ^ 29 + xxt.toNat * 2 ^ 26 + xxu.toNat * 2 ^ 23 + xa.toNat * 2 ^ 17 + xb.toNat * 2 ^ 11 + xc.toNat * 2 ^ 5 + xty.toNat * 2 ^ 0) (xmod.toNat) (by omega)),
    (congrArg (BitVec.ofNat _) (by omega)).trans (field_at xmod 0 (maj * 2 ^ 44 + min * 2 ^ 38 + xkg.toNat * 2 ^ 34 + xxt.toNat * 2 ^ 31 + xxu.toNat * 2 ^ 28 + xa.toNat * 2 ^ 22 + xb.toNat * 2 ^ 16 + xc.toNat * 2 ^ 10 + xty.toNat * 2 ^ 5 + xtyb.toNat * 2 ^ 0) (0) (by omega))⟩

/-- An L pair is read back from its two words. -/
theorem l_back (maj min : Nat) (f : LForm) : LForm.ofWords (maj * 2 ^ 56 + min * 2 ^ 50 + f.low) f.lit.toNat = f := by
  have hkg := f.kg.isLt
  have hd := f.d.isLt
  have hty := f.ty.isLt
  obtain ⟨xkg, xd, xty, xlit⟩ := f
  simp only [LForm.ofWords, LForm.low, LForm.mk.injEq] at *
  exact ⟨(congrArg (BitVec.ofNat _) (by omega)).trans (field_at xkg 46 (maj * 2 ^ 6 + min) (xd.toNat * 2 ^ 40 + xty.toNat * 2 ^ 17) (by omega)),
    (congrArg (BitVec.ofNat _) (by omega)).trans (field_at xd 40 (maj * 2 ^ 10 + min * 2 ^ 4 + xkg.toNat) (xty.toNat * 2 ^ 17) (by omega)),
    (congrArg (BitVec.ofNat _) (by omega)).trans (field_at xty 17 (maj * 2 ^ 34 + min * 2 ^ 28 + xkg.toNat * 2 ^ 24 + xd.toNat * 2 ^ 18) 0 (by omega)),
    by simp⟩

/-- CND of an S word. -/
theorem s_cnd (maj min : Nat) (f : SForm) : bits (maj * 2 ^ 56 + min * 2 ^ 50 + f.low) 23 20 = f.cnd.toNat := by
  have h := congrArg (fun g : SForm => g.cnd.toNat) (s_back maj min f)
  simpa [SForm.ofWord, bits] using h

/-- The low bits of MOD of an X word. -/
theorem x_mod (maj min : Nat) (f : XForm) (n : Nat) (hn : n ≤ 11) : bits (maj * 2 ^ 56 + min * 2 ^ 50 + f.low) n 0 = bits f.mod.toNat n 0 := by
  have h := congrArg (fun g : XForm => g.mod.toNat) (x_back maj min f)
  simp only [XForm.ofWord, BitVec.toNat_ofNat] at h
  simp only [bits, Nat.shiftRight_zero]
  rw [← h, Nat.mod_mod_of_dvd _ (Nat.pow_dvd_pow 2 (by omega))]

/-- Bit 0 of MOD of an I word. -/
theorem i_mod (maj min : Nat) (f : IForm) : bits (maj * 2 ^ 56 + min * 2 ^ 50 + f.low) 24 24 = bits f.mod.toNat 0 0 := by
  have h := congrArg (fun g : IForm => g.mod.toNat) (i_back maj min f)
  simp only [IForm.ofWord, BitVec.toNat_ofNat] at h
  simp only [bits, Nat.shiftRight_zero]
  omega

/-- The lowest bit of a field. -/
theorem low_bit {w : Nat} (m : BitVec w) (b : Bool) (h : (m.getLsbD 0 == b) = true) : bits m.toNat 0 0 = if b then 1 else 0 := by
  have h1 : m.getLsbD 0 = b := eq_of_beq h
  rw [BitVec.getLsbD, Nat.testBit_zero] at h1
  simp only [bits, Nat.shiftRight_zero]
  cases b <;> simp at h1 ⊢ <;> omega

/-- The two lowest bits of a field. -/
theorem low_two {w : Nat} (m : BitVec w) (b : BitVec 2) (h : (m.extractLsb' 0 2 == b) = true) : bits m.toNat 1 0 = b.toNat := by
  rw [← eq_of_beq h]
  simp [bits]

theorem nop (f : RForm) : Statement (.nop f) := by
  intro v h _; cases h; exact ⟨_, _, rfl, congrArg (fun x => some (Instr.nop x)) (r_back 0x01 0 f)⟩
theorem br (f : JForm) : Statement (.br f) := by
  intro v h _; cases h; exact ⟨_, _, rfl, congrArg (fun x => some (Instr.br x)) (j_back 0x02 0 f)⟩
theorem brany (f : JForm) : Statement (.brany f) := by
  intro v h _; cases h; exact ⟨_, _, rfl, congrArg (fun x => some (Instr.brany x)) (j_back 0x02 1 f)⟩
theorem brall (f : JForm) : Statement (.brall f) := by
  intro v h _; cases h; exact ⟨_, _, rfl, congrArg (fun x => some (Instr.brall x)) (j_back 0x02 2 f)⟩
theorem call (f : JForm) : Statement (.call f) := by
  intro v h _; cases h; exact ⟨_, _, rfl, congrArg (fun x => some (Instr.call x)) (j_back 0x02 3 f)⟩
theorem ret (f : RForm) : Statement (.ret f) := by
  intro v h _; cases h; exact ⟨_, _, rfl, congrArg (fun x => some (Instr.ret x)) (r_back 0x02 4 f)⟩
theorem brx (f : RForm) : Statement (.brx f) := by
  intro v h _; cases h; exact ⟨_, _, rfl, congrArg (fun x => some (Instr.brx x)) (r_back 0x02 5 f)⟩
theorem callx (f : RForm) : Statement (.callx f) := by
  intro v h _; cases h; exact ⟨_, _, rfl, congrArg (fun x => some (Instr.callx x)) (r_back 0x02 6 f)⟩
theorem loop (f : JForm) : Statement (.loop f) := by
  intro v h _; cases h; exact ⟨_, _, rfl, congrArg (fun x => some (Instr.loop x)) (j_back 0x02 7 f)⟩
theorem endFiring (f : RForm) : Statement (.endFiring f) := by
  intro v h _; cases h; exact ⟨_, _, rfl, congrArg (fun x => some (Instr.endFiring x)) (r_back 0x02 8 f)⟩
theorem ipf (f : JForm) : Statement (.ipf f) := by
  intro v h _; cases h; exact ⟨_, _, rfl, congrArg (fun x => some (Instr.ipf x)) (j_back 0x02 9 f)⟩
theorem brL (f : LForm) : Statement (.brL f) := by
  intro v h _; cases h; exact ⟨_, _, rfl, congrArg (fun x => some (Instr.brL x)) (l_back 0xF0 0 f)⟩
theorem callL (f : LForm) : Statement (.callL f) := by
  intro v h _; cases h; exact ⟨_, _, rfl, congrArg (fun x => some (Instr.callL x)) (l_back 0xF0 1 f)⟩
theorem moviL (f : LForm) : Statement (.moviL f) := by
  intro v h _; cases h; exact ⟨_, _, rfl, congrArg (fun x => some (Instr.moviL x)) (l_back 0xF0 2 f)⟩
theorem leaL (f : LForm) : Statement (.leaL f) := by
  intro v h _; cases h; exact ⟨_, _, rfl, congrArg (fun x => some (Instr.leaL x)) (l_back 0xF0 3 f)⟩
theorem modbind (f : RForm) : Statement (.modbind f) := by
  intro v h _; cases h; exact ⟨_, _, rfl, congrArg (fun x => some (Instr.modbind x)) (r_back 0x03 0 f)⟩
theorem modfree (f : RForm) : Statement (.modfree f) := by
  intro v h _; cases h; exact ⟨_, _, rfl, congrArg (fun x => some (Instr.modfree x)) (r_back 0x03 1 f)⟩
theorem modq (f : RForm) : Statement (.modq f) := by
  intro v h _; cases h; exact ⟨_, _, rfl, congrArg (fun x => some (Instr.modq x)) (r_back 0x03 2 f)⟩
theorem add (f : RForm) : Statement (.add f) := by
  intro v h _; cases h; exact ⟨_, _, rfl, congrArg (fun x => some (Instr.add x)) (r_back 0x10 0 f)⟩
theorem sub (f : RForm) : Statement (.sub f) := by
  intro v h _; cases h; exact ⟨_, _, rfl, congrArg (fun x => some (Instr.sub x)) (r_back 0x10 1 f)⟩
theorem mul (f : RForm) : Statement (.mul f) := by
  intro v h _; cases h; exact ⟨_, _, rfl, congrArg (fun x => some (Instr.mul x)) (r_back 0x10 2 f)⟩
theorem mulh (f : RForm) : Statement (.mulh f) := by
  intro v h _; cases h; exact ⟨_, _, rfl, congrArg (fun x => some (Instr.mulh x)) (r_back 0x10 3 f)⟩
theorem div (f : RForm) : Statement (.div f) := by
  intro v h _; cases h; exact ⟨_, _, rfl, congrArg (fun x => some (Instr.div x)) (r_back 0x10 4 f)⟩
theorem rem (f : RForm) : Statement (.rem f) := by
  intro v h _; cases h; exact ⟨_, _, rfl, congrArg (fun x => some (Instr.rem x)) (r_back 0x10 5 f)⟩
theorem and (f : RForm) : Statement (.and f) := by
  intro v h _; cases h; exact ⟨_, _, rfl, congrArg (fun x => some (Instr.and x)) (r_back 0x10 6 f)⟩
theorem or (f : RForm) : Statement (.or f) := by
  intro v h _; cases h; exact ⟨_, _, rfl, congrArg (fun x => some (Instr.or x)) (r_back 0x10 7 f)⟩
theorem xor (f : RForm) : Statement (.xor f) := by
  intro v h _; cases h; exact ⟨_, _, rfl, congrArg (fun x => some (Instr.xor x)) (r_back 0x10 8 f)⟩
theorem andn (f : RForm) : Statement (.andn f) := by
  intro v h _; cases h; exact ⟨_, _, rfl, congrArg (fun x => some (Instr.andn x)) (r_back 0x10 9 f)⟩
theorem shl (f : RForm) : Statement (.shl f) := by
  intro v h _; cases h; exact ⟨_, _, rfl, congrArg (fun x => some (Instr.shl x)) (r_back 0x10 10 f)⟩
theorem shr (f : RForm) : Statement (.shr f) := by
  intro v h _; cases h; exact ⟨_, _, rfl, congrArg (fun x => some (Instr.shr x)) (r_back 0x10 11 f)⟩
theorem sra (f : RForm) : Statement (.sra f) := by
  intro v h _; cases h; exact ⟨_, _, rfl, congrArg (fun x => some (Instr.sra x)) (r_back 0x10 12 f)⟩
theorem rot (f : RForm) : Statement (.rot f) := by
  intro v h _; cases h; exact ⟨_, _, rfl, congrArg (fun x => some (Instr.rot x)) (r_back 0x10 13 f)⟩
theorem clz (f : RForm) : Statement (.clz f) := by
  intro v h _; cases h; exact ⟨_, _, rfl, congrArg (fun x => some (Instr.clz x)) (r_back 0x10 14 f)⟩
theorem ctz (f : RForm) : Statement (.ctz f) := by
  intro v h _; cases h; exact ⟨_, _, rfl, congrArg (fun x => some (Instr.ctz x)) (r_back 0x10 15 f)⟩
theorem popc (f : RForm) : Statement (.popc f) := by
  intro v h _; cases h; exact ⟨_, _, rfl, congrArg (fun x => some (Instr.popc x)) (r_back 0x10 16 f)⟩
theorem min (f : RForm) : Statement (.min f) := by
  intro v h _; cases h; exact ⟨_, _, rfl, congrArg (fun x => some (Instr.min x)) (r_back 0x10 17 f)⟩
theorem max (f : RForm) : Statement (.max f) := by
  intro v h _; cases h; exact ⟨_, _, rfl, congrArg (fun x => some (Instr.max x)) (r_back 0x10 18 f)⟩
theorem absd (f : RForm) : Statement (.absd f) := by
  intro v h _; cases h; exact ⟨_, _, rfl, congrArg (fun x => some (Instr.absd x)) (r_back 0x10 19 f)⟩
theorem cmp (f : RForm) : Statement (.cmp f) := by
  intro v h _; cases h; exact ⟨_, _, rfl, congrArg (fun x => some (Instr.cmp x)) (r_back 0x10 20 f)⟩
theorem sel (f : RForm) : Statement (.sel f) := by
  intro v h _; cases h; exact ⟨_, _, rfl, congrArg (fun x => some (Instr.sel x)) (r_back 0x10 21 f)⟩
theorem mov (f : RForm) : Statement (.mov f) := by
  intro v h _; cases h; exact ⟨_, _, rfl, congrArg (fun x => some (Instr.mov x)) (r_back 0x10 22 f)⟩
theorem ext (f : RForm) : Statement (.ext f) := by
  intro v h _; cases h; exact ⟨_, _, rfl, congrArg (fun x => some (Instr.ext x)) (r_back 0x10 23 f)⟩
theorem ins (f : RForm) : Statement (.ins f) := by
  intro v h _; cases h; exact ⟨_, _, rfl, congrArg (fun x => some (Instr.ins x)) (r_back 0x10 24 f)⟩
theorem lea (f : RForm) : Statement (.lea f) := by
  intro v h _; cases h; exact ⟨_, _, rfl, congrArg (fun x => some (Instr.lea x)) (r_back 0x10 25 f)⟩
theorem addImm (f : IForm) : Statement (.addImm f) := by
  intro v h _; cases h; exact ⟨_, _, rfl, congrArg (fun x => some (Instr.addImm x)) (i_back 0x11 0 f)⟩
theorem andImm (f : IForm) : Statement (.andImm f) := by
  intro v h _; cases h; exact ⟨_, _, rfl, congrArg (fun x => some (Instr.andImm x)) (i_back 0x11 1 f)⟩
theorem orImm (f : IForm) : Statement (.orImm f) := by
  intro v h _; cases h; exact ⟨_, _, rfl, congrArg (fun x => some (Instr.orImm x)) (i_back 0x11 2 f)⟩
theorem xorImm (f : IForm) : Statement (.xorImm f) := by
  intro v h _; cases h; exact ⟨_, _, rfl, congrArg (fun x => some (Instr.xorImm x)) (i_back 0x11 3 f)⟩
theorem shlImm (f : IForm) : Statement (.shlImm f) := by
  intro v h _; cases h; exact ⟨_, _, rfl, congrArg (fun x => some (Instr.shlImm x)) (i_back 0x11 4 f)⟩
theorem shrImm (f : IForm) : Statement (.shrImm f) := by
  intro v h _; cases h; exact ⟨_, _, rfl, congrArg (fun x => some (Instr.shrImm x)) (i_back 0x11 5 f)⟩
theorem sraImm (f : IForm) : Statement (.sraImm f) := by
  intro v h _; cases h; exact ⟨_, _, rfl, congrArg (fun x => some (Instr.sraImm x)) (i_back 0x11 6 f)⟩
theorem cmpImm (f : IForm) : Statement (.cmpImm f) := by
  intro v h _; cases h; exact ⟨_, _, rfl, congrArg (fun x => some (Instr.cmpImm x)) (i_back 0x11 7 f)⟩
theorem movi (f : IForm) : Statement (.movi f) := by
  intro v h _; cases h; exact ⟨_, _, rfl, congrArg (fun x => some (Instr.movi x)) (i_back 0x11 8 f)⟩
theorem leaImm (f : IForm) : Statement (.leaImm f) := by
  intro v h hs; cases h
  have hk : bits (0x11 * 2 ^ 56 + 9 * 2 ^ 50 + f.low) 24 24 = 0 := (i_mod 0x11 9 f).trans (low_bit _ false hs)
  exact ⟨_, _, rfl, (congrArg (fun n => (_ : List Instr)[n]?) hk).trans (congrArg (fun x => some (Instr.leaImm x)) (i_back 0x11 9 f))⟩
theorem leaPc (f : IForm) : Statement (.leaPc f) := by
  intro v h hs; cases h
  have hk : bits (0x11 * 2 ^ 56 + 9 * 2 ^ 50 + f.low) 24 24 = 1 := (i_mod 0x11 9 f).trans (low_bit _ true hs)
  exact ⟨_, _, rfl, (congrArg (fun n => (_ : List Instr)[n]?) hk).trans (congrArg (fun x => some (Instr.leaPc x)) (i_back 0x11 9 f))⟩
theorem kset (f : RForm) : Statement (.kset f) := by
  intro v h _; cases h; exact ⟨_, _, rfl, congrArg (fun x => some (Instr.kset x)) (r_back 0x12 0 f)⟩
theorem klog (f : RForm) : Statement (.klog f) := by
  intro v h _; cases h; exact ⟨_, _, rfl, congrArg (fun x => some (Instr.klog x)) (r_back 0x12 1 f)⟩
theorem kmov (f : RForm) : Statement (.kmov f) := by
  intro v h _; cases h; exact ⟨_, _, rfl, congrArg (fun x => some (Instr.kmov x)) (r_back 0x12 2 f)⟩
theorem kcnt (f : RForm) : Statement (.kcnt f) := by
  intro v h _; cases h; exact ⟨_, _, rfl, congrArg (fun x => some (Instr.kcnt x)) (r_back 0x12 3 f)⟩
theorem flag (f : RForm) : Statement (.flag f) := by
  intro v h _; cases h; exact ⟨_, _, rfl, congrArg (fun x => some (Instr.flag x)) (r_back 0x12 4 f)⟩
theorem empty (f : RForm) : Statement (.empty f) := by
  intro v h _; cases h; exact ⟨_, _, rfl, congrArg (fun x => some (Instr.empty x)) (r_back 0x12 5 f)⟩
theorem full (f : RForm) : Statement (.full f) := by
  intro v h _; cases h; exact ⟨_, _, rfl, congrArg (fun x => some (Instr.full x)) (r_back 0x12 6 f)⟩
theorem gets (f : SForm) : Statement (.gets f) := by
  intro v h _; cases h; exact ⟨_, _, rfl, congrArg (fun x => some (Instr.gets x)) (s_back 0x13 0 f)⟩
theorem sets (f : SForm) : Statement (.sets f) := by
  intro v h _; cases h; exact ⟨_, _, rfl, congrArg (fun x => some (Instr.sets x)) (s_back 0x13 1 f)⟩
theorem gettTicks (f : SForm) : Statement (.gettTicks f) := by
  intro v h hs; cases h
  have hk : bits (0x13 * 2 ^ 56 + 2 * 2 ^ 50 + f.low) 23 20 = 0 := (s_cnd 0x13 2 f).trans (by simpa using congrArg BitVec.toNat (eq_of_beq hs))
  exact ⟨_, _, rfl, (congrArg (fun n => (_ : List Instr)[n]?) hk).trans (congrArg (fun x => some (Instr.gettTicks x)) (s_back 0x13 2 f))⟩
theorem gettPtp (f : SForm) : Statement (.gettPtp f) := by
  intro v h hs; cases h
  have hk : bits (0x13 * 2 ^ 56 + 2 * 2 ^ 50 + f.low) 23 20 = 1 := (s_cnd 0x13 2 f).trans (by simpa using congrArg BitVec.toNat (eq_of_beq hs))
  exact ⟨_, _, rfl, (congrArg (fun n => (_ : List Instr)[n]?) hk).trans (congrArg (fun x => some (Instr.gettPtp x)) (s_back 0x13 2 f))⟩
theorem gettBoth (f : SForm) : Statement (.gettBoth f) := by
  intro v h hs; cases h
  have hk : bits (0x13 * 2 ^ 56 + 2 * 2 ^ 50 + f.low) 23 20 = 2 := (s_cnd 0x13 2 f).trans (by simpa using congrArg BitVec.toNat (eq_of_beq hs))
  exact ⟨_, _, rfl, (congrArg (fun n => (_ : List Instr)[n]?) hk).trans (congrArg (fun x => some (Instr.gettBoth x)) (s_back 0x13 2 f))⟩
theorem perf (f : SForm) : Statement (.perf f) := by
  intro v h _; cases h; exact ⟨_, _, rfl, congrArg (fun x => some (Instr.perf x)) (s_back 0x13 3 f)⟩
theorem guardEntry (f : SForm) : Statement (.guardEntry f) := by
  intro v h hs; cases h
  have hk : bits (0x40 * 2 ^ 56 + 0 * 2 ^ 50 + f.low) 23 20 = 0 := (s_cnd 0x40 0 f).trans (by simpa using congrArg BitVec.toNat (eq_of_beq hs))
  exact ⟨_, _, rfl, (congrArg (fun n => (_ : List Instr)[n]?) hk).trans (congrArg (fun x => some (Instr.guardEntry x)) (s_back 0x40 0 f))⟩
theorem guardTable (f : SForm) : Statement (.guardTable f) := by
  intro v h hs; cases h
  have hk : bits (0x40 * 2 ^ 56 + 0 * 2 ^ 50 + f.low) 23 20 = 1 := (s_cnd 0x40 0 f).trans (by simpa using congrArg BitVec.toNat (eq_of_beq hs))
  exact ⟨_, _, rfl, (congrArg (fun n => (_ : List Instr)[n]?) hk).trans (congrArg (fun x => some (Instr.guardTable x)) (s_back 0x40 0 f))⟩
theorem unguardOne (f : SForm) : Statement (.unguardOne f) := by
  intro v h hs; cases h
  have hk : bits (0x40 * 2 ^ 56 + 1 * 2 ^ 50 + f.low) 23 20 = 0 := (s_cnd 0x40 1 f).trans (by simpa using congrArg BitVec.toNat (eq_of_beq hs))
  exact ⟨_, _, rfl, (congrArg (fun n => (_ : List Instr)[n]?) hk).trans (congrArg (fun x => some (Instr.unguardOne x)) (s_back 0x40 1 f))⟩
theorem unguardMask (f : SForm) : Statement (.unguardMask f) := by
  intro v h hs; cases h
  have hk : bits (0x40 * 2 ^ 56 + 1 * 2 ^ 50 + f.low) 23 20 = 1 := (s_cnd 0x40 1 f).trans (by simpa using congrArg BitVec.toNat (eq_of_beq hs))
  exact ⟨_, _, rfl, (congrArg (fun n => (_ : List Instr)[n]?) hk).trans (congrArg (fun x => some (Instr.unguardMask x)) (s_back 0x40 1 f))⟩
theorem gqryEntry (f : SForm) : Statement (.gqryEntry f) := by
  intro v h hs; cases h
  have hk : bits (0x40 * 2 ^ 56 + 2 * 2 ^ 50 + f.low) 23 20 = 0 := (s_cnd 0x40 2 f).trans (by simpa using congrArg BitVec.toNat (eq_of_beq hs))
  exact ⟨_, _, rfl, (congrArg (fun n => (_ : List Instr)[n]?) hk).trans (congrArg (fun x => some (Instr.gqryEntry x)) (s_back 0x40 2 f))⟩
theorem gqryElig (f : SForm) : Statement (.gqryElig f) := by
  intro v h hs; cases h
  have hk : bits (0x40 * 2 ^ 56 + 2 * 2 ^ 50 + f.low) 23 20 = 1 := (s_cnd 0x40 2 f).trans (by simpa using congrArg BitVec.toNat (eq_of_beq hs))
  exact ⟨_, _, rfl, (congrArg (fun n => (_ : List Instr)[n]?) hk).trans (congrArg (fun x => some (Instr.gqryElig x)) (s_back 0x40 2 f))⟩
theorem ctxq (f : SForm) : Statement (.ctxq f) := by
  intro v h _; cases h; exact ⟨_, _, rfl, congrArg (fun x => some (Instr.ctxq x)) (s_back 0x40 3 f)⟩
theorem qpush (f : SForm) : Statement (.qpush f) := by
  intro v h _; cases h; exact ⟨_, _, rfl, congrArg (fun x => some (Instr.qpush x)) (s_back 0x50 0 f)⟩
theorem qpop (f : SForm) : Statement (.qpop f) := by
  intro v h _; cases h; exact ⟨_, _, rfl, congrArg (fun x => some (Instr.qpop x)) (s_back 0x50 1 f)⟩
theorem qpeek (f : SForm) : Statement (.qpeek f) := by
  intro v h _; cases h; exact ⟨_, _, rfl, congrArg (fun x => some (Instr.qpeek x)) (s_back 0x50 2 f)⟩
theorem qres (f : SForm) : Statement (.qres f) := by
  intro v h _; cases h; exact ⟨_, _, rfl, congrArg (fun x => some (Instr.qres x)) (s_back 0x50 3 f)⟩
theorem qrel (f : SForm) : Statement (.qrel f) := by
  intro v h _; cases h; exact ⟨_, _, rfl, congrArg (fun x => some (Instr.qrel x)) (s_back 0x50 4 f)⟩
theorem qeos (f : SForm) : Statement (.qeos f) := by
  intro v h _; cases h; exact ⟨_, _, rfl, congrArg (fun x => some (Instr.qeos x)) (s_back 0x50 5 f)⟩
theorem qcred (f : SForm) : Statement (.qcred f) := by
  intro v h _; cases h; exact ⟨_, _, rfl, congrArg (fun x => some (Instr.qcred x)) (s_back 0x50 6 f)⟩
theorem qbindPort (f : SForm) : Statement (.qbindPort f) := by
  intro v h hs; cases h
  have hk : bits (0x50 * 2 ^ 56 + 7 * 2 ^ 50 + f.low) 23 20 = 0 := (s_cnd 0x50 7 f).trans (by simpa using congrArg BitVec.toNat (eq_of_beq hs))
  exact ⟨_, _, rfl, (congrArg (fun n => (_ : List Instr)[n]?) hk).trans (congrArg (fun x => some (Instr.qbindPort x)) (s_back 0x50 7 f))⟩
theorem qbindHome (f : SForm) : Statement (.qbindHome f) := by
  intro v h hs; cases h
  have hk : bits (0x50 * 2 ^ 56 + 7 * 2 ^ 50 + f.low) 23 20 = 1 := (s_cnd 0x50 7 f).trans (by simpa using congrArg BitVec.toNat (eq_of_beq hs))
  exact ⟨_, _, rfl, (congrArg (fun n => (_ : List Instr)[n]?) hk).trans (congrArg (fun x => some (Instr.qbindHome x)) (s_back 0x50 7 f))⟩
theorem qbindTmpl (f : SForm) : Statement (.qbindTmpl f) := by
  intro v h hs; cases h
  have hk : bits (0x50 * 2 ^ 56 + 7 * 2 ^ 50 + f.low) 23 20 = 2 := (s_cnd 0x50 7 f).trans (by simpa using congrArg BitVec.toNat (eq_of_beq hs))
  exact ⟨_, _, rfl, (congrArg (fun n => (_ : List Instr)[n]?) hk).trans (congrArg (fun x => some (Instr.qbindTmpl x)) (s_back 0x50 7 f))⟩
theorem qunbind (f : SForm) : Statement (.qunbind f) := by
  intro v h _; cases h; exact ⟨_, _, rfl, congrArg (fun x => some (Instr.qunbind x)) (s_back 0x50 8 f)⟩
theorem qstat (f : SForm) : Statement (.qstat f) := by
  intro v h _; cases h; exact ⟨_, _, rfl, congrArg (fun x => some (Instr.qstat x)) (s_back 0x50 9 f)⟩
theorem qfwd (f : SForm) : Statement (.qfwd f) := by
  intro v h _; cases h; exact ⟨_, _, rfl, congrArg (fun x => some (Instr.qfwd x)) (s_back 0x50 10 f)⟩
theorem mcadd (f : SForm) : Statement (.mcadd f) := by
  intro v h _; cases h; exact ⟨_, _, rfl, congrArg (fun x => some (Instr.mcadd x)) (s_back 0x60 0 f)⟩
theorem mcread (f : SForm) : Statement (.mcread f) := by
  intro v h _; cases h; exact ⟨_, _, rfl, congrArg (fun x => some (Instr.mcread x)) (s_back 0x60 1 f)⟩
theorem wcond (f : SForm) : Statement (.wcond f) := by
  intro v h _; cases h; exact ⟨_, _, rfl, congrArg (fun x => some (Instr.wcond x)) (s_back 0x60 2 f)⟩
theorem wait (f : SForm) : Statement (.wait f) := by
  intro v h _; cases h; exact ⟨_, _, rfl, congrArg (fun x => some (Instr.wait x)) (s_back 0x60 3 f)⟩
theorem eread (f : SForm) : Statement (.eread f) := by
  intro v h _; cases h; exact ⟨_, _, rfl, congrArg (fun x => some (Instr.eread x)) (s_back 0x60 4 f)⟩
theorem eclr (f : SForm) : Statement (.eclr f) := by
  intro v h _; cases h; exact ⟨_, _, rfl, congrArg (fun x => some (Instr.eclr x)) (s_back 0x60 5 f)⟩
theorem lease (f : SForm) : Statement (.lease f) := by
  intro v h _; cases h; exact ⟨_, _, rfl, congrArg (fun x => some (Instr.lease x)) (s_back 0x68 0 f)⟩
theorem lrenew (f : SForm) : Statement (.lrenew f) := by
  intro v h _; cases h; exact ⟨_, _, rfl, congrArg (fun x => some (Instr.lrenew x)) (s_back 0x68 1 f)⟩
theorem lfreeHeld (f : SForm) : Statement (.lfreeHeld f) := by
  intro v h hs; cases h
  have hk : bits (0x68 * 2 ^ 56 + 2 * 2 ^ 50 + f.low) 23 20 = 0 := (s_cnd 0x68 2 f).trans (by simpa using congrArg BitVec.toNat (eq_of_beq hs))
  exact ⟨_, _, rfl, (congrArg (fun n => (_ : List Instr)[n]?) hk).trans (congrArg (fun x => some (Instr.lfreeHeld x)) (s_back 0x68 2 f))⟩
theorem lfreePend (f : SForm) : Statement (.lfreePend f) := by
  intro v h hs; cases h
  have hk : bits (0x68 * 2 ^ 56 + 2 * 2 ^ 50 + f.low) 23 20 = 1 := (s_cnd 0x68 2 f).trans (by simpa using congrArg BitVec.toNat (eq_of_beq hs))
  exact ⟨_, _, rfl, (congrArg (fun n => (_ : List Instr)[n]?) hk).trans (congrArg (fun x => some (Instr.lfreePend x)) (s_back 0x68 2 f))⟩
theorem lqryLease (f : SForm) : Statement (.lqryLease f) := by
  intro v h hs; cases h
  have hk : bits (0x68 * 2 ^ 56 + 3 * 2 ^ 50 + f.low) 23 20 = 0 := (s_cnd 0x68 3 f).trans (by simpa using congrArg BitVec.toNat (eq_of_beq hs))
  exact ⟨_, _, rfl, (congrArg (fun n => (_ : List Instr)[n]?) hk).trans (congrArg (fun x => some (Instr.lqryLease x)) (s_back 0x68 3 f))⟩
theorem lqryCls (f : SForm) : Statement (.lqryCls f) := by
  intro v h hs; cases h
  have hk : bits (0x68 * 2 ^ 56 + 3 * 2 ^ 50 + f.low) 23 20 = 1 := (s_cnd 0x68 3 f).trans (by simpa using congrArg BitVec.toNat (eq_of_beq hs))
  exact ⟨_, _, rfl, (congrArg (fun n => (_ : List Instr)[n]?) hk).trans (congrArg (fun x => some (Instr.lqryCls x)) (s_back 0x68 3 f))⟩
theorem evackNow (f : SForm) : Statement (.evackNow f) := by
  intro v h hs; cases h
  have hk : bits (0x68 * 2 ^ 56 + 4 * 2 ^ 50 + f.low) 23 20 = 0 := (s_cnd 0x68 4 f).trans (by simpa using congrArg BitVec.toNat (eq_of_beq hs))
  exact ⟨_, _, rfl, (congrArg (fun n => (_ : List Instr)[n]?) hk).trans (congrArg (fun x => some (Instr.evackNow x)) (s_back 0x68 4 f))⟩
theorem evackDrain (f : SForm) : Statement (.evackDrain f) := by
  intro v h hs; cases h
  have hk : bits (0x68 * 2 ^ 56 + 4 * 2 ^ 50 + f.low) 23 20 = 1 := (s_cnd 0x68 4 f).trans (by simpa using congrArg BitVec.toNat (eq_of_beq hs))
  exact ⟨_, _, rfl, (congrArg (fun n => (_ : List Instr)[n]?) hk).trans (congrArg (fun x => some (Instr.evackDrain x)) (s_back 0x68 4 f))⟩
theorem rast (f : SForm) : Statement (.rast f) := by
  intro v h _; cases h; exact ⟨_, _, rfl, congrArg (fun x => some (Instr.rast x)) (s_back 0x68 5 f)⟩
theorem trace (f : SForm) : Statement (.trace f) := by
  intro v h _; cases h; exact ⟨_, _, rfl, congrArg (fun x => some (Instr.trace x)) (s_back 0x68 6 f)⟩
theorem sample (f : SForm) : Statement (.sample f) := by
  intro v h _; cases h; exact ⟨_, _, rfl, congrArg (fun x => some (Instr.sample x)) (s_back 0x68 7 f)⟩
theorem codec (f : SForm) : Statement (.codec f) := by
  intro v h _; cases h; exact ⟨_, _, rfl, congrArg (fun x => some (Instr.codec x)) (s_back 0x68 8 f)⟩
theorem spawn (f : SForm) : Statement (.spawn f) := by
  intro v h _; cases h; exact ⟨_, _, rfl, congrArg (fun x => some (Instr.spawn x)) (s_back 0x70 0 f)⟩
theorem gload (f : SForm) : Statement (.gload f) := by
  intro v h _; cases h; exact ⟨_, _, rfl, congrArg (fun x => some (Instr.gload x)) (s_back 0x70 1 f)⟩
theorem garm (f : SForm) : Statement (.garm f) := by
  intro v h _; cases h; exact ⟨_, _, rfl, congrArg (fun x => some (Instr.garm x)) (s_back 0x70 2 f)⟩
theorem gdrainGraph (f : SForm) : Statement (.gdrainGraph f) := by
  intro v h hs; cases h
  have hk : bits (0x70 * 2 ^ 56 + 3 * 2 ^ 50 + f.low) 23 20 = 0 := (s_cnd 0x70 3 f).trans (by simpa using congrArg BitVec.toNat (eq_of_beq hs))
  exact ⟨_, _, rfl, (congrArg (fun n => (_ : List Instr)[n]?) hk).trans (congrArg (fun x => some (Instr.gdrainGraph x)) (s_back 0x70 3 f))⟩
theorem gdrainQdrain (f : SForm) : Statement (.gdrainQdrain f) := by
  intro v h hs; cases h
  have hk : bits (0x70 * 2 ^ 56 + 3 * 2 ^ 50 + f.low) 23 20 = 1 := (s_cnd 0x70 3 f).trans (by simpa using congrArg BitVec.toNat (eq_of_beq hs))
  exact ⟨_, _, rfl, (congrArg (fun n => (_ : List Instr)[n]?) hk).trans (congrArg (fun x => some (Instr.gdrainQdrain x)) (s_back 0x70 3 f))⟩
theorem gdrainQabort (f : SForm) : Statement (.gdrainQabort f) := by
  intro v h hs; cases h
  have hk : bits (0x70 * 2 ^ 56 + 3 * 2 ^ 50 + f.low) 23 20 = 2 := (s_cnd 0x70 3 f).trans (by simpa using congrArg BitVec.toNat (eq_of_beq hs))
  exact ⟨_, _, rfl, (congrArg (fun n => (_ : List Instr)[n]?) hk).trans (congrArg (fun x => some (Instr.gdrainQabort x)) (s_back 0x70 3 f))⟩
theorem gstart (f : SForm) : Statement (.gstart f) := by
  intro v h _; cases h; exact ⟨_, _, rfl, congrArg (fun x => some (Instr.gstart x)) (s_back 0x70 4 f)⟩
theorem placePin (f : SForm) : Statement (.placePin f) := by
  intro v h hs; cases h
  have hk : bits (0x70 * 2 ^ 56 + 5 * 2 ^ 50 + f.low) 23 20 = 0 := (s_cnd 0x70 5 f).trans (by simpa using congrArg BitVec.toNat (eq_of_beq hs))
  exact ⟨_, _, rfl, (congrArg (fun n => (_ : List Instr)[n]?) hk).trans (congrArg (fun x => some (Instr.placePin x)) (s_back 0x70 5 f))⟩
theorem placeHint (f : SForm) : Statement (.placeHint f) := by
  intro v h hs; cases h
  have hk : bits (0x70 * 2 ^ 56 + 5 * 2 ^ 50 + f.low) 23 20 = 1 := (s_cnd 0x70 5 f).trans (by simpa using congrArg BitVec.toNat (eq_of_beq hs))
  exact ⟨_, _, rfl, (congrArg (fun n => (_ : List Instr)[n]?) hk).trans (congrArg (fun x => some (Instr.placeHint x)) (s_back 0x70 5 f))⟩
theorem placeFree (f : SForm) : Statement (.placeFree f) := by
  intro v h hs; cases h
  have hk : bits (0x70 * 2 ^ 56 + 5 * 2 ^ 50 + f.low) 23 20 = 2 := (s_cnd 0x70 5 f).trans (by simpa using congrArg BitVec.toNat (eq_of_beq hs))
  exact ⟨_, _, rfl, (congrArg (fun n => (_ : List Instr)[n]?) hk).trans (congrArg (fun x => some (Instr.placeFree x)) (s_back 0x70 5 f))⟩
theorem placeOwn (f : SForm) : Statement (.placeOwn f) := by
  intro v h hs; cases h
  have hk : bits (0x70 * 2 ^ 56 + 5 * 2 ^ 50 + f.low) 23 20 = 3 := (s_cnd 0x70 5 f).trans (by simpa using congrArg BitVec.toNat (eq_of_beq hs))
  exact ⟨_, _, rfl, (congrArg (fun n => (_ : List Instr)[n]?) hk).trans (congrArg (fun x => some (Instr.placeOwn x)) (s_back 0x70 5 f))⟩
theorem lstatLaunch (f : SForm) : Statement (.lstatLaunch f) := by
  intro v h hs; cases h
  have hk : bits (0x70 * 2 ^ 56 + 6 * 2 ^ 50 + f.low) 23 20 = 0 := (s_cnd 0x70 6 f).trans (by simpa using congrArg BitVec.toNat (eq_of_beq hs))
  exact ⟨_, _, rfl, (congrArg (fun n => (_ : List Instr)[n]?) hk).trans (congrArg (fun x => some (Instr.lstatLaunch x)) (s_back 0x70 6 f))⟩
theorem lstatGraph (f : SForm) : Statement (.lstatGraph f) := by
  intro v h hs; cases h
  have hk : bits (0x70 * 2 ^ 56 + 6 * 2 ^ 50 + f.low) 23 20 = 1 := (s_cnd 0x70 6 f).trans (by simpa using congrArg BitVec.toNat (eq_of_beq hs))
  exact ⟨_, _, rfl, (congrArg (fun n => (_ : List Instr)[n]?) hk).trans (congrArg (fun x => some (Instr.lstatGraph x)) (s_back 0x70 6 f))⟩
theorem vadd (f : RForm) : Statement (.vadd f) := by
  intro v h _; cases h; exact ⟨_, _, rfl, congrArg (fun x => some (Instr.vadd x)) (r_back 0x80 0 f)⟩
theorem vsub (f : RForm) : Statement (.vsub f) := by
  intro v h _; cases h; exact ⟨_, _, rfl, congrArg (fun x => some (Instr.vsub x)) (r_back 0x80 1 f)⟩
theorem vmul (f : RForm) : Statement (.vmul f) := by
  intro v h _; cases h; exact ⟨_, _, rfl, congrArg (fun x => some (Instr.vmul x)) (r_back 0x80 2 f)⟩
theorem vmulh (f : RForm) : Statement (.vmulh f) := by
  intro v h _; cases h; exact ⟨_, _, rfl, congrArg (fun x => some (Instr.vmulh x)) (r_back 0x80 3 f)⟩
theorem vmad (f : RForm) : Statement (.vmad f) := by
  intro v h _; cases h; exact ⟨_, _, rfl, congrArg (fun x => some (Instr.vmad x)) (r_back 0x80 4 f)⟩
theorem vand (f : RForm) : Statement (.vand f) := by
  intro v h _; cases h; exact ⟨_, _, rfl, congrArg (fun x => some (Instr.vand x)) (r_back 0x80 5 f)⟩
theorem vor (f : RForm) : Statement (.vor f) := by
  intro v h _; cases h; exact ⟨_, _, rfl, congrArg (fun x => some (Instr.vor x)) (r_back 0x80 6 f)⟩
theorem vxor (f : RForm) : Statement (.vxor f) := by
  intro v h _; cases h; exact ⟨_, _, rfl, congrArg (fun x => some (Instr.vxor x)) (r_back 0x80 7 f)⟩
theorem vshl (f : RForm) : Statement (.vshl f) := by
  intro v h _; cases h; exact ⟨_, _, rfl, congrArg (fun x => some (Instr.vshl x)) (r_back 0x80 8 f)⟩
theorem vshr (f : RForm) : Statement (.vshr f) := by
  intro v h _; cases h; exact ⟨_, _, rfl, congrArg (fun x => some (Instr.vshr x)) (r_back 0x80 9 f)⟩
theorem vsra (f : RForm) : Statement (.vsra f) := by
  intro v h _; cases h; exact ⟨_, _, rfl, congrArg (fun x => some (Instr.vsra x)) (r_back 0x80 10 f)⟩
theorem vmin (f : RForm) : Statement (.vmin f) := by
  intro v h _; cases h; exact ⟨_, _, rfl, congrArg (fun x => some (Instr.vmin x)) (r_back 0x80 11 f)⟩
theorem vmax (f : RForm) : Statement (.vmax f) := by
  intro v h _; cases h; exact ⟨_, _, rfl, congrArg (fun x => some (Instr.vmax x)) (r_back 0x80 12 f)⟩
theorem vabs (f : RForm) : Statement (.vabs f) := by
  intro v h _; cases h; exact ⟨_, _, rfl, congrArg (fun x => some (Instr.vabs x)) (r_back 0x80 13 f)⟩
theorem vcmp (f : RForm) : Statement (.vcmp f) := by
  intro v h _; cases h; exact ⟨_, _, rfl, congrArg (fun x => some (Instr.vcmp x)) (r_back 0x80 14 f)⟩
theorem vsel (f : RForm) : Statement (.vsel f) := by
  intro v h _; cases h; exact ⟨_, _, rfl, congrArg (fun x => some (Instr.vsel x)) (r_back 0x80 15 f)⟩
theorem vmov (f : RForm) : Statement (.vmov f) := by
  intro v h _; cases h; exact ⟨_, _, rfl, congrArg (fun x => some (Instr.vmov x)) (r_back 0x80 16 f)⟩
theorem vpopc (f : RForm) : Statement (.vpopc f) := by
  intro v h _; cases h; exact ⟨_, _, rfl, congrArg (fun x => some (Instr.vpopc x)) (r_back 0x80 17 f)⟩
theorem fadd (f : RForm) : Statement (.fadd f) := by
  intro v h _; cases h; exact ⟨_, _, rfl, congrArg (fun x => some (Instr.fadd x)) (r_back 0x81 0 f)⟩
theorem fsub (f : RForm) : Statement (.fsub f) := by
  intro v h _; cases h; exact ⟨_, _, rfl, congrArg (fun x => some (Instr.fsub x)) (r_back 0x81 1 f)⟩
theorem fmul (f : RForm) : Statement (.fmul f) := by
  intro v h _; cases h; exact ⟨_, _, rfl, congrArg (fun x => some (Instr.fmul x)) (r_back 0x81 2 f)⟩
theorem ffma (f : RForm) : Statement (.ffma f) := by
  intro v h _; cases h; exact ⟨_, _, rfl, congrArg (fun x => some (Instr.ffma x)) (r_back 0x81 3 f)⟩
theorem fmin (f : RForm) : Statement (.fmin f) := by
  intro v h _; cases h; exact ⟨_, _, rfl, congrArg (fun x => some (Instr.fmin x)) (r_back 0x81 4 f)⟩
theorem fmax (f : RForm) : Statement (.fmax f) := by
  intro v h _; cases h; exact ⟨_, _, rfl, congrArg (fun x => some (Instr.fmax x)) (r_back 0x81 5 f)⟩
theorem fsgn (f : RForm) : Statement (.fsgn f) := by
  intro v h _; cases h; exact ⟨_, _, rfl, congrArg (fun x => some (Instr.fsgn x)) (r_back 0x81 6 f)⟩
theorem fcmp (f : RForm) : Statement (.fcmp f) := by
  intro v h _; cases h; exact ⟨_, _, rfl, congrArg (fun x => some (Instr.fcmp x)) (r_back 0x81 7 f)⟩
theorem fclass (f : RForm) : Statement (.fclass f) := by
  intro v h _; cases h; exact ⟨_, _, rfl, congrArg (fun x => some (Instr.fclass x)) (r_back 0x81 8 f)⟩
theorem frcps (f : RForm) : Statement (.frcps f) := by
  intro v h _; cases h; exact ⟨_, _, rfl, congrArg (fun x => some (Instr.frcps x)) (r_back 0x81 9 f)⟩
theorem frsqs (f : RForm) : Statement (.frsqs f) := by
  intro v h _; cases h; exact ⟨_, _, rfl, congrArg (fun x => some (Instr.frsqs x)) (r_back 0x81 10 f)⟩
theorem fexp2 (f : RForm) : Statement (.fexp2 f) := by
  intro v h _; cases h; exact ⟨_, _, rfl, congrArg (fun x => some (Instr.fexp2 x)) (r_back 0x81 11 f)⟩
theorem flog2 (f : RForm) : Statement (.flog2 f) := by
  intro v h _; cases h; exact ⟨_, _, rfl, congrArg (fun x => some (Instr.flog2 x)) (r_back 0x81 12 f)⟩
theorem fsinp (f : RForm) : Statement (.fsinp f) := by
  intro v h _; cases h; exact ⟨_, _, rfl, congrArg (fun x => some (Instr.fsinp x)) (r_back 0x81 13 f)⟩
theorem fcosp (f : RForm) : Statement (.fcosp f) := by
  intro v h _; cases h; exact ⟨_, _, rfl, congrArg (fun x => some (Instr.fcosp x)) (r_back 0x81 14 f)⟩
theorem frnd (f : RForm) : Statement (.frnd f) := by
  intro v h _; cases h; exact ⟨_, _, rfl, congrArg (fun x => some (Instr.frnd x)) (r_back 0x81 15 f)⟩
theorem vbcast (f : RForm) : Statement (.vbcast f) := by
  intro v h _; cases h; exact ⟨_, _, rfl, congrArg (fun x => some (Instr.vbcast x)) (r_back 0x82 0 f)⟩
theorem vperm (f : RForm) : Statement (.vperm f) := by
  intro v h _; cases h; exact ⟨_, _, rfl, congrArg (fun x => some (Instr.vperm x)) (r_back 0x82 1 f)⟩
theorem vrot (f : RForm) : Statement (.vrot f) := by
  intro v h _; cases h; exact ⟨_, _, rfl, congrArg (fun x => some (Instr.vrot x)) (r_back 0x82 2 f)⟩
theorem vred (f : RForm) : Statement (.vred f) := by
  intro v h _; cases h; exact ⟨_, _, rfl, congrArg (fun x => some (Instr.vred x)) (r_back 0x82 3 f)⟩
theorem vscan (f : RForm) : Statement (.vscan f) := by
  intro v h _; cases h; exact ⟨_, _, rfl, congrArg (fun x => some (Instr.vscan x)) (r_back 0x82 4 f)⟩
theorem vextl (f : RForm) : Statement (.vextl f) := by
  intro v h _; cases h; exact ⟨_, _, rfl, congrArg (fun x => some (Instr.vextl x)) (r_back 0x82 5 f)⟩
theorem vinsl (f : RForm) : Statement (.vinsl f) := by
  intro v h _; cases h; exact ⟨_, _, rfl, congrArg (fun x => some (Instr.vinsl x)) (r_back 0x82 6 f)⟩
theorem cvt (f : RForm) : Statement (.cvt f) := by
  intro v h _; cases h; exact ⟨_, _, rfl, congrArg (fun x => some (Instr.cvt x)) (r_back 0x83 0 f)⟩
theorem cvtq (f : RForm) : Statement (.cvtq f) := by
  intro v h _; cases h; exact ⟨_, _, rfl, congrArg (fun x => some (Instr.cvtq x)) (r_back 0x83 1 f)⟩
theorem cvtd (f : RForm) : Statement (.cvtd f) := by
  intro v h _; cases h; exact ⟨_, _, rfl, congrArg (fun x => some (Instr.cvtd x)) (r_back 0x83 2 f)⟩
theorem pack (f : RForm) : Statement (.pack f) := by
  intro v h _; cases h; exact ⟨_, _, rfl, congrArg (fun x => some (Instr.pack x)) (r_back 0x83 3 f)⟩
theorem unpack (f : RForm) : Statement (.unpack f) := by
  intro v h _; cases h; exact ⟨_, _, rfl, congrArg (fun x => some (Instr.unpack x)) (r_back 0x83 4 f)⟩
theorem amax (f : RForm) : Statement (.amax f) := by
  intro v h _; cases h; exact ⟨_, _, rfl, congrArg (fun x => some (Instr.amax x)) (r_back 0x83 5 f)⟩
theorem scale (f : RForm) : Statement (.scale f) := by
  intro v h _; cases h; exact ⟨_, _, rfl, congrArg (fun x => some (Instr.scale x)) (r_back 0x83 6 f)⟩
theorem mxlds (f : XForm) : Statement (.mxlds f) := by
  intro v h _; cases h; exact ⟨_, _, rfl, congrArg (fun x => some (Instr.mxlds x)) (x_back 0xC0 0 f)⟩
theorem mxswap (f : XForm) : Statement (.mxswap f) := by
  intro v h _; cases h; exact ⟨_, _, rfl, congrArg (fun x => some (Instr.mxswap x)) (x_back 0xC0 1 f)⟩
theorem mxstrm (f : XForm) : Statement (.mxstrm f) := by
  intro v h _; cases h; exact ⟨_, _, rfl, congrArg (fun x => some (Instr.mxstrm x)) (x_back 0xC0 2 f)⟩
theorem mxtile (f : XForm) : Statement (.mxtile f) := by
  intro v h _; cases h; exact ⟨_, _, rfl, congrArg (fun x => some (Instr.mxtile x)) (x_back 0xC0 3 f)⟩
theorem mxzero (f : XForm) : Statement (.mxzero f) := by
  intro v h _; cases h; exact ⟨_, _, rfl, congrArg (fun x => some (Instr.mxzero x)) (x_back 0xC0 4 f)⟩
theorem mxrd (f : XForm) : Statement (.mxrd f) := by
  intro v h _; cases h; exact ⟨_, _, rfl, congrArg (fun x => some (Instr.mxrd x)) (x_back 0xC0 5 f)⟩
theorem mxwr (f : XForm) : Statement (.mxwr f) := by
  intro v h _; cases h; exact ⟨_, _, rfl, congrArg (fun x => some (Instr.mxwr x)) (x_back 0xC0 6 f)⟩
theorem mxtrn (f : XForm) : Statement (.mxtrn f) := by
  intro v h _; cases h; exact ⟨_, _, rfl, congrArg (fun x => some (Instr.mxtrn x)) (x_back 0xC0 7 f)⟩
theorem mxperm (f : XForm) : Statement (.mxperm f) := by
  intro v h _; cases h; exact ⟨_, _, rfl, congrArg (fun x => some (Instr.mxperm x)) (x_back 0xC0 8 f)⟩
theorem mxrred (f : XForm) : Statement (.mxrred f) := by
  intro v h _; cases h; exact ⟨_, _, rfl, congrArg (fun x => some (Instr.mxrred x)) (x_back 0xC0 9 f)⟩
theorem mxescWiden (f : XForm) : Statement (.mxescWiden f) := by
  intro v h hs; cases h
  have hk : bits (0xC0 * 2 ^ 56 + 10 * 2 ^ 50 + f.low) 0 0 = 0 := (x_mod 0xC0 10 f 0 (by omega)).trans (low_bit _ false hs)
  exact ⟨_, _, rfl, (congrArg (fun n => (_ : List Instr)[n]?) hk).trans (congrArg (fun x => some (Instr.mxescWiden x)) (x_back 0xC0 10 f))⟩
theorem mxescNarrow (f : XForm) : Statement (.mxescNarrow f) := by
  intro v h hs; cases h
  have hk : bits (0xC0 * 2 ^ 56 + 10 * 2 ^ 50 + f.low) 0 0 = 1 := (x_mod 0xC0 10 f 0 (by omega)).trans (low_bit _ true hs)
  exact ⟨_, _, rfl, (congrArg (fun n => (_ : List Instr)[n]?) hk).trans (congrArg (fun x => some (Instr.mxescNarrow x)) (x_back 0xC0 10 f))⟩
theorem mxtok (f : XForm) : Statement (.mxtok f) := by
  intro v h _; cases h; exact ⟨_, _, rfl, congrArg (fun x => some (Instr.mxtok x)) (x_back 0xC0 11 f)⟩
theorem bdrdBnd (f : XForm) : Statement (.bdrdBnd f) := by
  intro v h hs; cases h
  have hk : bits (0xC1 * 2 ^ 56 + 0 * 2 ^ 50 + f.low) 0 0 = 0 := (x_mod 0xC1 0 f 0 (by omega)).trans (low_bit _ false hs)
  exact ⟨_, _, rfl, (congrArg (fun n => (_ : List Instr)[n]?) hk).trans (congrArg (fun x => some (Instr.bdrdBnd x)) (x_back 0xC1 0 f))⟩
theorem bdrdStat (f : XForm) : Statement (.bdrdStat f) := by
  intro v h hs; cases h
  have hk : bits (0xC1 * 2 ^ 56 + 0 * 2 ^ 50 + f.low) 0 0 = 1 := (x_mod 0xC1 0 f 0 (by omega)).trans (low_bit _ true hs)
  exact ⟨_, _, rfl, (congrArg (fun n => (_ : List Instr)[n]?) hk).trans (congrArg (fun x => some (Instr.bdrdStat x)) (x_back 0xC1 0 f))⟩
theorem bdwr (f : XForm) : Statement (.bdwr f) := by
  intro v h _; cases h; exact ⟨_, _, rfl, congrArg (fun x => some (Instr.bdwr x)) (x_back 0xC1 1 f)⟩
theorem bdthr (f : XForm) : Statement (.bdthr f) := by
  intro v h _; cases h; exact ⟨_, _, rfl, congrArg (fun x => some (Instr.bdthr x)) (x_back 0xC1 2 f)⟩
theorem bdst (f : XForm) : Statement (.bdst f) := by
  intro v h _; cases h; exact ⟨_, _, rfl, congrArg (fun x => some (Instr.bdst x)) (x_back 0xC1 3 f)⟩
theorem bdld (f : XForm) : Statement (.bdld f) := by
  intro v h _; cases h; exact ⟨_, _, rfl, congrArg (fun x => some (Instr.bdld x)) (x_back 0xC1 4 f)⟩
theorem bdpropCvt (f : XForm) : Statement (.bdpropCvt f) := by
  intro v h hs; cases h
  have hk : bits (0xC1 * 2 ^ 56 + 5 * 2 ^ 50 + f.low) 1 0 = 0 := (x_mod 0xC1 5 f 1 (by omega)).trans (low_two _ _ hs)
  exact ⟨_, _, rfl, (congrArg (fun n => (_ : List Instr)[n]?) hk).trans (congrArg (fun x => some (Instr.bdpropCvt x)) (x_back 0xC1 5 f))⟩
theorem bdpropScale (f : XForm) : Statement (.bdpropScale f) := by
  intro v h hs; cases h
  have hk : bits (0xC1 * 2 ^ 56 + 5 * 2 ^ 50 + f.low) 1 0 = 1 := (x_mod 0xC1 5 f 1 (by omega)).trans (low_two _ _ hs)
  exact ⟨_, _, rfl, (congrArg (fun n => (_ : List Instr)[n]?) hk).trans (congrArg (fun x => some (Instr.bdpropScale x)) (x_back 0xC1 5 f))⟩
theorem bdpropSum (f : XForm) : Statement (.bdpropSum f) := by
  intro v h hs; cases h
  have hk : bits (0xC1 * 2 ^ 56 + 5 * 2 ^ 50 + f.low) 1 0 = 2 := (x_mod 0xC1 5 f 1 (by omega)).trans (low_two _ _ hs)
  exact ⟨_, _, rfl, (congrArg (fun n => (_ : List Instr)[n]?) hk).trans (congrArg (fun x => some (Instr.bdpropSum x)) (x_back 0xC1 5 f))⟩
theorem ld (f : MForm) : Statement (.ld f) := by
  intro v h _; cases h; exact ⟨_, _, rfl, congrArg (fun x => some (Instr.ld x)) (m_back 0xD0 0 f)⟩
theorem vld (f : MForm) : Statement (.vld f) := by
  intro v h _; cases h; exact ⟨_, _, rfl, congrArg (fun x => some (Instr.vld x)) (m_back 0xD0 1 f)⟩
theorem vldx (f : MForm) : Statement (.vldx f) := by
  intro v h _; cases h; exact ⟨_, _, rfl, congrArg (fun x => some (Instr.vldx x)) (m_back 0xD0 2 f)⟩
theorem st (f : MForm) : Statement (.st f) := by
  intro v h _; cases h; exact ⟨_, _, rfl, congrArg (fun x => some (Instr.st x)) (m_back 0xD1 0 f)⟩
theorem vst (f : MForm) : Statement (.vst f) := by
  intro v h _; cases h; exact ⟨_, _, rfl, congrArg (fun x => some (Instr.vst x)) (m_back 0xD1 1 f)⟩
theorem vstx (f : MForm) : Statement (.vstx f) := by
  intro v h _; cases h; exact ⟨_, _, rfl, congrArg (fun x => some (Instr.vstx x)) (m_back 0xD1 2 f)⟩
theorem atom (f : MForm) : Statement (.atom f) := by
  intro v h _; cases h; exact ⟨_, _, rfl, congrArg (fun x => some (Instr.atom x)) (m_back 0xD2 0 f)⟩
theorem atomr (f : MForm) : Statement (.atomr f) := by
  intro v h _; cases h; exact ⟨_, _, rfl, congrArg (fun x => some (Instr.atomr x)) (m_back 0xD2 1 f)⟩
theorem cas (f : MForm) : Statement (.cas f) := by
  intro v h _; cases h; exact ⟨_, _, rfl, congrArg (fun x => some (Instr.cas x)) (m_back 0xD2 2 f)⟩
theorem copy (f : MForm) : Statement (.copy f) := by
  intro v h _; cases h; exact ⟨_, _, rfl, congrArg (fun x => some (Instr.copy x)) (m_back 0xD3 0 f)⟩
theorem chain (f : MForm) : Statement (.chain f) := by
  intro v h _; cases h; exact ⟨_, _, rfl, congrArg (fun x => some (Instr.chain x)) (m_back 0xD3 1 f)⟩
theorem awarm (f : MForm) : Statement (.awarm f) := by
  intro v h _; cases h; exact ⟨_, _, rfl, congrArg (fun x => some (Instr.awarm x)) (m_back 0xD3 2 f)⟩
theorem awcred (f : MForm) : Statement (.awcred f) := by
  intro v h _; cases h; exact ⟨_, _, rfl, congrArg (fun x => some (Instr.awcred x)) (m_back 0xD3 3 f)⟩
theorem fence (f : MForm) : Statement (.fence f) := by
  intro v h _; cases h; exact ⟨_, _, rfl, congrArg (fun x => some (Instr.fence x)) (m_back 0xD4 0 f)⟩
theorem pref (f : MForm) : Statement (.pref f) := by
  intro v h _; cases h; exact ⟨_, _, rfl, congrArg (fun x => some (Instr.pref x)) (m_back 0xD4 1 f)⟩
theorem cwb (f : MForm) : Statement (.cwb f) := by
  intro v h _; cases h; exact ⟨_, _, rfl, congrArg (fun x => some (Instr.cwb x)) (m_back 0xD4 2 f)⟩
theorem cinv (f : MForm) : Statement (.cinv f) := by
  intro v h _; cases h; exact ⟨_, _, rfl, congrArg (fun x => some (Instr.cinv x)) (m_back 0xD4 3 f)⟩
theorem cflush (f : MForm) : Statement (.cflush f) := by
  intro v h _; cases h; exact ⟨_, _, rfl, congrArg (fun x => some (Instr.cflush x)) (m_back 0xD4 4 f)⟩
theorem bankcfg (f : MForm) : Statement (.bankcfg f) := by
  intro v h _; cases h; exact ⟨_, _, rfl, congrArg (fun x => some (Instr.bankcfg x)) (m_back 0xD4 5 f)⟩
theorem blend (f : MForm) : Statement (.blend f) := by
  intro v h _; cases h; exact ⟨_, _, rfl, congrArg (fun x => some (Instr.blend x)) (m_back 0xD4 6 f)⟩
theorem seqret (f : MForm) : Statement (.seqret f) := by
  intro v h _; cases h; exact ⟨_, _, rfl, congrArg (fun x => some (Instr.seqret x)) (m_back 0xD4 7 f)⟩
theorem assetMake (f : SForm) : Statement (.assetMake f) := by
  intro v h hs; cases h
  have hk : bits (0xE0 * 2 ^ 56 + 0 * 2 ^ 50 + f.low) 23 20 = 0 := (s_cnd 0xE0 0 f).trans (by simpa using congrArg BitVec.toNat (eq_of_beq hs))
  exact ⟨_, _, rfl, (congrArg (fun n => (_ : List Instr)[n]?) hk).trans (congrArg (fun x => some (Instr.assetMake x)) (s_back 0xE0 0 f))⟩
theorem assetRoot (f : SForm) : Statement (.assetRoot f) := by
  intro v h hs; cases h
  have hk : bits (0xE0 * 2 ^ 56 + 0 * 2 ^ 50 + f.low) 23 20 = 1 := (s_cnd 0xE0 0 f).trans (by simpa using congrArg BitVec.toNat (eq_of_beq hs))
  exact ⟨_, _, rfl, (congrArg (fun n => (_ : List Instr)[n]?) hk).trans (congrArg (fun x => some (Instr.assetRoot x)) (s_back 0xE0 0 f))⟩
theorem assetKill (f : SForm) : Statement (.assetKill f) := by
  intro v h hs; cases h
  have hk : bits (0xE0 * 2 ^ 56 + 0 * 2 ^ 50 + f.low) 23 20 = 2 := (s_cnd 0xE0 0 f).trans (by simpa using congrArg BitVec.toNat (eq_of_beq hs))
  exact ⟨_, _, rfl, (congrArg (fun n => (_ : List Instr)[n]?) hk).trans (congrArg (fun x => some (Instr.assetKill x)) (s_back 0xE0 0 f))⟩
theorem assetSelf (f : SForm) : Statement (.assetSelf f) := by
  intro v h hs; cases h
  have hk : bits (0xE0 * 2 ^ 56 + 0 * 2 ^ 50 + f.low) 23 20 = 3 := (s_cnd 0xE0 0 f).trans (by simpa using congrArg BitVec.toNat (eq_of_beq hs))
  exact ⟨_, _, rfl, (congrArg (fun n => (_ : List Instr)[n]?) hk).trans (congrArg (fun x => some (Instr.assetSelf x)) (s_back 0xE0 0 f))⟩
theorem tlbinvVa (f : SForm) : Statement (.tlbinvVa f) := by
  intro v h hs; cases h
  have hk : bits (0xE0 * 2 ^ 56 + 1 * 2 ^ 50 + f.low) 23 20 = 0 := (s_cnd 0xE0 1 f).trans (by simpa using congrArg BitVec.toNat (eq_of_beq hs))
  exact ⟨_, _, rfl, (congrArg (fun n => (_ : List Instr)[n]?) hk).trans (congrArg (fun x => some (Instr.tlbinvVa x)) (s_back 0xE0 1 f))⟩
theorem tlbinvAsid (f : SForm) : Statement (.tlbinvAsid f) := by
  intro v h hs; cases h
  have hk : bits (0xE0 * 2 ^ 56 + 1 * 2 ^ 50 + f.low) 23 20 = 1 := (s_cnd 0xE0 1 f).trans (by simpa using congrArg BitVec.toNat (eq_of_beq hs))
  exact ⟨_, _, rfl, (congrArg (fun n => (_ : List Instr)[n]?) hk).trans (congrArg (fun x => some (Instr.tlbinvAsid x)) (s_back 0xE0 1 f))⟩
theorem tlbinvIpa (f : SForm) : Statement (.tlbinvIpa f) := by
  intro v h hs; cases h
  have hk : bits (0xE0 * 2 ^ 56 + 1 * 2 ^ 50 + f.low) 23 20 = 2 := (s_cnd 0xE0 1 f).trans (by simpa using congrArg BitVec.toNat (eq_of_beq hs))
  exact ⟨_, _, rfl, (congrArg (fun n => (_ : List Instr)[n]?) hk).trans (congrArg (fun x => some (Instr.tlbinvIpa x)) (s_back 0xE0 1 f))⟩
theorem tlbinvPart (f : SForm) : Statement (.tlbinvPart f) := by
  intro v h hs; cases h
  have hk : bits (0xE0 * 2 ^ 56 + 1 * 2 ^ 50 + f.low) 23 20 = 3 := (s_cnd 0xE0 1 f).trans (by simpa using congrArg BitVec.toNat (eq_of_beq hs))
  exact ⟨_, _, rfl, (congrArg (fun n => (_ : List Instr)[n]?) hk).trans (congrArg (fun x => some (Instr.tlbinvPart x)) (s_back 0xE0 1 f))⟩
theorem partcfgOpen (f : SForm) : Statement (.partcfgOpen f) := by
  intro v h hs; cases h
  have hk : bits (0xE0 * 2 ^ 56 + 2 * 2 ^ 50 + f.low) 23 20 = 0 := (s_cnd 0xE0 2 f).trans (by simpa using congrArg BitVec.toNat (eq_of_beq hs))
  exact ⟨_, _, rfl, (congrArg (fun n => (_ : List Instr)[n]?) hk).trans (congrArg (fun x => some (Instr.partcfgOpen x)) (s_back 0xE0 2 f))⟩
theorem partcfgShut (f : SForm) : Statement (.partcfgShut f) := by
  intro v h hs; cases h
  have hk : bits (0xE0 * 2 ^ 56 + 2 * 2 ^ 50 + f.low) 23 20 = 1 := (s_cnd 0xE0 2 f).trans (by simpa using congrArg BitVec.toNat (eq_of_beq hs))
  exact ⟨_, _, rfl, (congrArg (fun n => (_ : List Instr)[n]?) hk).trans (congrArg (fun x => some (Instr.partcfgShut x)) (s_back 0xE0 2 f))⟩
theorem partcfgAssign (f : SForm) : Statement (.partcfgAssign f) := by
  intro v h hs; cases h
  have hk : bits (0xE0 * 2 ^ 56 + 2 * 2 ^ 50 + f.low) 23 20 = 2 := (s_cnd 0xE0 2 f).trans (by simpa using congrArg BitVec.toNat (eq_of_beq hs))
  exact ⟨_, _, rfl, (congrArg (fun n => (_ : List Instr)[n]?) hk).trans (congrArg (fun x => some (Instr.partcfgAssign x)) (s_back 0xE0 2 f))⟩
theorem partcfgWays (f : SForm) : Statement (.partcfgWays f) := by
  intro v h hs; cases h
  have hk : bits (0xE0 * 2 ^ 56 + 2 * 2 ^ 50 + f.low) 23 20 = 3 := (s_cnd 0xE0 2 f).trans (by simpa using congrArg BitVec.toNat (eq_of_beq hs))
  exact ⟨_, _, rfl, (congrArg (fun n => (_ : List Instr)[n]?) hk).trans (congrArg (fun x => some (Instr.partcfgWays x)) (s_back 0xE0 2 f))⟩
theorem partcfgShare (f : SForm) : Statement (.partcfgShare f) := by
  intro v h hs; cases h
  have hk : bits (0xE0 * 2 ^ 56 + 2 * 2 ^ 50 + f.low) 23 20 = 4 := (s_cnd 0xE0 2 f).trans (by simpa using congrArg BitVec.toNat (eq_of_beq hs))
  exact ⟨_, _, rfl, (congrArg (fun n => (_ : List Instr)[n]?) hk).trans (congrArg (fun x => some (Instr.partcfgShare x)) (s_back 0xE0 2 f))⟩
theorem partcfgGang (f : SForm) : Statement (.partcfgGang f) := by
  intro v h hs; cases h
  have hk : bits (0xE0 * 2 ^ 56 + 2 * 2 ^ 50 + f.low) 23 20 = 5 := (s_cnd 0xE0 2 f).trans (by simpa using congrArg BitVec.toNat (eq_of_beq hs))
  exact ⟨_, _, rfl, (congrArg (fun n => (_ : List Instr)[n]?) hk).trans (congrArg (fun x => some (Instr.partcfgGang x)) (s_back 0xE0 2 f))⟩
theorem partcfgQbank (f : SForm) : Statement (.partcfgQbank f) := by
  intro v h hs; cases h
  have hk : bits (0xE0 * 2 ^ 56 + 2 * 2 ^ 50 + f.low) 23 20 = 6 := (s_cnd 0xE0 2 f).trans (by simpa using congrArg BitVec.toNat (eq_of_beq hs))
  exact ⟨_, _, rfl, (congrArg (fun n => (_ : List Instr)[n]?) hk).trans (congrArg (fun x => some (Instr.partcfgQbank x)) (s_back 0xE0 2 f))⟩
theorem partcfgQsb (f : SForm) : Statement (.partcfgQsb f) := by
  intro v h hs; cases h
  have hk : bits (0xE0 * 2 ^ 56 + 2 * 2 ^ 50 + f.low) 23 20 = 7 := (s_cnd 0xE0 2 f).trans (by simpa using congrArg BitVec.toNat (eq_of_beq hs))
  exact ⟨_, _, rfl, (congrArg (fun n => (_ : List Instr)[n]?) hk).trans (congrArg (fun x => some (Instr.partcfgQsb x)) (s_back 0xE0 2 f))⟩
theorem partcfgQdel (f : SForm) : Statement (.partcfgQdel f) := by
  intro v h hs; cases h
  have hk : bits (0xE0 * 2 ^ 56 + 2 * 2 ^ 50 + f.low) 23 20 = 8 := (s_cnd 0xE0 2 f).trans (by simpa using congrArg BitVec.toNat (eq_of_beq hs))
  exact ⟨_, _, rfl, (congrArg (fun n => (_ : List Instr)[n]?) hk).trans (congrArg (fun x => some (Instr.partcfgQdel x)) (s_back 0xE0 2 f))⟩
theorem partcfgHostwin (f : SForm) : Statement (.partcfgHostwin f) := by
  intro v h hs; cases h
  have hk : bits (0xE0 * 2 ^ 56 + 2 * 2 ^ 50 + f.low) 23 20 = 9 := (s_cnd 0xE0 2 f).trans (by simpa using congrArg BitVec.toNat (eq_of_beq hs))
  exact ⟨_, _, rfl, (congrArg (fun n => (_ : List Instr)[n]?) hk).trans (congrArg (fun x => some (Instr.partcfgHostwin x)) (s_back 0xE0 2 f))⟩
theorem quote (f : SForm) : Statement (.quote f) := by
  intro v h _; cases h; exact ⟨_, _, rfl, congrArg (fun x => some (Instr.quote x)) (s_back 0xE0 3 f)⟩
theorem svc (f : SForm) : Statement (.svc f) := by
  intro v h _; cases h; exact ⟨_, _, rfl, congrArg (fun x => some (Instr.svc x)) (s_back 0xE0 4 f)⟩
theorem trap (f : SForm) : Statement (.trap f) := by
  intro v h _; cases h; exact ⟨_, _, rfl, congrArg (fun x => some (Instr.trap x)) (s_back 0xE8 0 f)⟩
theorem resumeSelf (f : SForm) : Statement (.resumeSelf f) := by
  intro v h hs; cases h
  have hk : bits (0xE8 * 2 ^ 56 + 1 * 2 ^ 50 + f.low) 23 20 = 0 := (s_cnd 0xE8 1 f).trans (by simpa using congrArg BitVec.toNat (eq_of_beq hs))
  exact ⟨_, _, rfl, (congrArg (fun n => (_ : List Instr)[n]?) hk).trans (congrArg (fun x => some (Instr.resumeSelf x)) (s_back 0xE8 1 f))⟩
theorem resumeCtx (f : SForm) : Statement (.resumeCtx f) := by
  intro v h hs; cases h
  have hk : bits (0xE8 * 2 ^ 56 + 1 * 2 ^ 50 + f.low) 23 20 = 1 := (s_cnd 0xE8 1 f).trans (by simpa using congrArg BitVec.toNat (eq_of_beq hs))
  exact ⟨_, _, rfl, (congrArg (fun n => (_ : List Instr)[n]?) hk).trans (congrArg (fun x => some (Instr.resumeCtx x)) (s_back 0xE8 1 f))⟩
theorem rqrd (f : SForm) : Statement (.rqrd f) := by
  intro v h _; cases h; exact ⟨_, _, rfl, congrArg (fun x => some (Instr.rqrd x)) (s_back 0xE8 2 f)⟩
theorem rqwr (f : SForm) : Statement (.rqwr f) := by
  intro v h _; cases h; exact ⟨_, _, rfl, congrArg (fun x => some (Instr.rqwr x)) (s_back 0xE8 3 f)⟩
theorem ckpt (f : SForm) : Statement (.ckpt f) := by
  intro v h _; cases h; exact ⟨_, _, rfl, congrArg (fun x => some (Instr.ckpt x)) (s_back 0xE8 4 f)⟩
theorem swapNow (f : SForm) : Statement (.swapNow f) := by
  intro v h hs; cases h
  have hk : bits (0xE8 * 2 ^ 56 + 5 * 2 ^ 50 + f.low) 23 20 = 0 := (s_cnd 0xE8 5 f).trans (by simpa using congrArg BitVec.toNat (eq_of_beq hs))
  exact ⟨_, _, rfl, (congrArg (fun n => (_ : List Instr)[n]?) hk).trans (congrArg (fun x => some (Instr.swapNow x)) (s_back 0xE8 5 f))⟩
theorem swapFull (f : SForm) : Statement (.swapFull f) := by
  intro v h hs; cases h
  have hk : bits (0xE8 * 2 ^ 56 + 5 * 2 ^ 50 + f.low) 23 20 = 1 := (s_cnd 0xE8 5 f).trans (by simpa using congrArg BitVec.toNat (eq_of_beq hs))
  exact ⟨_, _, rfl, (congrArg (fun n => (_ : List Instr)[n]?) hk).trans (congrArg (fun x => some (Instr.swapFull x)) (s_back 0xE8 5 f))⟩
theorem swapStage (f : SForm) : Statement (.swapStage f) := by
  intro v h hs; cases h
  have hk : bits (0xE8 * 2 ^ 56 + 5 * 2 ^ 50 + f.low) 23 20 = 2 := (s_cnd 0xE8 5 f).trans (by simpa using congrArg BitVec.toNat (eq_of_beq hs))
  exact ⟨_, _, rfl, (congrArg (fun n => (_ : List Instr)[n]?) hk).trans (congrArg (fun x => some (Instr.swapStage x)) (s_back 0xE8 5 f))⟩
theorem spillqSave (f : SForm) : Statement (.spillqSave f) := by
  intro v h hs; cases h
  have hk : bits (0xE8 * 2 ^ 56 + 6 * 2 ^ 50 + f.low) 23 20 = 0 := (s_cnd 0xE8 6 f).trans (by simpa using congrArg BitVec.toNat (eq_of_beq hs))
  exact ⟨_, _, rfl, (congrArg (fun n => (_ : List Instr)[n]?) hk).trans (congrArg (fun x => some (Instr.spillqSave x)) (s_back 0xE8 6 f))⟩
theorem spillqRestore (f : SForm) : Statement (.spillqRestore f) := by
  intro v h hs; cases h
  have hk : bits (0xE8 * 2 ^ 56 + 6 * 2 ^ 50 + f.low) 23 20 = 1 := (s_cnd 0xE8 6 f).trans (by simpa using congrArg BitVec.toNat (eq_of_beq hs))
  exact ⟨_, _, rfl, (congrArg (fun n => (_ : List Instr)[n]?) hk).trans (congrArg (fun x => some (Instr.spillqRestore x)) (s_back 0xE8 6 f))⟩
theorem operandWaitRelease (ctx : Nat) : Statement (.operandWaitRelease ctx) := fun _ h => nomatch h
theorem longLatencyResult (id : Nat) : Statement (.longLatencyResult id) := fun _ h => nomatch h
theorem firingDispatch (strand : Nat) : Statement (.firingDispatch strand) := fun _ h => nomatch h
theorem tokenArrival (queue : Nat) : Statement (.tokenArrival queue) := fun _ h => nomatch h
theorem creditReturn (queue : Nat) : Statement (.creditReturn queue) := fun _ h => nomatch h
theorem pushCreditWaitRelease (ctx : Nat) : Statement (.pushCreditWaitRelease ctx) := fun _ h => nomatch h
theorem popTokenWaitRelease (ctx : Nat) : Statement (.popTokenWaitRelease ctx) := fun _ h => nomatch h
theorem spillRingDrain (queue : Nat) : Statement (.spillRingDrain queue) := fun _ h => nomatch h
theorem proxyForwardBatch (queue : Nat) : Statement (.proxyForwardBatch queue) := fun _ h => nomatch h
theorem proxyBatchTimeout (queue : Nat) : Statement (.proxyBatchTimeout queue) := fun _ h => nomatch h
theorem monotonicCounterAdd (id : Nat) : Statement (.monotonicCounterAdd id) := fun _ h => nomatch h
theorem arrivalWordCredit (id : Nat) : Statement (.arrivalWordCredit id) := fun _ h => nomatch h
theorem asyncCompletion (id : Nat) : Statement (.asyncCompletion id) := fun _ h => nomatch h
theorem waitCompletion (ctx : Nat) : Statement (.waitCompletion ctx) := fun _ h => nomatch h
theorem waitTimeout (ctx : Nat) : Statement (.waitTimeout ctx) := fun _ h => nomatch h
theorem deadlockDetection (graph : Nat) : Statement (.deadlockDetection graph) := fun _ h => nomatch h
theorem leaseGrant (request : Nat) : Statement (.leaseGrant request) := fun _ h => nomatch h
theorem engineWakeEnd (engine : Nat) : Statement (.engineWakeEnd engine) := fun _ h => nomatch h
theorem evictionNotice (engine : Nat) : Statement (.evictionNotice engine) := fun _ h => nomatch h
theorem holdEnd (engine : Nat) : Statement (.holdEnd engine) := fun _ h => nomatch h
theorem gracePeriodExpiry (engine : Nat) : Statement (.gracePeriodExpiry engine) := fun _ h => nomatch h
theorem dozeExpiry (engine : Nat) : Statement (.dozeExpiry engine) := fun _ h => nomatch h
theorem engineResultPush (engine : Nat) : Statement (.engineResultPush engine) := fun _ h => nomatch h
theorem engineCommandCompletion (engine : Nat) : Statement (.engineCommandCompletion engine) := fun _ h => nomatch h
theorem mxRowGroupStep (engine : Nat) : Statement (.mxRowGroupStep engine) := fun _ h => nomatch h
theorem mxstrmControlToken (engine : Nat) : Statement (.mxstrmControlToken engine) := fun _ h => nomatch h
theorem mxMacroOpCompletion (engine : Nat) : Statement (.mxMacroOpCompletion engine) := fun _ h => nomatch h
theorem copyTokenPush (id : Nat) : Statement (.copyTokenPush id) := fun _ h => nomatch h
theorem copyRecordCompletion (id : Nat) : Statement (.copyRecordCompletion id) := fun _ h => nomatch h
theorem atomicApply (id : Nat) : Statement (.atomicApply id) := fun _ h => nomatch h
theorem atomicDiversion (id : Nat) : Statement (.atomicDiversion id) := fun _ h => nomatch h
theorem repairRetry (die entry : Nat) : Statement (.repairRetry die entry) := fun _ h => nomatch h
theorem repairAbandon (die entry : Nat) : Statement (.repairAbandon die entry) := fun _ h => nomatch h
theorem repairTimeout (die entry : Nat) : Statement (.repairTimeout die entry) := fun _ h => nomatch h
theorem postedWriteArrival (id : Nat) : Statement (.postedWriteArrival id) := fun _ h => nomatch h
theorem blendAtBank (id : Nat) : Statement (.blendAtBank id) := fun _ h => nomatch h
theorem seqretAtBank (id : Nat) : Statement (.seqretAtBank id) := fun _ h => nomatch h
theorem pageWalkCompletion (tlb va : Nat) : Statement (.pageWalkCompletion tlb va) := fun _ h => nomatch h
theorem tlbinvCompletion (id : Nat) : Statement (.tlbinvCompletion id) := fun _ h => nomatch h
theorem bindingTakesEffect (id : Nat) : Statement (.bindingTakesEffect id) := fun _ h => nomatch h
theorem modfreeDrainComplete (id : Nat) : Statement (.modfreeDrainComplete id) := fun _ h => nomatch h
theorem notify (doorbell tail : Nat) : Statement (.notify doorbell tail) := fun _ h => nomatch h
theorem queueMap (qsb : Nat) : Statement (.queueMap qsb) := fun _ h => nomatch h
theorem queueUnmap (qsb : Nat) : Statement (.queueUnmap qsb) := fun _ h => nomatch h
theorem recordFetch (qsb : Nat) : Statement (.recordFetch qsb) := fun _ h => nomatch h
theorem launchDispatch : Statement .launchDispatch := fun _ h => nomatch h
theorem launchEnd (graph : Nat) : Statement (.launchEnd graph) := fun _ h => nomatch h
theorem curatorInterval : Statement .curatorInterval := fun _ h => nomatch h
theorem templateRewrite (ctx : Nat) : Statement (.templateRewrite ctx) := fun _ h => nomatch h
theorem gangSliceInstant (part : Nat) : Statement (.gangSliceInstant part) := fun _ h => nomatch h
theorem ptpLockLoss : Statement .ptpLockLoss := fun _ h => nomatch h
theorem ptpsetWrite (value : BitVec 64) : Statement (.ptpsetWrite value) := fun _ h => nomatch h
theorem asyncFaultDelivery (ctx : Nat) : Statement (.asyncFaultDelivery ctx) := fun _ h => nomatch h
theorem trapHandlerDispatch (ctx : Nat) : Statement (.trapHandlerDispatch ctx) := fun _ h => nomatch h
theorem faultRecordDelivery (target : Nat) : Statement (.faultRecordDelivery target) := fun _ h => nomatch h
theorem archivistWriteOut (strand : Nat) : Statement (.archivistWriteOut strand) := fun _ h => nomatch h
theorem archivistLoad (strand : Nat) : Statement (.archivistLoad strand) := fun _ h => nomatch h
theorem fullSwitchDeadline (tile : Nat) : Statement (.fullSwitchDeadline tile) := fun _ h => nomatch h
theorem quiesce (cluster : Nat) : Statement (.quiesce cluster) := fun _ h => nomatch h
theorem quiesceEnd (cluster : Nat) : Statement (.quiesceEnd cluster) := fun _ h => nomatch h
theorem handoff (cluster : Nat) : Statement (.handoff cluster) := fun _ h => nomatch h
theorem handoffEnd (cluster : Nat) : Statement (.handoffEnd cluster) := fun _ h => nomatch h
theorem clkgate (cluster : Nat) : Statement (.clkgate cluster) := fun _ h => nomatch h
theorem clkungate (cluster : Nat) : Statement (.clkungate cluster) := fun _ h => nomatch h
theorem clpmResume (cluster : Nat) : Statement (.clpmResume cluster) := fun _ h => nomatch h
theorem clpmOperationEnd (cluster : Nat) : Statement (.clpmOperationEnd cluster) := fun _ h => nomatch h
theorem railOff (cluster : Nat) : Statement (.railOff cluster) := fun _ h => nomatch h
theorem railOn (cluster : Nat) : Statement (.railOn cluster) := fun _ h => nomatch h
theorem railPgood (cluster : Nat) : Statement (.railPgood cluster) := fun _ h => nomatch h
theorem railPgoodTimeout (cluster : Nat) : Statement (.railPgoodTimeout cluster) := fun _ h => nomatch h
theorem vsetWrite (cluster : Nat) (value : BitVec 64) : Statement (.vsetWrite cluster value) := fun _ h => nomatch h
theorem railSlewStep (cluster : Nat) : Statement (.railSlewStep cluster) := fun _ h => nomatch h
theorem fllTargetWrite (cluster : Nat) (value : BitVec 64) : Statement (.fllTargetWrite cluster value) := fun _ h => nomatch h
theorem fllStep (cluster : Nat) : Statement (.fllStep cluster) := fun _ h => nomatch h
theorem fllLockTimeout (cluster : Nat) : Statement (.fllLockTimeout cluster) := fun _ h => nomatch h
theorem retentionSave (cluster : Nat) : Statement (.retentionSave cluster) := fun _ h => nomatch h
theorem retentionSaveEnd (cluster : Nat) : Statement (.retentionSaveEnd cluster) := fun _ h => nomatch h
theorem retentionRestore (cluster : Nat) : Statement (.retentionRestore cluster) := fun _ h => nomatch h
theorem retentionRestoreEnd (cluster : Nat) : Statement (.retentionRestoreEnd cluster) := fun _ h => nomatch h
theorem wakeRing (cluster source : Nat) : Statement (.wakeRing cluster source) := fun _ h => nomatch h
theorem pmbudgetWrite (value : BitVec 64) : Statement (.pmbudgetWrite value) := fun _ h => nomatch h
theorem pmcommit : Statement .pmcommit := fun _ h => nomatch h
theorem watchdogKick : Statement .watchdogKick := fun _ h => nomatch h
theorem watchdogExpiry : Statement .watchdogExpiry := fun _ h => nomatch h
theorem mxcadWrite (cluster : Nat) (value : BitVec 64) : Statement (.mxcadWrite cluster value) := fun _ h => nomatch h
theorem droopSag (cluster : Nat) : Statement (.droopSag cluster) := fun _ h => nomatch h
theorem droopStepDown (cluster : Nat) : Statement (.droopStepDown cluster) := fun _ h => nomatch h
theorem droopRecoveryStep (cluster : Nat) : Statement (.droopRecoveryStep cluster) := fun _ h => nomatch h
theorem wayGate (cluster : Nat) : Statement (.wayGate cluster) := fun _ h => nomatch h
theorem wayReopen (cluster : Nat) : Statement (.wayReopen cluster) := fun _ h => nomatch h
theorem thermalTrip (die : Nat) : Statement (.thermalTrip die) := fun _ h => nomatch h
theorem thermalRecovery (die : Nat) : Statement (.thermalRecovery die) := fun _ h => nomatch h
theorem hostRead (addr len : Nat) : Statement (.hostRead addr len) := fun _ h => nomatch h
theorem hostWrite (addr : Nat) (bytes : List (BitVec 8)) : Statement (.hostWrite addr bytes) := fun _ h => nomatch h
theorem errorLogRecord (die cls unit addr : Nat) : Statement (.errorLogRecord die cls unit addr) := fun _ h => nomatch h
theorem linkFlitRetry (link : Nat) : Statement (.linkFlitRetry link) := fun _ h => nomatch h
theorem selfTest (unit : Nat) : Statement (.selfTest unit) := fun _ h => nomatch h
theorem deviceReset : Statement .deviceReset := fun _ h => nomatch h
theorem firmwarePush (addr len : Nat) (live : Bool) : Statement (.firmwarePush addr len live) := fun _ h => nomatch h
theorem firmwareVerifyEnd (digest : BitVec 512) : Statement (.firmwareVerifyEnd digest) := fun _ h => nomatch h
theorem warmReset : Statement .warmReset := fun _ h => nomatch h
theorem checkpointSave (mask base : Nat) : Statement (.checkpointSave mask base) := fun _ h => nomatch h
theorem checkpointRestore (mask base : Nat) : Statement (.checkpointRestore mask base) := fun _ h => nomatch h
theorem checkpointEnd : Statement .checkpointEnd := fun _ h => nomatch h
theorem referenceClockTick : Statement .referenceClockTick := fun _ h => nomatch h
theorem droopSagEnd (cluster : Nat) : Statement (.droopSagEnd cluster) := fun _ h => nomatch h
theorem graphDrainLimitExpiry (graph : Nat) : Statement (.graphDrainLimitExpiry graph) := fun _ h => nomatch h
theorem selfTestEnd (unit : Nat) (passed : Bool) : Statement (.selfTestEnd unit passed) := fun _ h => nomatch h

end Sys2Proof.Laws.TableRow
end

