-- ==== Sys2Proof/Laws/Traps.lean ====
section
/-! SUPPORT. What taking a trap can do: it changes one context, its instructions in flight, its graph's running launch the records and leases; memory and every
other context stay as they are. -/

namespace Sys2Proof.Machine

/-! ## Counting -/

@[simp] theorem Ctx.uncounted_uncounted (c : Ctx) : c.uncounted.uncounted = c.uncounted := rfl

/-- Counting an event moves nothing but counters. -/
theorem Ctx.count_uncounted (c : Ctx) (a n : Nat) (o m : Bool) : (c.count a n o m).uncounted = c.uncounted := by
  unfold Ctx.count; split <;> rfl

theorem Ctx.counts_uncounted (l : List (Nat × Bool × Bool)) (c : Ctx) :
    (l.foldl (fun c e => c.count e.1 (Config.freeCycles e.1 c.idled) e.2.1 e.2.2) c).uncounted = c.uncounted := by
  induction l generalizing c with
  | nil => rfl
  | cons e rest ih => exact (ih _).trans (Ctx.count_uncounted _ _ _ _ _)

theorem Ctx.idle_uncounted (c : Ctx) (l : List (Nat × Bool × Bool)) : (c.idle l).uncounted = c.uncounted := by
  have h := Ctx.counts_uncounted l c
  unfold Ctx.idle
  split
  · rfl
  · generalize l.foldl (fun c e => c.count e.1 (Config.freeCycles e.1 c.idled) e.2.1 e.2.2) c = x at *
    exact h

theorem State.ctx?_countEvent (s : State) (key a n k : Nat) : ((s.countEvent key a n).ctx? k).map Ctx.uncounted = (s.ctx? k).map Ctx.uncounted := by
  unfold State.countEvent
  split
  · rfl
  · rename_i x _
    have h := Map.find?_mapVal (fun j (c : Ctx) => if sameStrand j key && !inShadow j then c.count a n (j == key) (c.asid == x.asid) else c) s.ctxs k
    have e : (s.ctxs.map fun e => if sameStrand e.1 key && !inShadow e.1 then (e.1, e.2.count a n (e.1 == key) (e.2.asid == x.asid)) else e) =
        s.ctxs.map fun e => (e.1, if sameStrand e.1 key && !inShadow e.1 then e.2.count a n (e.1 == key) (e.2.asid == x.asid) else e.2) := by
      congr 1; funext e; split <;> rfl
    rw [State.ctx?, e, h, State.ctx?]
    cases Map.find? s.ctxs k with
    | none => rfl
    | some c => simp only [Option.map_some]; split <;> simp [Ctx.count_uncounted]

theorem State.ctx?_passTime (s : State) (key k : Nat) : ((s.passTime key).ctx? k).map Ctx.uncounted = (s.ctx? k).map Ctx.uncounted := by
  unfold State.passTime
  dsimp only
  generalize s.charges key = l
  have h := Map.find?_mapVal (fun j (c : Ctx) => if sameStrand j key && !inShadow j then c.idle (s.seenBy l j c.asid) else c) s.ctxs k
  have e : (s.ctxs.map fun e => if sameStrand e.1 key && !inShadow e.1 then (e.1, e.2.idle (s.seenBy l e.1 e.2.asid)) else e) =
      s.ctxs.map fun e => (e.1, if sameStrand e.1 key && !inShadow e.1 then e.2.idle (s.seenBy l e.1 e.2.asid) else e.2) := by
    congr 1; funext e; split <;> rfl
  rw [State.ctx?, e, h, State.ctx?]
  cases Map.find? s.ctxs k with
  | none => rfl
  | some c => simp only [Option.map_some]; split <;> simp [Ctx.idle_uncounted]

/-- A squash leaves every context as it is, but for what the counters of its strand have counted (R133). -/
theorem State.ctx?_squash (s : State) (key k : Nat) : ((s.squash key).ctx? k).map Ctx.uncounted = (s.ctx? k).map Ctx.uncounted := by
  unfold State.squash
  split
  · rfl
  · rw [State.ctx?_passTime, State.ctx?_countEvent, State.ctx?_countEvent]; rfl

/-! ## Frames -/

/-- What a trap of one context leaves alone. -/
structure TrapFrame (key : Nat) (s t : State) : Prop where
  mem : t.mem = s.mem
  others : ∀ k, k ≠ key → (t.ctx? k).map Ctx.uncounted = (s.ctx? k).map Ctx.uncounted
  queues : t.queues = s.queues
  clusters : t.clusters = s.clusters

theorem TrapFrame.refl (key : Nat) (s : State) : TrapFrame key s s := ⟨rfl, fun _ _ => rfl, rfl, rfl⟩
theorem TrapFrame.trans {key : Nat} {s t u : State} (h : TrapFrame key s t) (g : TrapFrame key t u) : TrapFrame key s u :=
  ⟨g.mem.trans h.mem, fun k hk => (g.others k hk).trans (h.others k hk), g.queues.trans h.queues, g.clusters.trans h.clusters⟩

theorem TrapFrame.setCtx (key : Nat) (s : State) (c : Ctx) : TrapFrame key s (s.setCtx key c) :=
  ⟨rfl, fun _ hk => congrArg (Option.map Ctx.uncounted) (Map.find?_insert_ne _ _ hk), rfl, rfl⟩

theorem TrapFrame.modCtx (key : Nat) (s : State) (f : Ctx → Ctx) : TrapFrame key s (s.modCtx key f) := by
  unfold State.modCtx; split
  · exact TrapFrame.refl _ _
  · exact TrapFrame.setCtx _ _ _

theorem TrapFrame.squash (key : Nat) (s : State) : TrapFrame key s (s.squash key) :=
  ⟨State.squash_mem _ _, fun _ _ => State.ctx?_squash _ _ _, State.squash_queues _ _, State.squash_clusters _ _⟩

/-- A context that starts anew changes alone. -/
theorem TrapFrame.restartFirmware (key : Nat) (s : State) (c : Ctx) : TrapFrame key s (s.restartFirmware key c) :=
  (TrapFrame.squash key s).trans (TrapFrame.trans (t := { s.squash key with fresh := s.fresh + 1, cycle := s.cycle + 1 })
    ⟨rfl, fun _ _ => rfl, rfl, rfl⟩ (TrapFrame.setCtx _ _ _))

theorem State.deliverTrap_frame (s : State) (key : Nat) (t : Trap) (fpc fword rpc : Word) (es : List ReplayEntry) (d a : Bool) :
    TrapFrame key s (s.deliverTrap key t fpc fword rpc es d a) := by
  have sent (s : State) (c : Ctx) (n : Nat) (w : List Word) : TrapFrame key s ((s.setCtx key c).sendRecord n w) :=
    (TrapFrame.setCtx key s c).trans ⟨rfl, fun _ _ => rfl, rfl, rfl⟩
  have drawn : TrapFrame key s s.drawWord.2 := ⟨rfl, fun _ _ => rfl, rfl, rfl⟩
  unfold State.deliverTrap
  rcases hw : s.drawWord with ⟨w, sw⟩
  rw [hw] at drawn
  dsimp -zeta only
  extract_lets s1 t1
  have base : TrapFrame key s s1 := by
    refine TrapFrame.trans ?_ (TrapFrame.squash key _)
    split
    · exact drawn
    · exact TrapFrame.refl _ _
  refine base.trans ?_
  split
  · exact TrapFrame.refl _ _
  · extract_lets own frame rec0 parked
    split
    · exact TrapFrame.setCtx _ _ _
    · split
      · exact TrapFrame.restartFirmware _ _ _
      · split
        · split
          · exact (TrapFrame.setCtx _ _ _).trans ⟨rfl, fun _ _ => rfl, rfl, rfl⟩
          · exact sent _ _ _ _
        · exact sent _ _ _ _

/-- Capturing the instructions of a firing leaves memory and every other context alone. -/
theorem State.interruptOps_frame (s : State) (key serial : Nat) (bad : Option Nat) : TrapFrame key s (s.interruptOps key serial bad).1 := by
  unfold State.interruptOps
  refine foldl_keeps (TrapFrame key s) _ ?_ _ _ ⟨rfl, fun _ _ => rfl, rfl, rfl⟩
  intro b o hb
  refine hb.trans ?_
  split
  · exact TrapFrame.modCtx _ _ _
  · refine TrapFrame.trans ?_ (TrapFrame.modCtx _ _ _)
    exact ⟨rfl, fun _ _ => rfl, rfl, rfl⟩
  · exact ⟨rfl, fun _ _ => rfl, rfl, rfl⟩
  · exact ⟨rfl, fun _ _ => rfl, rfl, rfl⟩
  · exact TrapFrame.refl _ _

theorem State.takeTrap_frame (s : State) (key : Nat) (t : Trap) (e : ReplayEntry) (len : Nat) : TrapFrame key s (s.takeTrap key t e len) := by
  unfold State.takeTrap
  split
  · exact TrapFrame.refl _ _
  · split
    · exact State.deliverTrap_frame _ _ _ _ _ _ _ _ _
    · rename_i c _ _ f _
      have h0 : TrapFrame key s (if t.after then s.issuedTrap key c.graph else s) := by
        split
        · exact ⟨by simp [State.issuedTrap], fun _ _ => State.ctx?_countEvent _ _ _ _ _, by simp [State.issuedTrap], by simp [State.issuedTrap]⟩
        · exact TrapFrame.refl _ _
      generalize (if t.after then s.issuedTrap key c.graph else s) = s' at *
      have hi := h0.trans (State.interruptOps_frame s' key f.serial none)
      dsimp only
      split
      · exact hi.trans (State.deliverTrap_frame _ _ _ _ _ _ _ _ _)
      · have hm : TrapFrame key (s'.interruptOps key f.serial none).1
            (if t.svc then (s'.interruptOps key f.serial none).1.modCtx key fun c => c.markG t.svcDst true else (s'.interruptOps key f.serial none).1) := by
          split
          · exact TrapFrame.modCtx _ _ _
          · exact TrapFrame.refl _ _
        exact hi.trans (hm.trans (State.deliverTrap_frame _ _ _ _ _ _ _ _ _))

/-- A wait at issue leaves memory, queues and clusters alone; it counts stall events. -/
theorem State.setStall_mem (s : State) (key : Nat) (w : Stall) :
    (s.setStall key w).mem = s.mem ∧ (s.setStall key w).queues = s.queues ∧ (s.setStall key w).clusters = s.clusters := by
  unfold State.setStall
  simp

end Sys2Proof.Machine
end

