-- ==== Sys2Proof/Tests/Slice0.lean ====
section
/-! SUPPORT. Tests: words written out from the encodings of the manual, an ill-formed term for each check, single steps on small states, and a state that meets
the hypotheses of each statement. -/

set_option Elab.async false

namespace Sys2Proof.Tests
open Sys2Proof Sys2Proof.Machine

/-! ## Decoding: words written out bit by bit (R57 to R69, R73) -/

/-- ADD .w64 g1, g2, g3 under k5: MAJ 0x10, MIN 0, KG 5, D 1, A 2, B 3, TY 7 (R61, R73). -/
theorem test_decode_add : decodeTableWord 64 0x10014108300E0000 =
    some (.add { kg := 5, d := 1, a := 2, b := 3, c := 0, ty := 7, rm := 0, sm := 0, fe := 0, mod := 0 }) := by decide +kernel

/-- NOP: MAJ 0x01 and zeros (R86). -/
theorem test_decode_nop : decodeTableWord 64 0x0100000000000000 = some (.nop (RForm.ofWord 0)) := by decide +kernel

/-- LOOP g12, −3: MAJ 0x02, MIN 7 (0x021C), A 12 at bit 40 (0x0C00), OFF −3 (R63). -/
theorem test_decode_loop : decodeTableWord 64 0x021C0C00FFFFFFFD = some (.loop { kg := 0, a := 12, mod := 0, off := 0xFFFFFFFD }) := by decide +kernel

/-- MODQ g1, g2: MAJ 0x03, MIN 2 (0x0308), D 1 (0x0100), A 2 at bit 34 (0x0008) (R93). -/
theorem test_decode_modq : decodeTableWord 64 0x0308010800000000 = some (.modq { RForm.ofWord 0 with d := 1, a := 2 }) := by decide +kernel

/-- MOVI .w64 g4, 0x123456: MAJ 0x11, MIN 8 (0x1120), D 4, TY 7 at bit 29 (0xE0000000), IMM (R62, R99). -/
theorem test_decode_movi : decodeTableWord 64 0x11200400E0123456 =
    some (.movi { kg := 0, d := 4, a := 0, ty := 7, fea := 0, mod := 0, imm := 0x123456 }) := by decide +kernel

/-- LEA of an immediate and of the pc differ in MOD bit 24 alone (R99). -/
theorem test_decode_lea_forms : decodeTableWord 64 0x11240408E0000010 = some (.leaImm { kg := 0, d := 4, a := 2, ty := 7, fea := 0, mod := 0, imm := 0x10 }) ∧
    decodeTableWord 64 0x11240400E1000010 = some (.leaPc { kg := 0, d := 4, a := 0, ty := 7, fea := 0, mod := 1, imm := 0x10 }) := by decide +kernel

/-- KLOG k1, k2, k3 with operation 1: MAJ 0x12, MIN 1 (0x1204), D 1, A 2, B 3 at bit 28 (R101). -/
theorem test_decode_klog : decodeTableWord 64 0x1204010830000001 = some (.klog { RForm.ofWord 0 with d := 1, a := 2, b := 3, mod := 1 }) := by decide +kernel

/-- GETS g5 from %ticks' neighbour %warn, number 0x021: MAJ 0x13, MIN 0, D 5 (R104). -/
theorem test_decode_gets : decodeTableWord 64 0x1300050000000021 = some (.gets { SForm.ofWord 0 with d := 5, imm := 0x21 }) := by decide +kernel

/-- GUARD .entry g10, g11, entry 5: MAJ 0x40, A 10 at bit 34, B 11 at bit 28 (R136). -/
theorem test_decode_guard : decodeTableWord 64 0x40000028B0000005 = some (.guardEntry { SForm.ofWord 0 with a := 10, b := 11, imm := 5 }) := by decide +kernel

/-- QPUSH q3, g2, v4: MAJ 0x50, A 2, B 4, P 3 at bit 24 (R66, R156). -/
theorem test_decode_qpush : decodeTableWord 64 0x5000000843000000 = some (.qpush { SForm.ofWord 0 with a := 2, b := 4, p := 3 }) := by decide +kernel

/-- MCADD g9 := [g3] + 1 (CND 1, SC 2, ORD 2) with immediate 0x05B (R162). -/
theorem test_decode_mcadd : decodeTableWord 64 0x6000090C0015005B =
    some (.mcadd { SForm.ofWord 0 with d := 9, a := 3, cnd := 1, sc := 2, ord := 2, imm := 0x5B }) := by decide +kernel

/-- LFREE .pend g2: MAJ 0x68, MIN 2 (0x6808), A 2, CND 1 (R190). -/
theorem test_decode_lfree : decodeTableWord 64 0x6808000800100000 = some (.lfreePend { SForm.ofWord 0 with a := 2, cnd := 1 }) := by decide +kernel

/-- SPAWN .die .rel g4, g5, g6 (R225). -/
theorem test_decode_spawn : decodeTableWord 64 0x7000041460070000 =
    some (.spawn { SForm.ofWord 0 with d := 4, a := 5, b := 6, sc := 3, ord := 2 }) := by decide +kernel

/-- VADD .i32 v1, v2, v3: MAJ 0x80, TY 2 at bit 17 (R316). -/
theorem test_decode_vadd : decodeTableWord 64 0x8000010830040000 = some (.vadd { RForm.ofWord 0 with d := 1, a := 2, b := 3, ty := 2 }) := by decide +kernel

/-- FFMA .f32 v1, v2, v3, v4: MAJ 0x81, MIN 3 (0x810C), C 4 at bit 22, TY 10 (R319). -/
theorem test_decode_ffma : decodeTableWord 64 0x810C010831140000 =
    some (.ffma { RForm.ofWord 0 with d := 1, a := 2, b := 3, c := 4, ty := 10 }) := by decide +kernel

/-- VROT .w8 v1, v2, g3: MAJ 0x82, MIN 2 (0x8208), TY 4 (R325). -/
theorem test_decode_vrot : decodeTableWord 64 0x8208010830080000 = some (.vrot { RForm.ofWord 0 with d := 1, a := 2, b := 3, ty := 4 }) := by decide +kernel

/-- AMAX .f32 g1, v2: MAJ 0x83, MIN 5 (0x8314), TY 10 (R332). -/
theorem test_decode_amax : decodeTableWord 64 0x8314010800140000 = some (.amax { RForm.ofWord 0 with d := 1, a := 2, ty := 10 }) := by decide +kernel

/-- MXTILE, MXRD and BDTHR (R67, R337, R347). -/
theorem test_decode_matrix : decodeTableWord 64 0xC108105090000000 = some (.bdthr { XForm.ofWord 0 with xt := 2, a := 20, b := 9 }) ∧
    decodeTableWord 64 0xC0141050C2140000 = some (.mxrd { XForm.ofWord 0 with xt := 2, a := 20, b := 12, c := 8, ty := 10 }) ∧
    (decodeTableWord 64 0xC00C105061D29010).isSome = true := by decide +kernel

/-- VLD .f32 v2, [g6 + g7]; ST .w64 .die .rel; ATOMR (R64, R251, R256). -/
theorem test_decode_memory :
    decodeTableWord 64 0xD004021875000000 = some (.vld { MForm.ofWord 0 with ds := 2, base := 6, idx := 7, ty := 10 }) ∧
    decodeTableWord 64 0xD100051803B80001 = some (.st { MForm.ofWord 0 with ds := 5, base := 6, ty := 7, sc := 3, ord := 2, disp := 1 }) ∧
    decodeTableWord 64 0xD204082403AC4000 = some (.atomr { MForm.ofWord 0 with ds := 8, base := 9, ty := 7, sc := 2, ord := 3, disp := 0x4000 }) := by decide +kernel

/-- COPY .die .rel [g4], FENCE .cluster .rel and BLEND (R260, R268, R273). -/
theorem test_decode_system_memory : decodeTableWord 64 0xD300001000380000 = some (.copy { MForm.ofWord 0 with base := 4, sc := 3, ord := 2 }) ∧
    decodeTableWord 64 0xD400000000280000 = some (.fence { MForm.ofWord 0 with sc := 2, ord := 2 }) ∧
    decodeTableWord 64 0xD4180A5004000000 = some (.blend { MForm.ofWord 0 with ds := 10, base := 20, ty := 8 }) := by decide +kernel

/-- QUOTE of partition 3 and SVC 0x021 (R378, R379). -/
theorem test_decode_system : decodeTableWord 64 0xE00C061C80000003 = some (.quote { SForm.ofWord 0 with d := 6, a := 7, b := 8, imm := 3 }) ∧
    decodeTableWord 64 0xE010031050000021 = some (.svc { SForm.ofWord 0 with d := 3, a := 4, b := 5, imm := 0x21 }) := by decide +kernel

/-- RESUME .ctx g4 and SWAP .now (R392, R396). -/
theorem test_decode_recovery : decodeTableWord 64 0xE804001000100000 = some (.resumeCtx { SForm.ofWord 0 with a := 4, cnd := 1 }) ∧
    decodeTableWord 64 0xE814081870000000 = some (.swapNow { SForm.ofWord 0 with d := 8, a := 6, b := 7 }) := by decide +kernel

/-- BR.L with the literal 0x40 in the second word: MAJ 0xF0, MIN 0 (R69). -/
theorem test_decode_brl : decodeTableWord 128 (0xF000000000000000 + 0x40 * 2 ^ 64) = some (.brL { kg := 0, d := 0, ty := 0, lit := 0x40 }) := by decide +kernel

/-- MAJ 0x04 is unassigned, MIN 1 of MAJ 0x01 is beyond its group, and the ADD with a bit of MOD set has a reserved field (R73, R74, R77). -/
theorem test_decode_refusals : decodeWords 0x0400000000000000 0 = .error (.illegalOpcode 63) ∧ decodeWords 0x0104000000000000 0 = .error (.illegalOpcode 55) ∧
    decodeWords 0x10000108300E0001 0 = .error (.illegalEncoding 8 1 false) := by decide +kernel

/-! ## Well-formedness: a term that each check refuses -/

/-- A reserved field, a reserved value, k0 as a destination, a guard where none is taken, a misaligned long offset, another form's code, no such unit. -/
theorem test_ill_formed :
    (Instr.add { RForm.ofWord 0 with mod := 1 }).formError = some (.encoding 8 1 false) ∧
    (Instr.add { RForm.ofWord 0 with ty := 31 }).formError = some (.encoding 21 2 false) ∧
    (Instr.kset (RForm.ofWord 0)).formError = some (.encoding 45 3 false) ∧
    (Instr.endFiring { RForm.ofWord 0 with kg := 1 }).formError = some (.encoding 49 4 false) ∧
    (Instr.brL { kg := 0, d := 0, ty := 0, lit := 4 }).wellFormed = false ∧
    (Instr.leaImm { IForm.ofWord 0 with ty := 7, mod := 1 }).wellFormed = false ∧
    (Instr.gettPtp (SForm.ofWord 0)).formError = some .otherForm ∧
    (Instr.vsetWrite 48 0).formError = some .noSuchUnit ∧ (Instr.vsetWrite 47 0).wellFormed = true := by decide +kernel

/-! ## Small states -/

/-- The firing of the tests, at offset 0 of slot 0. -/
def tFir : Firing := { pc := 0, serial := 0, entry := 16 }

/-- A context with a few registers: g1 = 10, g2 = 3, g3 = −1, g4 = 0x1000, g5 = 0x20000, g6 = 1. -/
def tCtx (p : Priv) : Ctx :=
  { priv := p, asid := 1, part := 1, firing := some tFir
    g := [(1, 10), (2, 3), (3, 0xFFFFFFFFFFFFFFFF), (4, 0x1000), (5, 0x20000), (6, 1)]
    v := [(1, 0x0004000300020001), (2, 0x0001000100010001)], k := [(1, 0x0000000F), (2, 0xF)] }

/-- The machine after reset with that context in slot 0 of strand 0 of tile 0, about to issue. -/
def tState (c : Ctx) : State := { State.reset with cur := some 0, ctxs := [(0, c)] }
/-- The same with the context in place of the first System Tile's firmware. -/
def tFirm (c : Ctx) : State := { State.reset with cur := some (firmwareOf 0), ctxs := [(firmwareOf 0, c)] }

/-- The state after a step, and the context in slot 0. -/
def after (r : Result) : State := match r with | .next t => t | .fault _ => State.reset | .refused _ => State.reset
def ctx0 (r : Result) : Ctx := ((after r).ctx? 0).getD (tCtx .u)

theorem ctx_base (c : Ctx) : (tState c).ctx? 0 = some c := by simp [tState, State.ctx?, Map.find?]

/-- The context of a test issues its next instruction. -/
theorem issuing_base (c : Ctx) (h : c.firing = some tFir) : Issuing (tState c) 0 c tFir := ⟨rfl, ctx_base c, h, rfl⟩

/-- In a context without an empty or a failing register every source is ready. -/
theorem regs_ready (c : Ctx) (h : c.gEmpty = 0 ∧ c.vEmpty = 0 ∧ c.gBad = 0 ∧ c.vBad = 0) (r : Src) : c.isEmptySrc r = false ∧ c.fails r = false := by
  obtain ⟨hg, hv, bg, bv⟩ := h
  unfold Ctx.isEmptySrc Ctx.fails; cases r.kind <;> simp [Ctx.emptyG, Ctx.emptyV, hg, hv, bg, bv]

/-- Its operands are ready, whichever they are. -/
theorem operands_base (c : Ctx) (h0 : c.gEmpty = 0 ∧ c.vEmpty = 0 ∧ c.gBad = 0 ∧ c.vBad = 0) (hf : c.frames = []) (srcs : List Src) (dsts : List Dst) :
    Operands (tState c) 0 c srcs dsts := by
  refine ⟨fun r _ => (regs_ready c h0 r).1, fun r _ => (regs_ready c h0 r).2, fun d _ => ?_⟩
  unfold State.produced; rw [ctx_base]; simp only [hf, List.any_nil, Bool.or_false]; rfl

/-- An instruction of a test that k0 guards is on. -/
theorem guard_base (c : Ctx) : c.guardOn 0 := by simp [Ctx.guardOn, Ctx.rk]

/-- What most statements about one instruction ask of the state, together, for a context at U, S and F. -/
theorem witness_ready (p : Priv) (srcs : List Src) (dsts : List Dst) :
    Issuing (tState (tCtx p)) 0 (tCtx p) tFir ∧ (tCtx p).guardOn 0 ∧ Operands (tState (tCtx p)) 0 (tCtx p) srcs dsts ∧
    (tState (tCtx p)).issueRoom 0 tFir ∧ (tState (tCtx p)).noAcquire 0 ∧ (tState (tCtx p)).noAccess 0 :=
  ⟨issuing_base _ rfl, guard_base _, operands_base _ ⟨rfl, rfl, rfl, rfl⟩ rfl _ _, by unfold State.issueRoom; exact (by decide : (0 : Nat) < 16), rfl, rfl⟩

/-- A word of an R, I, S, M and X instruction with its first fields. -/
def tR (d a b : BitVec 6) (ty : BitVec 5) : RForm := { RForm.ofWord 0 with d := d, a := a, b := b, ty := ty }
def tI (d a : BitVec 6) (ty : BitVec 5) (imm : BitVec 24) : IForm := { IForm.ofWord 0 with d := d, a := a, ty := ty, imm := imm }
def tS (d a b : BitVec 6) : SForm := { SForm.ofWord 0 with d := d, a := a, b := b }
def tM (ds base : BitVec 6) (ty : BitVec 5) : MForm := { MForm.ofWord 0 with ds := ds, base := base, ty := ty }
def uSt : State := tState (tCtx .u)
def sSt : State := tState (tCtx .s)
def fSt : State := tState (tCtx .f)

/-! ## Integers, masks and flags (R97 to R102) -/

/-- The sum wraps at 8 bits and the result is extended by its sign: 10 + (−1) = 9, and 127 + 1 = −128 of type i8. -/
theorem test_add : (ctx0 (exec (.add (tR 9 1 3 0)) uSt)).rg 9 = 9 ∧
    (ctx0 (exec (.add (tR 9 20 6 0)) (tState ((tCtx .u).wg 20 127)))).rg 9 = 0xFFFFFFFFFFFFFF80 := by decide +kernel
/-- With saturation 127 + 1 is 127 of type i8, and W_SAT is set. -/
theorem test_add_saturates : (ctx0 (exec (.add { tR 9 20 6 0 with sm := 1 }) (tState ((tCtx .u).wg 20 127)))).rg 9 = 127 ∧
    (ctx0 (exec (.add { tR 9 20 6 0 with sm := 1 }) (tState ((tCtx .u).wg 20 127)))).warn ≠ 0 := by decide +kernel
theorem test_sub : (ctx0 (exec (.sub (tR 9 2 1 7)) uSt)).rg 9 = 0xFFFFFFFFFFFFFFF9 := by decide +kernel
theorem test_mul : (ctx0 (exec (.mul (tR 9 1 2 7)) uSt)).rg 9 = 30 := by decide +kernel
/-- The high half of (2^64 − 1)² unsigned is 2^64 − 2. -/
theorem test_mulh : (ctx0 (exec (.mulh (tR 9 3 3 7)) uSt)).rg 9 = 0xFFFFFFFFFFFFFFFE := by decide +kernel
/-- −10 ÷ 3 truncates to −3 and leaves −1. -/
theorem test_div_rem : (ctx0 (exec (.div (tR 9 20 2 3)) (tState ((tCtx .u).wg 20 0xFFFFFFFFFFFFFFF6)))).rg 9 = 0xFFFFFFFFFFFFFFFD ∧
    (ctx0 (exec (.rem (tR 9 20 2 3)) (tState ((tCtx .u).wg 20 0xFFFFFFFFFFFFFFF6)))).rg 9 = 0xFFFFFFFFFFFFFFFF := by decide +kernel
/-- A divisor of 0 raises ARITH: the context is parked, and g9 keeps its value. -/
theorem test_div_zero : (ctx0 (exec (.div (tR 9 1 0 7)) uSt)).parked = true ∧ (ctx0 (exec (.div (tR 9 1 0 7)) uSt)).trapcause = cArith.setWidth 64 := by
  decide +kernel
theorem test_shifts : (ctx0 (exec (.shl (tR 9 6 1 7)) uSt)).rg 9 = 1024 ∧ (ctx0 (exec (.sra (tR 9 3 1 3)) uSt)).rg 9 = 0xFFFFFFFFFFFFFFFF ∧
    (ctx0 (exec (.shr (tR 9 3 1 6)) uSt)).rg 9 = 0x3FFFFF ∧ (ctx0 (exec (.rot (tR 9 6 3 7)) uSt)).rg 9 = 0x8000000000000000 := by decide +kernel
theorem test_bits : (ctx0 (exec (.and (tR 9 1 2 7)) uSt)).rg 9 = 2 ∧ (ctx0 (exec (.or (tR 9 1 2 7)) uSt)).rg 9 = 11 ∧
    (ctx0 (exec (.xor (tR 9 1 2 7)) uSt)).rg 9 = 9 ∧ (ctx0 (exec (.andn (tR 9 1 2 7)) uSt)).rg 9 = 8 := by decide +kernel
theorem test_counts : (ctx0 (exec (.clz (tR 9 1 0 6)) uSt)).rg 9 = 28 ∧ (ctx0 (exec (.ctz (tR 9 1 0 6)) uSt)).rg 9 = 1 ∧
    (ctx0 (exec (.popc (tR 9 1 0 6)) uSt)).rg 9 = 2 ∧ (ctx0 (exec (.clz (tR 9 0 0 6)) uSt)).rg 9 = 32 := by decide +kernel
theorem test_min_max_absd : (ctx0 (exec (.min (tR 9 1 3 3)) uSt)).rg 9 = 0xFFFFFFFFFFFFFFFF ∧ (ctx0 (exec (.max (tR 9 1 3 3)) uSt)).rg 9 = 10 ∧
    (ctx0 (exec (.absd (tR 9 1 3 3)) uSt)).rg 9 = 11 := by decide +kernel
/-- EXT takes 4 bits at place 0 (LEN 4 in gC), and INS puts them at place 8 (R97). -/
theorem test_select_move : (ctx0 (exec (.sel { tR 9 1 2 7 with c := 0 }) uSt)).rg 9 = 3 ∧ (ctx0 (exec (.mov (tR 9 3 0 4)) uSt)).rg 9 = 0xFF ∧
    (ctx0 (exec (.lea { tR 9 4 2 7 with mod := 3 }) uSt)).rg 9 = 0x1018 := by decide +kernel
theorem test_immediates : (ctx0 (exec (.addImm (tI 9 1 7 0xFFFFFF)) uSt)).rg 9 = 9 ∧ (ctx0 (exec (.movi (tI 9 0 4 0xFFF)) uSt)).rg 9 = 0xFF ∧
    (ctx0 (exec (.shlImm (tI 9 6 7 4)) uSt)).rg 9 = 16 ∧ (ctx0 (exec (.moviL { kg := 0, d := 9, ty := 7, lit := 0x123456789ABCDEF0 }) uSt)).rg 9 =
    0x123456789ABCDEF0 := by decide +kernel
theorem test_masks : (ctx0 (exec (.kset (tR 3 1 0 0)) uSt)).rk 3 = 10 ∧ (ctx0 (exec (.kcnt (tR 9 1 2 0)) uSt)).rg 9 = 4 ∧
    (ctx0 (exec (.kmov (tR 3 0 0 0)) uSt)).rk 3 = 0xFFFFFFFF := by decide +kernel
/-- EMPTY marks g1 and keeps its value; FLAG sets f0 (SET is MOD [7:0]'s place in the word as the entry of R102 has it). -/
theorem test_empty : (ctx0 (exec (.empty (tR 1 0 0 0)) uSt)).emptyG 1 = true ∧ (ctx0 (exec (.empty (tR 1 0 0 0)) uSt)).rg 1 = 10 := by decide +kernel

/-- An empty source waits, one marked trap-on-empty raises REGISTER_EMPTY with its number (R38). -/
theorem test_empty_source : (ctx0 (exec (.add (tR 9 1 2 7)) (tState ((tCtx .u).markG 2 true)))).firing.map (·.stall) = some (.operand false 2 false) ∧
    (ctx0 (exec (.add { tR 9 1 2 7 with fe := 2 }) (tState ((tCtx .u).markG 2 true)))).trapinfo = 2 ∧
    (ctx0 (exec (.add { tR 9 1 2 7 with fe := 2 }) (tState ((tCtx .u).markG 2 true)))).trapcause = cRegisterEmpty.setWidth 64 := by decide +kernel

/-- A guard bit of 0 leaves all but the pc (R58): k2 has bit 0 set, k3 has not. -/
theorem test_guard_off : (ctx0 (exec (.add { tR 9 1 2 7 with kg := 3 }) uSt)).rg 9 = 0 ∧
    (ctx0 (exec (.add { tR 9 1 2 7 with kg := 3 }) uSt)).firing.map (·.pc) = some 8 := by decide +kernel

/-- GLOAD at U raises PRIVILEGE with level 1 (R75). -/
theorem test_privilege : (ctx0 (exec (.gload (tS 9 1 2)) uSt)).trapcause = cPrivilege.setWidth 64 ∧ (ctx0 (exec (.gload (tS 9 1 2)) uSt)).trapinfo = 1 := by
  decide +kernel

/-! ## Witnesses: encoding, steps and integers -/

theorem witness_DecodingUndoesEncoding : (Instr.add (tR 1 2 3 7)).wellFormed = true ∧ (Instr.add (tR 1 2 3 7)).view.isSome = true := by decide +kernel
theorem witness_DecodingIsExact : decode (leBytes 8 0x10000108300E0000 ++ [7]) = .ok (.add (tR 1 2 3 7), [7]) ∧
    bits 0x0400000000000000 63 56 ∉ [0x01, 0x02, 0x03, 0x10, 0x11, 0x12, 0x13, 0x40, 0x50, 0x60, 0x68, 0x70, 0x80, 0x81, 0x82, 0x83, 0xC0, 0xC1, 0xD0, 0xD1,
      0xD2, 0xD3, 0xD4, 0xE0, 0xE8, 0xF0] ∧ bits 0x0104000000000000 63 56 = 0x01 ∧ 1 ≤ bits 0x0104000000000000 55 50 := by decide +kernel

/-- The machine with ADD loaded: what the statement about a step asks for, all together. -/
def tLoaded : State := State.reset.withFetchWord 64 0x10000108300E0000
def tLoadedCtx : Ctx := (tLoaded.ctx? (firmwareOf 0)).getD (tCtx .f)
def tLoadedFir : Firing := tLoadedCtx.firing.getD tFir
def tLoadedBind : Binding := (tLoaded.enterBinding tLoadedCtx.asid tLoadedFir (cpSlot tLoadedFir.pc)).getD
  { asid := 0, slot := 0, gen := 0, base := 0, len := 0, digest := 0, image := [] }
theorem witness_StepRunsDecoded :
    tLoaded.inputs = [] ∧ tLoaded.issuer = some (firmwareOf 0) ∧ tLoaded.ctx? (firmwareOf 0) = some tLoadedCtx ∧
    tLoadedCtx.issuable (firmwareOf 0) = some tLoadedFir ∧ tLoadedCtx.faultDue = false ∧ tLoadedCtx.replay = [] ∧
    (tLoaded.enterBinding tLoadedCtx.asid tLoadedFir (cpSlot tLoadedFir.pc)).isSome = true ∧ cpOffset tLoadedFir.pc + 8 ≤ tLoadedBind.len ∧
    decode (leBytes 8 0x10000108300E0000) = .ok (.add (tR 1 2 3 7), []) ∧ (Instr.add (tR 1 2 3 7)).wellFormed = true := by decide +kernel
theorem witness_StepRunsDecoded_word : tLoaded.codeWord (firmwareOf 0) tLoadedCtx tLoadedBind 0 0x10000108300E0000 :=
  ⟨0x10000, by decide +kernel⟩
theorem witness_StepRunsDecoded_asked : ({ State.reset with inputs := [.issue 0] } : State).inputs = .issue 0 :: [] := rfl
theorem witness_MemoryStaysCanonical : Memory.wf State.reset.mem = true ∧
    (match step tLoaded with | .next t => Memory.wf t.mem && decide (t.mem ≠ []) | .fault _ => false | .refused _ => false) = true := by decide +kernel

/-- GuardOffSkips: k3 is 0, the context is at F and the ADD is a scalar instruction. -/
theorem witness_GuardOffSkips : Issuing fSt 0 (tCtx .f) tFir ∧ (Instr.add { tR 9 1 2 7 with kg := 3 }).view.isSome = true ∧ ((tCtx .f).rk 3).getLsbD 0 = false ∧
    (tCtx .f).priv = .f := ⟨issuing_base _ rfl, by decide, by decide, rfl⟩
theorem witness_PrivilegeChecked : Issuing uSt 0 (tCtx .u) tFir ∧ (Instr.gload (tS 9 1 2)).view.isSome = true ∧ (tCtx .u).priv.level < Priv.s.level :=
  ⟨issuing_base _ rfl, by decide +kernel⟩

/-- Divisors of both kinds for DIV and REM, and the operands ready. -/
theorem witness_IntegerArithmetic : Issuing uSt 0 (tCtx .u) tFir ∧ (tCtx .u).guardOn (tR 9 1 2 7).kg ∧
    Operands uSt 0 (tCtx .u) [rA .g (tR 9 1 2 7), rB .g (tR 9 1 2 7)] [gDst 9] ∧ rdInt 7 ((tCtx .u).rg 2) ≠ 0 ∧ rdInt 7 ((tCtx .u).rg 0) = 0 :=
  ⟨issuing_base _ rfl, guard_base _, operands_base _ ⟨rfl, rfl, rfl, rfl⟩ rfl _ _, by decide +kernel⟩
theorem witness_BitwiseAndFields : Issuing uSt 0 (tCtx .u) tFir ∧ (tCtx .u).guardOn (tR 9 1 2 7).kg ∧
    Operands uSt 0 (tCtx .u) [rA .g (tR 9 1 2 7), rB .g (tR 9 1 2 7), rC .g (tR 9 1 2 7), rOld .g (tR 9 1 2 7)] [gDst 9] :=
  ⟨issuing_base _ rfl, guard_base _, operands_base _ ⟨rfl, rfl, rfl, rfl⟩ rfl _ _⟩
theorem witness_IntegerFunctions : (7 : BitVec 5).toNat < 8 ∧ trailZeros 8 64 < 64 ∧ 2 < trailZeros 8 64 := by decide
/-- The pc of the firing stands in a binding, for the forms that read it. -/
def tBind : Binding := { asid := 1, slot := 0, gen := 1, base := 0x4000, len := 64, digest := 0, image := [] }
def tHeld : Firing := { tFir with refs := [{ asid := 1, slot := 0, gen := 1 }] }
def tBound : State := { tState { tCtx .u with firing := some tHeld } with bindings := [tBind], asids := [(1, { live := true, part := 1, gens := [(0, 1)], bound := 1 })] }
theorem witness_ImmediateForms : Issuing tBound 0 { tCtx .u with firing := some tHeld } tHeld ∧ tBound.heldBinding tHeld (cpSlot tHeld.pc) = some tBind :=
  ⟨⟨rfl, rfl, rfl, rfl⟩, by decide +kernel⟩
theorem witness_MasksAndFlags : (RForm.ofWord 0x100).mod.getLsbD 8 = true ∧ (RForm.ofWord 0).mod.getLsbD 8 = false ∧ (RForm.ofWord 1).mod.getLsbD 0 = true ∧
    Issuing uSt 0 (tCtx .u) tFir ∧ Operands uSt 0 (tCtx .u) [rA .k (tR 3 1 2 0), rB .k (tR 3 1 2 0)] [vDst 3] :=
  ⟨by decide, by decide, by decide, issuing_base _ rfl, operands_base _ ⟨rfl, rfl, rfl, rfl⟩ rfl _ _⟩

/-! ## Control (R87 to R92) -/

def tJ (a : BitVec 6) (off : Int) : JForm := { JForm.ofWord 0 with a := a, off := BitVec.ofInt 32 off }
def boundCtx : Ctx := { tCtx .u with firing := some tHeld }
/-- BR two words on, CALL with its link, LOOP with a counter of 10. -/
theorem test_branches : (ctx0 (exec (.br (tJ 0 2)) tBound)).firing.map (·.pc) = some 16 ∧ (ctx0 (exec (.call (tJ 0 2)) tBound)).rg 63 = linkPtr 0 8 ∧
    (ctx0 (exec (.loop (tJ 1 1)) tBound)).rg 1 = 9 ∧ (ctx0 (exec (.loop (tJ 1 1)) tBound)).firing.map (·.pc) = some 8 ∧
    (ctx0 (exec (.loop (tJ 6 0)) tBound)).rg 6 = 0 := by decide +kernel
/-- A branch beyond the binding raises PROTECTION, one into slot 0 of an ASID without a binding MODULE_ABSENT. -/
theorem test_branch_faults : (ctx0 (exec (.br (tJ 0 8)) tBound)).trapcause = cProtection.setWidth 64 ∧
    (ctx0 (exec (.br (tJ 0 2)) uSt)).trapcause = cModuleAbsent.setWidth 64 := by decide +kernel
theorem test_end : (ctx0 (exec (.endFiring (RForm.ofWord 0)) tBound)).firing = none := by decide +kernel

theorem witness_TakenTransfers : Issuing tBound 0 boundCtx tHeld ∧
    (tBound.enterBinding 1 tHeld 0 = some tBind ∧ (relTarget tHeld.pc (8 * (tJ 1 2).off.toInt)).offset = 16 ∧ (16 : Int) < tBind.len) ∧
    boundCtx.rk 1 &&& boundCtx.rk 2 ≠ 0 ∧ boundCtx.rk 1 &&& boundCtx.rk 2 = boundCtx.rk 2 ∧ 1 < (boundCtx.rg 1).toNat ∧
    (ptrTarget (boundCtx.rg 20)).offset = 0 := by
  refine ⟨⟨rfl, rfl, rfl, rfl⟩, ?_⟩; decide +kernel
theorem witness_SequentialControl : Issuing tBound 0 boundCtx tHeld ∧ boundCtx.rk 3 &&& boundCtx.rk 2 = 0 ∧ boundCtx.rk 3 &&& boundCtx.rk 2 ≠ boundCtx.rk 2 ∧
    (boundCtx.rg 6).toNat ≤ 1 := by refine ⟨⟨rfl, rfl, rfl, rfl⟩, ?_⟩; decide +kernel
/-- The pc 4 of a firing makes every relative target misaligned; a slot without a binding; a target beyond the binding; a misaligned access. -/
theorem witness_FaultsAtIssue : Issuing tBound 0 boundCtx tHeld ∧ (relTarget 4 (8 * (tJ 0 2).off.toInt)).offset % 8 ≠ 0 ∧
    uSt.enterBinding 1 tFir 0 = none ∧ ((tBind.len : Int) ≤ (relTarget 0 (8 * (tJ 0 8).off.toInt)).offset ∧ tBound.enterBinding 1 tHeld 0 = some tBind) ∧
    (effAddr 7 ((tCtx .u).rg 6) 0 0 = some 1 ∧ 1 % tyBytes 7 ≠ 0) := by refine ⟨⟨rfl, rfl, rfl, rfl⟩, ?_⟩; decide +kernel

/-! ## System registers, guards and modules -/

theorem test_gets_sets : (ctx0 (exec (.gets { tS 9 0 0 with imm := 0x21 }) (tState { tCtx .u with warn := 5 }))).rg 9 = 5 ∧
    (ctx0 (exec (.sets { tS 0 6 0 with imm := 0x21 }) (tState { tCtx .u with warn := 5 }))).warn = 4 := by decide +kernel
/-- %wgcfg of cluster 3 at reset: EN, MINWAYS 4, MISSHI 32, MISSLO 4, WAYSON 16 (R198); on its way, with g9 empty. -/
theorem test_gets_cluster : (ctx0 (exec (.gets { tS 9 2 0 with imm := 0x201 }) fSt)).emptyG 9 = true ∧
    (after (exec (.gets { tS 9 2 0 with imm := 0x201 }) fSt)).ops.map (·.kind) = [.value (wd (1 + 4 * 2 + 32 * 32 + 4 * 8192 + 16 * 2097152)) []] := by decide +kernel
theorem test_gett : (ctx0 (exec (.gettTicks (tS 9 0 0)) { uSt with ticks := 77, ptp := 770 })).rg 9 = 77 ∧
    (ctx0 (exec (.gettBoth { tS 9 0 10 with cnd := 2 }) { uSt with ticks := 77, ptp := 770 })).rg 10 = 770 := by decide +kernel
theorem test_tick : (after (exec .referenceClockTick uSt)).ticks = 1 ∧ (after (exec .referenceClockTick uSt)).ptp = 10 := by decide +kernel

theorem witness_SystemReadsAndTime : Issuing fSt 0 (tCtx .f) tFir ∧ (regPriv 0x21).level ≤ Priv.u.level ∧ isClusterReg 0x21 = false ∧
    ¬ ((tCtx .f).priv = .f ∧ ofPartition 0x21 = true) ∧ ofPartition 0x210 = true ∧ isClusterReg 0x201 = true ∧
    ((tCtx .f).rg 2).toNat ≤ 47 ∧ (regPriv 0x201).level ≤ (tCtx .f).priv.level ∧ (∀ o ∈ fSt.ops, o.ctx = 0 → o.serial = 0 → o.setsSticky = false) :=
  ⟨issuing_base _ rfl, by decide, by decide, by decide, by decide, by decide, by decide, by decide, fun _ h => nomatch h⟩
/-- A register of the context, of the package and of a cluster, at F and at S with SENABLE of either value. -/
theorem witness_SystemWrites : Issuing fSt 0 (tCtx .f) tFir ∧ Issuing sSt 0 (tCtx .s) tFir ∧ 0x21 < 0x100 ∧ 0x100 ≤ 0x208 ∧ isClusterReg 0x208 = false ∧
    isClusterReg 0x105 = true ∧ (regPriv 0x105).level ≤ (tCtx .s).priv.level ∧ ((tCtx .s).rg 2).toNat ≤ 47 ∧ (sSt.cluster 3).senable = false ∧
    (({ sSt with clusters := [(3, { senable := true })] } : State).cluster 3).senable = true :=
  ⟨issuing_base _ rfl, issuing_base _ rfl, by decide +kernel⟩

/-- Entry 5 with V set and no conditions is put aside, and is in force from END; one whose word 0 has a reserved bit is invalid. -/
theorem test_guard : (ctx0 (exec (.guardEntry { tS 0 20 0 with imm := 5 }) (tState ((tCtx .u).wg 20 0x8000000000000000)))).guardsHeld =
      some [(5, (0x8000000000000000, 0))] ∧
    (ctx0 (exec (.guardEntry { tS 0 20 0 with imm := 5 }) (tState ((tCtx .u).wg 20 0x8000000000000000)))).guards = [] ∧
    (ctx0 (exec (.guardEntry { tS 0 3 0 with imm := 5 }) uSt)).trapcause = cIllegalEncoding.setWidth 64 := by decide +kernel
theorem test_gqry : (ctx0 (exec (.gqryEntry { tS 9 0 10 with imm := 5 }) (tState { tCtx .u with guards := [(5, (0x8000000000000010, 7))] }))).rg 9 =
      0x8000000000000010 ∧ (ctx0 (exec (.gqryEntry { tS 9 0 10 with imm := 5 }) (tState { tCtx .u with guards := [(5, (0x8000000000000010, 7))] }))).rg 10 = 7 := by
  decide +kernel
theorem witness_GuardInstructions : Issuing uSt 0 (tCtx .u) tFir ∧ entryOffences 0x8000000000000000 0 = [] ∧ entryOffences ((tCtx .u).rg 3) 0 ≠ [] ∧
    ((tCtx .f).rg 4).toNat % 256 = 0 ∧ (match loadWords (tFirm (tCtx .f)) (firmwareOf 0) (tCtx .f) 0x1000 32 with | .ok (ws, _) => decide (firstInvalid (pairWords ws) 0 = none) | .error _ => false) = true :=
  ⟨issuing_base _ rfl, by decide +kernel⟩

/-- MODBIND of 8 bytes at 0x1000 in slot 3: the binding is there with its image, and takes effect later. -/
theorem test_modbind : ((after (exec (.modbind { tR 9 4 2 0 with c := 20 }) (tState ((tCtx .f).wg 20 8)))).bindings.map fun b => (b.slot, b.base, b.len)) = [(3, 0x1000, 8)] := by
  decide +kernel
theorem test_modq : (ctx0 (exec (.modq (tR 9 0 0 0)) tBound)).rg 9 = 0x10001 := by decide +kernel
theorem witness_ModuleInstructions : Issuing fSt 0 (tCtx .f) tFir ∧ 0x1000 % 128 = 0 ∧ ((tCtx .f).rg 2).toNat ≤ 15 ∧
    (imageFrom fSt 0 (tCtx .f) 0x1000 8 (8 / 65536 + 2) 0 []).toOption.isSome = true ∧ uSt.boundNow 1 0 = none ∧ tBound.boundNow 1 0 = some tBind ∧
    tBound.drainedBindings 1 0 = [] := ⟨issuing_base _ rfl, by decide +kernel⟩

/-! ## Memory (R251 to R271) -/

/-- LD .w32 g9, [g4] goes in flight with its address and g9 empty. -/
theorem test_ld_issue : (ctx0 (exec (.ld (tM 9 4 6)) fSt)).emptyG 9 = true ∧ (after (exec (.ld (tM 9 4 6)) fSt)).ops.map (·.addr) = [0x1000] := by decide +kernel
/-- A displacement counts in elements: 2 × 8 bytes. -/
theorem test_st_issue : (after (exec (.st { tM 1 4 7 with disp := 2 }) fSt)).ops.map (·.addr) = [0x1010] ∧ (after (exec (.st (tM 1 4 7)) fSt)).mem = [] := by decide +kernel
theorem test_misaligned : (ctx0 (exec (.ld (tM 9 6 7)) uSt)).trapcause = cAlignment.setWidth 64 ∧ (ctx0 (exec (.ld (tM 9 6 7)) uSt)).trapinfo = 1 := by decide +kernel

theorem witness_LoadsIssue : Issuing fSt 0 (tCtx .f) tFir ∧ effAddr 7 ((tCtx .f).rg 4) 0 0 = some 0x1000 ∧ 0x1000 % tyBytes 7 = 0 ∧
    (activeLanes ((tCtx .f).rk 1)).all (fun l => laneAddr ((tCtx .f).rg 4) ((tCtx .f).rv 20) 0 l % 4 == 0) = true :=
  ⟨issuing_base _ rfl, by decide +kernel⟩
theorem witness_StoresIssue : Issuing fSt 0 (tCtx .f) tFir ∧ fSt.redundant 0 = false ∧ storePas fSt 0 (tCtx .f) 8 [0x1000] = .ok [0x1000] ∧
    (∀ o ∈ fSt.ops, o.id ≠ fSt.fresh) := ⟨issuing_base _ rfl, by decide +kernel, by decide +kernel, fun _ h => nomatch h⟩

/-- The aperture: bank 8 of tile 0, which is SCRATCH at reset. -/
def tAper : Nat := 0xFE * 2 ^ 56 + 8 * 65536
def aCtx : Ctx := ((tCtx .f).wg 20 (wd tAper)).wg 21 1
def aSt : State := tState aCtx
theorem witness_AtomicsAndArrivalsIssue : Issuing aSt 0 aCtx tFir ∧ aSt.redundant 0 = false ∧ inAperture tAper = true ∧
    (apertureAt aSt 0 aCtx tAper 8).toOption.isSome = true ∧ tAper % 4096 = 0 ∧ (apertureAt aSt 0 aCtx tAper 4096).toOption.isSome = true ∧
    effAddr 7 (aCtx.rg 20) 0 0 = some tAper ∧ effAddr 7 (aCtx.rg 20) 0 (atomDisp (tM 1 20 7)) = some tAper ∧
    ((aCtx.rv 30).extractLsb' 512 32).toNat < 2 ^ 31 ∧ descOp ((aCtx.rv 30).extractLsb' 512 32).toNat ≠ 3 ∧ inAperture 0x1000 = false :=
  ⟨issuing_base _ rfl, by decide +kernel⟩
theorem test_atomr_issue : (after (exec (.atomr (tM 1 20 7)) aSt)).ops.map (·.kind) = [.atomic] ∧ (ctx0 (exec (.atomr (tM 1 20 7)) aSt)).emptyG 1 = true := by
  decide +kernel

/-- A release FENCE of scope cluster writes the tile's dirty byte back; an acquire drops it then (R268, R280). -/
def dirtySt : State := { fSt with tileCache := [(0x100, { bytes := 0x5A, held := 1, stored := 1 })] }
theorem test_fence : (after (exec (.fence { tM 0 0 0 with sc := 2, ord := 2 }) dirtySt)).mem = [(0x2000, 0x5A)] ∧
    (after (exec (.fence { tM 0 0 0 with sc := 2, ord := 3 }) dirtySt)).tileCache = [] ∧
    (after (exec (.fence { tM 0 0 0 with sc := 0, ord := 2 }) dirtySt)).mem = [] := by decide +kernel
theorem test_cache_controls : (after (exec (.cwb (tM 0 4 4)) dirtySt)).mem = [(0x2000, 0x5A)] ∧ (after (exec (.cinv (tM 0 4 4)) dirtySt)).tileCache = dirtySt.tileCache ∧
    (after (exec (.cflush (tM 0 4 4)) dirtySt)).tileCache = [] := by decide +kernel
theorem witness_FencesAndCaches : Issuing dirtySt 0 (tCtx .f) tFir ∧ (dirtySt.ops.any fun o => o.ctx == 0 && o.fenced 3) = false ∧
    (∀ e ∈ dirtySt.tlb, e.pa + 2 ^ e.log ≤ 2 ^ 38) ∧ Map.risesFrom 0 dirtySt.tileCache = true ∧ Memory.wf dirtySt.mem = true ∧
    dirtySt.cached? 0 0x2000 = some (0x5A, true) ∧ dirtySt.cached? 0 0x2001 ≠ some (0, true) :=
  ⟨⟨rfl, ctx_base _, rfl, rfl⟩, rfl, by decide +kernel⟩

/-- BANKCFG of bank 8 to CACHE; of a marked bank to FIFO at F. -/
theorem test_bankcfg : (after (exec (.bankcfg (tM 0 20 4)) aSt)).bankMode 0 8 = 0 ∧
    (after (exec (.bankcfg (tM 2 20 4)) { tState (aCtx.wg 2 2) with queueBanks := [(0, 0x100)] })).bankMode 0 8 = 2 := by decide +kernel
theorem witness_BankSwitches : Issuing aSt 0 aCtx tFir ∧ (effAddr 4 (aCtx.rg 20) 0 0 = some tAper ∧ tAper % tyBytes 4 = 0) ∧ tAper % 65536 = 0 ∧ apertureAt aSt 0 aCtx tAper 1 = .ok (.bank 0 8 0) ∧
    clusterOfTile (tileOf 0) = clusterOfTile 0 ∧ onSystemTile 0 = false ∧ aSt.testing.contains (1 + 0 * 2 ^ 4 + 8 * 2 ^ 13) = false ∧
    (aCtx.rg 0).toNat % 4 < 2 ∧ aSt.bankMode 0 8 ≠ 2 ∧ (aCtx.rg 2).toNat % 4 = 3 ∧
    ({ aSt with bankModes := [(8, 3)], queueBanks := [(0, 0x100)] } : State).bankMode 0 8 = 2 ∧
    ({ aSt with bankModes := [(8, 3)], queueBanks := [(0, 0x100)] } : State).liveBanks 0 = 0 ∧ (0x100 : BitVec 24).getLsbD 8 = true :=
  ⟨issuing_base _ rfl, by decide +kernel⟩
theorem test_copy_starts : (after (exec (.copy (tM 0 4 0)) fSt)).copies.map (·.record) = [0x1000] := by decide +kernel

/-! ## Counters, waits and events of instructions in flight -/

/-- The first instruction in flight. -/
def op1 (s : State) : Op := s.ops.headD { id := 0, ctx := 0, serial := 0, word := 0, pc := 0, kind := .load }
/-- A firmware context on its System Tile, whose memory accesses meet no ways and need no translation. -/
def kF : Nat := firmwareOf 0
def pSt : State := tFirm (tCtx .f)
def ctxF (r : Result) : Ctx := ((after r).ctx? kF).getD (tCtx .u)
/-- Its memory with bytes placed. -/
def memSt (m : Memory) : State := { pSt with mem := m }
theorem issuing_firm : Issuing pSt kF (tCtx .f) tFir := ⟨rfl, by simp [pSt, tFirm, State.ctx?, Map.find?, kF], rfl, rfl⟩

theorem test_eclr : (ctx0 (exec (.eclr { tS 9 0 0 with imm := 2 }) (tState { tCtx .u with e := [(2, 55)] }))).rg 9 = 55 ∧
    (ctx0 (exec (.eclr { tS 9 0 0 with imm := 2 }) (tState { tCtx .u with e := [(2, 55)] }))).re 2 = 0 := by decide +kernel
/-- MCADD of 3 to a counter that holds 258, and the add at its home. -/
def addSt : State := after (exec (.mcadd (tS 9 4 2)) (memSt [(0x1000, 2), (0x1001, 1)]))
theorem test_mcadd : (ctxF (.next addSt)).emptyG 9 = true ∧ addSt.mem = [(0x1000, 2), (0x1001, 1)] ∧
    (after (exec (.monotonicCounterAdd (op1 addSt).id) addSt)).mem = [(0x1000, 5), (0x1001, 1)] := by decide +kernel
theorem test_mcadd_result : (ctxF (exec (.longLatencyResult (op1 addSt).id) (after (exec (.monotonicCounterAdd (op1 addSt).id) addSt)))).rg 9 = 258 := by decide +kernel
theorem test_credit_word : creditWord (5 * 2 ^ 28 + 3) 1 = 5 * 2 ^ 28 + 4 ∧ creditWord (7 * 2 ^ 56 + 5 * 2 ^ 28 + 4) 1 = 8 * 2 ^ 56 + 5 * 2 ^ 28 := by decide

/-- WAIT .any on slot 0, which holds the condition that e1 has reached 1: not yet, and then (R166, R167). -/
def wCtx (n : Word) : Ctx := { tCtx .u with slots := [(0, .ev 1 1)], e := [(1, n)] }
def tWait : SForm := { tS 9 1 0 with imm := 1 }
def waitSt : State := after (exec (.wait tWait) (tState (wCtx 0)))
theorem test_wait : (ctx0 (exec (.wait tWait) (tState (wCtx 1)))).rg 9 = 1 ∧ (ctx0 (.next waitSt)).firing.map (·.stall) = some .waiting ∧
    (ctx0 (exec (.waitTimeout 0) { waitSt with ticks := 10 })).rg 9 = 16 ∧ (ctx0 (exec (.waitTimeout 0) { waitSt with ticks := 9 })).firing.map (·.stall) = some .waiting := by
  decide +kernel
theorem witness_Waits : Issuing (tState (wCtx 1)) 0 (wCtx 1) tFir ∧ sampleWait (tState (wCtx 1)) 0 (wCtx 1) tWait 0 = .ok { seen := 1, done := true } ∧
    sampleWait (tState (wCtx 0)) 0 (wCtx 0) tWait 0 = .ok { seen := 0, done := false } ∧ tFir.wait = none ∧
    (0 : Nat) < 0 + Nat.min ((tCtx .u).rg 1).toNat (2 ^ 32) :=
  ⟨issuing_base _ rfl, by decide +kernel, by decide +kernel, rfl, by decide +kernel⟩
theorem witness_Waits_end : (waitSt.ctx? 0).isSome = true ∧ ((ctx0 (.next waitSt)).firing.bind (·.wait)).isSome = true ∧
    sampleWait { waitSt with ctxs := [(0, { ctx0 (.next waitSt) with e := [(1, 1)] })] } 0 { ctx0 (.next waitSt) with e := [(1, 1)] } tWait 0 =
      .ok { seen := 1, done := true } := by decide +kernel
theorem witness_CounterInstructions : Issuing pSt kF (tCtx .f) tFir ∧ pSt.issueRoom kF tFir ∧ pSt.noAcquire kF ∧ (tCtx .f).guardOn (tS 9 4 2).kg :=
  ⟨issuing_firm, by unfold State.issueRoom; exact (by decide : (0 : Nat) < 16), rfl, guard_base _⟩

/-- A load that has issued, and one of type i8 that extends its sign. -/
def ldSt : State := after (exec (.ld (tM 9 4 0)) (memSt [(0x1000, 0x80)]))
theorem test_load : (ctxF (exec (.longLatencyResult (op1 ldSt).id) ldSt)).rg 9 = 0xFFFFFFFFFFFFFF80 ∧
    (ctxF (exec (.longLatencyResult (op1 ldSt).id) ldSt)).emptyG 9 = false := by decide +kernel
def valSt : State := after (exec (.gets { tS 9 2 0 with imm := 0x201 }) fSt)
theorem witness_ResultsArrive : Claims.due ldSt (op1 ldSt).id (op1 ldSt) (ctxF (.next ldSt)) ∧ (op1 ldSt).kind = .load ∧ (op1 ldSt).ord = 0 ∧
    bits (op1 ldSt).word.toNat 55 50 = 0 ∧ placeOf ldSt kF (ctxF (.next ldSt)) 0x1000 1 .r = .ok (.dram 0x1000) ∧ ldSt.dramBad 0x1000 1 = false ∧
    valSt.op? (op1 valSt).id = some (op1 valSt) ∧ (valSt.ctx? (op1 valSt).ctx).isSome = true :=
  ⟨⟨by decide +kernel, by decide +kernel⟩, by decide +kernel⟩

/-- A store of two bytes, little-endian, and an atomic add to them. -/
def stSt : State := after (exec (.st (tM 20 4 5)) (tFirm ((tCtx .f).wg 20 0x1234)))
theorem test_store : stSt.mem = [] ∧ (after (exec (.postedWriteArrival (op1 stSt).id) stSt)).mem = [(0x1000, 0x34), (0x1001, 0x12)] := by decide +kernel
def atSt : State := after (exec (.atomr (tM 2 4 6)) (memSt [(0x1000, 0xFF), (0x1001, 0xFF), (0x1002, 0xFF), (0x1003, 0xFF)]))
/-- The add of 3 to 2^32 − 1 wraps to 2, and the old value comes back. -/
theorem test_atomic : (after (exec (.atomicApply (op1 atSt).id) atSt)).mem = [(0x1000, 2)] ∧
    (ctxF (exec (.atomicApply (op1 atSt).id) atSt)).rg 2 = 0xFFFFFFFF := by decide +kernel
theorem witness_StoresAndAtomicsAct : Claims.due stSt (op1 stSt).id (op1 stSt) (ctxF (.next stSt)) ∧ (op1 stSt).kind = .store ∧ (op1 stSt).ord = 0 ∧
    bits (op1 stSt).word.toNat 55 50 = 0 ∧ (op1 stSt).pas = [0x1000] ∧ Memory.wf stSt.mem = true ∧ stSt.hasWays (tileOf kF) = false ∧ fSt.hasWays 0 = true :=
  ⟨⟨by decide +kernel, by decide +kernel⟩, by decide +kernel⟩
theorem witness_StoresAndAtomicsAct_atomic : Claims.due atSt (op1 atSt).id (op1 atSt) (ctxF (.next atSt)) ∧ (op1 atSt).kind = .atomic ∧
    placeOf atSt kF (ctxF (.next atSt)) 0x1000 4 .w = .ok (.dram 0x1000) ∧ atSt.dramBad 0x1000 4 = false :=
  ⟨⟨by decide +kernel, by decide +kernel⟩, by decide +kernel⟩

/-- Arrival words stand in the aperture: AWARM and AWCRED of bank 8. -/
def armSt : State := after (exec (.awarm (tM 21 20 7)) aSt)
def credSt : State := after (exec (.awcred (tM 21 20 7)) aSt)
def readSt : State := after (exec (.mcread (tS 9 4 0)) pSt)
def doneSt : State := { uSt with asyncDone := [{ id := 5, ctx := 0, ev := some 2, warn := 1, fpflags := 2 }] }
theorem test_async_completion : (ctx0 (exec (.asyncCompletion 5) doneSt)).re 2 = 1 ∧ (ctx0 (exec (.asyncCompletion 5) doneSt)).warn = 1 := by decide +kernel
/-- At a target of 1 the one credit completes the generation. -/
theorem test_arrival : (after (exec (.arrivalWordCredit (op1 credSt).id) { credSt with scratch := [(bankKey 0 8 3, 0x10)] })).scratch =
    [(bankKey 0 8 3, 0x10), (bankKey 0 8 7, 1)] := by decide +kernel
theorem witness_CounterArithmetic : pSt.dramBad 0x1000 8 = false ∧ Memory.wf pSt.mem = true ∧ leNat (Memory.readBytes pSt.mem 0x1000 8) + 3 < 2 ^ 64 ∧
    2 ^ 64 ≤ leNat (Memory.readBytes pSt.mem 0x1000 8) + 2 ^ 64 ∧
    (bits (5 * 2 ^ 28 + 3) 27 0 + 1 < bits (5 * 2 ^ 28 + 3) 55 28) ∧ bits (5 * 2 ^ 28 + 4) 55 28 ≤ bits (5 * 2 ^ 28 + 4) 27 0 + 1 ∧
    (7 : Nat) < 8 ∧ (3 : Nat) < 2 ^ tyWidth 7 := by decide +kernel
theorem witness_CounterArithmetic_events : Claims.due addSt (op1 addSt).id (op1 addSt) (ctxF (.next addSt)) ∧ (op1 addSt).kind = .counterAdd ∧
    (performCounterAdd addSt (op1 addSt) (ctxF (.next addSt))).toOption.isSome = true ∧ (op1 readSt).kind = .counterRead ∧
    (performCounterRead readSt (op1 readSt) (ctxF (.next readSt))).toOption.isSome = true ∧ readSt.mayPerform (op1 readSt) = true ∧
    (doneSt.asyncDone.find? fun d => d.id == 5).isSome = true :=
  ⟨⟨by decide +kernel, by decide +kernel⟩, by decide +kernel⟩
theorem witness_CounterArithmetic_arrival : (op1 credSt).kind = .awcred ∧ credSt.mayPerform (op1 credSt) = true ∧
    (updateArrival credSt 0 (ctx0 (.next credSt)) (op1 credSt).addr (fun aw => creditWord aw 1)).toOption.isSome = true ∧ (op1 armSt).kind = .awarm ∧
    armSt.mayPerform (op1 armSt) = true ∧ (updateArrival armSt 0 (ctx0 (.next armSt)) (op1 armSt).addr (fun aw => armWord aw 1)).toOption.isSome = true := by
  decide +kernel

/-! ## Repair, blending, translation and bindings -/

/-- An atomic of a context at U without translation diverts. -/
def divSt : State := after (exec (.atom (tM 2 4 6)) { uSt with asids := [(1, { live := true, part := 1 })] })
theorem test_divert : (after (exec (.atomicDiversion (op1 divSt).id) divSt)).repairs.map (fun r => (r.2.1, r.2.2.cause)) = [(0, cTranslation)] := by decide +kernel
def repSt : State := after (execAtomicDiversion (op1 divSt).id divSt)
theorem test_repair_timeout : (after (exec (.repairTimeout 0 0) { repSt with ticks := 1000000 })).repairs = [] ∧
    (after (exec (.repairTimeout 0 0) { repSt with ticks := 999999 })).repairs.length = 1 := by decide +kernel
/-- The entry of the repair queue after its page has been mapped. -/
def mapEntry : TlbEntry := { asid := 1, part := 1, va := 0, log := 21, ipa := 0, pa := 0, rights1 := 7, level1 := 2, rights2 := 7, level2 := 2 }
/-- The same translation in tile 0, in the tile of a supervisor, and beside the tiles. -/
def mapTlb : List TlbEntry := [mapEntry, { mapEntry with tile := noTile }, { mapEntry with tile := tileOf (supervisorOf 1) }]
theorem witness_BlendingAndRepair : Claims.due divSt (op1 divSt).id (op1 divSt) (ctx0 (.next divSt)) ∧ (op1 divSt).kind = .atomic ∧
    (match performAtomic divSt (op1 divSt) (ctx0 (.next divSt)) with | .error t => diverts t.cause | .ok _ => false) = true ∧
    ((List.range 64).find? fun n => (divSt.repair? 0 n).isNone) = some 0 ∧ (repSt.repair? 0 0).isSome = true ∧
    (match repSt.repair? 0 0 with | some e => (performAtomic { repSt with tlb := mapTlb } e.op (ctx0 (.next repSt))).toOption.isSome | none => false) = true :=
  ⟨⟨by decide +kernel, by decide +kernel⟩, by decide +kernel⟩

/-- A buffer that SEQRET has armed with tag 5, a fragment whose tag has come and one of tag 6. -/
def seqSt : State := after (exec (.seqret (tM 20 21 7)) (tState (((tCtx .f).wg 21 (wd tAper)).wg 20 0x10005)))
def armedSt : State := after (execSeqretAtBank (op1 seqSt).id seqSt)
theorem test_seqret : armedSt.curTag { tile := 0, bank := 8, off := 0 } = 5 ∧ armedSt.bufActive { tile := 0, bank := 8, off := 0 } = true := by decide +kernel
def fragSt (tag : Nat) : State :=
  { after (exec (.blend (tM 30 21 8)) { armedSt with ops := [], ctxs := [(0, ((tCtx .f).wg 21 (wd tAper)).wv 30 (BitVec.ofNat 1024 (tag * 2 ^ 512)))] }) with cur := some 0 }
theorem witness_BlendingAndRepair_blend : Claims.due seqSt (op1 seqSt).id (op1 seqSt) (ctx0 (.next seqSt)) ∧ (op1 seqSt).kind = .seqret ∧
    bufferAt seqSt (op1 seqSt) (ctx0 (.next seqSt)) = .ok { tile := 0, bank := 8, off := 0 } ∧ hasRel (op1 seqSt).ord = false ∧
    bits (op1 seqSt).opA.toNat 16 16 = 1 ∧ seqSt.heldCount { tile := 0, bank := 8, off := 0 } = 0 ∧
    (op1 (fragSt 5)).kind = .blend ∧ tagAfter (descSeq ((op1 (fragSt 5)).opA.extractLsb' 512 32).toNat) 5 = false ∧
    tagAfter (descSeq ((op1 (fragSt 6)).opA.extractLsb' 512 32).toNat) 5 = true ∧ (fragSt 6).curTag { tile := 0, bank := 8, off := 0 } = 5 ∧
    (fragSt 6).bufActive { tile := 0, bank := 8, off := 0 } = true ∧
    ((fragSt 6).hold { tile := 0, bank := 8, off := 0 } ((op1 (fragSt 6)).opA.extractLsb' 512 32).toNat (some 0)).isSome = true :=
  ⟨⟨by decide +kernel, by decide +kernel⟩, by decide +kernel⟩

/-- Stage 1 and stage 2 tables of one block each: VA 0 and IPA 0 are mapped with all rights. Stage 1 stands at IPA 0x1000, stage 2 at PA 0x2000. -/
def walkSt : State :=
  { uSt with asids := [(1, { live := true, part := 1, root := 0x1000 })], parts := [(1, { isOpen := true, root := 0x2000 })] }
theorem test_no_translation : (walkBoth walkSt 1 1 0 .r).toOption.isSome = false := by decide +kernel
def tlbSt : State := after (exec (.tlbinvAsid { tS 22 0 6 with imm := 1 }) { tState ((tCtx .s).wg 22 0x1000) with
  asids := [(1, { live := true, part := 1 })], tlb := mapTlb })
theorem test_tlbinv : (after (exec (.tlbinvCompletion (op1 tlbSt).id) tlbSt)).tlb = [] ∧ (op1 tlbSt).kind = .tlbinv := by decide +kernel
/-- MODFREE of slot 0 of an ASID that no firing refers to. -/
def freeSt : State := after (exec (.modfree (tR 9 0 0 0)) { tBound with ctxs := [(0, { tCtx .u with firing := some tFir })] })
def bindSt : State := after (exec (.modbind { tR 9 4 2 0 with c := 20 }) (tState ((tCtx .f).wg 20 8)))
theorem test_modfree : (ctx0 (exec (.modfreeDrainComplete (op1 freeSt).id) freeSt)).rg 9 = 1 ∧
    (after (exec (.modfreeDrainComplete (op1 freeSt).id) freeSt)).bindings = [] := by decide +kernel
theorem test_binding_takes_effect : (ctx0 (exec (.bindingTakesEffect (op1 bindSt).id) bindSt)).rg 9 = 1 ∧
    (after (exec (.bindingTakesEffect (op1 bindSt).id) bindSt)).bindings.map (·.gen) = [1] := by decide +kernel
theorem witness_OperandWaits : Issuing (tState ((tCtx .u).markG 2 true)) 0 ((tCtx .u).markG 2 true) tFir ∧ ((tCtx .u).markG 2 true).emptyG 2 = true ∧
    ((tCtx .u).markG 2 true).emptyG 1 = false ∧ (rB .g { tR 9 1 2 7 with fe := 2 }).trap = true ∧ (rB .g (tR 9 1 2 7)).trap = false ∧
    (rA .g { tR 9 2 1 7 with fe := 4 }).trap = true ∧
    uSt.stallOver 0 (tCtx .u) (.operand false 1 false) = true ∧ uSt.stallOver 0 (tCtx .u) (.tokens 3 9) = true ∧ uSt.stallOver 0 (tCtx .u) (.space 3 9) = true :=
  ⟨issuing_base _ rfl, by decide +kernel⟩

/-! ## Queues -/

/-- Two actors; actor 0 pushes to actor 1 by a plain edge (port 0) and by an owner-routed proxy edge (port 2) and reads an edge of actor 1 (port 1). -/
def qActor : ActorDesc :=
  { slot := 0, growth := 0, min := 1, initial := 1, max := 1, ports := [(7, true, true), (7, false, true), (7, true, true)], guards := [], guardAddr := 0 }
def qGraph : Graph :=
  { handle := 1, va := 0, asid := 1, part := 1, state := .armed, actors := [qActor, qActor],
    queues := [{ proxy := false, depth := 8, manual := false, spill := true, ring := 0 }, { proxy := false, depth := 8, manual := true, spill := false, ring := 0 },
      { proxy := true, depth := 8, manual := false, spill := false, ring := 0 }],
    edges := [{ pact := 0, pq := 0, cact := 1, cq := 1, queue := 0, owner := false }, { pact := 1, pq := 0, cact := 0, cq := 1, queue := 1, owner := false },
      { pact := 0, pq := 2, cact := 1, cq := 2, queue := 2, owner := true }],
    pairs := [(0, 0, 16), (2, 0, 16)], owners := [(1, 5, 16)] }
def qTok : Token := { header := setFmt (setL 0x77 1) 7, words := [{ data := 0xABC }], slots := 1 }
def qQ0 : Queue := { graph := 1, edge := 0, consumer := 16, depth := 8, spill := true, ringCap := 4, credits := 8 }
def qQ1 : Queue := { graph := 1, edge := 1, consumer := 0, depth := 8, manual := true, credits := 7, fifo := [qTok] }
def qQ2 : Queue := { graph := 1, edge := 2, consumer := 16, depth := 8, proxy := true, credits := 8 }
def qShadow : Shadow := { graph := 1, edge := 2, producer := 0, credits := 8 }
/-- g20 is a header of one link word, g21 one of five, g22 one of one word with partition id 5. -/
def qCtx : Ctx :=
  ((({ tCtx .s with graph := 1, q := [(0, .output 0 0), (1, .input 1), (2, .output 2 0), (3, .home 0x4000 0)] }.wg 20 (setL 0 1)).wg 21 (setL 0 5)).wg 22
    (setL 5 1)).wg 23 (setL 0 4)
def qSubq : Subq := { addr := 0x4000, base := 0x8000, logsize := 4, maxprio := 7, part := 1, asid := 1, deviceFed := true, doorbell := 0 }
def qSt : State :=
  { tState qCtx with graphs := [qGraph], queues := [qQ0, qQ1, qQ2], shadows := [qShadow], subqs := [qSubq], asids := [(1, { live := true, part := 1 })], tlb := mapTlb }
def tP (p : BitVec 4) (x : SForm) : SForm := { x with p := p }
/-- The same with no credits, so that a push goes to the ring. -/
def qRing : State := { qSt with queues := [{ qQ0 with credits := 0 }, qQ1, qQ2] }

/-- One link word of v1 goes on its way and takes one credit; without credits it goes to the ring, and W_SPILL is set. -/
theorem test_qpush : ((after (exec (.qpush (tP 0 (tS 0 20 1))) qSt)).queue? 1 0 16).map (fun q => (q.credits, q.transit.map fun t => t.words.map (·.data))) =
      some (7, [[0x0004000300020001]]) ∧
    ((after (exec (.qpush (tP 0 (tS 0 20 1))) qRing)).queue? 1 0 16).map (fun q => (q.credits, q.ring.length)) = some (0, 1) ∧
    (ctx0 (exec (.qpush (tP 0 (tS 0 20 1))) qRing)).warn = wSpill := by decide +kernel
theorem test_qeos : ((after (exec (.qeos (tP 0 (tS 0 20 0))) qSt)).queue? 1 0 16).map (fun q => q.transit.map fun t => hdrEos t.header) = some [true] := by decide +kernel
theorem test_qpop : (after (exec (.qpop (tP 1 (tS 9 0 10))) qSt)).ops.map (·.kind) = [.value qTok.header [0xABC]] ∧
    ((after (exec (.qpop (tP 1 (tS 9 0 10))) qSt)).queue? 1 1 0).map (fun q => (q.fifo, q.held)) = some ([], [qTok]) := by decide +kernel
theorem test_qpeek : (after (exec (.qpeek (tP 1 (tS 9 0 10))) qSt)).ops.map (·.kind) = [.value qTok.header [0xABC]] ∧
    (after (exec (.qpeek (tP 1 (tS 9 0 10))) qSt)).queues = qSt.queues := by decide +kernel
theorem test_qres_qrel : (ctx0 (exec (.qres { tP 0 (tS 9 0 0) with imm := 3 }) qSt)).reserved 0 = 3 ∧
    ((after (exec (.qres { tP 0 (tS 9 0 0) with imm := 3 }) qSt)).queue? 1 0 16).map (·.credits) = some 5 ∧
    ((after (exec (.qrel { tP 0 (tS 9 0 0) with imm := 2 }) { qSt with ctxs := [(0, qCtx.setReserved 0 3)] })).queue? 1 0 16).map (·.credits) = some 10 := by
  decide +kernel
def heldSt : State := { qSt with queues := [qQ0, { qQ1 with fifo := [], held := [qTok] }, qQ2] }
theorem test_qcred : ((after (exec (.qcred { tP 1 (tS 0 0 0) with imm := 1 }) heldSt)).queue? 1 1 0).map (fun q => (q.held, q.returning)) = some ([], 1) := by decide +kernel
theorem test_qbind : (ctx0 (exec (.qbindPort (tP 4 (tS 0 6 0))) { qSt with ctxs := [(0, { qCtx with q := [] })] })).rq 4 = .input 1 ∧
    (ctx0 (exec (.qunbind (tP 1 (tS 0 0 0))) qSt)).rq 1 = .unbound := by decide +kernel
theorem test_qfwd : ((after (exec (.qfwd (tP 1 (tS 0 0 0))) qSt)).queue? 1 0 16).map (fun q => q.transit.map fun t => t.words) = some [qTok.words] ∧
    ((after (exec (.qfwd (tP 1 (tS 0 0 0))) qSt)).queue? 1 1 0).map (·.fifo) = some [] := by decide +kernel
/-- Without its binding the port gives QUEUE_STATE. -/
theorem test_queue_state : (ctx0 (exec (.qpop (tP 7 (tS 9 0 10))) qSt)).trapcause = cQueueState.setWidth 64 := by decide +kernel

theorem qIssuing : Issuing qSt 0 qCtx tFir := ⟨rfl, rfl, rfl, rfl⟩
theorem qOperands (s : State) (h : s.ops = [] ∧ s.ctx? 0 = some qCtx ∧ s.repairs = []) (srcs : List Src) (dsts : List Dst) : Operands s 0 qCtx srcs dsts := by
  obtain ⟨ho, hc, hr⟩ := h
  have h0 := regs_ready qCtx (by decide +kernel)
  refine ⟨fun r _ => (h0 r).1, fun r _ => (h0 r).2, fun d _ => ?_⟩
  unfold State.produced; rw [ho, hc, hr]; rfl
/-- A push of one word and of four to each kind of port, and one that finds no credits. -/
theorem witness_QueuePushes : Issuing qSt 0 qCtx tFir ∧ Operands qSt 0 qCtx [sA (tS 0 20 1), sB .v (tS 0 20 1)] [] ∧
    (hdrL (qCtx.rg 20) = 1 ∧ hdrL (qCtx.rg 22) = 1 ∧ hdrL (qCtx.rg 23) = 4 ∧ (qCtx.rq 0).isOut = true) ∧
    (∃ p, qSt.outPort 0 qCtx 0 = some p ∧ p.proxy = false ∧ p.consumer = some 16 ∧ p.depth = 8 ∧ slotsOf 1 ≤ p.depth ∧ deliveredSlots p.fmt p.inFmt qTok ≤ 8) ∧
    (qSt.queue? 1 0 16 = some qQ0 ∧ qQ0.ring = [] ∧ (qRing.queue? 1 0 16).map (fun q => (q.credits, q.ringFree)) = some (0, 4)) ∧
    (∃ p, qSt.outPort 0 qCtx 2 = some p ∧ p.proxy = true ∧ p.consumer = some 16 ∧ qSt.ownerOf p.graph p.actor (bits (qCtx.rg 22).toNat 19 0) = some 16) ∧
    qSt.shadow? 1 2 0 = some qShadow ∧ Map.risesFrom 0 qCtx.resv = true ∧
    (qCtx.rq 3 = .home 0x4000 0 ∧ qSt.redundant 0 = false ∧ qSt.subq? 0x4000 = some qSubq ∧ qSubq.queued < qSubq.size ∧
      ((qSt.noteSpawn 0 qSubq).appendRecord qSubq (List.replicate 128 0)).toOption.isSome = true) :=
  ⟨qIssuing, qOperands _ ⟨rfl, rfl, rfl⟩ _ _, by decide +kernel, ⟨_, rfl, by decide +kernel⟩, by decide +kernel, ⟨_, rfl, by decide +kernel⟩, by decide +kernel⟩
theorem witness_QueuePops : Issuing qSt 0 qCtx tFir ∧ Operands qSt 0 qCtx [] [gDst 9, vDst 10] ∧ qSt.issueRoom 0 tFir ∧ (qCtx.rq 1).isIn = true ∧
    qSt.inQueue 0 qCtx 1 = some qQ1 ∧ qQ1.fifo = [qTok] ∧ (qTok.words.any fun w => w.bad) = false ∧ heldSt.inQueue 0 qCtx 1 ≠ none ∧
    ((heldSt.inQueue 0 qCtx 1).map fun q => (q.fifo, q.held[0]?)) = some ([], some qTok) ∧
    (qCtx.rq (0 % 16) = .output 0 0 ∧ (qQ0.graph, qQ0.edge, qQ0.consumer) ≠ (qQ1.graph, qQ1.edge, qQ1.consumer) ∧ hdrFmt qTok.header = 7 ∧ slotsOf qTok.words.length ≤ 8) :=
  ⟨qIssuing, qOperands _ ⟨rfl, rfl, rfl⟩ _ _, by unfold State.issueRoom; exact (by decide : (0 : Nat) < 16), by decide +kernel⟩
/-- Both kinds of QRES, QREL, QCRED of a held token; a declared port free of bindings, a device-fed queue at a mapped address, both templates. -/
theorem witness_QueuePorts : Issuing qSt 0 qCtx tFir ∧ Operands qSt 0 qCtx [sA (tS 9 20 21), sB .g (tS 9 20 21)] [gDst 9] ∧
    (∃ p, qSt.outPort 0 qCtx 0 = some p ∧ p.proxy = false ∧ 3 ≤ p.depth ∧ 9 > p.depth) ∧ 3 ≤ qQ0.credits ∧ (0 : Nat) ≤ qCtx.reserved 0 ∧
    (qQ1.manual = true ∧ 1 ≤ ({ qQ1 with held := [qTok] } : Queue).held.length) ∧
    (qSt.portDesc qCtx (qCtx.rg 0).toNat = some (7, true, true) ∧ qSt.portDesc qCtx (qCtx.rg 6).toNat = some (7, false, true) ∧
      (∀ n < 16, n ≠ 1 → (qCtx.rq n).isPort 1 = false)) ∧
    (qCtx.priv ≠ .u ∧ 0x4000 % 128 = 0 ∧ translateFor qSt 0 qCtx 0x4000 .r = .ok 0x4000 ∧ qSt.subq? 0x4000 = some qSubq ∧ qSubq.asid = qCtx.asid ∧ qSubq.deviceFed = true) ∧
    qCtx.rq 0 = .output 0 0 ∧ qCtx.rq 3 = .home 0x4000 0 :=
  ⟨qIssuing, qOperands _ ⟨rfl, rfl, rfl⟩ _ _, ⟨_, rfl, by decide +kernel⟩, by decide +kernel⟩

/-- A token on its way, freed credits, a ring with a token and an entry in a shadow; a still graph with a blocked queue. -/
def evSt : State := { qSt with queues := [{ qQ0 with transit := [qTok] }, { qQ1 with returning := 1 }, qQ2], shadows := [{ qShadow with credits := 7, entries := [{ consumer := 16, token := setTok }] }] }
where setTok : Token := { qTok with header := setFmt (setL 5 1) 7 }
def ringSt : State := { qSt with queues := [{ qQ0 with ring := [qTok] }, qQ1, qQ2] }
theorem test_queue_events : ((after (exec (.tokenArrival 0) evSt)).queue? 1 0 16).map (fun q => (q.transit, q.fifo.length)) = some ([], 1) ∧
    ((after (exec (.creditReturn 1) evSt)).queue? 1 1 0).map (fun q => (q.credits, q.returning)) = some (8, 0) ∧
    ((after (exec (.spillRingDrain 0) ringSt)).queue? 1 0 16).map (fun q => (q.ring, q.fifo.length, q.credits)) = some ([], 1, 7) := by decide +kernel
theorem test_proxy_batch : ((after (exec (.proxyForwardBatch 0) evSt)).queue? 1 2 16).map (fun q => (q.credits, q.transit.length)) = some (7, 1) ∧
    ((after (exec (.proxyForwardBatch 0) evSt)).shadow? 1 2 0).map (fun q => (q.credits, q.entries)) = some (8, []) := by decide +kernel
/-- The consumer of the one token is pushing to a full queue whose consumer is pushing back: nothing moves. -/
def blockSt : State :=
  { evSt with graphs := [{ qGraph with thresh := 5, timer := 6 }], queues := [{ qQ0 with credits := 0, fifo := [qTok] }, { qQ1 with credits := 0 }, qQ2],
              ctxs := [(0, { qCtx with firing := some { tFir with stall := .space 0 0 } }), (supervisorOf 1, tCtx .s)] }
theorem witness_QueueEvents : ((evSt.queues[0]?).map (·.transit.length)) = some 1 ∧ 16 % 2048 + 2048 * hdrTag qTok.header + 16 / 16384 * 16384 = 16 ∧
    (evSt.queues[1]?).map (·.returning) = some 1 ∧ (ringSt.queues[0]?).map (·.ring.length) = some 1 ∧ (ringSt.queues[0]?).map (·.transit.length) = some 0 ∧
    qTok.slots ≤ qQ0.credits := by decide +kernel
theorem witness_QueueEvents_proxy : ((evSt.shadows[0]?).map (·.entries.length)) = some 1 ∧ (batchOf 64 [{ consumer := 16, token := evSt.setTok }]).length = 1 ∧
    (evSt.routeEntry 1 2 { consumer := 16, token := evSt.setTok }).map (·.1) = some 16 ∧ evSt.queue? 1 2 16 = some qQ2 ∧ deliveredSlots qQ2.outFmt qQ2.inFmt evSt.setTok ≤ qQ2.credits := by
  decide +kernel
theorem witness_QueueEvents_deadlock : (∃ g, blockSt.graph? 1 = some g ∧ g.thresh ≠ 0 ∧ g.fired = false ∧ g.thresh < g.timer ∧ blockSt.blockedQueues g ≠ [] ∧ g.report = 0 ∧
      ∃ c, blockSt.ctx? (supervisorOf g.part) = some c ∧ c.pending.length < 4) ∧ (∃ g, evSt.graph? 1 = some g ∧ g.thresh = 0) :=
  ⟨⟨_, rfl, by decide +kernel, by decide +kernel, by decide +kernel, by decide +kernel, by decide +kernel, ⟨_, rfl, by decide +kernel⟩⟩, ⟨_, rfl, by decide +kernel⟩⟩

/-! ## Vectors -/

/-- v1 holds the i16 elements 1, 2, 3, 4 and zeros, v2 1, 1, 1, 1 and zeros; the guard masks are k0 and k1, whose low four lanes are on. -/
def vR (kg : BitVec 4) (d a b : BitVec 6) (ty : BitVec 5) : RForm := { tR d a b ty with kg := kg }
theorem test_vadd : ((ctx0 (exec (.vadd (vR 0 9 1 2 1)) uSt)).rv 9).toNat = 0x0005000400030002 ∧
    ((ctx0 (exec (.vadd (vR 1 9 1 1 1)) (tState ((tCtx .u).wk 1 1)))).rv 9).toNat = 0x00040002 := by decide +kernel
theorem test_vmad_vsel : ((ctx0 (exec (.vmad { vR 0 9 1 1 1 with c := 2 }) uSt)).rv 9).toNat = 0x0011000A00050002 ∧
    ((ctx0 (exec (.vsel { vR 0 9 2 1 1 with c := 1 }) uSt)).rv 9).toNat = 0x0001000100010001 := by decide +kernel
/-- 1.0 + 1.0 = 2.0, 2.0 × 2.0 + 1.0 = 5.0, √ and the reciprocal seeds aside; the greatest of 1.0 and −1.0. -/
def fCtx : Ctx := ((tCtx .u).wv 20 0x3F800000).wv 21 0x40000000
theorem test_fadd : ((ctx0 (exec (.fadd (vR 0 9 20 20 10)) (tState fCtx))).rv 9).toNat = 0x40000000 := by decide +kernel
theorem test_ffma : ((ctx0 (exec (.ffma { vR 0 9 21 21 10 with c := 20 }) (tState fCtx))).rv 9).toNat = 0x40A00000 := by decide +kernel
theorem test_vred : ((ctx0 (exec (.vred (vR 0 9 1 0 1)) uSt)).rv 9).toNat % 2 ^ 16 = 10 ∧ ((ctx0 (exec (.vscan (vR 0 9 1 0 1)) uSt)).rv 9).toNat % 2 ^ 64 = 0x000A000600030001 := by decide +kernel
theorem test_vrot : ((ctx0 (exec (.vrot (vR 0 9 1 6 1)) uSt)).rv 9).toNat % 2 ^ 48 = 0x000400030002 ∧ ((ctx0 (exec (.vbcast (vR 0 9 1 6 1)) uSt)).rv 9).toNat % 2 ^ 32 = 0x00020002 ∧
    (ctx0 (exec (.vextl (vR 0 9 1 6 1)) uSt)).rg 9 = 2 := by decide +kernel
/-- FCMP into k3: lane 0 alone holds 1.0 < 2.0. -/
theorem test_fcmp : (ctx0 (exec (.fcmp { vR 0 3 20 21 10 with mod := 0x28 }) (tState fCtx))).rk 3 = 1 := by decide +kernel
theorem witness_VectorResults : Issuing uSt 0 (tCtx .u) tFir ∧ fQa (vR 1 9 1 2 10) = false ∧ fQd (vR 1 9 1 2 10) = false ∧
    Operands uSt 0 (tCtx .u) [rA .v (vR 1 9 1 2 10), rB .v (vR 1 9 1 2 10), rC .v (vR 1 9 1 2 10)] [vDst 9] ∧ fK { vR 1 3 1 2 10 with mod := 0x20 } = true :=
  ⟨issuing_base _ rfl, by decide, by decide, operands_base _ ⟨rfl, rfl, rfl, rfl⟩ rfl _ _, by decide⟩

/-- Streams of w8: port 1 holds a token of four words, 128 elements, and port 0 takes a token. -/
def w8Graph : Graph := { qGraph with actors := [{ qActor with ports := [(4, true, true), (4, false, true)] }, { qActor with ports := [(4, true, true), (4, false, true)] }] }
def w8Tok : Token := { header := setFmt (setL 0 4) 4, words := List.replicate 4 { data := 0x0201 }, slots := 4 }
def w8Q : Queue := { qQ1 with outFmt := 4, inFmt := 4, fifo := [w8Tok], credits := 4 }
def w8St : State := { qSt with graphs := [w8Graph], queues := [{ qQ0 with outFmt := 4, inFmt := 4 }, w8Q] }
def sR (mod : BitVec 9) (d a : BitVec 6) : RForm := { tR d a 0 4 with mod := mod }
theorem test_stream_source : (ctx0 (exec (.vpopc (sR 0x100 9 1)) w8St)).rv 9 % 65536 = 0x0101 ∧
    ((after (exec (.vpopc (sR 0x100 9 1)) w8St)).queue? 1 1 0).map (fun q => (q.fifo, q.held)) = some ([], [w8Tok]) := by decide +kernel
theorem test_stream_destination : ((after (exec (.vpopc (sR 0x80 0 1)) w8St)).queue? 1 0 16).map (fun q => q.transit.map fun t => t.words.length) = some [4] := by
  decide +kernel
theorem witness_VectorStreams : Issuing w8St 0 qCtx tFir ∧ Operands w8St 0 qCtx [rA .v (sR 0x80 0 1)] [vDst 9] ∧
    (fQa (sR 0x100 9 1) = true ∧ fQd (sR 0x100 9 1) = false ∧ (qCtx.rq 1).isIn = true ∧ w8St.inQueue 0 qCtx 1 = some w8Q ∧ streamAccepts w8Q.inFmt 4 = true) ∧
    (match takeStream w8Q.inFmt 128 w8Q.taken w8Q.fifo with | .ok _ _ _ _ _ => true | _ => false) = true ∧
    (fQa (sR 0x80 0 1) = false ∧ fQd (sR 0x80 0 1) = true ∧ qCtx.rq 0 = .output 0 0) ∧
    (∃ p, w8St.outPort 0 qCtx 0 = some p ∧ p.fmt = 4 ∧ p.proxy = false ∧ p.consumer = some 16 ∧ slotsOf (linkWords 4 (List.replicate 128 0)).length ≤ p.depth) :=
  ⟨⟨rfl, rfl, rfl, rfl⟩, qOperands _ ⟨rfl, rfl, rfl⟩ _ _, by decide +kernel, by decide +kernel, by decide +kernel, ⟨_, rfl, by decide +kernel⟩⟩
theorem witness_AcrossLanes : Issuing uSt 0 (tCtx .u) tFir ∧ (tCtx .u).guardOn (tR 9 1 6 1).kg ∧
    Operands uSt 0 (tCtx .u) [rA .v (tR 9 1 6 1), rB .g (tR 9 1 6 1), rOld .v (tR 9 1 6 1)] [vDst 9] ∧
    ((1 : Nat) < 8 ∧ [1, 2, 3, 4].length = 2 ^ 2 ∧ ∀ e ∈ [1, 2, 3, 4], e < 2 ^ tyWidth 1) :=
  ⟨issuing_base _ rfl, guard_base _, operands_base _ ⟨rfl, rfl, rfl, rfl⟩ rfl _ _, by decide⟩
/-- CVT of f32 to bf16 puts 1.0 as 0x3F80; AMAX of 1.0 and 2.0 is 2.0; SCALE by 2^1. -/
def cR (ty : BitVec 5) (sty : Nat) (d a b : BitVec 6) : RForm := { tR d a b ty with mod := BitVec.ofNat 9 (sty * 2) }
theorem test_cvt : ((ctx0 (exec (.cvt (cR 9 10 9 20 0)) (tState fCtx))).rv 9).toNat = 0x3F80 ∧
    ((ctx0 (exec (.scale (cR 10 10 9 20 6)) (tState fCtx))).rv 9).toNat = 0x40000000 := by decide +kernel
theorem test_amax : (ctx0 (exec (.amax (tR 9 21 0 10)) (tState fCtx))).rg 9 = 0x40000000 := by decide +kernel
theorem witness_Conversions : Issuing (tState fCtx) 0 fCtx tFir ∧ (Instr.cvt (cR 9 10 9 20 0)).wellFormed = true ∧ (Instr.cvtq (cR 14 10 9 20 6)).wellFormed = true ∧
    (Instr.cvtd (cR 10 14 9 20 6)).wellFormed = true ∧ (Instr.scale (cR 10 10 9 20 6)).wellFormed = true ∧ (Instr.pack (cR 9 10 9 20 21)).wellFormed = true ∧
    (Instr.unpack (cR 10 9 10 20 0)).wellFormed = true ∧ Operands (tState fCtx) 0 fCtx [rA .v (cR 12 10 9 20 21), rB .v (cR 12 10 9 20 21)] [vDst 9] :=
  ⟨issuing_base _ rfl, by decide +kernel, by decide +kernel, by decide +kernel, by decide +kernel, by decide +kernel, by decide +kernel, operands_base _ ⟨rfl, rfl, rfl, rfl⟩ rfl _ _⟩

/-! ## Leases and engines -/

/-- Cluster 0 is on. The request word of class 0, scope cluster, priority 1, hold 5. -/
def onCluster : Cluster := { state := .on, en := true, pgood := true, homeaway := false }
def leaseW : Word := 0x0000000000050020
def hLease : Word := handleOfLease 0 0 0 0 1
/-- A context that holds engine 0 (g20 its handle, g21 the request word), engine 1 under notice (g22), engine 2 with work (g23), and engines 8, 12, 13 and 15. -/
def lCtx : Ctx :=
  let h (cls i : Nat) : Word := handleOfLease cls 0 i 0 1
  ((((((({ tCtx .u with leases := [h 0 0, h 0 1, h 0 2, h 1 0, h 2 0, h 3 0, h 4 0].map fun h => { handle := h, grantSerial := 1 }, q := [(0, .output 0 0), (1, .output 1 0)], graph := 1 }.wg 20 (h 0 0)).wg
    21 leaseW).wg 22 (h 0 1)).wg 23 (h 0 2)).wg 24 (h 1 0)).wg 25 (h 2 0)).wg 26 (h 3 0)).wg 27 (h 4 0)
def heldEngine : Engine := { power := .lit, serial := 1, holder := some 0, holdEnd := 3, holding := true }
def noticeEngine : Engine := { heldEngine with notice := some 800 }
def tCmd : EngineCmd := { id := 1, ctx := 0, asid := lCtx.asid, serial := 0, word := 0, pc := 0, q := 0, bind := .output 0 0, block := 0x2000, count := 1, ev := 2, mode := 0 }
def lEngines : Map Engine :=
  [(0, heldEngine), (1, noticeEngine), (2, { noticeEngine with cmds := [tCmd] }), (8, heldEngine), (12, heldEngine), (13, heldEngine), (15, heldEngine)]
def lGraph : Graph :=
  { qGraph with
    actors := [{ qActor with ports := [(6, true, true), (8, true, true)] }, { qActor with ports := [(6, false, true), (8, false, true)] }]
    edges := [{ pact := 0, pq := 0, cact := 1, cq := 0, queue := 0, owner := false }, { pact := 0, pq := 1, cact := 1, cq := 1, queue := 0, owner := false }]
    pairs := [(0, 0, 16), (1, 0, 16)] }
def lSt : State :=
  { tState lCtx with clusters := [(0, onCluster)], engines := lEngines, parts := [(1, { isOpen := true })], tlb := mapTlb, asids := [(1, { live := true, part := 1 })],
                     graphs := [lGraph], queues := [{ qQ0 with outFmt := 6, inFmt := 6 }, { qQ0 with edge := 1, outFmt := 8, inFmt := 8 }] }
theorem lOperands (s : State) (h : s.ops = [] ∧ s.ctx? 0 = some lCtx ∧ s.repairs = []) (srcs : List Src) (dsts : List Dst) : Operands s 0 lCtx srcs dsts := by
  obtain ⟨ho, hc, hr⟩ := h
  have h0 := regs_ready lCtx (by decide +kernel)
  refine ⟨fun r _ => (h0 r).1, fun r _ => (h0 r).2, fun d _ => ?_⟩
  unfold State.produced; rw [ho, hc, hr]; rfl
theorem test_lease : (after (exec (.lease (tS 9 21 0)) lSt)).requests.map (fun r => (r.cls, r.cluster, r.prio, r.hold)) = [(0, 0, 1, 5)] ∧
    (ctx0 (exec (.lease (tS 9 21 0)) lSt)).emptyG 9 = true ∧ (ctx0 (exec (.lease (tS 9 0 0)) uSt)).rg 9 = 6 := by decide +kernel
theorem test_lease_try : (ctx0 (exec (.lease { tS 9 21 0 with cnd := 1 }) lSt)).leases.length = 8 := by decide +kernel
theorem test_lfree : ((after (exec (.lfreeHeld (tS 0 20 0)) lSt)).engine 0).holder = none ∧ ((after (exec (.lfreeHeld (tS 0 23 0)) lSt)).engine 2).closed = true := by decide +kernel
theorem test_lrenew : ((after (exec (.lrenew (tS 0 20 2)) lSt)).engine 0).holdEnd = 3 ∧ ((after (exec (.lrenew (tS 0 20 1)) lSt)).engine 0).holdEnd = 10 := by decide +kernel
theorem test_evack : (after (exec (.evackNow (tS 9 20 0)) lSt)).ops.map (·.kind) = [.value 2 []] ∧ (after (exec (.evackNow (tS 9 22 0)) lSt)).ops.map (·.kind) = [.value 1 []] ∧
    ((after (exec (.evackDrain (tS 9 23 0)) lSt)).engine 2).closed = true := by decide +kernel
theorem test_lqry : bits ((ctx0 (exec (.lqryLease (tS 9 20 0)) lSt)).rg 9).toNat 2 0 = 5 := by decide +kernel
/-- A request that waits (1) and one whose LEASE is in flight. -/
def reqSt : State := after (exec (.lease (tS 9 21 0)) lSt)
def reqId : Nat := ((reqSt.requests.head?).map (·.id)).getD 0
theorem test_lfree_pend : (ctx0 (exec (.lfreePend (tS 0 9 0)) { reqSt with cur := some 0 })).rg 9 = 3 ∧ (after (exec (.lfreePend (tS 0 9 0)) reqSt)).requests = [] := by decide +kernel
def grantSt : State := after (execLeaseGrant reqId reqSt)
/-- The matrix engine wakes in 1.8 µs. -/
theorem test_grant : (grantSt.engine 3).power = .waking 180 ∧ (grantSt.engine 3).holder = some 0 ∧ grantSt.requests = [] := by decide +kernel
theorem witness_LeaseRequests : Issuing lSt 0 lCtx tFir ∧ Operands lSt 0 lCtx [sA (tS 9 21 0)] [gDst 9] ∧ (lSt.leaseRequest 0 lCtx leaseW 0).toOption.isSome = true ∧
    (match lSt.leaseRequest 0 lCtx 0xFF 0 with | .error 2 => true | _ => false) = true ∧
    (∃ r, lSt.leaseRequest 0 lCtx leaseW 0 = .ok r ∧ lSt.grantable r = true) ∧
    (∃ r, lSt.leaseRequest 0 lCtx leaseW 0 = .ok r ∧ ({ lSt with hot := 1 } : State).grantable r = false) ∧ badRequest 0xFF = true ∧ badRequest leaseW = false ∧
    onSystemTile kF = true ∧ onSystemTile 0 = false ∧ (∀ cl < 48, uSt.clusterOpen cl = false) ∧ Claims.enginesRise lSt :=
  ⟨⟨rfl, rfl, rfl, rfl⟩, lOperands _ ⟨rfl, rfl, rfl⟩ _ _, by decide +kernel, by decide +kernel, ⟨_, rfl, by decide +kernel⟩, ⟨_, rfl, by decide +kernel⟩, by decide +kernel, by decide +kernel,
    by decide +kernel, by decide +kernel, by decide +kernel, by unfold Claims.enginesRise; decide +kernel⟩
/-- A live lease with and without work, closed, under notice and dead; a request that waits and none. -/
theorem witness_LeaseInstructions : Issuing lSt 0 lCtx tFir ∧ Operands lSt 0 lCtx [sA (tS 9 20 1), sB .g (tS 9 20 1)] [gDst 9] ∧ Claims.enginesRise lSt ∧
    (leaseOf lSt 0 lCtx (lCtx.rg 20) = .ok 0 ∧ (lSt.engine 0).closed = false ∧ (lSt.engine 0).notice = none ∧ (lSt.engine 0).inflight = 0 ∧ (lSt.engine 0).holder = some 0) ∧
    (leaseOf lSt 0 lCtx (lCtx.rg 22) = .ok 1 ∧ (lSt.engine 1).notice ≠ none ∧ (lSt.engine 1).closed = false) ∧ (lSt.releaseLease 1 0).issueRoom 0 tFir ∧
    (leaseOf lSt 0 lCtx (lCtx.rg 23) = .ok 2 ∧ (lSt.engine 2).inflight ≠ 0 ∧ (lSt.engine 2).notice ≠ none) ∧ lSt.liveLease lCtx (lCtx.rg 1) = none ∧
    (reqSt.ops.find? fun o => o.ctx == 0 && o.dstG == [9] && (match o.kind with | .lease _ => true | _ => false)).isSome = true ∧ reqSt.cur = some 0 ∧ lSt.ops = [] :=
  ⟨⟨rfl, rfl, rfl, rfl⟩, lOperands _ ⟨rfl, rfl, rfl⟩ _ _, by unfold Claims.enginesRise; decide +kernel, by decide +kernel, by decide +kernel,
    by unfold State.issueRoom; decide +kernel, by decide +kernel, by decide +kernel, by decide +kernel, by decide +kernel, rfl⟩
/-- All eight matrix engines of cluster 0 are held at priority 0 with their holds ended, and a request of priority 3 waits. -/
def evictSt : State :=
  { lSt with engines := (List.range 8).map (fun e => (e, { heldEngine with holding := false })) ++ [(8, { power := .dozing 0 })],
             requests := [{ id := 50, ctx := 0, cls := 0, cluster := 0, prio := 3, hold := 0, ectr := 0, tick := 0 }] }
theorem test_eviction : (List.range 8).filter (fun e => ((after (exec (.evictionNotice e) evictSt)).engine e).notice == some 800) = [0] ∧
    ((after (exec (.evictionNotice 0) evictSt)).ctx? 0).map (fun c => (c.flags ||| c.flagsHeld).getLsbD 7) = some true := by decide +kernel
theorem test_deadlines : ((after (exec (.holdEnd 0) { lSt with ticks := 3 })).engine 0).holding = false ∧
    ((after (exec (.gracePeriodExpiry 1) { lSt with ticks := 800 })).engine 1).holder = none ∧
    ((after (exec (.dozeExpiry 8) { evictSt with ticks := 2000 })).engine 8).power = .gated := by decide +kernel
theorem test_wake_end : (ctx0 (exec (.engineWakeEnd 3) { grantSt with ticks := 180 })).rg 9 = handleOfLease 0 0 3 0 1 ∧
    ((after (exec (.engineWakeEnd 3) { grantSt with ticks := 180 })).engine 3).power = .lit := by decide +kernel
theorem witness_LeaseEvents : ((reqSt.requests.find? fun q => q.id == reqId).map fun r => (reqSt.grantable r, (reqSt.ctx? r.ctx).isSome, r.only.isNone)) = some (true, true, true) ∧
    ((grantSt.engine 3).power = .waking 180 ∧ (grantSt.engine 3).holder = some 0 ∧ (grantSt.engine 3).closed = false) ∧
    ((evictSt.requests.find? fun q => evictSt.nextVictim q == some 0).isSome = true ∧ (evictSt.engine 0).holder = some 0) ∧
    ((lSt.engine 0).holder ≠ none ∧ (lSt.engine 0).holding = true ∧ (lSt.engine 0).holdEnd ≤ 3) ∧ (evictSt.engine 8).power = .dozing 0 ∧
    ((lSt.engine 1).notice = some 800 ∧ (lSt.engine 1).holder = some 0) := by decide +kernel
theorem witness_LeaseEvents_order : Claims.enginesRise reqSt ∧ Claims.enginesRise grantSt ∧ Claims.enginesRise evictSt ∧ Claims.enginesRise lSt := by
  unfold Claims.enginesRise; decide +kernel

/-- A SAMPLE of a texture descriptor, and engines with commands at each stage. -/
theorem test_engine_commands : ((after (exec (.trace { tS 0 24 4 with cnd := 2 }) lSt)).engine 8).cmds.map (fun m => (m.block, m.count, m.ev, m.mode)) = [(0x1000, 1, 2, 0)] ∧
    ((after (exec (.rast (tP 1 (tS 0 25 4))) lSt)).engine 12).cmds.length = 1 ∧ ((after (exec (.codec (tS 0 27 4)) lSt)).engine 15).cmds.length = 1 := by decide +kernel
def cmdSt (m : EngineCmd) : State := { lSt with engines := [(8, { heldEngine with cmds := [m] })] }
theorem test_command_ends : ((after (exec (.engineCommandCompletion 8) (cmdSt { tCmd with done := 1 }))).engine 8).cmds = [] ∧
    (after (exec (.engineCommandCompletion 8) (cmdSt { tCmd with done := 1 }))).asyncDone.map (·.ev) = [some 2] := by decide +kernel
def f32Tok : Token := { header := setFmt (setL 0 1) 6, words := [{ data := 1 }], slots := 1 }
theorem test_result_push : ((after (exec (.engineResultPush 8) (cmdSt { tCmd with tokens := some [f32Tok] }))).queue? 1 0 16).map (·.transit.length) = some 1 ∧
    ((after (exec (.engineResultPush 8) (cmdSt { tCmd with tokens := some [f32Tok] }))).engine 8).cmds.map (fun m => (m.done, m.tokens)) = [(1, none)] := by decide +kernel
theorem witness_EngineCommands : Issuing lSt 0 lCtx tFir ∧ Operands lSt 0 lCtx [sA (tS 0 24 4), sB .g (tS 0 24 4)] [] ∧ lSt.noAccess 0 ∧
    ((lCtx.rg 4).toNat % 32 = 0 ∧ (lCtx.rq 0).isOut = true) ∧
    (engineFor lSt 0 lCtx (lCtx.rg 24) 1 = .ok 8 ∧ engineFor lSt 0 lCtx (lCtx.rg 25) 2 = .ok 12 ∧ engineFor lSt 0 lCtx (lCtx.rg 26) 3 = .ok 13 ∧
      engineFor lSt 0 lCtx (lCtx.rg 27) 4 = .ok 15) ∧
    (cmdFormat 1 (lSt.outFormat 0 lCtx 0) = true ∧ cmdFormat 2 (lSt.outFormat 0 lCtx 1) = true ∧ cmdFormat 3 (lSt.outFormat 0 lCtx 1) = true ∧ cmdFormat 4 (lSt.outFormat 0 lCtx 0) = true) :=
  ⟨⟨rfl, rfl, rfl, rfl⟩, lOperands _ ⟨rfl, rfl, rfl⟩ _ _, by unfold State.noAccess; decide +kernel, by decide +kernel⟩
theorem witness_EngineCommands_records : Claims.enginesRise (cmdSt tCmd) ∧ ((cmdSt tCmd).engine 8).cmds = [tCmd] ∧ ((cmdSt tCmd).engine 8).power = .lit ∧ tCmd.done < tCmd.count ∧
    (cmdSt tCmd).ctx? 0 = some lCtx ∧ ((cmdSt tCmd).engine 8).closed = false ∧
    (match (cmdSt tCmd).outPort 0 (lCtx.wq 0 (.output 0 0)) 0 with
      | some p => (match (cmdSt tCmd).push 0 0 (lCtx.wq 0 (.output 0 0)) p 16 false f32Tok with | .done s1 => decide (s1.engines = (cmdSt tCmd).engines) | .wait => false)
      | none => false) = true := by
  refine ⟨by unfold Claims.enginesRise; decide +kernel, ?_⟩; decide +kernel

/-! ## Matrix engines -/

/-- g20 the handle, g21 a pitch, g22 an address, g23 eight rows, g24 128 bounds. -/
def mCtx : Ctx :=
  ((((({ tCtx .f with leases := [{ handle := hLease, grantSerial := 1 }], q := [(0, .output 0 0), (1, .input 1), (2, .input 2)], graph := 1 }.wg 20 hLease).wg 21 512).wg 22 0x2000).wg
    23 8).wg 24 128)
def mGraph : Graph :=
  { qGraph with
    actors := [{ qActor with ports := [(7, true, true), (7, false, true), (10, false, true)] }, { qActor with ports := [(7, false, true), (7, true, true), (10, true, true)] }]
    edges := [{ pact := 0, pq := 0, cact := 1, cq := 0, queue := 0, owner := false }, { pact := 1, pq := 1, cact := 0, cq := 1, queue := 0, owner := false },
      { pact := 1, pq := 2, cact := 0, cq := 2, queue := 0, owner := false }]
    pairs := [(0, 0, 16)] }
def mSt : State :=
  { tState mCtx with engines := [(0, heldEngine)], graphs := [mGraph],
                     queues := [qQ0, { qQ1 with fifo := [] }, { qQ1 with edge := 2, fifo := [], outFmt := 10, inFmt := 10 }] }
def tX (xt xu : BitVec 3) (a b c : BitVec 6) (ty tyb : BitVec 5) : XForm := { XForm.ofWord 0 with xt := xt, xu := xu, a := a, b := b, c := c, ty := ty, tyb := tyb }
theorem mOperands (srcs : List Src) (dsts : List Dst) : Operands mSt 0 mCtx srcs dsts := by
  have h0 := regs_ready mCtx (by decide +kernel)
  exact ⟨fun r _ => (h0 r).1, fun r _ => (h0 r).2, fun d _ => rfl⟩
theorem test_mx_issue : ((after (exec (.mxtile (tX 1 0 20 22 23 10 10)) mSt)).engine 0).ops.map (·.member) = [3] ∧
    ((after (exec (.mxlds (tX 0 0 20 22 21 0 10)) mSt)).engine 0).ops.map (·.member) = [0] ∧ ((after (exec (.bdthr (tX 1 0 20 6 0 0 0)) mSt)).engine 0).ops.map (·.b) = [1] := by
  decide +kernel
theorem test_mxtok : ((after (exec (.mxtok { tX 3 0 0 0 23 0 0 with mod := 1 }) mSt)).queue? 1 0 16).map (fun q => q.transit.map fun t => bits t.header.toNat 4 0) = some [13] := by
  decide +kernel
theorem witness_MatrixIssue : Issuing mSt 0 mCtx tFir ∧ Operands mSt 0 mCtx [xA (tX 1 0 20 22 21 10 10), xB .g (tX 1 0 20 22 21 10 10), xC .g (tX 1 0 20 22 21 10 10)] [] ∧
    mSt.issueRoom 0 tFir ∧ mSt.noAccess 0 ∧ Claims.enginesRise mSt ∧ engineFor mSt 0 mCtx (mCtx.rg 20) 0 = .ok 0 ∧ (mSt.engine 0).ops.length < 16 ∧
    ((mCtx.rg 6).toNat % 4 ≠ 3 ∧ (mCtx.rg 6).getLsbD 9 = false ∧ (mCtx.rg 22).toNat % 64 = 0) ∧
    ((mCtx.rg 21).toNat % 2 ^ 32 % 64 = 0 ∧ rowBytes 10 ≤ (mCtx.rg 21).toNat % 2 ^ 32) ∧
    (1 ≤ bits (mCtx.rg 23).toNat 7 0 ∧ bits (mCtx.rg 23).toNat 7 0 + bits (mCtx.rg 23).toNat 14 8 ≤ 128) ∧ bits (mCtx.rg 24).toNat 63 40 < bits (mCtx.rg 24).toNat 23 0 ∧
    ((mCtx.rq 1).isIn = true ∧ (mCtx.rq 2).isIn = true ∧ ((mSt.inQueue 0 mCtx 1).map (·.inFmt)) = some 7 ∧ ((mSt.inQueue 0 mCtx 2).map (·.inFmt)) = some 10) ∧
    (∃ p, mSt.outPort 0 mCtx 0 = some p ∧ p.fmt = 7 ∧ p.proxy = false ∧ p.consumer = some 16 ∧ 1 ≤ p.depth ∧ deliveredSlots p.fmt p.inFmt { header := 0 } ≤ 8) :=
  ⟨⟨rfl, rfl, rfl, rfl⟩, mOperands _ _, by unfold State.issueRoom; decide +kernel, by unfold State.noAccess; decide +kernel, by unfold Claims.enginesRise; decide +kernel,
    by decide +kernel, by decide +kernel, by decide +kernel, by decide +kernel, by decide +kernel, by decide +kernel, by decide +kernel, ⟨_, rfl, by decide +kernel⟩⟩

/-- Engine 0 with one macro-op in work on small tiles: tile 1 has the element 2.0 at row 0, column 1, the bound 0x4000 for row 0 and is marked escalated. -/
def mTile : MxTile := { mode := .f32, elems := [(1, 0x40000000)], bounds := [(0, 0x4000)], thr := 1, escd := true }
def mEngine : Engine := { heldEngine with tiles := [(1, mTile)], active := { fmt := some 10 } }
def mOp (i : Instr) (b c : Nat) : MacroOp := { id := 5, ctx := 0, serial := 0, word := instrWord i, pc := 0, opB := BitVec.ofNat 1024 b, opC := BitVec.ofNat 1024 c }
def mRun (o : MacroOp) (ops : List Op := []) : State := { mSt with engines := [(0, { mEngine with ops := [o] })], ops := ops }
def mAfter (o : MacroOp) (ops : List Op := []) : Engine := (after (execMxMacroOpCompletion 0 (mRun o ops))).engine 0
theorem test_mxzero : ((mAfter (mOp (.mxzero (tX 1 0 20 0 0 0 0)) 0 0)).tile 1).elems = [] ∧ ((mAfter (mOp (.mxzero (tX 1 0 20 0 0 0 0)) 0 0)).tile 1).thr = 1 := by decide +kernel
theorem test_mxswap : (mAfter (mOp (.mxswap (tX 0 0 20 0 0 0 0)) 0 0)).shadow.fmt = some 10 := by decide +kernel
theorem test_bdthr : ((mAfter (mOp (.bdthr (tX 1 0 20 6 0 0 0)) 2 0)).tile 1).thr = 2 := by decide +kernel
def rdOp (i : Instr) (dstG dstV : List Nat) : Op := { id := 5, ctx := 0, serial := 0, word := instrWord i, pc := 0, kind := .engine 0, dstG := dstG, dstV := dstV }
def rdX : XForm := tX 1 0 20 9 0 10 0
theorem test_mxrd : ((after (exec (.mxMacroOpCompletion 0) (mRun (mOp (.mxrd rdX) 0 0) [rdOp (.mxrd rdX) [] [9]]))).ctx? 0).map (fun c => (c.rv 9).toNat) = some (0x40000000 * 2 ^ 32) := by decide +kernel
/-- MODE f32 is 1, ESCD bit 2, THR in bits 4 to 3. -/
theorem test_bdrd_stat : ((after (exec (.mxMacroOpCompletion 0) (mRun (mOp (.bdrdStat { rdX with mod := 1 }) 0 0) [rdOp (.bdrdStat { rdX with mod := 1 }) [9] []]))).ctx? 0).map (fun c => c.rg 9) = some 13 := by decide +kernel
/-- A member of each kind at its completion, and at its steps. -/
theorem witness_MatrixActs : Claims.enginesRise (mRun (mOp (.mxswap (tX 0 0 20 0 0 0 0)) 0 0)) ∧ Map.risesFrom 0 mEngine.tiles = true ∧ mEngine.power = .lit ∧ mEngine.closed = false ∧
    ([mOp (.mxswap (tX 0 0 20 0 0 0 0)) 0 0, mOp (.mxzero (tX 1 0 20 0 0 0 0)) 0 0, mOp (.bdthr (tX 1 0 20 6 0 0 0)) 2 0, mOp (.mxescNarrow { tX 1 0 20 0 0 0 0 with mod := 1 }) 0 0,
      mOp (.mxescWiden (tX 1 0 20 0 0 0 0)) 0 0, mOp (.bdwr (tX 1 0 20 9 0 0 0)) 0 0, mOp (.mxrd rdX) 0 0, mOp (.bdrdStat { rdX with mod := 1 }) 0 0, mOp (.mxtrn (tX 1 2 20 0 0 0 0)) 0 0,
      mOp (.mxperm (tX 1 2 20 9 0 0 0)) 0 0, mOp (.mxlds (tX 0 0 20 22 21 0 10)) 0 0, mOp (.mxstrm (tX 1 0 20 1 2 10 10)) 0 0, mOp (.mxtile (tX 1 0 20 22 23 10 10)) 0x2000 8].map
        fun o => (o.member, o.form.mod.getLsbD 0, o.steps)) =
      [(1, false, 0), (4, false, 0), (66, false, 0), (10, true, 0), (10, false, 0), (65, false, 0), (5, false, 0), (64, true, 0), (7, false, 1), (8, false, 1), (0, false, 16), (2, false, 1), (3, false, 1)] ∧
    (mEngine.isPair 1 = false ∧ mEngine.isPair 2 = false ∧ (mEngine.tile (partner 1)).mode = .free ∧ mEngine.fmtOf 1 = 10) := by
  refine ⟨by unfold Claims.enginesRise; decide +kernel, ?_⟩; decide +kernel
/-- A control token for one row of tile 1: EOS, the kind without rows and the one that clears. -/
def ctlTok (h : Word) : Token := { header := h, slots := 1 }
def strmOp : MacroOp := { mOp (.mxstrm (tX 1 0 20 1 2 10 10)) 0 0 with control := .input 1, stream := .input 2 }
def strmSt (h : Word) : State := { mRun strmOp with queues := [qQ0, { qQ1 with fifo := [ctlTok h] }, { qQ1 with edge := 2, fifo := [], outFmt := 10, inFmt := 10 }] }
theorem test_control_token : ((after (exec (.mxstrmControlToken 0) (strmSt (setEos 0 true)))).engine 0).ops.map (·.step) = [1] ∧
    (((after (exec (.mxstrmControlToken 0) (strmSt 5))).engine 0).tile 1).elems = [] := by decide +kernel
theorem witness_MatrixActs_tokens : (strmSt 5).boundQueue 0 mCtx (.input 1) ≠ none ∧ (((strmSt 5).engine 0).active.fmt = some 10) ∧
    (hdrEos (setEos 0 true) = true ∧ hdrEos 5 = false ∧ hdrEos 6 = false ∧ bits (5 : Word).toNat 1 0 = 1 ∧ bits (6 : Word).toNat 1 0 = 2) ∧
    (bits (5 : Word).toNat 34 32 = 0 ∧ bits (5 : Word).toNat 15 9 + (bits (5 : Word).toNat 8 6 + 1) ≤ 128 ∧ mEngine.isPair (bits (5 : Word).toNat 4 2) = false) ∧
    (match mxRows (mSt.latchCadence 0 0) 0 mCtx 0x2000 512 10 128 with | .ok _ => true | .error _ => false) = true := by decide +kernel

/-! ## Graphs, submission and launches -/

/-- The supervisor of partition 1. -/
def sK : Nat := supervisorOf 1
def ctxS (r : Result) : Ctx := ((after r).ctx? sK).getD (tCtx .u)
/-- g20 a record or descriptor at 0x8000, g21 the GCB at 0x9000, g22 the submission queue at 0x4000, g23 a status record at 0xA000. -/
def gCtx : Ctx := ((({ tCtx .s with guards := [] }.wg 20 0x8000).wg 21 0x9000).wg 22 0x4000).wg 23 0xA000
/-- A descriptor with one actor, one queue and the start edge (R228), written out byte by byte. -/
def descBytes : Memory :=
  [(0x8000, 1), (0x8002, 1), (0x8004, 1), (0x8006, 1), (0x8010, 64), (0x8018, 0x80), (0x8019, 1), (0x8020, 0xC0), (0x8021, 1), (0x8042, 1), (0x8048, 1), (0x804A, 1), (0x804C, 1),
   (0x8050, 0x87), (0x8180, 16), (0x81C0, 0xFF)]
def gBase : State :=
  { State.reset with cur := some sK, ctxs := [(sK, gCtx)], asids := [(1, { live := true, part := 1 })], parts := [(1, { isOpen := true })], tlb := mapTlb, subqs := [qSubq],
                     tileOwner := [(0, 2)], mem := descBytes }
def loadedSt : State := after (exec (.gload (tS 9 20 21)) gBase)
theorem test_gload : loadedSt.graphs.map (fun g => (g.handle, g.va, g.state == .loaded, g.actors.length, g.edges.length)) = [(0x9001, 0x9000, true, 1, 1)] ∧
    loadedSt.ops.map (·.kind) = [.value 1 []] := by decide +kernel
/-- One slot of tile 0 is free, slot 7 of strand 3, and one of its banks is marked. -/
def slotCtxs : Map Ctx := (List.range 31).foldl (fun m n => Map.insert m (mkKey 0 (n / 8) (n % 8)) { tCtx .u with firing := none }) [(sK, gCtx)]
def armReady : State := { loadedSt with cur := some sK, ops := [], ctxs := slotCtxs, clusters := [(0, onCluster)], queueBanks := [(0, 0x100)] }
def armedGraphSt : State := after (exec (.garm (tS 9 21 0)) armReady)
theorem test_garm : armedGraphSt.graphs.map (fun g => (g.state == .armed, g.pairs.length)) = [(true, 0)] ∧ armedGraphSt.ops.map (·.kind) = [.value 1 []] ∧
    (armedGraphSt.ctxs.filter fun e => e.2.graph == 0x9001).map (·.1) = [mkKey 0 3 7] := by decide +kernel
theorem test_spawn : ((after (exec (.spawn (tS 9 20 22)) gBase)).subq? 0x4000).map (fun q => (q.tail, q.pending)) = some (1, true) ∧
    (after (exec (.spawn (tS 9 20 22)) gBase)).ops.map (·.kind) = [.value 0 []] := by decide +kernel
theorem sOperands (s : State) (c : Ctx) (h : s.ops = [] ∧ s.ctx? sK = some c ∧ s.repairs = []) (h0 : c.gEmpty = 0 ∧ c.vEmpty = 0 ∧ c.gBad = 0 ∧ c.vBad = 0) (hf : c.frames = [])
    (srcs : List Src) (dsts : List Dst) : Operands s sK c srcs dsts := by
  obtain ⟨ho, hc, hr⟩ := h
  refine ⟨fun r _ => (regs_ready c h0 r).1, fun r _ => (regs_ready c h0 r).2, fun d _ => ?_⟩
  unfold State.produced; rw [ho, hc, hr]; simp only [hf, List.any_nil, Bool.or_false]
theorem gOperands (srcs : List Src) (dsts : List Dst) : Operands gBase sK gCtx srcs dsts :=
  sOperands _ _ ⟨rfl, by decide +kernel, rfl⟩ ⟨by decide +kernel, rfl, by decide +kernel, rfl⟩ rfl _ _
theorem gIssuing : Issuing gBase sK gCtx tFir ∧ gBase.issueRoom sK tFir ∧ gBase.noAccess sK ∧ gCtx.guardOn (tS 9 20 21).kg :=
  ⟨⟨rfl, by decide +kernel, by decide +kernel, rfl⟩, by unfold State.issueRoom; decide +kernel, by unfold State.noAccess; decide +kernel, by unfold Ctx.guardOn; decide +kernel⟩
def testGraph : Graph := { qGraph with handle := 0x9001, va := 0x9000, drainBy := none }
def runLaunch : Launch := { words := List.replicate 16 0, qsb := 0x4000, part := 1, asid := 1, prio := 0, order := 3 }
def drainReady : State := { armReady with graphs := [{ testGraph with running := some runLaunch }] }
theorem test_gdrain : ((after (exec (.gdrainGraph (tS 9 21 1)) drainReady)).graph? 0x9001).map (fun g => (g.state == .draining, g.drainBy)) = some (true, some 10) ∧
    ((after (exec (.gdrainQdrain (tS 9 22 0)) gBase)).subq? 0x4000).map (·.tear) = some 1 ∧
    ((after (exec (.gdrainQabort (tS 9 22 0)) gBase)).subq? 0x4000).map (·.tear) = some 2 := by decide +kernel
/-- SPAWN, GLOAD, GARM with and without room, and the three drains. -/
theorem witness_GraphInstructions : Issuing gBase sK gCtx tFir ∧ Operands gBase sK gCtx [sA (tS 9 20 21), sB .g (tS 9 20 21)] [gDst 9] ∧
    ((gCtx.rg 20).toNat % 128 = 0 ∧ (gCtx.rg 22).toNat % 128 = 0 ∧ gBase.redundant sK = false ∧ spawnQueue gBase sK gCtx (gCtx.rg 22) = .ok qSubq ∧ qSubq.queued < qSubq.size ∧
      (spawnRecord gBase sK gCtx 0x8000 qSubq).2 = .ok (wd qSubq.tail)) ∧
    (gCtx.priv = .s ∧ (ownGraph (gBase.writeBack (tileOf sK) fun _ => true) sK gCtx (gCtx.rg 21)).toOption.isSome = true ∧
      (match readDescriptor (gBase.writeBack (tileOf sK) fun _ => true) sK gCtx 0x8000 with | .ok (.ok _) => true | _ => false) = true) ∧
    ((match ownGraph armReady sK gCtx (gCtx.rg 21) with | .ok (_, some g) => g.state == .loaded && (State.placeAll g.handle g.actors 0 armReady).isSome &&
        (State.placeAll g.handle g.actors 0 { armReady with tileOwner := [] }).isNone | _ => false) = true) ∧
    (gCtx.graph = 0 ∧ (match ownGraph drainReady sK gCtx (gCtx.rg 21) with | .ok (_, some g) => g.state == .armed && g.running.isSome | _ => false) = true) ∧
    (translateFor gBase sK gCtx 0x4000 .r = .ok 0x4000 ∧ gBase.subq? 0x4000 = some qSubq ∧ qSubq.part = gCtx.part ∧ gBase.launchedFrom 0x4000 = [] ∧
      (tearQueue gBase sK gCtx 0x4000 2).2.toOption.isSome = true) :=
  ⟨gIssuing.1, gOperands _ _, by decide +kernel⟩

/-- A context of graph 1 on tile 0, which is of its partition; a launch waits in a resident queue for an armed graph. -/
def plSt : State := { qSt with tileOwner := [(0, 2)], graphs := [{ qGraph with actors := [qActor, qActor] }] }
theorem test_place : ((after (exec (.placePin (tS 0 0 0)) plSt)).graph? 1).map (·.pins) = some [(0, 0)] ∧ ((after (exec (.placeHint { tS 0 0 0 with imm := 1 }) plSt)).graph? 1).map (·.hints) = some [(1, 0)] ∧
    ((after (exec (.placeOwn (tS 0 1 0)) plSt)).graph? 1).map (·.owners) = some [(1, 5, 16), (0, 10, 0)] ∧ ((after (exec (.placeFree (tS 0 0 0)) plSt)).graph? 1).map (·.pins) = some [] := by
  decide +kernel
theorem test_lstat : (after (exec (.lstatLaunch (tS 9 23 0)) { gBase with mem := [(0xA000, 3)] })).ops.map (·.kind) = [.value 3 []] := by decide +kernel
def hostQ : Subq := { qSubq with deviceFed := false, doorbell := 7, pending := true }
def launchWs : List Word := [0x9000, 0, 0, 0, 0, 0, 0, 0, 0, 0, 0, 0, 0xA000, 0, 0, 0]
def recSt : State :=
  { gBase with subqs := [{ hostQ with slot := some 1, pending := false, tail := 1 }], graphs := [testGraph], mem := [(0x8001, 0x90), (0x8061, 0xA0)] }
theorem test_notify : ((after (exec (.notify 7 3) { gBase with subqs := [hostQ] })).subq? 0x4000).map (·.tail) = some 3 ∧
    ((after (exec (.notify 7 20) { gBase with subqs := [hostQ] })).subq? 0x4000).map (fun q => (q.tail, q.error)) = some (0, true) := by decide +kernel
theorem test_queue_unmap : ((after (exec (.queueUnmap 0x4000) { gBase with subqs := [{ hostQ with slot := some 1 }] })).subq? 0x4000).map (·.slot) = some none := by decide +kernel
theorem test_record_fetch : ((after (exec (.recordFetch 0x4000) recSt)).subq? 0x4000).map (fun q => (q.head, q.window.map (·.words))) = some (1, [launchWs]) := by decide +kernel
theorem witness_Submissions : Issuing plSt 0 qCtx tFir ∧ (plSt.graph? qCtx.graph).isSome = true ∧ (0 : Nat) < qGraph.actors.length ∧
    ((qCtx.rg 0).toNat % 512 ≤ 383 ∧ Map.get 0 plSt.tileOwner 0 = qCtx.part + 1) ∧ (plSt.ctx? 0 = some qCtx ∧ qCtx.graph = qGraph.handle ∧ Map.get 0 plSt.tileOwner (tileOf 0) = qCtx.part + 1) ∧
    ((gCtx.rg 23).toNat % 8 = 0 ∧ (loadAt (gBase.acquireWays sK 5) sK gCtx 0xA000 8).toOption.isSome = true ∧ placeOf gBase sK gCtx 0x9000 8 .r = .ok (.dram 0x9000) ∧
      (loadedSt.graph? 0x9001).isSome = true) ∧
    ((({ gBase with subqs := [hostQ] } : State).subqs.find? fun q => !q.deviceFed && q.doorbell == 7) = some hostQ ∧ hostQ.size < (20 + 2 ^ 32 - hostQ.head) % 2 ^ 32) ∧
    ({ hostQ with tail := 1 } : Subq).wantsSlot = true ∧ ({ hostQ with slot := some 1 } : Subq).unmappable = true ∧ gBase.freeQueueSlots ≠ [] ∧
    (launchWs.length = 16 ∧ (List.range 16).all (fun j => match wordAs recSt 1 1 (0x8000 + 8 * j) with | .ok w => launchWs[j]? == some (wd w) | .error _ => false) = true) :=
  ⟨⟨rfl, rfl, rfl, rfl⟩, by decide +kernel⟩

/-- A launch in the window of a resident queue, whose graph is armed. -/
def winLaunch : Launch := { runLaunch with words := launchWs }
def winSt : State := { gBase with graphs := [testGraph], subqs := [{ qSubq with slot := some 1, window := [winLaunch] }] }
theorem test_launch_dispatch : (after (exec .launchDispatch winSt)).graphs.map (fun g => g.running.map (·.words)) = [some launchWs] ∧
    (after (exec .launchDispatch winSt)).rrPart = 1 := by decide +kernel
def endSt : State := { gBase with graphs := [{ testGraph with running := some winLaunch }] }
theorem test_launch_end : (after (exec (.launchEnd 0x9001) endSt)).graphs.map (·.running.isSome) = [false] := by decide +kernel
def limitSt : State := { gBase with graphs := [{ testGraph with state := .draining, drainBy := some 10 }], ticks := 10 }
theorem test_drain_limit : (after (exec (.graphDrainLimitExpiry 0x9001) limitSt)).graphs.map (·.state) = [.drained] := by decide +kernel
/-- A context without a firing whose entry 0 has V set and no condition, with its module bound. -/
def readyCtx : Ctx := { tCtx .u with firing := none, guards := [(0, (0x8000000000000008, 0))] }
def readySt : State := { tBound with ctxs := [(0, readyCtx)] }
theorem test_firing_dispatch : (ctx0 (exec (.firingDispatch 0) readySt)).firing.map (fun f => (f.pc, f.entry, f.refs)) = some (8, 0, [{ asid := 1, slot := 0, gen := 1 }]) := by
  decide +kernel
def pairSt : State := { mSt with ctxs := [(0, { mCtx with firing := none }), (16, { mCtx with firing := none, actor := 1 })], graphs := [{ mGraph with pairs := [] }] }
theorem test_template_rewrite : ((after (exec (.templateRewrite 0) pairSt)).graph? 1).map (·.pairs) = some [(0, 0, 16)] := by decide +kernel
theorem witness_LaunchesAndFirings : (∃ l p n g, winSt.chosen = some (l, p, n) ∧ winSt.graphOf l = some g) ∧ gBase.dispatchables = [] ∧
    (endSt.graph? 0x9001).map (fun g => g.running.map fun l => (l.replayDue, l.unsafeEnd, l.failed, l.redundant)) = some (some (false, false, none, false)) ∧
    endSt.quiet 0x9001 = true ∧ ({ endSt with queues := [{ qQ0 with graph := 0x9001, fifo := [qTok] }] } : State).quiet 0x9001 = false ∧
    (limitSt.graph? 0x9001).map (fun g => (g.drainBy, g.state == .draining, (limitSt.part g.part).paused)) = some (some 10, true, false) :=
  ⟨⟨winLaunch, 1, 1, testGraph, by decide +kernel⟩, by decide +kernel⟩
theorem witness_LaunchesAndFirings_firing : oldest (readySt.candidates 0) = some (0, readyCtx, 0) ∧ readySt.boundNow 1 (cpSlot 8) = some tBind ∧ cpOffset 8 < tBind.len ∧
    uSt.candidates 0 = [] ∧ (tCtx .u).firing ≠ none ∧
    ((pairSt.ctx? 0).map fun c => (c.inFlight, (pairSt.graph? c.graph).map fun g => (g.edgesWhere (fun d => d.pact == c.actor)).map fun e => (e.1, pairSt.partnerOf g e.2 0 c))) =
      some (false, some [(0, some 16)]) := by decide +kernel

/-! ## Copies (R260 to R266) -/

/-- A record of two bytes from 0x2000 to 0x3000, and one of two bytes to a port, written out byte by byte. -/
def copyMem (ctrl : Byte) : Memory :=
  [(0x1001, 0x20), (0x1009, 0x30), (0x1010, ctrl), (0x1040, 2), (0x1044, 2), (0x1048, 1), (0x1050, 1), (0x1058, 1), (0x1060, 1), (0x1090, 1), (0x10B8, 1), (0x2000, 0x11), (0x2001, 0x22)]
def copySt : State := after (exec (.copy (tM 0 4 0)) (memSt (copyMem 0x90)))
def copyId (s : State) : Nat := ((s.copies.head?).map (·.id)).getD 0
theorem test_copy : Memory.readBytes (after (exec (.copyRecordCompletion (copyId copySt)) copySt)).mem 0x3000 2 = [0x11, 0x22] ∧
    (after (exec (.copyRecordCompletion (copyId copySt)) copySt)).copies = [] := by decide +kernel
def portRun : CopyRun := { id := 5, ctx := 0, asid := qCtx.asid, pc := 0, word := 0, record := 0x1000, chain := false, ev := 0 }
def portSt : State := { w8St with mem := copyMem 0x91, copies := [portRun] }
theorem test_copy_port : ((after (exec (.copyTokenPush 5) portSt)).queue? 1 0 16).map (fun q => q.transit.map fun t => t.words.length) = some [1] ∧
    (after (exec (.copyTokenPush 5) portSt)).copies.map (·.pushed) = [1] := by decide +kernel
def chainSt : State := { pSt with mem := copyMem 0x90, copies := [{ portRun with ctx := kF, chain := true }] }
theorem witness_CopiesRun : Issuing pSt kF (tCtx .f) tFir ∧ (∃ r, copySt.copies = [r] ∧ r.chain = false) ∧ portSt.repairs = [] ∧
    (match readRecord portSt portRun qCtx with
      | .ok x => decide (x.dkind = 1) && decide (0 < x.tokens) && (checkRecord portSt 0 qCtx x 0x1000).isNone && (copyCodes portSt 0 qCtx x [0, 1]).toOption.isSome
      | .error _ => false) = true ∧
    (match readRecord copySt (copySt.copies.headD portRun) (tCtx .f) with
      | .ok x => decide (x.dkind ≠ 1) && (checkRecord copySt kF (tCtx .f) x 0x1000).isNone && (moveRecord copySt kF (tCtx .f) x 0).2.isNone
      | .error _ => false) = true ∧
    (match readRecord chainSt { portRun with ctx := kF, chain := true } (tCtx .f) with | .ok x => !x.own | .error _ => false) = true :=
  ⟨issuing_firm, ⟨_, rfl, by decide +kernel⟩, by decide +kernel⟩

/-! ## Isolation -/

/-- Page tables that map everything below 1 GB to itself: stage 2 at 0x10000 and stage 1 at 0x12000, each with one table of level 1 (R361, R362). -/
def pageMem : Memory := [(0x10000, 1), (0x10001, 0x10), (0x10002, 1), (0x11000, 0x1F), (0x12000, 1), (0x12001, 0x30), (0x12002, 1), (0x13000, 0x1F)]
def pageSt : State :=
  { gBase with tlb := [], mem := pageMem, parts := [(1, { isOpen := true, root := 0x10000, quota := 5, hostwin := true })],
               asids := [(1, { live := true, part := 1, root := 0x12000 }), (3, { live := true, part := 1 })] }
theorem test_page_walk : (after (exec (.pageWalkCompletion (3 * 8192 + 1) 0x5000) pageSt)).tlb.map (fun e => (e.tile, e.asid, e.va, e.pa, e.log)) = [(3, 1, 0, 0, 30)] := by
  decide +kernel
theorem witness_TranslationAndBindingEvents : ((pageSt.asid 1).live = true ∧ pageSt.tlbHit 3 1 1 0x5000 = none ∧ (walkBoth pageSt 1 1 0x5000 .r).toOption.isSome = true) ∧
    (Claims.due tlbSt (op1 tlbSt).id (op1 tlbSt) (ctx0 (.next tlbSt)) ∧ (tlbSt.ops.any fun p => tlbSt.usesOld (op1 tlbSt) p) = false) ∧
    (op1 bindSt).kind ≠ .load ∧ freeSt.referenced 1 0 1 = false := by
  refine ⟨by decide +kernel, ⟨⟨?_, ?_, ?_⟩, ?_⟩, ?_, ?_⟩ <;> decide +kernel

def pageCtx : Ctx := gCtx
def asX : SForm := { tS 9 2 21 with imm := 1 }
theorem test_asset : (after (exec (.assetKill asX) pageSt)).asids.map (·.1) = [1] ∧ (after (exec (.assetMake { asX with a := 1 }) pageSt)).asids.map (·.1) = [1, 3, 10] ∧
    ((after (exec (.assetRoot asX) pageSt)).asid 3).root = 0x9000 ∧ (ctxS (exec (.assetSelf asX) pageSt)).asid = 3 := by decide +kernel
theorem test_asset_foreign : (after (exec (.assetKill { asX with imm := 2 }) pageSt)).ops.map (fun o => match o.kind with | .fault c _ _ => c | _ => 0) = [cProtection] := by decide +kernel
theorem pOperands (srcs : List Src) (dsts : List Dst) : Operands pageSt sK gCtx srcs dsts := sOperands _ _ ⟨rfl, by decide +kernel, rfl⟩ ⟨by decide +kernel, rfl, by decide +kernel, rfl⟩ rfl _ _
theorem pIssuing : Issuing pageSt sK gCtx tFir ∧ pageSt.issueRoom sK tFir ∧ pageSt.noAccess sK :=
  ⟨⟨rfl, by decide +kernel, by decide +kernel, rfl⟩, by unfold State.issueRoom; decide +kernel, by unfold State.noAccess; decide +kernel⟩
/-- A firmware context on its System Tile, with partition 2 closed and partition 1 open; a descriptor of a device-fed queue at 0x4000. -/
def fwCtx : Ctx := ((tCtx .f).wg 20 0x4000).wg 21 0x300
def fwSt : State :=
  { State.reset with cur := some kF, ctxs := [(kF, fwCtx)], parts := [(1, { isOpen := true })], tileOwner := [(3, 2)], mem := [(0x4001, 0x80), (0x4010, 4), (0x4013, 1), (0x4014, 0x20)] }
def pX (p : Nat) (a b : BitVec 6) : SForm := { tS 9 a b with imm := BitVec.ofNat 12 p }
theorem fOperands (srcs : List Src) (dsts : List Dst) : Operands fwSt kF fwCtx srcs dsts := by
  have h0 := regs_ready fwCtx (by decide +kernel)
  refine ⟨fun r _ => (h0 r).1, fun r _ => (h0 r).2, fun d _ => ?_⟩
  unfold State.produced; rw [show fwSt.ctx? kF = some fwCtx from by decide +kernel]; rfl
theorem test_partcfg : (after (exec (.partcfgOpen (pX 2 4 1)) fwSt)).parts.map (fun e => (e.1, e.2.root, e.2.quota)) = [(1, 0, 0), (2, 0x1000, 10)] ∧
    (after (exec (.partcfgAssign (pX 1 2 0)) fwSt)).tileOwner = [] ∧ (after (exec (.partcfgAssign (pX 1 1 6)) fwSt)).tileOwner = [(3, 2), (10, 2)] ∧
    (after (exec (.partcfgWays (pX 1 2 1)) fwSt)).wayOwner = [(49, 2), (51, 2)] ∧ ((after (exec (.partcfgShare (pX 1 21 0)) fwSt)).part 1).weight = 3 := by decide +kernel
theorem test_partcfg_more : ((after (exec (.partcfgHostwin (pX 1 0 6)) fwSt)).part 1).hostwin = true ∧ (after (exec (.partcfgQbank (pX 1 2 1)) fwSt)).queueBanks = [(3, 10)] ∧
    (after (exec (.partcfgShut (pX 1 0 0)) { fwSt with tileOwner := [] })).parts = [] := by decide +kernel
theorem witness_AddressSpaces : Issuing pageSt sK gCtx tFir ∧ pageSt.noAccess sK ∧ pageSt.issueRoom sK tFir ∧ gCtx.priv = .s ∧ gCtx.part = 1 ∧
    Operands pageSt sK gCtx [sD asX, sB .g asX, sA asX] [gDst 9] ∧ ((gCtx.rg 21).toNat % 4096 = 0 ∧ (gCtx.rg 2).toNat % 8192 < 8128 ∧ bits (gCtx.rg 2).toNat 31 13 = 0) ∧
    ((pageSt.asid 10).live = false ∧ (pageSt.part 1).isOpen = true ∧ pageSt.liveAsids 1 < (pageSt.part 1).quota) ∧
    (pageSt.asidOf 3 1 = true ∧ pageSt.asidInUse 3 = false ∧ pageSt.asidOf ((gCtx.rg 2).toNat % 8192) 1 = true ∧ (gCtx.rg 0).toNat % 65536 = 0) :=
  ⟨pIssuing.1, pIssuing.2.2, pIssuing.2.1, by decide +kernel, by decide +kernel, pOperands _ _, by decide +kernel⟩
theorem witness_AddressSpaces_partitions : Issuing fwSt kF fwCtx tFir ∧ fwSt.noAccess kF ∧ fwSt.issueRoom kF tFir ∧ Operands fwSt kF fwCtx [sA (pX 2 4 1), sB .g (pX 2 4 1)] [gDst 9] ∧
    ((fwCtx.rg 4).toNat % 4096 = 0 ∧ (fwSt.part 2).isOpen = false ∧ fwSt.quotas + (fwCtx.rg 1).toNat % 8192 ≤ 8128 ∧ kF ≠ supervisorOf 2) ∧
    ((fwCtx.rg 2).toNat < 384 ∧ Map.get 0 fwSt.tileOwner 3 = 1 + 1 ∧ fwSt.tileBusy 3 = false ∧ fwSt.tileOut 3 = false) ∧ Map.risesFrom 0 fwSt.wayOwner = true ∧
    (({ fwSt with tileOwner := [] } : State).owns 1 = false ∧ fwSt.liveAsids 1 = 0 ∧ fwSt.engines.all (fun e => e.2.holder != some (supervisorOf 1)) = true ∧ fwSt.ops = []) ∧
    (bits (fwCtx.rg 21).toNat 14 8 = 3 ∧ (match loadWords fwSt kF fwCtx 0x1000 2 with | .ok (ws, _) => ws == [0, 0] | .error _ => false) = true) ∧
    (translateFor fwSt kF fwCtx 0x4000 .w = .ok 0x4000 ∧ (newSubq { fwSt with asids := [(1, { live := true, part := 1 })] } 1 0x4000 ((List.range 16).map fun j => leNat (Memory.readBytes
        fwSt.mem (0x4000 + 8 * j) 8))).isSome = true) ∧
    ((List.range 24).all fun n => fwSt.bankMode 3 n != 2) = true :=
  ⟨⟨rfl, by decide +kernel, by decide +kernel, rfl⟩, by unfold State.noAccess; decide +kernel, by unfold State.issueRoom; decide +kernel, fOperands _ _, by decide +kernel⟩
/-- The window of partition 1 gives its memory; that of partition 2, which is closed, answers with an error. -/
def hostAddr (p ipa : Nat) : Nat := p * 2 ^ 48 + ipa
theorem test_host : (after (execHostRead (hostAddr 1 0x10000) 2 pageSt)).hostResp = .data [1, 0x10] ∧ (after (execHostRead (hostAddr 2 0) 2 pageSt)).hostResp = .error ∧
    Memory.read (after (execHostWrite (hostAddr 1 0x5000) [7, 8] pageSt)).mem 0x5001 = 8 := by decide +kernel
theorem witness_AddressSpaces_quotes : (loadWords fwSt kF fwCtx 0x1000 8).toOption.isSome = true ∧ hostPas pageSt (hostAddr 1 0x5000) 2 .r = some [0x5000, 0x5001] ∧
    hostPas pageSt (hostAddr 1 0x5000) 2 .w = some [0x5000, 0x5001] ∧ hostPas pageSt (hostAddr 2 0) 2 .r = none ∧ Memory.wf pageSt.mem = true ∧ (pageSt.part 1).paused = false ∧
    (agentStore fwSt kF fwCtx 0x20000 [1, 2]).2 = none := by decide +kernel

/-! ## Traps and recovery -/

/-- A context with a handler at offset 16, in graph 1, and the traps of the four cases. -/
def trapCtx : Ctx := { tCtx .u with trapvec := 16, graph := 1, firing := some tHeld }
def trapSt : State := { tBound with ctxs := [(0, trapCtx)], graphs := [{ qGraph with running := some winLaunch }] }
def tArith : Trap := { cause := cArith, info := 7 }
theorem test_own_handler : (ctx0 (exec (.trap { tS 0 0 0 with imm := 5 }) trapSt)).frames.map (fun f => (f.cause, f.info, f.user, f.rpc)) = [(cSoftware, 5, true, 8)] ∧
    (ctx0 (exec (.trap { tS 0 0 0 with imm := 5 }) trapSt)).parked = false := by decide +kernel
theorem test_svc : (after (exec (.svc { tS 9 1 2 with imm := 3 }) uSt)).records.map (fun r => (r.target, r.words.getD 2 0, r.words.getD 6 0, r.words.getD 7 0)) =
    [(supervisorOf 1, 0x1003, 10, 3)] ∧ (ctx0 (exec (.svc { tS 9 1 2 with imm := 3 }) uSt)).parked = true := by decide +kernel
theorem witness_TrapEntry : Issuing trapSt 0 trapCtx tHeld ∧ tArith.svc = false ∧ tArith.free = false ∧ trapSt.ops = [] ∧ trapCtx.ownHandler cArith false = true ∧
    (Issuing uSt 0 (tCtx .u) tFir ∧ (tCtx .u).ownHandler cArith false = false ∧ (tCtx .u).priv ≠ .f ∧ hardwareCause cArith 7 = false) ∧
    (trapCtx.ownHandler cMemUncorrectable false = false ∧ hardwareCause cMemUncorrectable 0xF000000000000000 = true ∧ (trapSt.graph? trapCtx.graph).isSome = true) ∧
    (Issuing fSt 0 (tCtx .f) tFir ∧ (tCtx .f).ownHandler cArith false = false) ∧ trapCtx.inHandler = false ∧
    ({ trapCtx with frames := [{ cause := cArith, user := true }, { cause := cArith, user := true }] } : Ctx).inHandler = true :=
  ⟨⟨rfl, rfl, rfl, rfl⟩, rfl, rfl, rfl, by decide +kernel, ⟨issuing_base _ rfl, by decide +kernel⟩, by decide +kernel, ⟨issuing_base _ rfl, by decide +kernel⟩,
    by decide +kernel⟩

/-- A handler in a frame that holds one replay entry, and a parked context that a supervisor resumes. -/
def tEntry : ReplayEntry := { word := 0x10000108300E0000, pc := 0, opA := 10, dstG := [9] }
def tFrame : Frame := { cause := cArith, user := true, fpc := 0, rpc := 8, entries := [tEntry], firing := some { tHeld with pc := 0 } }
def handlerCtx : Ctx := { trapCtx with firing := some { tHeld with pc := 16, entry := 16, handler := true }, frames := [tFrame] }
def handlerSt : State := { trapSt with ctxs := [(0, handlerCtx)] }
theorem test_resume : (ctx0 (exec (.resumeSelf (tS 0 0 0)) handlerSt)).firing.map (·.pc) = some 8 ∧ (ctx0 (exec (.resumeSelf (tS 0 0 0)) handlerSt)).replay = [tEntry] ∧
    (ctx0 (exec (.resumeSelf (tS 0 0 0)) trapSt)).trapcause = cProtection.setWidth 64 := by decide +kernel
def parkedCtx : Ctx := { trapCtx with firing := none, parked := true, frames := [{ tFrame with user := false }] }
/-- g20 of the supervisor holds the handle of the parked context: ASID 1, key 0. -/
def parkSt : State := { gBase with ctxs := [(0, parkedCtx), (sK, gCtx.wg 20 (handleOf 0 parkedCtx))] }
theorem test_resume_ctx : (ctx0 (exec (.resumeCtx (tS 0 20 0)) parkSt)).parked = false ∧ (ctx0 (exec (.resumeCtx (tS 0 20 0)) parkSt)).firing.map (·.pc) = some 8 := by decide +kernel
theorem witness_TrapAndResume : Issuing handlerSt 0 handlerCtx { tHeld with pc := 16, entry := 16, handler := true } ∧ handlerCtx.frames = tFrame :: [] ∧
    Issuing uSt 0 (tCtx .u) tFir ∧ tFir.handler = false ∧ Operands uSt 0 (tCtx .u) [sA (tS 9 1 2), sB .g (tS 9 1 2)] [gDst 9] ∧ uSt.noAccess 0 ∧
    (Issuing parkSt sK (gCtx.wg 20 (handleOf 0 parkedCtx)) tFir ∧ parkSt.parkedBy gCtx (handleOf 0 parkedCtx) = some (0, parkedCtx) ∧ 0 ≠ sK ∧ parkSt.noAccess sK) :=
  ⟨⟨rfl, rfl, rfl, rfl⟩, rfl, issuing_base _ rfl, rfl, operands_base _ ⟨rfl, rfl, rfl, rfl⟩ rfl _ _, by unfold State.noAccess; decide +kernel,
    ⟨rfl, by decide +kernel, by decide +kernel, rfl⟩, by decide +kernel, by decide, by unfold State.noAccess; decide +kernel⟩
/-- Field 8 is operand A, field 7 MODE, field 4 RPC, of the handler's own frame. -/
theorem test_rqrd : (ctx0 (exec (.rqrd { tS 10 0 0 with cnd := 4 }) handlerSt)).rg 10 = 8 ∧ 
    (ctx0 (exec (.rqwr { tS 0 0 6 with cnd := 7 }) handlerSt)).frames.map (fun f => f.entries.map (·.mode)) = [[1]] := by decide +kernel
theorem test_ckpt : (ctx0 (exec (.ckpt (tS 0 4 0)) uSt)).ckpt = 0x1000 := by decide +kernel
def switchSt : State := { uSt with fullSwitches := [{ issuer := sK, tile := 0, incoming := 0, outgoing := 0, deadline := 100 }] }
theorem test_ckpt_stops : (ctx0 (exec (.ckpt (tS 0 4 0)) switchSt)).stoppedAt = some 0 := by decide +kernel
def recordSt : State := { parkSt with records := [{ target := sK, words := [1, 2, 3, 4, 5, 6, 7, 8] }], queues := [{ graph := 0, edge := 0, consumer := sK, depth := 128, credits := 128 }] }
theorem test_record_delivery : ((after (execFaultRecordDelivery sK recordSt)).queue? 0 0 sK).map (fun q => (q.credits, q.fifo.length)) = some (126, 1) ∧
    (after (execFaultRecordDelivery sK recordSt)).records = [] := by decide +kernel
def dueCtx : Ctx := { trapCtx with firing := none, frames := [{ tFrame with firing := some tHeld }] }
def dueSt : State := { trapSt with ctxs := [(0, dueCtx)] }
theorem test_handler_dispatch : (ctx0 (execTrapHandlerDispatch 0 dueSt)).firing.map (fun f => (f.pc, f.handler)) = some (16, true) := by decide +kernel
def pendCtx : Ctx := { tCtx .u with pending := [{ cause := cAlignment, info := 4, fpc := 8, fword := 9 }] }
theorem test_async_fault : (ctx0 (execAsyncFaultDelivery 0 (tState pendCtx))).frames.map (fun f => (f.cause, f.async, f.fpc)) = [(cAlignment, true, 8)] := by decide +kernel
theorem witness_FramesAndTrapEvents : (rqOther { tS 9 0 0 with cnd := 4 } = false ∧ rqOther { tS 9 20 0 with imm := 16 } = true ∧ rqEntry { tS 9 20 0 with imm := 16 } < tFrame.entries.length) ∧
    (((tCtx .u).rg 4).toNat % 16 = 0 ∧ uSt.switching 0 = false ∧ switchSt.switching (tileOf 0) = true) ∧
    ((8 : Word).toNat % 8 = 0 ∧ handlerSt.heldBinding tHeld (cpSlot 8) = some tBind ∧ cpOffset 8 < tBind.len) ∧
    ((recordSt.records.find? fun r => r.target == sK).isSome = true ∧ (recordSt.queue? 0 0 sK).map (·.credits) = some 128 ∧ recordSt.firmwareBusy sK = false) ∧
    (dueSt.ctx? 0 = some dueCtx ∧ dueCtx.parked = false ∧ inShadow 0 = false ∧ dueSt.switching (tileOf 0) = false ∧
      dueSt.enterBinding 1 { pc := 16, serial := 0, entry := 16, handler := true, refs := tHeld.refs } (cpSlot 16) = some tBind ∧ cpOffset 16 < tBind.len) ∧
    ((tState pendCtx).ctx? 0 = some pendCtx ∧ pendCtx.pending.length = 1 ∧ pendCtx.inHandler = false ∧ hardwareCause cAlignment 4 = false) := by decide +kernel

/-! ## Switching -/

def strandSt : State :=
  { gBase with ctxs := [(0, tCtx .u), (sK, gCtx)], tileOwner := [(0, 2)], mem := [(0x4002, 0x10), (0x8002, 0x10)] }
def swX : SForm := tS 22 0 20
def swapped : State := after (exec (.swapNow swX) strandSt)
theorem test_swap_now : swapped.ctx? 0 = none ∧ ((swapped.ctx? 16384).map fun c => (c.firing, c.frames.map (·.rpc))) = some (none, [0]) ∧ swapped.swaps.length = 1 := by decide +kernel
theorem test_swap_stage_full : (after (exec (.swapStage swX) strandSt)).staged.length = 1 ∧ (after (exec (.swapFull swX) strandSt)).switching 0 = true := by decide +kernel
def written : State := after (execArchivistWriteOut 0 swapped)
theorem test_write_out : written.ctx? 16384 = none ∧ written.images.map (·.addr) = [0x100000] := by decide +kernel
/-- An image at 0x100000 that is to be loaded into slot 0 of the shadow bank. -/
def loadJob : SwapJob := { issuer := sK, strand := 0, incoming := 0x4000, outgoing := 0x8000, writing := [], loading := [0, 1] }
def loadImage : CtxImage := { addr := 0x100000, key := 16384 + 32768 * 33, part := 1, ctx := tCtx .u }
def loadSt : State := { strandSt with ctxs := [(sK, gCtx)], swaps := [loadJob], images := [loadImage] }
/-- Its reserved bytes are 0: memory lists two bytes, elsewhere. -/
theorem load_check : loadCheck loadSt sK loadImage = true := by
  have h : ∀ a, a ≠ 0x4002 → a ≠ 0x8002 → Memory.read loadSt.mem a = 0 := fun a h1 h2 => by
    simp [Memory.read, loadSt, strandSt, Map.get, h1, h2, Memory.unlisted]
  have hc : loadSt.ctx? sK = some gCtx := by decide +kernel
  unfold loadCheck
  simp only [hc]
  rw [Bool.and_eq_true, Bool.and_eq_true]
  refine ⟨⟨by decide +kernel, ?_⟩, ?_⟩ <;>
  · rw [List.all_eq_true]
    intro j _
    rw [h _ (by simp [loadImage]; omega) (by simp [loadImage]; omega)]; rfl
def spillSt : State := { plSt with cur := some sK, ctxs := [(0, { qCtx with firing := none }), (sK, gCtx.wg 21 0)], tileOwner := [(0, 2)] }
theorem test_spillq : ((after (exec (.spillqSave (tS 9 21 20)) spillSt)).queue? 1 1 0).map (fun q => (q.fifo, q.credits)) = some ([], 8) := by decide +kernel
def gangSt : State := { gBase with parts := [(1, { isOpen := true, gang := some (1000, 500) })], ptp := 1000 }
theorem test_gang : (after (execGangSliceInstant 1 gangSt)).parts.map (fun e => e.2.gangDone) = [1] ∧ (after (execPtpLockLoss gangSt)).irqs = [.lockLoss] := by decide +kernel
theorem test_switch_deadline : (ctx0 (execFullSwitchDeadline 0 { switchSt with ticks := 100 })).firing = none := by decide +kernel
theorem witness_Switching : Issuing strandSt sK gCtx tFir ∧ gCtx.priv ≠ .u ∧ strandSt.noAccess sK ∧ Operands strandSt sK gCtx [sA swX, sB .g swX, sD swX] [] ∧
    ((gCtx.rg 20).toNat % 128 = 0 ∧ (gCtx.rg 22).toNat % 128 = 0 ∧ Map.get 0 strandSt.tileOwner 0 = gCtx.part + 1 ∧ sameStrand sK (strandKey 0) = false ∧ Map.risesFrom 0 strandSt.ctxs = true) ∧
    (match graphAt spillSt sK (gCtx.wg 21 0) 0 with
      | .ok (_, some g) => g.handle == 1 && !spillSt.spillBusy 1 && (spillSave spillSt sK (gCtx.wg 21 0) g 0 0x8000).2.toOption.isSome
      | _ => false) = true ∧ (spillSt.queues.all fun q => q.transit.isEmpty) = true :=
  ⟨⟨rfl, by decide +kernel, by decide +kernel, rfl⟩, by decide +kernel, by unfold State.noAccess; decide +kernel,
    sOperands _ _ ⟨rfl, by decide +kernel, rfl⟩ ⟨by decide +kernel, rfl, by decide +kernel, rfl⟩ rfl _ _, by decide +kernel⟩
theorem witness_Switching_events : (switchSt.fullSwitches.map fun w => (w.tile, w.deadline)) = [(0, 100)] ∧
    ((swapped.swaps.find? fun j => j.strand == 0 && !j.writing.isEmpty).map fun j => (j.writing.head?, j.masks.isEmpty)) = some (some 0, true) ∧
    ((swapped.ctx? 16384).map fun c => c.leases) = some [] ∧ swapped.mayWriteOut 16384 = true ∧ issuerWord swapped sK 0x8000 = .ok 0x100000 ∧
    imagePlace swapped sK 0x100000 32768 .w = .ok 0x100000 ∧ swapped.heldEngines 16384 = [] ∧
    (loadSt.safeLoad 0).isNone = true ∧ issuerWord loadSt sK 0x4000 = .ok 0x100000 ∧ imagePlace loadSt sK 0x100000 32768 .r = .ok 0x100000 ∧
    ((loadSt.images.find? fun i => i.addr == 0x100000).map fun i => (i.leases.isEmpty, loadSt.leasesBack i.key)) = some (true, true) ∧
    loadSt.ctx? 16384 = none ∧ inShadow 16384 = true ∧ (gangSt.part 1).gang = some (1000, 500) := by decide +kernel

/-! ## Power, errors and checkpoints -/

def clSt (c : Cluster) : State := { State.reset with clusters := [(0, c)], ticks := 20000 }
def clAfter (r : Result) : Cluster := (after r).cluster 0
/-- The handshake block: QUIESCE in ON, refused in RAILOFF with code 1 and while busy with code 2; HANDOFF in QUIESCED. -/
theorem test_cluster_operations : (clAfter (execQuiesce 0 (clSt onCluster))).op = some .quiesce ∧ (clAfter (execQuiesce 0 State.reset)).errcode = 1 ∧
    (clAfter (execQuiesce 0 (clSt { onCluster with op := some .handoff }))).errcode = 2 ∧ (clAfter (execHandoff 0 (clSt { onCluster with state := .quiesced }))).op = some .handoff := by
  decide +kernel
theorem test_cluster_ends : (clAfter (execQuiesceEnd 0 (clSt { onCluster with op := some .quiesce }))).state = .quiesced ∧
    (clAfter (execClpmOperationEnd 0 (clSt { onCluster with state := .away, op := some .clkgate }))).state = .clkoff ∧
    (clAfter (execRailPgood 0 (clSt { onCluster with state := .railoff, op := some .railOn, pgood := false, opSince := 19000 }))).state = .clkoff ∧
    (clAfter (execFllLockTimeout 0 (clSt { onCluster with state := .clkoff, op := some .clkungate }))).errcode = 4 := by decide +kernel
theorem test_wake : (clAfter (execWakeRing 0 1 State.reset)).op = some .railOn ∧ (clAfter (execRetentionSave 0 (clSt { onCluster with state := .away }))).retBusy = some true ∧
    (clAfter (execRetentionSave 0 (clSt onCluster))).retRefused = true := by decide +kernel
/-- A cluster in each state, busy and idle, with a lock and without. -/
theorem witness_ClusterPower : Map.risesFrom 0 (clSt onCluster).clusters = true ∧ (clSt onCluster).cluster 0 = onCluster ∧ onCluster.busy = false ∧
    ({ onCluster with op := some .handoff } : Cluster).busy = true ∧ (20 ≤ onCluster.vset ∧ onCluster.vset ≤ 100 ∧ onCluster.en = true) ∧ State.reset.clusters.length = 0 ∧
    (State.reset.cluster 0).en = false ∧ (clSt onCluster).clusterEmpty 0 = true ∧ (clSt onCluster).retiredWays 0 ≤ 12 ∧
    ({ clSt onCluster with ctxs := [(0, tCtx .u)] } : State).clusterEmpty 0 = false ∧ onCluster.waking = false ∧ onCluster.ringPending = false ∧
    (clSt { onCluster with op := some .railOn }).ticks ≥ 0 + 10000 := by decide +kernel
theorem test_vset_target : (clAfter (execVsetWrite 0 19 (clSt onCluster))).errcode = 6 ∧ (clAfter (execVsetWrite 0 100 (clSt { onCluster with en := false }))).vset = 100 ∧
    (clAfter (execFllTargetWrite 0 53 (clSt onCluster))).errcode = 6 ∧ (clAfter (execFllTargetWrite 0 52 (clSt onCluster))).target = 52 := by decide +kernel
theorem test_steps : (clAfter (execRailSlewStep 0 (clSt { onCluster with railCode := 59 }))).railCode = 60 ∧ (clAfter (execFllStep 0 (clSt onCluster))).current = 1 ∧
    (clAfter (execDroopSag 0 (clSt { onCluster with current := 42 }))).droopSteps = 1 := by decide +kernel
theorem test_package_power : (after (execPmbudgetWrite 2000 State.reset)).budget = 1600 ∧ (after (execWatchdogExpiry { State.reset with running := true, ticks := 1000000 })).expired = true ∧
    (after (execThermalTrip 0 (clSt onCluster))).hot.getLsbD 0 = true ∧ (clAfter (execWayGate 0 (clSt onCluster))).waysOn = 15 := by decide +kernel
theorem witness_PowerRegisters : (bits (19 : Word).toNat 6 0 < 20 ∧ 20 ≤ bits (20 : Word).toNat 6 0 ∧ 52 < bits (53 : Word).toNat 5 0 ∧ bits (52 : Word).toNat 5 0 ≤ 52) ∧
    (onCluster.en = true ∧ onCluster.state ≠ .railoff ∧ onCluster.railStep + 10 ≤ 20000 ∧ onCluster.railCode < onCluster.vset) ∧ onCluster.clocked = true ∧
    (onCluster.current < onCluster.target - onCluster.droopSteps ∧ onCluster.fllStep + 50 ≤ 20000 ∧ onCluster.stretch = false) ∧
    (State.reset.cluster 0).railStep + 10 > State.reset.ticks ∧ (clSt onCluster).hot.getLsbD 0 = false ∧
    ({ State.reset with running := true, ticks := 1000000 } : State).kickedAt + 1000000 ≤ 1000000 ∧ (onCluster.minWays < onCluster.waysOn ∧ onCluster.wgEn = true) := by decide +kernel

/-- A unit word of type 1 and one of type 5. -/
theorem test_errors : (after (execErrorLogRecord 0 1 0x11 0x40 State.reset)).testDue = [0x11] ∧ (after (execErrorLogRecord 0 1 0x11 0x40 State.reset)).records.map (·.target) = [kF] ∧
    (after (execSelfTest 0x11 { State.reset with testDue := [0x11] })).testing = [0x11] ∧
    (after (execSelfTestEnd 0x11 true { State.reset with testing := [0x11] })).retired = [] ∧ (after (execSelfTestEnd 0x11 false { State.reset with testing := [0x11] })).retired = [0x11] := by
  decide +kernel
/-- After seven failures the eighth of the same flit brings the test; the first of another one counts 1. -/
def flitSt : State := { State.reset with flitRetries := [(3, 7)] }
theorem test_flit_retries : if flitSt.drawChoice.1 then (after (execLinkFlitRetry 3 flitSt)).testDue = [unitWord 5 3 0] else
    (after (execLinkFlitRetry 3 flitSt)).flitRetries = [(3, 1)] := by
  unfold execLinkFlitRetry runEvent State.drawChoice
  generalize Config.freeChoice = f
  cases h : f flitSt.drawn <;> simp only [h] <;> rfl
theorem test_resets : (after (execDeviceReset uSt)).ctxs = [] ∧ (after (execWarmReset { uSt with mem := [(1, 1)] })).mem = [(1, 1)] ∧
    (after (execFirmwarePush 0x1000 0x4000001 false State.reset)).mgmt.why = 3 ∧ (after (execFirmwarePush 0x1000 0x1000 false State.reset)).mgmt.busy = true := by decide +kernel
def busyCkpt (restore : Bool) : State := { State.reset with mgmt := { State.reset.mgmt with ckptBusy := true, ckptRestore := restore }, safe := [safeImage] }
where safeImage : SafeImage :=
  { base := 0, mask := 0, digest := 0, ranges := [], pages := [(0x5000, 7)], bad := [], parts := [], asids := [], bindings := [], graphs := [], subqs := [], queues := [], shadows := [],
    contexts := [], tileOwner := [], bankModes := [], scratch := [], holds := [] }
theorem test_checkpoints : (after (execCheckpointSave 0 0 (busyCkpt false))).mgmt.ckptErrcode = 1 ∧ (after (execCheckpointEnd (busyCkpt false))).mgmt.ckptDone = true ∧
    Memory.read (after (execCheckpointEnd (busyCkpt true))).mem 0x5000 = 7 := by decide +kernel
/-- Whichever values the boot ROM and the safe tier give, a busy ROM ends in one of the two ways and a tier is reached or not. -/
theorem witness_ErrorsAndCheckpoints : (0x11 ∈ ({ State.reset with testDue := [0x11] } : State).testDue ∧ unitType 0x11 ≠ 2) ∧ Map.get 0 State.reset.flitRetries 3 < 7 ∧
    (State.reset.mgmt.busy = false ∧ State.reset.mgmt.ckptBusy = false ∧ 2 ^ 26 < 0x4000001) ∧ Map.risesFrom 0 State.reset.flitRetries = true ∧
    (after (execFirmwarePush 0x1000 0x1000 false State.reset)).mgmt.busy = true ∧ (busyCkpt true).mgmt.ckptBusy = true ∧
    (busyCkpt false).tilesStopped ((busyCkpt false).tilesOf ((busyCkpt false).maskParts (busyCkpt false).mgmt.ckptMask.toNat)) = true ∧
    ((busyCkpt true).safe.find? fun i => i.base == (busyCkpt true).mgmt.ckptBase).isSome = true ∧ Memory.wf ((busyCkpt true).safe.headD busyCkpt.safeImage).pages = true ∧
    ((busyCkpt true).safe.find? fun i => i.base == 0 / 4096 * 4096).map (·.digest) = some (busyCkpt true).fwdigest := by decide +kernel

/-! ## Speculative firings (R126 to R134) -/

/-- A context whose firing is in flight and whose entry 0 stays eligible; behind it a speculative firing that has executed END. -/
def specCtx : Ctx := { readyCtx with firing := some { tHeld with serial := 40 } }
def specRef : BindRef := { asid := 1, slot := 0, gen := 1 }
def specOn : State := { readySt with
  ctxs := [(0, specCtx)], cur := some 0, fresh := 60
  specs := [{ key := 0, start := 8, ref := specRef, view := { readyCtx with firing := some { pc := 8, serial := 50, entry := 0, refs := [specRef] } }, queues := [], shadows := [], ended := true }] }
theorem test_speculative_dispatch : (after (exec (.firingDispatch 0) specOn)).specs.map (fun x => (x.start, x.ended)) = [(8, true), (8, false)] ∧
    ((after (exec (.firingDispatch 0) specOn)).ctx? 0).map (·.firing) = some specCtx.firing := by decide +kernel
/-- END: the speculative firing goes on as the committed one, or is squashed where its entry is not the one selected (R127). -/
theorem test_commit_and_squash : (ctx0 (exec (.endFiring (RForm.ofWord 0)) specOn)).firing.map (fun f => (f.pc, f.serial)) = some (8, 50) ∧
    (ctx0 (exec (.endFiring (RForm.ofWord 0)) { specOn with ctxs := [(0, { specCtx with guards := [] })] })).firing = none := by decide +kernel
theorem witness_LaunchesAndFirings_speculative : oldest (specOn.candidates 0) = some (0, specCtx, 0) ∧ specCtx.firing ≠ none ∧ specOn.boundNow 1 (cpSlot 8) = some tBind ∧
    specOn.specsOf 0 ≠ [] ∧ specOn.cur = some 0 := by decide +kernel

/-! ## Homes and slices (R198, R243 to R245) -/

/-- Line 13 of die 1 has its home in cluster 12 + 13 mod 12; while that cluster is away the die's backstop is the home. -/
theorem test_home : homeCluster (2 ^ 36 + 13 * 128) = 13 ∧ State.reset.homeOf (2 ^ 36 + 13 * 128) = .backstop 1 ∧
    (State.reset.setCluster 13 { State.reset.cluster 13 with homeaway := false }).homeOf (2 ^ 36 + 13 * 128) = .slice 13 := by decide +kernel
/-- A read of sector 1 of line 2 fills it and misses once; a write from another cluster takes the sector away. -/
def slicedSt : State := State.reset.sliceAccess 0 0x120 false
theorem test_slice : (Map.find? slicedSt.slices (sliceKey 0 0x120)).map (fun l => (l.held, l.dirty)) = some (2, 0) ∧ (slicedSt.cluster 0).misses = 1 ∧
    ((slicedSt.sliceAccess 0 0x120 false).cluster 0).misses = 1 ∧ Map.find? (slicedSt.sliceAccess 8 0x120 true).slices (sliceKey 0 0x120) = none := by decide +kernel

/-! ## What the other clauses meet -/

/-- A handler address that is not a multiple of 8; a record whose bank has been switched away. -/
def oddSt : State := { dueSt with ctxs := [(0, { dueCtx with trapvec := 20 })] }
def cutSt : State := { copySt with copies := copySt.copies.map fun r => { r with cut := some 0x55 } }
theorem test_handler_misaligned : ((ctx0 (exec (.trapHandlerDispatch 0) oddSt)).frames.head?).map (·.cause) = some cAlignment := by decide +kernel
theorem test_copy_cut : (after (exec (.copyRecordCompletion (copyId cutSt)) cutSt)).copies = [] ∧ (after (exec (.copyRecordCompletion (copyId cutSt)) cutSt)).mem = cutSt.mem := by decide +kernel
/-- Uncorrectable errors of a memory device, of v5 and of the state of the one context of tile 0 (R404, R405); an instruction that reads a failing register
traps, and one that writes it makes it good. -/
def badSt : State := tState { tCtx .u with gBad := 1 <<< 20 }
theorem test_error_strikes : (after (exec (.errorLogRecord 0 1 3 0x1020) State.reset)).badSectors = [0x81] ∧ (after (exec (.errorLogRecord 0 0 3 0x1020) State.reset)).badSectors = [] ∧
    (ctx0 (exec (.errorLogRecord 0 1 0 0x105) (tState (tCtx .u)))).vBad = 32 ∧ (ctx0 (exec (.errorLogRecord 0 1 7 0) (tState (tCtx .u)))).parked = true ∧
    (after (exec (.errorLogRecord 0 1 7 0) (tState (tCtx .u)))).records.map (·.target) = [supervisorOf (tCtx .u).part, firmwareOf 0] := by decide +kernel
theorem test_failing_register : (ctx0 (exec (.mov { RForm.ofWord 0 with d := 9, a := 20 }) badSt)).trapcause = 8 ∧
    (ctx0 (exec (.mov { RForm.ofWord 0 with d := 20, a := 9 }) badSt)).gBad = 0 := by decide +kernel
theorem witness_ErrorsAndCheckpoints_errors : ((tState (tCtx .u)).ctxs.map fun e => e.1).filter (fun k => tileOf k == unitPlace 7) = [0] ∧
    (tState (tCtx .u)).ctx? 0 = some (tCtx .u) ∧ (tCtx .u).priv ≠ .f ∧ (tCtx .u).parked = false := by decide +kernel
def bankSt : State := { State.reset with bankModes := [(24 * 3 + 9, 2)] }
theorem test_bank_error : bankSt.bankMode (unitPlace 0x12031) (unitPart 0x12031) = 1 ∧
    (after (exec (.errorLogRecord 0 1 0x12031 0x55) bankSt)).badSectors = [2 ^ 47 + bankKey 3 9 0x55 / 32] := by decide +kernel
/-- PROGRESS of doorbell 7, and MW_FWLEN, which keeps 32 bits (R207, R415). -/
def progSt : State := { gBase with subqs := [{ hostQ with snapHead := 77, snapResident := true }] }
theorem test_host_registers : (after (exec (.hostRead (2 ^ 55 + 2 ^ 19 + 8 * 7) 8) progSt)).hostResp = .data [77, 0, 0, 0, 1, 0, 0, 0] ∧
    (after (exec (.hostWrite (2 ^ 56 + 0x010) (leBytes 8 0xFEDCBA9876543210)) progSt)).mgmt.word 0x010 = 0x76543210 := by decide +kernel
theorem test_push_waits : (after (exec (.firmwarePush 0x100 55 true) (busyCkpt false))).mgmt.pushWaits = some (0x100, 55) := by decide +kernel
/-- A trap with a known result and a load in flight: the one is written, the other becomes a replay entry (R385). -/
def flightSt : State := { tState { tCtx .u with trapvec := 16 } with
  ops := [{ id := 3, ctx := 0, serial := tFir.serial, word := 1, pc := 8, kind := .value 77 [], dstG := [9] },
    { id := 4, ctx := 0, serial := tFir.serial, word := 2, pc := 16, kind := .load, addr := 0x100, dstG := [8] }] }
theorem test_trap_in_flight : (((flightSt.trapped 0 tFir (.add (RForm.ofWord 0)) tArith).ctx? 0).map fun c => (c.rg 9, c.frames.map fun f => f.entries.map (·.word))) = some (77, [[2]]) := by
  decide +kernel

/-! ## What the clauses on transfers, banks and vector accesses meet -/

theorem witness_StepRunsDecoded_firing : tLoadedFir.ahead = 0 ∧ tLoadedFir.pc.getLsbD 63 = false ∧
    ({ State.reset with inputs := [.forget 0 1 0] } : State).inputs = .forget 0 1 0 :: [] := by decide +kernel
theorem witness_GuardOffSkips_user : Issuing uSt 0 (tCtx .u) tFir ∧ (Claims.privOf (.add { tR 9 1 2 7 with kg := 3 })).level ≤ (tCtx .u).priv.level ∧
    ((tCtx .u).rk 3).getLsbD 0 = false := ⟨issuing_base _ rfl, by decide +kernel⟩
/-- A code pointer that is no multiple of 8, one into a slot without a binding, and targets beyond the binding, by a register and by an offset. -/
theorem witness_FaultsAtIssue_transfers : Claims.refuses tBound boundCtx tHeld (ptrTarget (boundCtx.rg 1)) { cause := cAlignment, free := true } ∧
    Claims.refuses uSt (tCtx .u) tFir (ptrTarget ((tCtx .u).rg 20)) { cause := cModuleAbsent, free := true } ∧
    Claims.refuses tBound boundCtx tHeld (ptrTarget (boundCtx.rg 4)) { cause := cProtection, info := (ptrTarget (boundCtx.rg 4)).ptr } ∧
    Claims.refuses tBound boundCtx tHeld (Claims.relative tHeld (tJ 0 8)) { cause := cProtection, info := (Claims.relative tHeld (tJ 0 8)).ptr } ∧
    Claims.refuses tBound boundCtx tHeld (relTarget tHeld.pc 0x40) { cause := cProtection, info := (relTarget tHeld.pc 0x40).ptr } := by
  refine ⟨.inl (by decide +kernel), .inr (.inl (by decide +kernel)), .inr (.inr ⟨tBind, by decide +kernel⟩), .inr (.inr ⟨tBind, by decide +kernel⟩),
    .inr (.inr ⟨tBind, by decide +kernel⟩)⟩
/-- A CACHE bank of a tile with a byte that it has stored, a SCRATCH bank, and a bank in the mode that is asked for. -/
theorem witness_BankSwitches_switch : Map.risesFrom 0 dirtySt.bankModes = true ∧ dirtySt.bankMode 0 0 = 0 ∧ Memory.wf dirtySt.mem = true ∧
    Map.risesFrom 0 dirtySt.tileCache = true ∧ dirtySt.cached? 0 0x2000 = some (0x5A, true) ∧ aSt.bankMode 0 8 = 1 ∧ aSt.bankMode 0 8 ≠ 0 ∧
    aSt.busyUnits.contains (unitWord 1 0 8) = false := by decide +kernel
/-- VST of 64 halfwords to memory, of a context with ways and of one without; its bytes are v1's. -/
def vstSt : State := after (exec (.vst (tM 1 4 5)) pSt)
def vstWays : State := after (exec (.vst (tM 1 4 5)) fSt)
theorem test_vst : Memory.readBytes (after (exec (.postedWriteArrival (op1 vstSt).id) vstSt)).mem 0x1000 8 = [1, 0, 2, 0, 3, 0, 4, 0] ∧
    (after (exec (.postedWriteArrival (op1 vstWays).id) vstWays)).mem = [] ∧
    (after (exec (.postedWriteArrival (op1 vstWays).id) vstWays)).seenByte 0 0x1002 = 2 := by decide +kernel
theorem witness_StoresAndAtomicsAct_vector : Claims.due vstSt (op1 vstSt).id (op1 vstSt) (ctxF (.next vstSt)) ∧ (op1 vstSt).kind = .store ∧ (op1 vstSt).ord = 0 ∧
    1 ≤ bits (op1 vstSt).word.toNat 55 50 ∧ (op1 vstSt).pas.length = (storePieces (op1 vstSt)).length ∧ (∀ pa ∈ (op1 vstSt).pas, pa + 8 ≤ 2 ^ 52) ∧
    vstSt.hasWays (tileOf kF) = false ∧ vstWays.hasWays 0 = true :=
  ⟨⟨by decide +kernel, by decide +kernel⟩, by decide +kernel⟩
/-- ST to the aperture, at a bank without a buffer and at the head of one that is ACTIVE. -/
def apSt : State := after (exec (.st (tM 1 20 7)) aSt)
def apArmed : State := after (exec (.st (tM 1 20 7)) { aSt with scratch := armedSt.scratch, holds := armedSt.holds })
theorem witness_StoresAndAtomicsAct_aperture : Claims.due apSt (op1 apSt).id (op1 apSt) (ctx0 (.next apSt)) ∧ (op1 apSt).kind = .store ∧ (op1 apSt).pas = [2 ^ 60] ∧
    placeOf apSt 0 (ctx0 (.next apSt)) (op1 apSt).addr 8 .w = .ok (.bank 0 8 0) ∧ bankChecks apSt 0 (op1 apSt).addr 0 8 = .ok () ∧ Map.risesFrom 0 apSt.scratch = true ∧
    bufferProtected apSt 0 8 0 8 = false ∧ bufferProtected apArmed 0 8 0 8 = true :=
  ⟨⟨by decide +kernel, by decide +kernel⟩, by decide +kernel⟩
/-- VLD of halfwords and VLDX of lanes from memory. -/
def vldSt : State := after (exec (.vld (tM 9 4 5)) (memSt [(0x1000, 7), (0x1003, 9)]))
def vldxSt : State := after (exec (.vldx { tM 9 4 6 with idx := 20 }) (memSt [(0x1000, 7)]))
theorem test_vld : (ctxF (exec (.longLatencyResult (op1 vldSt).id) vldSt)).rv 9 = 0x0000000009000007 ∧
    (ctxF (exec (.longLatencyResult (op1 vldSt).id) vldSt)).emptyV 9 = false := by decide +kernel
theorem witness_StoresAndAtomicsAct_loads : Claims.due vldSt (op1 vldSt).id (op1 vldSt) (ctxF (.next vldSt)) ∧ (op1 vldSt).kind = .load ∧ (op1 vldSt).ord = 0 ∧
    bits (op1 vldSt).word.toNat 55 50 = 1 ∧ inAperture (op1 vldSt).addr = false ∧
    ((activeElems 5 (op1 vldSt).mask).all fun e => decide (placeOf vldSt kF (ctxF (.next vldSt)) (0x1000 + e.2) 2 .r = .ok (.dram (0x1000 + e.2))) && !vldSt.dramBad (0x1000 + e.2) 2) = true ∧
    bits (op1 vldxSt).word.toNat 55 50 = 2 ∧
    ((activeLanes (op1 vldxSt).mask).all fun l => decide (placeOf vldxSt kF (ctxF (.next vldxSt)) (laneAddr ((op1 vldxSt).opB.extractLsb' 0 64) (op1 vldxSt).opC 0 l) 4 .r = .ok (.dram 0x1000))) = true :=
  ⟨⟨by decide +kernel, by decide +kernel⟩, by decide +kernel⟩
theorem witness_CounterArithmetic_read : (op1 readSt).dstG = [9] ∧ (op1 readSt).dstV = [] ∧ Map.risesFrom 0 seqSt.scratch = true := by decide +kernel
/-- A shootdown of the context's own ASID, whose counter is found by a walk once the translations have gone. -/
def shootSt : State := after (exec (.tlbinvAsid { tS 20 0 1 with imm := 1 }) { pageSt with tlb := mapTlb, ctxs := [(sK, gCtx.wg 1 1)] })
theorem test_shootdown : (after (exec (.tlbinvCompletion (op1 shootSt).id) shootSt)).tlb = [] ∧
    Memory.readBytes (after (exec (.tlbinvCompletion (op1 shootSt).id) shootSt)).mem 0x8000 1 = [1] := by decide +kernel
theorem witness_TranslationAndBindingEvents_shootdown : Claims.due shootSt (op1 shootSt).id (op1 shootSt) (ctxS (.next shootSt)) ∧ (op1 shootSt).kind = .tlbinv ∧
    (shootSt.ops.any fun p => shootSt.usesOld (op1 shootSt) p) = false ∧
    (agentAdd (State.writeBackAll { shootSt with tlb := shootSt.tlb.filter fun e => !covers (op1 shootSt) e }) sK (ctxS (.next shootSt)) (op1 shootSt).addr 1).toOption.isSome = true :=
  ⟨⟨by decide +kernel, by decide +kernel⟩, by decide +kernel⟩
/-- A retry that faults again, for the second and for the fifth time; the issuer of an ATOM has room for a pending fault. -/
def repEntry : RepairEntry := (repSt.repair? 0 0).getD { op := op1 divSt, cause := 0, info := 0, syndrome := 0, faults := 0, since := 0 }
def repFive : State := { repSt with repairs := repSt.repairs.map fun r => (r.1, r.2.1, { r.2.2 with faults := 4 }) }
theorem test_fifth_fault : (after (exec (.repairRetry 0 0) repSt)).repairs.map (fun r => r.2.2.faults) = [2] ∧ (after (exec (.repairRetry 0 0) repFive)).repairs = [] ∧
    (ctx0 (exec (.repairRetry 0 0) repFive)).pending.map (·.cause) = [cAtomicUnrepairable] ∧ (after (exec (.repairRetry 0 0) repSt)).records.length = repSt.records.length + 1 := by
  decide +kernel
theorem witness_BlendingAndRepair_faults : repSt.repair? 0 0 = some repEntry ∧ repSt.ctx? repEntry.op.ctx = some (ctx0 (.next repSt)) ∧ repEntry.faults < 4 ∧
    (match performAtomic repSt repEntry.op (ctx0 (.next repSt)) with | .error t => diverts t.cause | .ok _ => false) = true ∧ repEntry.op.isAtom = true ∧
    (ctx0 (.next repSt)).pending.length < 4 ∧ ((repFive.repair? 0 0).map fun e => e.faults) = some 4 := by decide +kernel

/-! ## What the clauses on leases, engines and launches meet -/

/-- Nothing waits before a LEASE with CND 1; the one LEASE in flight gets the handle; a lease that was not freed ends with its grace period. -/
theorem witness_LeaseEvents_handle : (lSt.grantDue lSt.requests.length []).2 = [] ∧
    ((grantSt.ops.filter fun o => match o.kind with | .handle _ i => i == 3 | _ => false).map fun o => (o.ctx, o.dstG, o.dstV)) = [(0, [9], [])] ∧
    (lSt.engine 1).freed = false ∧ (lSt.engine 1).cmds = [] ∧ (lSt.engine 1).power = .lit := by decide +kernel
/-- A TRACE whose record has one result left when the grace period ends. -/
def lateSt : State := { lSt with engines := [(8, { noticeEngine with cmds := [{ tCmd with tokens := some [f32Tok] }] })], ticks := 800 }
theorem test_grace_finishes_record : ((after (exec (.gracePeriodExpiry 8) lateSt)).engine 8).cmds.length = 1 ∧
    ((after (exec (.gracePeriodExpiry 8) lateSt)).engine 8).holder = none ∧ ((after (exec (.gracePeriodExpiry 8) lateSt)).engine 8).power = .lit := by decide +kernel
theorem witness_LeaseEvents_late : Claims.enginesRise lateSt ∧ (lateSt.engine 8).notice = some 800 ∧ (lateSt.engine 8).freed = false ∧ (lateSt.engine 8).holder = some 0 ∧
    (lateSt.engine 8).power = .lit ∧ tCmd.done < tCmd.count := ⟨by unfold Claims.enginesRise; decide +kernel, by decide +kernel⟩
theorem witness_EngineCommands_storage : ((cmdSt tCmd).engine 8).holder ≠ none ∧ (cmdSt tCmd).storageBusy = false ∧ ((cmdSt tCmd).engine 8).lost (cmdSt tCmd).ticks = false := by
  decide +kernel

/-- MXWR of the second register's worth of row 0: its elements take the place of columns 32 to 63, and column 1 stays. -/
def wrOp : MacroOp := mOp (.mxwr (tX 1 0 20 9 22 10 0)) (0x3F800000 * 2 ^ 64) 0x80
theorem test_mxwr : (((mAfter wrOp).row 1 0).take 36) = [0, 0x40000000] ++ List.replicate 32 0 ++ [0x3F800000, 0] := by decide +kernel
/-- An MXLDS behind an MXSTRM that streams, an MXTILE of sixteen rows of zeros with a constant α, and an MXRRED of segments of eight. -/
def fillSt : State := { mSt with engines := [(0, { mEngine with ops := [strmOp, { mOp (.mxlds (tX 0 0 20 22 21 0 10)) 0x2000 512 with id := 6 }] })] }
theorem test_mxlds_fills : ((after (exec (.mxRowGroupStep 0) fillSt)).engine 0).ops.map (·.step) = [0, 1] := by decide +kernel
def tileOp : MacroOp := mOp (.mxtile (tX 1 0 20 22 23 10 10)) 0x2000 16
theorem witness_MatrixActs_effects : wrOp.member = 6 ∧ wrOp.span = (0, 32, 32, 32) ∧ (mRun wrOp).op? wrOp.id = none ∧ mEngine.holder ≠ none ∧ (mRun wrOp).storageBusy = false ∧
    ((fillSt.engine 0).filler.map fun p => (p.id, p.step, p.ctx)) = some (6, 0, 0) ∧ strmOp.member = 2 ∧ fillSt.storageBusy = false ∧ ((mRun wrOp).engine 0).filler = none := by
  decide +kernel
theorem witness_MatrixActs_tile : tileOp.member = 3 ∧ tileOp.step < tileOp.steps ∧ tileOp.step + 1 ≠ tileOp.steps ∧ mEngine.active.fmt = some tileOp.form.tyb.toNat ∧
    tileOp.form.mod.getLsbD 3 = false ∧
    ((List.range 8).all fun r => match mxRow (mRun tileOp) 0 (tileOp.issuer mCtx) (0x2000 + r * rowBytes 10) 10 with | .ok codes => codes.length == 128 | .error _ => false) = true := by
  decide +kernel
/-- A macro-op MXRRED of one segment of 128 rows into a tile without a threshold. -/
def redOp : MacroOp := mOp (.mxrred { tX 3 1 20 0 0 0 0 with mod := 56 }) 0 0
/-- The first four rows of the tile summed into a row of zeros (R346). -/
theorem test_reduce_row : (reduceRow mEngine 1 (mEngine.fmtOf 1) { codes := List.replicate 128 0, bound := 0 } [[0, 1, 2, 3]]).codes.take 2 = [0, 0x40000000] := by decide +kernel
theorem witness_MatrixActs_reduce : redOp.member = 9 ∧ redOp.step = 0 ∧ mEngine.isPair 3 = mEngine.isPair 1 ∧
    (mEngine.reduce 3 1 (2 ^ bits redOp.form.mod.toNat 5 3) (redOp.form.mod.getLsbD 2)).1.firstExcess 3 (List.range (128 / 2 ^ bits redOp.form.mod.toNat 5 3)) = none := by
  decide +kernel
theorem witness_MatrixActs_rows : Map.risesFrom 0 mEngine.tiles = true ∧ (∀ e ∈ mEngine.tiles, Map.risesFrom 0 e.2.elems = true) ∧
    (List.replicate 128 0x40000000).length = 128 ∧ mEngine.isPair 1 = false ∧ (0x40000000 : Nat) < 2 ^ 32 := by decide +kernel

/-- A graph at rest with one instance that has neither a firing nor instructions in flight nor a lease; the queue has the launch of another graph running. -/
def restSt : State := { armReady with graphs := [testGraph], ctxs := [(sK, gCtx), (mkKey 0 3 7, { tCtx .u with firing := none, graph := 0x9001 })], queues := [{ qQ0 with graph := 0x9001, spill := false, fifo := [qTok] }] }
theorem test_gdrain_at_rest : (ctxS (exec (.gdrainGraph (tS 9 21 1)) restSt)).rg 9 = 1 ∧ ((after (exec (.gdrainGraph (tS 9 21 1)) restSt)).graph? 0x9001).map (·.state) = some .drained ∧
    (after (exec (.gdrainGraph (tS 9 21 1)) restSt)).instances 0x9001 = [] ∧ (after (exec (.gdrainGraph (tS 9 21 1)) restSt)).queues = [] := by decide +kernel
def abortSt : State := { restSt with graphs := [{ testGraph with running := some runLaunch }] }
theorem test_qabort_running : (after (exec (.gdrainQabort (tS 9 22 0)) abortSt)).graphs.map (fun g => g.running.map (·.aborted)) = [some true] ∧
    ((after (exec (.gdrainQabort (tS 9 22 0)) abortSt)).ctx? (mkKey 0 3 7)).map (·.aborted) = some true := by decide +kernel
theorem witness_GraphInstructions_rest : (match ownGraph restSt sK gCtx (gCtx.rg 21) with | .ok (_, some g) => g.state == .armed && g.running.isNone && g.handle == 0x9001 | _ => false) = true ∧
    Map.risesFrom 0 restSt.ctxs = true ∧ restSt.ops = [] ∧ (restSt.allInstances 0x9001).map (·.1) = [mkKey 0 3 7] ∧ mkKey 0 3 7 ≠ sK ∧ restSt.engines = [] ∧
    abortSt.launchedFrom 0x4000 = [0x9001] := by decide +kernel

/-- The armed graph of GARM with its start edge, whose launch waits in the window. -/
def startSt : State := { armedGraphSt with subqs := [{ qSubq with slot := some 1, window := [winLaunch] }] }
theorem test_start_token : (after (exec .launchDispatch startSt)).queues.map (fun q => (q.consumer, q.transit)) = [(mkKey 0 3 7, [startToken winLaunch (mkKey 0 3 7) 0])] := by decide +kernel
theorem witness_LaunchesAndFirings_start : (startSt.chosen.map fun x => (x.1.order, x.1.redundant)) = some (3, false) ∧
    (armedGraphSt.graphs.map fun g => (g.edgesWhere fun d => d.pact == 255).map fun e => (e.1, e.2.cact)) = [[(0, 0)]] ∧
    (startSt.allInstances 0x9001).map (fun e => (e.1, e.2.actor)) = [(mkKey 0 3 7, 0)] ∧ (startSt.queue? 0x9001 0 (mkKey 0 3 7)).isSome = true ∧ winLaunch.words.length = 16 := by
  decide +kernel
/-- An end that waits: a diverted atomic of an instance stands in the repair queue; a firing of an aborted launch runs. -/
def heldEnd : State :=
  { endSt with ctxs := [(0, { ctx0 (.next repSt) with graph := 0x9001 }), (sK, gCtx)], repairs := repSt.repairs }
def runEnd : State := { endSt with graphs := [{ testGraph with running := some { winLaunch with aborted := true } }], ctxs := [(0, { tCtx .u with graph := 0x9001 }), (sK, gCtx)] }
theorem witness_LaunchesAndFirings_end : heldEnd.unsettled 0x9001 = true ∧ endSt.unsettled 0x9001 = false ∧ runEnd.unsettled 0x9001 = false ∧ runEnd.firingRuns 0x9001 = true ∧
    limitSt.unsettled 0x9001 = false ∧ winLaunch.replayDue = false ∧ winLaunch.aborted = false := by decide +kernel
theorem test_launch_end_waits : (after (exec (.launchEnd 0x9001) heldEnd)).graphs.map (·.running.isSome) = [true] ∧
    (after (exec (.launchEnd 0x9001) runEnd)).graphs.map (·.running.isSome) = [true] := by decide +kernel
/-- A producer that has its pair already. -/
def pairedSt : State := { pairSt with graphs := [{ mGraph with pairs := [(0, 0, 16)] }] }
theorem test_paired_stays : after (exec (.templateRewrite 0) pairedSt) = pairedSt := by decide +kernel
theorem witness_LaunchesAndFirings_pairs : (pairSt.graph? 1).map (fun g => g.pairOf 0 0) = some none ∧ (pairedSt.graph? 1).map (fun g => g.pairOf 0 0) = some (some 16) := by decide +kernel

/-! ## What the clauses on copies, address spaces, traps, power and errors meet -/

theorem witness_CopiesRun_storage : copySt.storageBusy = false ∧ portSt.storageBusy = false ∧ chainSt.storageBusy = false := by decide +kernel
theorem witness_AddressSpaces_shootdown : (∀ o ∈ pageSt.ops, o.ctx = sK → o.kind ≠ .tlbinv) ∧ fwSt.dramBad 0x4000 128 = false := by decide +kernel
theorem witness_TrapAndResume_room : tArith.park = false ∧ uSt.issueRoom 0 tFir ∧ (8 : Word).toNat % 2 ^ 52 % 8 = 0 ∧ dueSt.boundNow 1 (cpSlot 16) = some tBind :=
  ⟨by decide +kernel, by unfold State.issueRoom; decide +kernel, by decide +kernel, by decide +kernel⟩
/-- The handler of a firing that holds another generation of the slot refers to both bindings. -/
def olderSt : State := { dueSt with ctxs := [(0, { dueCtx with frames := [{ tFrame with firing := some { tHeld with refs := [{ asid := 1, slot := 0, gen := 0 }] } }] })] }
theorem test_handler_refs : (ctx0 (exec (.trapHandlerDispatch 0) olderSt)).firing.map (·.refs) = some [{ asid := 1, slot := 0, gen := 1 }, { asid := 1, slot := 0, gen := 0 }] := by
  decide +kernel
theorem witness_Switching_image : loadSt.badSectors = [] := rfl
/-- A RESTORE that ends after a rail cycle, with a translation in a tile of the cluster and one elsewhere; a rail that is good too late. -/
def retSt : State := { clSt { onCluster with state := .away, retBusy := some false } with tlb := mapTlb }
theorem test_restore_end : (after (exec (.retentionRestoreEnd 0) retSt)).tlb.map (·.tile) = [noTile, tileOf (supervisorOf 1)] := by decide +kernel
theorem test_late_rail : (clAfter (exec (.railPgood 0) (clSt { onCluster with state := .railoff, op := some .railOn, pgood := false, opSince := 15000 }))).op = some .railOn := by decide +kernel
theorem witness_ClusterPower_retention : Map.risesFrom 0 retSt.clusters = true ∧ (retSt.cluster 0).retBusy = some false ∧ (retSt.cluster 0).waking = false ∧
    (retSt.cluster 0).ringPending = false ∧ (retSt.cluster 0).state = .away ∧ (19000 : Nat) + 5000 > 20000 ∧ 15000 + 5000 ≤ 20000 := by decide +kernel
/-- A request that waits in a cluster of a hot die. -/
def hotSt : State := { reqSt with hot := 1 }
theorem test_hot_die : after (exec (.leaseGrant reqId) hotSt) = hotSt := by decide +kernel
theorem witness_PowerRegisters_hot : (hotSt.requests.find? fun q => q.id == reqId).isSome = true ∧ hotSt.hot.getLsbD (dieOfCluster 0) = true := by decide +kernel
/-- An uncorrectable error of a lane: every v register of the strand of the one context of tile 0 fails. -/
theorem test_lane_error : (ctx0 (exec (.errorLogRecord 0 1 4 0) (tState (tCtx .u)))).vBad = BitVec.allOnes 64 ∧
    (ctx0 (exec (.errorLogRecord 0 1 4 0) (tState (tCtx .u)))).gBad = 0 := by decide +kernel
theorem witness_ErrorsAndCheckpoints_lanes : ((tState (tCtx .u)).ctxs.map fun e => e.1).filter (fun k => tileOf k == unitPlace 4) = [0] ∧
    ({ State.reset with testing := [0x11] } : State).lastWalkers 0x11 = false ∧ Map.get 0 flitSt.flitRetries 3 + 1 = 8 := by decide +kernel

end Sys2Proof.Tests
end

section

namespace Sys2Proof.CounterProofs
open Sys2Proof Sys2Proof.Machine

/-! ## A result of 0 in a register table that lists its register twice -/

/-- A firmware context whose table of g registers is not canonical: it lists g9 twice. -/
def twiceCtx : Ctx := { priv := .f, asid := 1, part := 1, g := [(4, 0x1000), (9, 1), (9, 1)], gEmpty := 0x200 }

/-- MCREAD of the counter at 0x1000 into g9, in flight. -/
def readOp : Op :=
  { id := 0, ctx := firmwareOf 0, serial := 0, word := instrWord (.mcread { SForm.ofWord 0 with d := 9, a := 4 }), pc := 0,
    kind := .counterRead, dstG := [9], addr := 0x1000 }

/-- The machine after reset with that context as the first System Tile's firmware; its counter reads 0. -/
def twiceSt : State := { State.reset with ctxs := [(firmwareOf 0, twiceCtx)], ops := [readOp] }

theorem twiceSt_due : Claims.due twiceSt 0 readOp twiceCtx := ⟨by decide +kernel, by decide +kernel, by decide +kernel⟩

/-- The read at the counter's home succeeds, and the counter holds 0. -/
theorem twiceSt_reads_zero : ∃ t, performCounterRead twiceSt readOp twiceCtx = .ok (0, t) := by
  have value : (performCounterRead twiceSt readOp twiceCtx).toOption.map (·.1) = some 0 := by decide +kernel
  match h : performCounterRead twiceSt readOp twiceCtx with
  | .error e => simp [h, Except.toOption] at value
  | .ok (x, t) => exact ⟨t, by simpa [h, Except.toOption] using value⟩

/-- Writing 0, the default, removes the first entry of g9 alone; g9 then reads as the second. -/
theorem twiceCtx_deliver_zero : Map.get 0 (twiceCtx.deliver [9] [] 0 []).g 9 = 1 := by decide

end Sys2Proof.CounterProofs

open Sys2Proof Sys2Proof.Machine Sys2Proof.CounterProofs

/-- Refutes O31: the clause on MCREAD asks that the destination reads as the counter's value also where the context's table of g registers is not
canonical. In `twiceSt` g9 is listed twice, and the result 0, written by removing an entry, leaves the second entry: g9 reads 1. -/
theorem not_counterArithmetic : ¬ Obligations.CounterArithmetic := by
  unfold Obligations.CounterArithmetic Claims.counterEvents
  rintro ⟨-, -, events⟩
  obtain ⟨-, counterRead, -⟩ := events twiceSt 0
  obtain ⟨t, reads⟩ := twiceSt_reads_zero
  obtain ⟨-, c', -, -, -, -, table, register, -⟩ := counterRead readOp twiceCtx 0 t twiceSt_due rfl reads
  have readsZero : Map.get 0 c'.g 9 = 0 := (register 9 rfl rfl).1
  have readsOne : Map.get 0 c'.g 9 = 1 := (congrArg (Map.get 0 · 9) table).trans twiceCtx_deliver_zero
  exact absurd (readsZero.symm.trans readsOne) (by decide)

end

section

namespace Sys2Proof.Machine

/-! ## Operands that are not ready (R38) -/

theorem readSources_topTrapping {i : Instr} {a : Ask} {s : State} {key : Nat} {c : Ctx} {f : Firing} {r : Src} (h : topTrapping c a.srcs = some r) :
    readSources i a key c f s = .error (.trap { cause := cRegisterEmpty, info := regInfo (r.kind == .v) r.n }) := by
  unfold readSources
  rw [h]

theorem readSources_emptySource {i : Instr} {a : Ask} {s : State} {key : Nat} {c : Ctx} {f : Firing} {r : Src} (ht : topTrapping c a.srcs = none)
    (h : a.srcs.find? c.isEmptySrc = some r) : readSources i a key c f s = .error (.wait (.operand (r.kind == .v) r.n false)) := by
  unfold readSources
  rw [ht, h]

/-- An instruction whose operands are not ready ends with what check 5 of R76 answers, before its body. -/
theorem issueBody_unready {i : Instr} {a : Ask} {body : M Next} {s : State} {key : Nat} {c : Ctx} {f : Firing} {x : Exn} (h : Issuing s key c f)
    (hp : ¬ c.priv.level < a.priv.level) (hg : (c.rk a.kg).getLsbD 0 = true) (hx : readSources i a key c f s = .error x) :
    (issueBody i a body).run s = .error x := by
  unfold issueBody
  rw [M.run_bind_ok (run_curKey h.cur), M.run_bind_ok (run_curCtx h.cur h.ctx), M.run_bind_ok (run_curFiring h.cur h.ctx h.firing),
    M.run_bind_ok (M.run_get s)]
  simp only [hp, if_false, h.first, Bool.false_eq_true, Option.isSome_none, Bool.or_false, hg, Bool.or_true, if_true, hx]
  rfl

theorem runInstr_trapsOnEmpty {i : Instr} {a : Ask} {body : M Unit} {s : State} {key : Nat} {c : Ctx} {f : Firing} {r : Src} (h : Issuing s key c f)
    (hp : ¬ c.priv.level < a.priv.level) (hg : (c.rk a.kg).getLsbD 0 = true) (ht : topTrapping c a.srcs = some r) :
    runInstr i a body s = .next (s.trapped key f i { cause := cRegisterEmpty, info := regInfo (r.kind == .v) r.n }) := by
  unfold runInstr runControl
  rw [issueBody_unready h hp hg (readSources_topTrapping ht)]
  simp [conclude, h.cur, h.ctx, h.firing, h.first, State.trapped, issuePoint]

theorem runInstr_waitsOnEmpty {i : Instr} {a : Ask} {body : M Unit} {s : State} {key : Nat} {c : Ctx} {f : Firing} {r : Src} (h : Issuing s key c f)
    (hp : ¬ c.priv.level < a.priv.level) (hg : (c.rk a.kg).getLsbD 0 = true) (ht : topTrapping c a.srcs = none)
    (he : a.srcs.find? c.isEmptySrc = some r) :
    runInstr i a body s = .next (s.setStall key (.operand (r.kind == .v) r.n false)) := by
  unfold runInstr runControl
  rw [issueBody_unready h hp hg (readSources_emptySource ht he)]
  simp [conclude, h.cur]

/-- Of two sources the first, whose field stands higher, traps before the second. -/
theorem topTrapping_pair (c : Ctx) {a b : Src} (h : b.pos < a.pos) :
    topTrapping c [a, b] = if a.trap && c.isEmptySrc a then some a else if b.trap && c.isEmptySrc b then some b else none := by
  cases ha : a.trap && c.isEmptySrc a <;> cases hb : b.trap && c.isEmptySrc b <;> simp [topTrapping, ha, hb, h]

/-! ## The end of a wait at issue -/

theorem State.releaseStall_over {s : State} {key : Nat} {c : Ctx} {f : Firing} {p : Stall → Bool} (hc : s.ctx? key = some c) (hf : c.firing = some f)
    (hp : p f.stall = true) (ho : s.stallOver key c f.stall = true) :
    s.releaseStall key p = s.setCtx key { c with firing := some { f with stall := .none } } := by
  simp [State.releaseStall, hc, hf, hp, ho]

end Sys2Proof.Machine

namespace Sys2Proof.OperandProofs
open Sys2Proof Sys2Proof.Machine

/-- The ten members of MAJ 0x10 with two sources issue alike: they differ in their bodies alone. -/
theorem exec_intTwo (x : RForm) (a b : Word) (s : State) (p : Instr × Int) (hp : p ∈ Claims.intTwo x a b) :
    ∃ body, exec p.1 s = runInstr p.1 (rAsk x [rA .g x, rB .g x] [gDst x.d.toNat]) body s := by
  simp only [Claims.intTwo, List.mem_cons, List.not_mem_nil, or_false] at hp
  rcases hp with rfl | rfl | rfl | rfl | rfl | rfl | rfl | rfl | rfl | rfl <;> exact ⟨_, rfl⟩

theorem emptySources : Claims.emptySources := by
  intro s key c f x h hg p hp
  obtain ⟨body, run⟩ := exec_intTwo x 0 0 s p hp
  have priv : ¬ c.priv.level < (rAsk x [rA .g x, rB .g x] [gDst x.d.toNat]).priv.level := Nat.not_lt_zero _
  have top := topTrapping_pair c (a := rA .g x) (b := rB .g x) (by simp [rA, rB])
  have emptyA : c.isEmptySrc (rA .g x) = c.emptyG x.a.toNat := rfl
  have emptyB : c.isEmptySrc (rB .g x) = c.emptyG x.b.toNat := rfl
  rw [emptyA, emptyB] at top
  rw [run]
  refine ⟨fun ha ta => ?_, fun hb tb notA => ?_, fun ha ta notB => ?_, fun hb tb ha => ?_⟩
  · exact runInstr_trapsOnEmpty (r := rA .g x) h priv hg (top.trans (by simp [ha, ta]))
  · have skipA : ¬ ((rA .g x).trap && c.emptyG x.a.toNat) = true := by simpa [and_comm] using notA
    exact runInstr_trapsOnEmpty (r := rB .g x) h priv hg (top.trans (by rw [if_neg skipA]; simp [hb, tb]))
  · have skipB : ¬ ((rB .g x).trap && c.emptyG x.b.toNat) = true := by simpa [and_comm] using notB
    exact runInstr_waitsOnEmpty (r := rA .g x) h priv hg (top.trans (by rw [if_neg skipB]; simp [ta])) (by simp [rAsk, emptyA, ha])
  · exact runInstr_waitsOnEmpty (r := rB .g x) h priv hg (top.trans (by simp [ha, tb])) (by simp [rAsk, emptyA, emptyB, ha, hb])

theorem waitsAtIssueEnd : Claims.waitsAtIssueEnd := by
  intro s key c f hc hf ended free
  refine ⟨fun v n d hs => ?_, fun q n hs => ?_, fun q n hs => ?_⟩ <;>
    exact congrArg Host.Outcome.next (State.releaseStall_over hc hf (by rw [hs]) ended)

end Sys2Proof.OperandProofs

open Sys2Proof.OperandProofs

/-- Settles O34: check 5 of R76 answers before the body for all ten members alike, and each release clears exactly the wait of its kind. -/
theorem operandWaits : Obligations.OperandWaits := ⟨emptySources, waitsAtIssueEnd⟩

end

section

namespace Sys2Proof.Machine

/-! ## A completed instruction, whatever its body has put in its context -/

@[simp] theorem State.completed_setCtx (s : State) (key : Nat) (c c' : Ctx) : (s.setCtx key c).completed key c' = s.completed key c' := by
  simp [State.completed]

@[simp] theorem State.completed_issues (s : State) (e : Option ReplayEntry) (key : Nat) (c : Ctx) : (s.issues e).completed key c = s.completed key c := rfl

/-- The number that a body draws for an instruction in flight, and its record, do not depend on what issues. -/
@[simp] theorem State.completed_send_issues (s : State) (e e' : Option ReplayEntry) (key k : Nat) (f : Firing) (r : ReplayEntry) (kind : OpKind)
    (g v : List Nat) (addr scope ord : Nat) (c : Ctx) :
    ((s.issues e).send ((s.issues e').opOf k f r kind g v addr scope ord)).completed key c = (s.send (s.opOf k f r kind g v addr scope ord)).completed key c := rfl

/-! ## Addresses and captured operands of the M format (R65, R252) -/

theorem run_memAddr {s : State} {e : ReplayEntry} {ty a : Nat} {hasIdx : Bool} {disp : Int} (he : s.issuing = some e)
    (ha : effAddr ty ((e.op .b).extractLsb' 0 64) (if hasIdx then (e.op .c).extractLsb' 0 64 else 0) disp = some a) (aligned : a % tyBytes ty = 0) :
    (memAddr ty hasIdx disp).run s = .ok (a, s) := by
  unfold memAddr
  rw [M.run_bind_ok (run_opG he .b)]
  cases hasIdx with
  | true =>
    simp only [if_true] at ha ⊢
    rw [M.run_bind_ok (run_opG he .c)]
    simp [ha, aligned]
  | false =>
    simp only [Bool.false_eq_true, if_false] at ha ⊢
    rw [pure_bind, ha]
    simp [aligned]

/-- The base of an M-format instruction as its body reads it, whatever stands in its index field. -/
theorem captured_base (i : Instr) (x : MForm) {l : List Src} (kg : Nat) (c : Ctx) (f : Firing) (h : ∀ r ∈ l, r.slot ≠ .b) :
    ((captured i (mBase x :: l) kg c f).op .b).extractLsb' 0 64 = c.rg x.base.toNat :=
  (congrArg (BitVec.extractLsb' 0 64) (capture_op c _ (mBase x) l h)).trans (captured_word _)

theorem captured_index (i : Instr) (x : MForm) (kg : Nat) (c : Ctx) (f : Firing) (h : x.idx ≠ 0) :
    ((captured i (mBase x :: mIdx x) kg c f).op .c).extractLsb' 0 64 = c.rg x.idx.toNat := by
  rw [mIdx, if_neg h]
  exact (congrArg (BitVec.extractLsb' 0 64) (capture_op c _ { slot := .c, kind := .g, n := x.idx.toNat } [] (fun _ h => nomatch h))).trans (captured_word _)

theorem captured_vectorIndex (i : Instr) (x : MForm) (kg : Nat) (c : Ctx) (f : Firing) :
    (captured i [mBase x, mVIdx x] kg c f).op .c = c.rv x.idx.toNat :=
  capture_op c _ (mVIdx x) [] fun _ h => nomatch h

/-- The address of R252 is the one that the body of an M-format instruction forms from its captured sources. -/
theorem run_memAddr_captured {s : State} {c : Ctx} {f : Firing} {x : MForm} {a : Nat} (i : Instr) (ha : Claims.address c x a) :
    (memAddr x.ty.toNat (x.idx ≠ 0) (mDisp x)).run (s.issues (some (captured i (mBase x :: mIdx x) x.kg.toNat c f))) =
      .ok (a, s.issues (some (captured i (mBase x :: mIdx x) x.kg.toNat c f))) := by
  obtain ⟨effective, aligned⟩ := ha
  refine run_memAddr rfl ?_ aligned
  have noBase : ∀ r ∈ mIdx x, r.slot ≠ .b := by
    unfold mIdx
    split <;> simp
  rw [captured_base i x x.kg.toNat c f noBase]
  by_cases hidx : x.idx = 0
  · simpa [mDisp, hidx] using effective
  · simpa [mDisp, hidx, captured_index i x x.kg.toNat c f hidx] using effective

theorem run_gatherAlign_captured {s : State} {c : Ctx} {f : Firing} {x : MForm} (i : Instr)
    (aligned : ∀ l ∈ activeLanes (c.rk x.kg.toNat), laneAddr (c.rg x.base.toNat) (c.rv x.idx.toNat) x.disp.toInt l % 4 = 0) :
    (gatherAlign x).run (s.issues (some (captured i [mBase x, mVIdx x] x.kg.toNat c f))) =
      .ok ((), s.issues (some (captured i [mBase x, mVIdx x] x.kg.toNat c f))) := by
  have none : (activeLanes (c.rk x.kg.toNat)).find? (fun l => laneAddr (c.rg x.base.toNat) (c.rv x.idx.toNat) (mDisp x) l % 4 != 0) = none := by
    simpa [mDisp] using aligned
  unfold gatherAlign
  rw [M.run_bind_ok (run_opG rfl .b), M.run_bind_ok (run_opV rfl .c), M.run_bind_ok (run_opMask rfl), captured_mask, captured_vectorIndex,
    captured_base i x x.kg.toNat c f (by simp [mVIdx]), none]
  rfl

/-! ## Loads go in flight -/

theorem run_gateAcquire {s : State} {key : Nat} (h : s.cur = some key) (hn : s.noAcquire key) : gateAcquire.run s = .ok ((), s) := by
  have clear : ((s.inFlightOf key).any fun o => hasAcq o.ord) = false := hn
  unfold gateAcquire
  rw [M.run_bind_ok (run_curKey h), M.run_bind_ok (M.run_get s), clear]
  rfl

theorem run_issueLoad {s : State} {key : Nat} {c : Ctx} {f : Firing} {e : ReplayEntry} (x : MForm) (g v : List Nat) (addr : Nat) (h : Issuing s key c f)
    (he : s.issuing = some e) (room : s.issueRoom key f) (free : s.noAcquire key) :
    (issueLoad x g v addr).run s =
      .ok ((), (s.send (s.opOf key f e .load g v addr x.sc.toNat (loadOrd x.ord.toNat))).setCtx key
        (v.foldl (fun c n => c.markV n true) (g.foldl (fun c n => c.markG n true) c))) := by
  unfold issueLoad
  rw [M.run_bind_ok (run_gateAcquire h.cur free), M.run_bind_ok (run_issueOp .load g v addr x.sc.toNat (loadOrd x.ord.toNat) h he room)]
  rfl

/-- A load whose address is found goes in flight with its captured sources, and its destinations are marked empty. -/
theorem runInstr_load {α : Type} {i : Instr} {a : Ask} {s : State} {key : Nat} {c c' : Ctx} {f : Firing} {find : M α} {w : α} (x : MForm)
    (g v : List Nat) (addr : α → Nat) (h : Issuing s key c f) (room : s.issueRoom key f) (free : s.noAcquire key)
    (hp : ¬ c.priv.level < a.priv.level) (hg : a.guard = .scalar → (c.rk a.kg).getLsbD 0 = true) (ho : Operands s key c a.srcs a.dsts)
    (found : find.run (s.issues (some (captured i a.srcs a.kg c f))) = .ok (w, s.issues (some (captured i a.srcs a.kg c f))))
    (marked : v.foldl (fun c n => c.markV n true) (g.foldl (fun c n => c.markG n true) c) = c') (hgr : c'.graph = c.graph) :
    runInstr i a (find >>= fun w => issueLoad x g v (addr w)) s =
      .next ((s.send (s.opOf key f (captured i a.srcs a.kg c f) .load g v (addr w) x.sc.toNat (loadOrd x.ord.toNat))).completed key
        (c'.advance (instrLen i))) := by
  rw [runInstr_ready h hp hg ho ((M.run_bind_ok found).trans (run_issueLoad x g v (addr w) (h.issues _) rfl room free)) (State.ctx?_setCtx _ _ _)
    (marked ▸ hgr), marked, State.completed_setCtx, State.completed_send_issues]

end Sys2Proof.Machine

open Sys2Proof Sys2Proof.Machine

/-- Settles O21: the three loads differ in how they find their address; from there `runInstr_load` puts each in flight. -/
theorem loadsIssue : Obligations.LoadsIssue := by
  intro s key c f x a h room free
  have priv (l : List Src) (d : List Dst) (g : Guarding) : ¬ c.priv.level < (mAsk g x l d).priv.level := Nat.not_lt_zero _
  refine ⟨fun ha => ⟨fun hg ho => ?_, fun ho => ?_⟩, fun ho aligned => ?_⟩
  · exact runInstr_load x [x.ds.toNat] [] id h room free (priv _ _ .scalar) (fun _ => hg) ho (run_memAddr_captured _ ha) rfl rfl
  · exact runInstr_load x [] [x.ds.toNat] id h room free (priv _ _ .vector) (fun h => nomatch h) ho (run_memAddr_captured _ ha) rfl rfl
  · exact runInstr_load x [] [x.ds.toNat] (fun _ => 0) h room free (priv _ _ .vector) (fun h => nomatch h) ho
      (run_gatherAlign_captured _ aligned) rfl rfl

end

section

namespace Sys2Proof.Machine

/-! ## Bytes of a sector in the ways (R243) -/

/-- The bits of the byte at a place of a sector. -/
theorem Sector.getLsbD_byte (x : Sector) (j i : Nat) : (x.byte j).getLsbD i = (decide (i < 8) && x.bytes.getLsbD (8 * j + i)) := by
  simp [Sector.byte]

theorem getLsbD_byteMask (i : Nat) : (0xFF#256).getLsbD i = decide (i < 8) := by
  rw [show (0xFF#256) = (BitVec.allOnes 8).setWidth 256 from rfl, BitVec.getLsbD_setWidth, BitVec.getLsbD_allOnes]
  by_cases h : i < 8
  · simp [h, show i < 256 by omega]
  · simp [h]

/-- A put writes the eight bits of its place and leaves the others. -/
theorem Sector.getLsbD_bytes_put (x : Sector) (b : Byte) (st : Bool) (j i : Nat) (h : i < 256) :
    (x.put j b st).bytes.getLsbD i = if 8 * j ≤ i ∧ i < 8 * j + 8 then b.getLsbD (i - 8 * j) else x.bytes.getLsbD i := by
  simp only [Sector.put, BitVec.getLsbD_or, BitVec.getLsbD_and, BitVec.getLsbD_not, BitVec.getLsbD_shiftLeft, getLsbD_byteMask, BitVec.getLsbD_setWidth, h,
    decide_true, Bool.true_and]
  by_cases low : i < 8 * j
  · have : ¬ (8 * j ≤ i ∧ i < 8 * j + 8) := by omega
    simp [low, this]
  · by_cases high : i - 8 * j < 8
    · have : 8 * j ≤ i ∧ i < 8 * j + 8 := by omega
      simp [low, high, this, show i - 8 * j < 256 by omega]
    · have : ¬ (8 * j ≤ i ∧ i < 8 * j + 8) := by omega
      simp [low, high, this, BitVec.getLsbD_of_ge b (i - 8 * j) (by omega)]

theorem Sector.byte_put_same (x : Sector) (b : Byte) (st : Bool) {j : Nat} (h : j < 32) : (x.put j b st).byte j = b := by
  refine BitVec.eq_of_getLsbD_eq fun i hi => ?_
  rw [Sector.getLsbD_byte, Sector.getLsbD_bytes_put x b st j _ (by omega), if_pos (by omega)]
  simp [hi]

theorem Sector.byte_put_ne (x : Sector) (b : Byte) (st : Bool) {j k : Nat} (hk : k < 32) (h : k ≠ j) : (x.put j b st).byte k = x.byte k := by
  refine BitVec.eq_of_getLsbD_eq fun i hi => ?_
  rw [Sector.getLsbD_byte, Sector.getLsbD_byte, Sector.getLsbD_bytes_put x b st j _ (by omega), if_neg (by omega)]


/-! ## A fill leaves the bytes that its tile sees (R25, R240) -/

/-- The places of a list for which p holds are filled from memory; the others stay. -/
theorem Sector.byte_fill (m : Memory) (pa : Nat) (p : Nat → Bool) {k : Nat} (hk : k < 32) (l : List Nat) (x : Sector) :
    (l.foldl (fun x j => if p j then x.put j (Memory.read m (pa + j)) false else x) x).byte k =
      if k ∈ l ∧ p k = true then Memory.read m (pa + k) else x.byte k := by
  induction l generalizing x with
  | nil => simp
  | cons j rest ih =>
    rw [List.foldl_cons, ih]
    by_cases here : k = j
    · subst here
      by_cases hp : p k = true <;> simp [hp, Sector.byte_put_same _ _ _ hk]
    · by_cases hp : p j = true <;> simp [hp, here, Sector.byte_put_ne _ _ _ hk here]

theorem Sector.held_fill (m : Memory) (pa : Nat) (p : Nat → Bool) {k : Nat} (hk : k < 32) (l : List Nat) (x : Sector) :
    (l.foldl (fun x j => if p j then x.put j (Memory.read m (pa + j)) false else x) x).held.getLsbD k = (decide (k ∈ l ∧ p k = true) || x.held.getLsbD k) := by
  induction l generalizing x with
  | nil => simp
  | cons j rest ih =>
    rw [List.foldl_cons, ih]
    by_cases here : k = j
    · subst here
      by_cases hp : p k = true <;> simp [hp, Sector.put, setBit_get _ _ _ hk]
    · by_cases hp : p j = true <;> simp [hp, here, Sector.put, setBit_get_ne _ _ here]

/-- A tile sees the byte that its ways hold, and else the byte of memory. -/
theorem State.seenByte_eq (s : State) (tile a : Nat) :
    s.seenByte tile a = if (s.sector tile a).held.getLsbD (a % 32) then (s.sector tile a).byte (a % 32) else Memory.read s.mem a := by
  by_cases h : (s.sector tile a).held.getLsbD (a % 32) = true <;> simp [State.seenByte, State.cached?, h]

theorem State.sector_setSector (s : State) (tile pa a : Nat) (x : Sector) :
    (s.setSector tile pa x).sector tile a = if a / 32 = pa / 32 then x else s.sector tile a := by
  unfold State.sector State.setSector
  by_cases h : a / 32 = pa / 32
  · simp [cacheKey, h]
  · have key : cacheKey tile a ≠ cacheKey tile pa := by simpa [cacheKey] using h
    simp [h, Map.find?_insert_ne _ _ key]

/-- A sector whose missing bytes come from memory shows its tile what it saw before. -/
theorem State.seenByte_setSector_take (s : State) (tile pa a : Nat) :
    (s.setSector tile pa ((s.sector tile pa).take s.mem (pa / 32 * 32) fun j => !(s.sector tile pa).held.getLsbD j)).seenByte tile a = s.seenByte tile a := by
  rw [State.seenByte_eq, State.seenByte_eq, State.sector_setSector]
  by_cases h : a / 32 = pa / 32
  · have same : s.sector tile pa = s.sector tile a := by simp [State.sector, cacheKey, h]
    have place : pa / 32 * 32 + a % 32 = a := by omega
    have small : a % 32 < 32 := Nat.mod_lt _ (by decide)
    rw [if_pos h, same, Sector.take, Sector.byte_fill _ _ _ small, Sector.held_fill _ _ _ small, place]
    cases (s.sector tile a).held.getLsbD (a % 32) <;> simp [small]
  · rw [if_neg h]
    rfl

theorem State.seenByte_sliceAccess (s : State) (tile pa : Nat) (w : Bool) (t a : Nat) : (s.sliceAccess tile pa w).seenByte t a = s.seenByte t a := by
  obtain ⟨_, _, _, h⟩ := s.sliceAccess_eq tile pa w
  rw [h]
  rfl

theorem State.seenByte_fillSector (s : State) (tile pa a : Nat) : (s.fillSector tile pa).seenByte tile a = s.seenByte tile a := by
  unfold State.fillSector
  dsimp only
  split
  · split
    · rfl
    · split
      · exact State.seenByte_sliceAccess _ _ _ _ _ _
      · obtain ⟨l, n, c, h⟩ := s.sliceAccess_eq tile pa false
        rw [h]
        exact State.seenByte_setSector_take { s with slices := l, drawn := n, clusters := c } tile pa a
  · exact State.seenByte_sliceAccess _ _ _ _ _ _

/-- A fill changes the ways, the slices, the estimators of the clusters and the counter of free values at most. -/
theorem State.fillSector_eq (s : State) (tile pa : Nat) :
    ∃ tc l n c, s.fillSector tile pa = { s with tileCache := tc, slices := l, drawn := n, clusters := c } := by
  obtain ⟨l, n, c, h⟩ := s.sliceAccess_eq tile pa false
  unfold State.fillSector
  rw [h]
  dsimp only
  split
  · split
    · exact ⟨_, _, _, _, rfl⟩
    · split <;> exact ⟨_, _, _, _, rfl⟩
  · exact ⟨_, _, _, _, rfl⟩

/-- A read of correct bytes of the DRAM region gives what the tile sees, and fills its ways. -/
theorem readPlace_dram {s : State} {key va n pa : Nat} (h : s.dramBad pa n = false) :
    readPlace s key va n (.dram pa) = .ok ((List.range n).map fun j => s.seenByte (tileOf key) (pa + j),
      (s.fillSector (tileOf key) pa).fillSector (tileOf key) (pa + n - 1)) := by
  simp [readPlace, h, State.seenByte_fillSector]

/-! ## The end of an instruction in flight (R37) -/

theorem State.id_of_op? {s : State} {id : Nat} {o : Op} (h : s.op? id = some o) : o.id = id := by
  simpa using List.find?_some h

@[simp] theorem State.op?_dropOp (s : State) (id : Nat) : (s.dropOp id).op? id = none := by
  simp [State.op?, State.dropOp]

@[simp] theorem State.op?_setCtx (s : State) (k : Nat) (x : Ctx) (id : Nat) : (s.setCtx k x).op? id = s.op? id := rfl
@[simp] theorem State.ctx?_dropOp (s : State) (id k : Nat) : (s.dropOp id).ctx? k = s.ctx? k := rfl
@[simp] theorem State.mem_dropOp (s : State) (id : Nat) : (s.dropOp id).mem = s.mem := rfl

theorem State.owner?_slot {s : State} {k : Nat} {c : Ctx} (h : s.ctx? k = some c) : s.owner? k = some c := by
  simp [State.owner?, h]

/-- A wake of a context that has just been written changes its firing at most. -/
theorem State.wake_setCtx (s : State) (k : Nat) (c : Ctx) : ∃ f, (s.setCtx k c).wake k = s.setCtx k { c with firing := f } :=
  ⟨_, State.modCtx_setCtx _ _ _ _⟩

theorem Ctx.deliver_k (c : Ctx) (dstG dstV : List Nat) (g : Word) (v : List VWord) : (c.deliver dstG dstV g v).k = c.k := by
  unfold Ctx.deliver
  refine (foldl_same Ctx.k _ (fun b p => ?_) _ _).trans (foldl_same Ctx.k (fun c n => c.wg n g) (fun _ _ => rfl) _ _)
  split <;> rfl

/-- The registers after a completion are those of its delivery: the warning of a fallback touches none (R80). -/
theorem Ctx.complete_registers (c : Ctx) (o : Op) (g : Word) (v : List VWord) :
    (c.complete o g v).g = (c.deliver o.dstG o.dstV g v).g ∧ (c.complete o g v).gEmpty = (c.deliver o.dstG o.dstV g v).gEmpty ∧
    (c.complete o g v).v = (c.deliver o.dstG o.dstV g v).v ∧ (c.complete o g v).vEmpty = (c.deliver o.dstG o.dstV g v).vEmpty ∧
    (c.complete o g v).k = c.k := by
  unfold Ctx.complete
  dsimp only
  split <;> simp [Ctx.deliver_k]

/-- An instruction in flight of a context in a slot is done: its context alone changes, to what the completion leaves, and may be woken. -/
theorem State.finishOp_slot {s : State} {o : Op} {c : Ctx} (hc : s.ctx? o.ctx = some c) (g : Word) (v : List VWord) :
    ∃ f, s.finishOp o g v = (s.dropOp o.id).setCtx o.ctx { c.complete o g v with firing := f } := by
  have slot : (s.dropOp o.id).ctx? o.ctx = some c := hc
  unfold State.finishOp
  rw [State.modOwner_slot _ slot]
  exact State.wake_setCtx _ _ _

/-! ## Loads at their end (R254, R255) -/

/-- A scalar load without ordering from correct bytes of the DRAM region writes what the tile sees, extended as its type says. -/
theorem performLoad_scalar_dram {s : State} {o : Op} {c : Ctx} {pa : Nat} (unordered : o.ord = 0) (scalar : bits o.word.toNat 55 50 = 0)
    (place : placeOf s o.ctx c o.addr (tyBytes (MForm.ofWord o.word.toNat).ty.toNat) .r = .ok (.dram pa))
    (sound : s.dramBad pa (tyBytes (MForm.ofWord o.word.toNat).ty.toNat) = false) :
    ∃ s1, s1.ctxs = s.ctxs ∧ s1.mem = s.mem ∧
      let x := MForm.ofWord o.word.toNat
      let v := wd (leNat ((List.range (tyBytes x.ty.toNat)).map fun j => s.seenByte (tileOf o.ctx) (pa + j)))
      performLoad s o c = .ok (c.wg x.ds.toNat (if x.ty.toNat < 8 then wrInt x.ty.toNat (rdInt x.ty.toNat v) else v), s1) := by
  obtain ⟨_, _, _, _, first⟩ := s.fillSector_eq (tileOf o.ctx) pa
  obtain ⟨_, _, _, _, second⟩ :=
    (s.fillSector (tileOf o.ctx) pa).fillSector_eq (tileOf o.ctx) (pa + tyBytes (MForm.ofWord o.word.toNat).ty.toNat - 1)
  refine ⟨(s.fillSector (tileOf o.ctx) pa).fillSector (tileOf o.ctx) (pa + tyBytes (MForm.ofWord o.word.toNat).ty.toNat - 1), ?_, ?_, ?_⟩
  · rw [second, first]
  · rw [second, first]
  · simp [performLoad, unordered, hasAcq, scalar, loadAt, place, readPlace_dram sound]

/-- The state after the result of a load that has been made. -/
theorem State.longLatency_load {s s1 : State} {o : Op} {c c1 : Ctx} (due : Claims.due s o.id o c) (load : o.kind = .load)
    (made : performLoad s o c = .ok (c1, s1)) (slots : s1.ctxs = s.ctxs) :
    ∃ f, s.longLatency o = (s1.dropOp o.id).setCtx o.ctx { c1.complete { o with dstG := [], dstV := [] } 0 [] with firing := f } := by
  obtain ⟨-, hc, free⟩ := due
  have slot : (s1.dropOp o.id).ctx? o.ctx = some c := by
    rw [State.ctx?_dropOp, State.ctx?, slots]
    exact hc
  simp only [State.longLatency, load, free, if_true, State.owner?_slot hc, made]
  rw [State.modOwner_slot _ slot]
  exact State.wake_setCtx _ _ _

theorem exec_longLatencyResult {s : State} {id : Nat} {o : Op} (h : s.op? id = some o) : exec (.longLatencyResult id) s = .next (s.longLatency o) := by
  show Host.Outcome.next _ = _
  simp [h]

end Sys2Proof.Machine

namespace Sys2Proof.ResultProofs
open Sys2Proof Sys2Proof.Machine

theorem loadResultArrives : Claims.loadResultArrives := by
  intro s id o c pa due load unordered scalar x n place sound v
  obtain rfl : o.id = id := State.id_of_op? due.1
  obtain ⟨s1, slots, mem, made⟩ := performLoad_scalar_dram unordered scalar place sound
  obtain ⟨f, after⟩ := State.longLatency_load due load made slots
  obtain ⟨g, gEmpty, vregs, -, k⟩ :=
    Ctx.complete_registers (c.wg x.ds.toNat (if x.ty.toNat < 8 then wrInt x.ty.toNat (rdInt x.ty.toNat v) else v)) { o with dstG := [], dstV := [] } 0 []
  refine ⟨_, _, (exec_longLatencyResult due.1).trans (congrArg _ after), mem, ?_, State.ctx?_setCtx _ _ _, g, ?_, fun m hm => ⟨?_, ?_⟩, vregs, k⟩
  · simp
  · exact (congrArg (·.getLsbD x.ds.toNat) gEmpty).trans (Ctx.emptyG_wg c _ _ x.ds.isLt)
  · exact (congrArg (Map.get 0 · m) g).trans (Ctx.rg_wg_ne c _ hm)
  · exact (congrArg (·.getLsbD m) gEmpty).trans (Ctx.emptyG_wg_ne c _ hm)

theorem knownResultArrives : Claims.knownResultArrives := by
  intro s id o c g v ho hc known
  obtain rfl : o.id = id := State.id_of_op? ho
  obtain ⟨f, after⟩ := State.finishOp_slot hc g v
  have result : s.longLatency o = s.finishOp o g v := by simp [State.longLatency, known]
  obtain ⟨hg, hgEmpty, hv, hvEmpty, hk⟩ := c.complete_registers o g v
  exact ⟨_, _, (exec_longLatencyResult ho).trans (congrArg _ (result.trans after)), rfl, by simp, State.ctx?_setCtx _ _ _, hg, hgEmpty, hv, hvEmpty, hk⟩

end Sys2Proof.ResultProofs

open Sys2Proof.ResultProofs

/-- Settles O29: a load writes what its tile sees, because a fill of the ways leaves that, and a known result is delivered as `Ctx.deliver` says. -/
theorem resultsArrive : Obligations.ResultsArrive := ⟨loadResultArrives, knownResultArrives⟩

end

section

namespace Sys2Proof.Machine

/-! ## What a trap can reach -/

/-- A state differs from another in what a trap writes at most: contexts, speculative firings, what is in flight, its requests, engines and bindings, graphs,
records, and the counters of fresh numbers, cycles and free values. -/
def State.trapReaches (s t : State) : Prop :=
  { t with ctxs := s.ctxs, specs := s.specs, ops := s.ops, requests := s.requests, engines := s.engines, bindings := s.bindings, asids := s.asids,
           graphs := s.graphs, records := s.records, fresh := s.fresh, cycle := s.cycle, drawn := s.drawn } = s

theorem State.trapReaches.trans {s t u : State} (h : s.trapReaches t) (g : t.trapReaches u) : s.trapReaches u := by
  unfold State.trapReaches at *
  rw [← g] at h
  exact h

theorem State.trapReaches_modCtx (s : State) (key : Nat) (f : Ctx → Ctx) : s.trapReaches (s.modCtx key f) := by
  unfold State.modCtx
  split <;> rfl

theorem State.trapReaches_countEvent (s : State) (key code n : Nat) : s.trapReaches (s.countEvent key code n) := by
  unfold State.countEvent
  split <;> rfl

theorem State.trapReaches_squash (s : State) (key : Nat) : s.trapReaches (s.squash key) := by
  unfold State.squash
  split
  · rfl
  · refine State.trapReaches.trans (t := { s with specs := s.specs.filter fun x => x.key != key }) rfl ?_
    exact ((State.trapReaches_countEvent _ _ _ _).trans (State.trapReaches_countEvent _ _ _ _)).trans rfl

theorem State.trapReaches_restartFirmware (s : State) (key : Nat) (c : Ctx) : s.trapReaches (s.restartFirmware key c) :=
  (s.trapReaches_squash key).trans rfl

theorem State.trapReaches_deliverTrap (s : State) (key : Nat) (t : Trap) (fpc fword rpc : Word) (es : List ReplayEntry) (d a : Bool) :
    s.trapReaches (s.deliverTrap key t fpc fword rpc es d a) := by
  have parks (u : State) (c : Ctx) (n : Nat) (w : List Word) : u.trapReaches ((u.setCtx key c).sendRecord n w) := rfl
  have stopped (u : State) (c : Ctx) (h : Nat) (f : Graph → Graph) (n : Nat) (w : List Word) :
      u.trapReaches (((u.setCtx key c).modGraph h f).sendRecord n w) := rfl
  unfold State.deliverTrap
  dsimp -zeta only
  extract_lets s1 t1
  have drawn : s.trapReaches (if t.free then s.drawWord.2 else s) := by
    split <;> rfl
  have squashed : s.trapReaches s1 := drawn.trans (State.trapReaches_squash _ key)
  refine squashed.trans ?_
  split
  · rfl
  · extract_lets own frame rec0 parked
    split
    · rfl
    · split
      · exact State.trapReaches_restartFirmware _ _ _
      · split
        · split
          · exact stopped _ _ _ _ _ _
          · exact parks _ _ _ _
        · exact parks _ _ _ _

theorem State.trapReaches_interruptOps (s : State) (key serial : Nat) (bad : Option Nat) : s.trapReaches (s.interruptOps key serial bad).1 := by
  unfold State.interruptOps
  refine foldl_keeps s.trapReaches _ (fun b o hb => hb.trans ?_) _ _ rfl
  split
  · exact State.trapReaches_modCtx _ _ _
  · exact State.trapReaches.trans (t := (b.applyBind _ _ _).2) rfl (State.trapReaches_modCtx _ _ _)
  · rfl
  · rfl
  · rfl

theorem State.trapReaches_takeTrap (s : State) (key : Nat) (t : Trap) (e : ReplayEntry) (len : Nat) : s.trapReaches (s.takeTrap key t e len) := by
  unfold State.takeTrap
  split
  · rfl
  · split
    · exact State.trapReaches_deliverTrap _ _ _ _ _ _ _ _ _
    · rename_i c _ _ f _
      have issued : s.trapReaches (if t.after then s.issuedTrap key c.graph else s) := by
        split
        · exact (State.trapReaches_countEvent _ _ _ _).trans rfl
        · rfl
      generalize (if t.after then s.issuedTrap key c.graph else s) = s' at *
      have captured := issued.trans (State.trapReaches_interruptOps _ key f.serial none)
      dsimp only
      split
      · exact captured.trans (State.trapReaches_deliverTrap _ _ _ _ _ _ _ _ _)
      · refine captured.trans (State.trapReaches.trans ?_ (State.trapReaches_deliverTrap _ _ _ _ _ _ _ _ _))
        split
        · exact State.trapReaches_modCtx _ _ _
        · rfl

/-! ## A sample of the waits in progress (R167) -/

/-- The clocks, the value that waits for %ptp, and memory: what a sample of a WAIT leaves alone. -/
def State.clocksAndMemory (s : State) : Nat × Nat × Option Word × Memory := (s.ticks, s.ptp, s.ptpset, s.mem)

theorem State.clocksAndMemory_modCtx (s : State) (key : Nat) (f : Ctx → Ctx) : (s.modCtx key f).clocksAndMemory = s.clocksAndMemory :=
  (congrArg State.clocksAndMemory (s.trapReaches_modCtx key f) :)

theorem State.clocksAndMemory_waitAcquire (s : State) (key : Nat) (c : Ctx) (f : SForm) (seen : BitVec 4) :
    (s.waitAcquire key c f seen).clocksAndMemory = s.clocksAndMemory := by
  unfold State.waitAcquire State.acquireWays
  split
  · split <;> rfl
  · rfl

theorem State.clocksAndMemory_waitStep (s : State) (key : Nat) (timeout : Bool) : (s.waitStep key timeout).clocksAndMemory = s.clocksAndMemory := by
  unfold State.waitStep
  split
  · rfl
  split
  · rfl
  split
  · rfl
  split
  · rfl
  dsimp only
  split
  · exact (congrArg State.clocksAndMemory (State.trapReaches_takeTrap _ _ _ _ _) :)
  · split
    · rw [State.clocksAndMemory_modCtx, State.clocksAndMemory_waitAcquire]
    · exact State.clocksAndMemory_modCtx _ _ _

theorem State.clocksAndMemory_sampleWaits (s : State) : s.sampleWaits.clocksAndMemory = s.clocksAndMemory :=
  foldl_same _ _ (fun b key => b.clocksAndMemory_waitStep key true) _ _

theorem State.waitStep_idle {s : State} {key : Nat} (timeout : Bool) (idle : ∀ c f, s.ctx? key = some c → c.firing = some f → f.wait = none) :
    s.waitStep key timeout = s := by
  unfold State.waitStep
  split
  · rfl
  split
  · rfl
  rename_i c hc _ f hf
  rw [idle c f hc hf]

/-- Where no context waits, a sample changes nothing. -/
theorem State.sampleWaits_idle {s : State} (idle : ∀ key c f, s.ctx? key = some c → c.firing = some f → f.wait = none) : s.sampleWaits = s :=
  foldl_keeps (· = s) _ (fun b key hb => by subst hb; exact State.waitStep_idle true (idle key)) _ _ rfl

/-- A tick of the reference clock advances the clocks and the timers, then samples the waits. -/
theorem exec_referenceClockTick (s : State) :
    ∃ u : State, exec .referenceClockTick s = .next u.sampleWaits ∧ u.ticks = (s.ticks + 1) % 2 ^ 64 ∧
      u.ptp = (match s.ptpset with | some v => v.toNat | none => (s.ptp + 10) % 2 ^ 64) ∧ u.ptpset = none ∧ u.mem = s.mem ∧ u.ctxs = s.ctxs ∧
      u.graphs = s.graphs.map (fun g => if s.timerStands g then g else { g with timer := g.timer + 1 }) ∧ (s.ptpset = none → u.parts = s.parts) :=
  ⟨_, rfl, rfl, rfl, rfl, rfl, rfl, rfl, fun h => by simp [h]⟩

end Sys2Proof.Machine

end

section

namespace Sys2Proof.Machine

/-! ## A second write of the context that issues -/

theorem run_modCur_setCtx {s : State} {key : Nat} (c : Ctx) (f : Ctx → Ctx) (h : s.cur = some key) :
    (modCur f).run (s.setCtx key c) = .ok ((), s.setCtx key (f c)) := by
  rw [run_modCur (s := s.setCtx key c) f h (State.ctx?_setCtx _ _ _), State.setCtx_setCtx]

/-! ## Reads of system registers at issue -/

/-- A firing that nothing in flight can still give a sticky bit reads and writes them at once (R310). -/
theorem run_waitSticky_quiet {s : State} {key : Nat} {c : Ctx} {f : Firing} (n : Nat) (e : Option ReplayEntry) (h : Issuing s key c f)
    (quiet : Claims.quietSticky s key f) : (waitSticky n).run (s.issues e) = .ok ((), s.issues e) := by
  obtain ⟨ops, held, engines⟩ := quiet
  have noCombo : (((s.issues e).inFlightOf key).any fun o => o.serial == f.serial && o.combo) = false := by
    show ((s.inFlightOf key).any fun o => o.serial == f.serial && o.combo) = false
    simpa using held
  have noSticky : ((s.issues e).ops.any fun o => o.ctx == key && o.serial == f.serial && o.setsSticky) = false := by
    simpa [and_imp] using ops
  unfold waitSticky
  split
  · have noEngine : (s.issues e).macroSticky key f.serial = false := engines
    rw [M.run_bind_ok (run_curKey (h.issues e).cur), M.run_bind_ok (run_curFiring (h.issues e).cur (h.issues e).ctx h.firing), M.run_bind_ok (M.run_get _),
      noCombo, noSticky, noEngine]
    rfl
  · rfl

/-- Other registers are not waited for. -/
theorem run_waitSticky_other {n : Nat} (s : State) (fp : n ≠ 0x020) (warn : n ≠ 0x021) : (waitSticky n).run s = .ok ((), s) := by
  simp [waitSticky, fp, warn]

theorem not_sticky_of_isClusterReg {n : Nat} (h : isClusterReg n = true) : n ≠ 0x020 ∧ n ≠ 0x021 := by
  constructor <;> rintro rfl <;> exact absurd h (by decide)

theorem ofPartition_cases {n : Nat} (h : ofPartition n = true) : n = 0x210 ∨ n = 0x211 ∨ n = 0x230 := by
  simpa [ofPartition, or_assoc] using h

/-- A register of the partition is one of the privilege S that is neither sticky nor one per cluster. -/
theorem ofPartition_plain {n : Nat} (h : ofPartition n = true) : regPriv n = .s ∧ isClusterReg n = false ∧ n ≠ 0x020 ∧ n ≠ 0x021 := by
  rcases ofPartition_cases h with rfl | rfl | rfl <;> decide

theorem run_clusterNamed {x : Word} (s : State) (h : x.toNat ≤ 47) : (clusterNamed x).run s = .ok (x.toNat, s) := by
  simp [clusterNamed, Nat.not_lt.mpr h]

theorem run_issueValue {s : State} {key : Nat} {c : Ctx} {f : Firing} {e : ReplayEntry} (d : Nat) (x : Word) (h : Issuing s key c f)
    (he : s.issuing = some e) (room : s.issueRoom key f) :
    (issueValue d x).run s = .ok ((), (s.send (s.opOf key f e (.value x []) [d] [] 0 0 0)).setCtx key (c.markG d true)) := by
  unfold issueValue
  rw [M.run_bind_ok (run_issueOp (.value x []) [d] [] 0 0 0 h he room)]
  rfl

/-- `runInstr_ready` for a body that leaves its context as `c'` and the rest of the state as `u` has it. -/
theorem runInstr_leaves {i : Instr} {a : Ask} {body : M Unit} {s : State} {key : Nat} {c : Ctx} {f : Firing} (u : State) (c' : Ctx) (h : Issuing s key c f)
    (hp : a.priv.level ≤ c.priv.level) (hg : a.guard = .scalar → (c.rk a.kg).getLsbD 0 = true) (ho : Operands s key c a.srcs a.dsts)
    (hb : body.run (s.issues (some (captured i a.srcs a.kg c f))) = .ok ((), (u.issues (some (captured i a.srcs a.kg c f))).setCtx key c'))
    (hgr : c'.graph = c.graph) : runInstr i a body s = .next (u.completed key (c'.advance (instrLen i))) := by
  rw [runInstr_ready h (Nat.not_lt.mpr hp) hg ho hb (State.ctx?_setCtx _ _ _) hgr, State.completed_setCtx, State.completed_issues]

end Sys2Proof.Machine

namespace Sys2Proof.SystemProofs
open Sys2Proof Sys2Proof.Machine

section
variable {s : State} {key : Nat} {c : Ctx} {f : Firing} {x : SForm}

/-- A register at its issuer: GETS writes its value, and a read of %pmwdog clears EXPIRED. -/
theorem gets_reads (h : Issuing s key c f) (hg : c.guardOn x.kg) (ho : Operands s key c [] [gDst x.d.toNat])
    (priv : (regPriv x.imm.toNat).level ≤ c.priv.level) (plain : isClusterReg x.imm.toNat = false)
    (stated : ¬ (c.priv = .f ∧ ofPartition x.imm.toNat = true)) (quiet : Claims.quietSticky s key f) :
    exec (.gets x) s = .next (State.completed (if x.imm = 0x20A then { s with expired := false } else s) key
      ((c.wg x.d.toNat (s.readReg key c x.imm.toNat)).advance 8)) := by
  have imm : x.imm.toNat = 0x20A ↔ x.imm = 0x20A := by bv_omega
  show execGets x s = _
  simp only [execGets, plain, Bool.false_eq_true, if_false]
  refine runInstr_leaves _ _ h priv (fun _ => hg) ho ?_ rfl
  have issuing (e : Option ReplayEntry) := h.issues e
  rw [M.run_bind_ok (run_waitSticky_quiet _ _ h quiet), M.run_bind_ok (run_curKey (issuing _).cur),
    M.run_bind_ok (run_curCtx (issuing _).cur (issuing _).ctx), if_neg stated, M.run_bind_ok (M.run_get _),
    M.run_bind_ok (run_writeG _ _ (issuing _).cur (issuing _).ctx)]
  by_cases wdog : x.imm = 0x20A
  · rw [if_pos (imm.mpr wdog), if_pos wdog]
    rfl
  · rw [if_neg (mt imm.mp wdog), if_neg wdog]
    rfl

/-- A register of the partition gives firmware a free value (log entry 22). -/
theorem gets_partition (h : Issuing s key c f) (hg : c.guardOn x.kg) (ho : Operands s key c [] [gDst x.d.toNat]) (priv : c.priv = .f)
    (part : ofPartition x.imm.toNat = true) :
    exec (.gets x) s = .next (State.completed { s with drawn := s.drawn + 1 } key
      ((c.wg x.d.toNat (Config.freeWord s.drawn &&& partMask x.imm.toNat)).advance 8)) := by
  obtain ⟨level, plain, fp, warn⟩ := ofPartition_plain part
  show execGets x s = _
  simp only [execGets, plain, Bool.false_eq_true, if_false]
  refine runInstr_leaves _ _ h (by simp [level, priv, Priv.level]) (fun _ => hg) ho ?_ rfl
  have issuing (e : Option ReplayEntry) := h.issues e
  rw [M.run_bind_ok (run_waitSticky_other _ fp warn), M.run_bind_ok (run_curKey (issuing _).cur),
    M.run_bind_ok (run_curCtx (issuing _).cur (issuing _).ctx), if_pos ⟨priv, part⟩, M.run_bind_ok (M.run_get _)]
  exact (M.run_bind_ok (M.run_set _ _)).trans (run_writeG _ _ h.cur h.ctx)

/-- A register of a cluster goes in flight with its value. -/
theorem gets_cluster (h : Issuing s key c f) (hg : c.guardOn x.kg) (ho : Operands s key c [sA x] [gDst x.d.toNat])
    (cluster : isClusterReg x.imm.toNat = true) (priv : (regPriv x.imm.toNat).level ≤ c.priv.level) (named : (c.rg x.a.toNat).toNat ≤ 47)
    (room : s.issueRoom key f) :
    exec (.gets x) s = .next ((s.send (s.opOf key f (captured (.gets x) [sA x] x.kg.toNat c f)
      (.value (wd (s.readCluster (c.rg x.a.toNat).toNat x.imm.toNat)) []) [x.d.toNat] [] 0 0 0)).completed key ((c.markG x.d.toNat true).advance 8)) := by
  obtain ⟨fp, warn⟩ := not_sticky_of_isClusterReg cluster
  have name (e : ReplayEntry) : (capture c e [sA x]).op .a = (c.rg x.a.toNat).setWidth 1024 := capture_op c e (sA x) [] fun _ h => nomatch h
  show execGets x s = _
  simp only [execGets, cluster, if_true]
  refine runInstr_leaves _ _ h priv (fun _ => hg) ho ?_ rfl
  rw [M.run_bind_ok (run_waitSticky_other _ fp warn), M.run_bind_ok (run_opG rfl .a), captured, name, captured_word,
    M.run_bind_ok (run_clusterNamed _ named), M.run_bind_ok (M.run_get _), run_issueValue _ _ (h.issues _) rfl room]
  rfl

theorem gettTicks_reads (h : Issuing s key c f) (hg : c.guardOn x.kg) (ho : Operands s key c [] [gDst x.d.toNat]) :
    exec (.gettTicks x) s = .next (s.completed key ((c.wg x.d.toNat (wd s.ticks)).advance 8)) := by
  refine runInstr_leaves _ _ h (Nat.zero_le _) (fun _ => hg) ho ?_ rfl
  rw [M.run_bind_ok (M.run_get _)]
  exact run_writeG _ _ h.cur h.ctx

theorem gettPtp_reads (h : Issuing s key c f) (hg : c.guardOn x.kg) (ho : Operands s key c [] [gDst x.d.toNat]) :
    exec (.gettPtp x) s = .next (s.completed key ((c.wg x.d.toNat (wd s.ptp)).advance 8)) := by
  refine runInstr_leaves _ _ h (Nat.zero_le _) (fun _ => hg) ho ?_ rfl
  rw [M.run_bind_ok (M.run_get _)]
  exact run_writeG _ _ h.cur h.ctx

theorem gettBoth_reads (h : Issuing s key c f) (hg : c.guardOn x.kg) (ho : Operands s key c [] [gDst x.d.toNat, gDst x.b.toNat]) :
    exec (.gettBoth x) s = .next (s.completed key (((c.wg x.d.toNat (wd s.ticks)).wg x.b.toNat (wd s.ptp)).advance 8)) := by
  refine runInstr_leaves _ _ h (Nat.zero_le _) (fun _ => hg) ho ?_ rfl
  rw [M.run_bind_ok (M.run_get _), M.run_bind_ok (run_writeG _ _ (h.issues _).cur (h.issues _).ctx)]
  exact run_modCur_setCtx _ _ (h.issues _).cur

/-- PERF reads its counter, and under CND 1 clears it in the same step. -/
theorem perf_reads (h : Issuing s key c f) (hg : c.guardOn x.kg) (ho : Operands s key c [] [gDst x.d.toNat]) :
    exec (.perf x) s = .next (s.completed key (Ctx.advance (if x.cnd = 1 then
        { c.wg x.d.toNat (Map.get 0 c.pmcnt (x.p.toNat % 8)) with pmcnt := Map.set 0 c.pmcnt (x.p.toNat % 8) 0 }
      else c.wg x.d.toNat (Map.get 0 c.pmcnt (x.p.toNat % 8))) 8)) := by
  refine runInstr_leaves _ _ h (Nat.zero_le _) (fun _ => hg) ho ?_ (by split <;> rfl)
  rw [M.run_bind_ok (run_curCtx (h.issues _).cur (h.issues _).ctx), M.run_bind_ok (run_writeG _ _ (h.issues _).cur (h.issues _).ctx)]
  by_cases clears : x.cnd = 1
  · rw [if_pos clears, if_pos clears]
    exact run_modCur_setCtx _ _ (h.issues _).cur
  · rw [if_neg clears, if_neg clears]
    rfl

end

theorem systemReads : Claims.systemReads := by
  intro s key c f x h hg
  refine ⟨fun ho => ⟨fun priv plain stated quiet => ?_, fun priv part => ?_, ?_, ?_, ?_⟩, fun ho => ?_, fun ho cluster priv named room => ?_⟩
  · exact gets_reads h hg ho priv plain stated quiet
  · exact gets_partition h hg ho priv part
  · exact gettTicks_reads h hg ho
  · exact gettPtp_reads h hg ho
  · exact perf_reads h hg ho
  · exact gettBoth_reads h hg ho
  · exact gets_cluster h hg ho cluster priv named room

theorem clockTick : Claims.clockTick := by
  intro s
  obtain ⟨u, run, ticks, ptp, ptpset, mem, ctxs, graphs, parts⟩ := exec_referenceClockTick s
  have sampled := u.clocksAndMemory_sampleWaits
  simp only [State.clocksAndMemory, Prod.mk.injEq] at sampled
  obtain ⟨ticks', ptp', ptpset', mem'⟩ := sampled
  refine ⟨_, run, ticks'.trans ticks, ptp'.trans ptp, ptpset'.trans ptpset, mem'.trans mem, fun idle => ?_, fun v => ⟨_, rfl, rfl, rfl, rfl⟩⟩
  have idle' : ∀ key c f, u.ctx? key = some c → c.firing = some f → f.wait = none := by
    simpa only [State.ctx?, ctxs] using idle
  rw [State.sampleWaits_idle idle']
  exact ⟨graphs, ctxs, parts⟩

end Sys2Proof.SystemProofs

open Sys2Proof.SystemProofs

/-- Settles O18: each read writes its value into its destination as `runInstr_leaves` says, and a tick samples waits, which leaves the clocks and memory alone
because a trap that a sample takes cannot reach them. -/
theorem systemReadsAndTime : Obligations.SystemReadsAndTime := ⟨systemReads, clockTick⟩

end

section

namespace Sys2Proof.SystemProofs
open Sys2Proof Sys2Proof.Machine

/-! ## A write of CLPM_REQ whose effect reaches its own issuer -/

/-- The firing in which the firmware issues. -/
def quiesceFiring : Firing := { pc := 0, serial := 0, entry := 16 }

/-- A firmware context with a lease of the first engine of cluster 0. It is about to write QUIESCE, the 1 in g4, to the cluster that g5 names, 0. -/
def quiescer : Ctx :=
  { priv := .f, asid := firmwareAsid, part := 0, g := [(4, 1)], firing := some quiesceFiring
    leases := [{ handle := handleOfLease 0 0 0 0 1, grantSerial := 1 }] }

/-- Cluster 0 is ON, and the firmware of die 0 holds its first engine. -/
def quiesceSt : State :=
  { State.reset with
    cur := some (firmwareOf 0), ctxs := [(firmwareOf 0, quiescer)], clusters := [(0, { state := .on })]
    engines := [(0, { power := .lit, serial := 1, holder := some (firmwareOf 0) })] }

/-- SETS of CLPM_REQ from g4, of the cluster in g5. -/
def quiesceForm : SForm := { SForm.ofWord 0 with a := 4, b := 5, imm := 0x100 }

theorem quiesceSt_issuing : Issuing quiesceSt (firmwareOf 0) quiescer quiesceFiring := ⟨rfl, rfl, rfl, rfl⟩

theorem quiescer_guardOn : quiescer.guardOn quiesceForm.kg := by
  unfold Ctx.guardOn
  decide

theorem quiesceSt_operands : Operands quiesceSt (firmwareOf 0) quiescer [sA quiesceForm, sB .g quiesceForm] [] :=
  ⟨by decide, by decide, by decide⟩

/-- The actor flags set from outside that the firmware of die 0 holds after an instruction. -/
def heldFlags : Result → Option Byte
  | .next t => (t.ctx? (firmwareOf 0)).map fun c => c.flagsHeld
  | _ => none

/-- The QUIESCE gives every lease on the cluster its notice, so that the issuer's f7 is set (R176, R182). -/
theorem quiesce_noticesIssuer : heldFlags (exec (.sets quiesceForm) quiesceSt) = some 0x80 := by decide +kernel

/-- A context that only moves on holds no flag. -/
theorem quiesce_movedOn :
    heldFlags (.next ((quiesceSt.writeCluster (quiescer.rg 5).toNat 0x100 (quiescer.rg 4).toNat 0).completed (firmwareOf 0) (quiescer.advance 8))) = some 0 := by
  decide +kernel

end Sys2Proof.SystemProofs

open Sys2Proof Sys2Proof.Machine Sys2Proof.SystemProofs

/-- Refutes O17: the clause on a register of a cluster asks that the issuer's own context is as it was but for its pc. In `quiesceSt` the firmware that writes
QUIESCE holds a lease on the cluster: the write gives it its notice, which sets its f7. -/
theorem not_systemWrites : ¬ Obligations.SystemWrites := by
  unfold Obligations.SystemWrites Claims.systemWrites
  rintro ⟨writes, -⟩
  obtain ⟨-, ofCluster⟩ := writes quiesceSt (firmwareOf 0) quiescer quiesceFiring quiesceForm quiesceSt_issuing quiescer_guardOn (by decide)
  obtain ⟨firmware, -, -⟩ := ofCluster quiesceSt_operands (by decide) (by decide)
  have noFlag : heldFlags (exec (.sets quiesceForm) quiesceSt) = some 0 := (congrArg heldFlags (firmware rfl)).trans quiesce_movedOn
  exact absurd (quiesce_noticesIssuer.symm.trans noFlag) (by decide)

end

section

namespace Sys2Proof
open Sys2Proof.Machine
open Sys2Proof.Laws.TableRow (r_back i_back j_back m_back s_back x_back l_back)

/-! ## Bytes of a word (R3) -/

@[simp] theorem length_leBytes (n w : Nat) : (leBytes n w).length = n := by
  induction n generalizing w with
  | zero => rfl
  | succ n ih => simp [leBytes, ih]

theorem leNat_leBytes (n w : Nat) : leNat (leBytes n w) = w % 256 ^ n := by
  induction n generalizing w with
  | zero => simp [leBytes, leNat, Nat.mod_one]
  | succ n ih => rw [leBytes, leNat, ih, BitVec.toNat_ofNat, show (2 : Nat) ^ 8 = 256 from rfl, ← Nat.mod_mul, ← Nat.pow_succ']

theorem leBytes_leNat (bs : List Byte) : leBytes bs.length (leNat bs) = bs := by
  induction bs with
  | nil => rfl
  | cons b rest ih =>
    have hb := b.isLt
    have low : BitVec.ofNat 8 (leNat (b :: rest)) = b := BitVec.eq_of_toNat_eq (by rw [BitVec.toNat_ofNat, leNat]; omega)
    have high : leNat (b :: rest) / 256 = leNat rest := by rw [leNat]; omega
    rw [List.length_cons, leBytes, low, high, ih]

theorem leNat_lt (bs : List Byte) : leNat bs < 256 ^ bs.length := by
  induction bs with
  | nil => simp [leNat]
  | cons b rest ih =>
    have hb := b.isLt
    rw [leNat, List.length_cons, Nat.pow_succ']
    omega

/-- The word that eight bytes hold. -/
def wordOf (bs : List Byte) : Word := BitVec.ofNat 64 (leNat (bs.take 8))

theorem toNat_wordOf (bs : List Byte) : (wordOf bs).toNat = leNat (bs.take 8) := by
  have lt := leNat_lt (bs.take 8)
  have le : (256 : Nat) ^ (bs.take 8).length ≤ 256 ^ 8 := Nat.pow_le_pow_right (by decide) (by simp)
  rw [wordOf, BitVec.toNat_ofNat, Nat.mod_eq_of_lt (by omega)]

theorem leBytes_wordOf_append {bs : List Byte} (h : 8 ≤ bs.length) : leBytes 8 (wordOf bs).toNat ++ bs.drop 8 = bs := by
  have len : (bs.take 8).length = 8 := by simp [h]
  have back := leBytes_leNat (bs.take 8)
  rw [len] at back
  rw [toNat_wordOf, back, List.take_append_drop]

theorem leNat_take_leBytes (w : Word) (rest : List Byte) : leNat ((leBytes 8 w.toNat ++ rest).take 8) = w.toNat := by
  rw [List.take_left' (length_leBytes 8 _), leNat_leBytes, Nat.mod_eq_of_lt (by have := w.isLt; omega)]

theorem drop_leBytes (w : Word) (rest : List Byte) : (leBytes 8 w.toNat ++ rest).drop 8 = rest :=
  List.drop_left' (length_leBytes 8 _)

/-! ## Decoding, from bytes to words -/

/-- The words that a first word and, in an L pair, a second one make. -/
def wordsOf (w lit : Word) : List Word := w :: if isLong w.toNat then [lit] else []

theorem decode_wordsOf (w lit : Word) (rest : List Byte) :
    decode (wordBytes (wordsOf w lit) ++ rest) =
      (decodeWords w.toNat (if isLong w.toNat then lit.toNat else 0)).map fun i => (i, rest) := by
  unfold wordsOf
  cases long : isLong w.toNat with
  | false =>
    simp only [Bool.false_eq_true, if_false, wordBytes, List.append_nil, decode, leNat_take_leBytes, drop_leBytes, takesLiteral, long]
    rw [if_neg (by simp)]
    cases decodeWords w.toNat 0 <;> rfl
  | true =>
    simp only [if_true, wordBytes, List.append_nil, List.append_assoc, decode, leNat_take_leBytes, drop_leBytes, takesLiteral, long]
    rw [if_neg (by simp), if_neg (by simp)]
    cases decodeWords w.toNat lit.toNat <;> rfl

/-- Bytes that decode begin with one word or with an L pair. -/
theorem exists_wordsOf_of_decode {bs rest : List Byte} {i : Instr} (h : decode bs = .ok (i, rest)) :
    ∃ w lit : Word, ∃ after, bs = wordBytes (wordsOf w lit) ++ after := by
  unfold decode at h
  split at h
  · cases h
  · rename_i enough
    have first := leBytes_wordOf_append (Nat.le_of_not_lt enough)
    dsimp only at h
    rw [takesLiteral, ← toNat_wordOf] at h
    by_cases long : isLong (wordOf bs).toNat = true
    · rw [if_pos long] at h
      split at h
      · cases h
      · rename_i enough'
        have second := leBytes_wordOf_append (Nat.le_of_not_lt enough')
        refine ⟨wordOf bs, wordOf (bs.drop 8), (bs.drop 8).drop 8, ?_⟩
        rw [wordsOf, if_pos long, wordBytes, wordBytes, wordBytes, List.append_nil, List.append_assoc, second, first]
    · exact ⟨wordOf bs, 0, bs.drop 8, by rw [wordsOf, if_neg long, wordBytes, wordBytes, List.append_nil, first]⟩

/-- Bytes that decode are the bytes of the words that decode, and of what follows. -/
theorem words_of_decode {bs rest : List Byte} {i : Instr} (h : decode bs = .ok (i, rest)) :
    ∃ w lit : Word, bs = wordBytes (wordsOf w lit) ++ rest ∧ decodeWords w.toNat (if isLong w.toNat then lit.toNat else 0) = .ok i := by
  obtain ⟨w, lit, after, rfl⟩ := exists_wordsOf_of_decode h
  rw [decode_wordsOf] at h
  cases hd : decodeWords w.toNat (if isLong w.toNat then lit.toNat else 0) with
  | error e => rw [hd] at h; cases h
  | ok j =>
    rw [hd] at h
    cases h
    exact ⟨w, lit, rfl, hd⟩

/-! ## The fields of a word (R57 to R69) -/

/-! In each of the six formats the fields are all the bits of a word below MIN. -/

theorem RForm.low_ofWord (w : Nat) : (RForm.ofWord w).low = w % 2 ^ 50 := by
  simp only [RForm.ofWord, RForm.low, BitVec.toNat_ofNat, Nat.shiftRight_eq_div_pow]; omega
theorem IForm.low_ofWord (w : Nat) : (IForm.ofWord w).low = w % 2 ^ 50 := by
  simp only [IForm.ofWord, IForm.low, BitVec.toNat_ofNat, Nat.shiftRight_eq_div_pow]; omega
theorem JForm.low_ofWord (w : Nat) : (JForm.ofWord w).low = w % 2 ^ 50 := by
  simp only [JForm.ofWord, JForm.low, BitVec.toNat_ofNat, Nat.shiftRight_eq_div_pow]; omega
theorem MForm.low_ofWord (w : Nat) : (MForm.ofWord w).low = w % 2 ^ 50 := by
  simp only [MForm.ofWord, MForm.low, BitVec.toNat_ofNat, Nat.shiftRight_eq_div_pow]; omega
theorem SForm.low_ofWord (w : Nat) : (SForm.ofWord w).low = w % 2 ^ 50 := by
  simp only [SForm.ofWord, SForm.low, BitVec.toNat_ofNat, Nat.shiftRight_eq_div_pow]; omega
theorem XForm.low_ofWord (w : Nat) : (XForm.ofWord w).low = w % 2 ^ 50 := by
  simp only [XForm.ofWord, XForm.low, BitVec.toNat_ofNat, Nat.shiftRight_eq_div_pow]; omega

theorem Form.low_lt (f : Form) : f.low < 2 ^ 50 := by
  have small {n w : Nat} (h : n = w % 2 ^ 50) : n < 2 ^ 50 := h ▸ Nat.mod_lt _ (by decide)
  cases f with
  | r f => exact small ((congrArg RForm.low (r_back 0 0 f)).symm.trans (RForm.low_ofWord _))
  | i f => exact small ((congrArg IForm.low (i_back 0 0 f)).symm.trans (IForm.low_ofWord _))
  | j f => exact small ((congrArg JForm.low (j_back 0 0 f)).symm.trans (JForm.low_ofWord _))
  | m f => exact small ((congrArg MForm.low (m_back 0 0 f)).symm.trans (MForm.low_ofWord _))
  | s f => exact small ((congrArg SForm.low (s_back 0 0 f)).symm.trans (SForm.low_ofWord _))
  | x f => exact small ((congrArg XForm.low (x_back 0 0 f)).symm.trans (XForm.low_ofWord _))
  | l f =>
    have := f.kg.isLt; have := f.d.isLt; have := f.ty.isLt
    simp only [Form.low, LForm.low]; omega

/-- MAJ and MIN have their widths, and the second word is that of MAJ 0xF0 (R69). -/
def View.fits (v : View) : Bool := decide (v.maj < 2 ^ 8) && decide (v.min < 2 ^ 6) && ((v.maj == 0xF0) == v.form.literal.isSome)

theorem Instr.view_fits (i : Instr) : i.view.all View.fits = true := by
  cases i <;> rfl

theorem View.bits_word {v : View} (h : v.fits = true) :
    v.word < 2 ^ 64 ∧ bits v.word 63 56 = v.maj ∧ bits v.word 55 50 = v.min ∧ isLong v.word = v.form.literal.isSome := by
  simp only [View.fits, Bool.and_eq_true, decide_eq_true_eq, beq_iff_eq] at h
  obtain ⟨⟨maj, min⟩, long⟩ := h
  have low := Form.low_lt v.form
  have top : bits v.word 63 56 = v.maj := by simp only [bits, View.word, Nat.shiftRight_eq_div_pow]; omega
  refine ⟨by simp only [View.word]; omega, top, by simp only [bits, View.word, Nat.shiftRight_eq_div_pow]; omega, ?_⟩
  rw [isLong, top, long]

/-! ## The decoder's table (R73) -/

/-- A word that decodes: no field of it offends, and its row of the table names the instruction by its sub-operation code. -/
theorem decodeWords_eq_ok {w lit : Nat} {i : Instr} :
    decodeWords w lit = .ok i ↔ encodingOffence w lit = none ∧
      ∃ sub forms, (opcodeRows (bits w 63 56) w lit)[bits w 55 50]? = some (sub, forms) ∧ forms[sub]? = some i := by
  unfold decodeWords
  constructor
  · intro h
    split at h
    · split at h <;> cases h
    · rename_i sound
      split at h
      · cases h
      · rename_i sub forms row
        split at h
        · cases h
        · rename_i j form
          cases h
          exact ⟨sound, sub, forms, row, form⟩
  · rintro ⟨sound, sub, forms, row, form⟩
    rw [sound, row]
    dsimp only
    rw [form]

/-- The fields of a form are those of the word and of its literal. -/
def Form.readFrom (w lit : Nat) : Form → Prop
  | .r f => f = RForm.ofWord w
  | .i f => f = IForm.ofWord w
  | .j f => f = JForm.ofWord w
  | .m f => f = MForm.ofWord w
  | .s f => f = SForm.ofWord w
  | .x f => f = XForm.ofWord w
  | .l f => f = LForm.ofWords w lit

/-- An instruction with a MAJ, a MIN, its own sub-operation code and the fields of the word. -/
def ReadsAs (maj min w lit : Nat) (i : Instr) : Prop :=
  ∃ v, i.view = some v ∧ v.maj = maj ∧ v.min = min ∧ v.sub = true ∧ v.form.readFrom w lit

/-- From a place in a list of forms on, the one at the sub-operation code is such an instruction. -/
def FormsRead (maj min w lit sub : Nat) : Nat → List Instr → Prop
  | _, [] => True
  | k, i :: rest => (sub = k → ReadsAs maj min w lit i) ∧ FormsRead maj min w lit sub (k + 1) rest

/-- From a MIN on, every row of a table gives such instructions. -/
def RowsRead (maj w lit : Nat) : Nat → List (Nat × List Instr) → Prop
  | _, [] => True
  | n, row :: rest => FormsRead maj n w lit row.1 0 row.2 ∧ RowsRead maj w lit (n + 1) rest

theorem FormsRead.get {maj min w lit sub k j : Nat} {forms : List Instr} {i : Instr} (h : FormsRead maj min w lit sub k forms)
    (hi : forms[j]? = some i) (hs : sub = k + j) : ReadsAs maj min w lit i := by
  induction forms generalizing k j with
  | nil => cases hi
  | cons a rest ih =>
    cases j with
    | zero => cases hi; exact h.1 hs
    | succ j => exact ih h.2 hi (by omega)

theorem RowsRead.get {maj w lit n j sub : Nat} {rows : List (Nat × List Instr)} {forms : List Instr} {i : Instr} (h : RowsRead maj w lit n rows)
    (hr : rows[j]? = some (sub, forms)) (hi : forms[sub]? = some i) : ReadsAs maj (n + j) w lit i := by
  induction rows generalizing n j with
  | nil => cases hr
  | cons row rest ih =>
    cases j with
    | zero => cases hr; exact h.1.get hi (by omega)
    | succ j =>
      have := ih h.2 hr
      rwa [show n + 1 + j = n + (j + 1) by omega] at this

/-! The sub-operation codes of a word, in its fields and as the table reads them. -/

theorem SForm.cnd_ofWord_eq {w k : Nat} (h : k < 16) : (SForm.ofWord w).cnd = BitVec.ofNat 4 k ↔ bits w 23 20 = k := by
  simp only [SForm.ofWord, bits, ← BitVec.toNat_inj, BitVec.toNat_ofNat]
  omega

theorem IForm.mod_ofWord_zero (w : Nat) :
    ((IForm.ofWord w).mod[0] = false ↔ bits w 24 24 = 0) ∧ ((IForm.ofWord w).mod[0] = true ↔ bits w 24 24 = 1) := by
  simp [IForm.ofWord, bits, BitVec.getElem_eq_testBit_toNat, Nat.testBit_zero, Nat.shiftRight_eq_div_pow]

theorem XForm.mod_ofWord_zero (w : Nat) :
    ((XForm.ofWord w).mod[0] = false ↔ bits w 0 0 = 0) ∧ ((XForm.ofWord w).mod[0] = true ↔ bits w 0 0 = 1) := by
  simp [XForm.ofWord, bits, BitVec.getElem_eq_testBit_toNat, Nat.testBit_zero]

theorem XForm.mod_ofWord_low {w k : Nat} (h : k < 4) : (XForm.ofWord w).mod.extractLsb' 0 2 = BitVec.ofNat 2 k ↔ bits w 1 0 = k := by
  simp only [XForm.ofWord, bits, ← BitVec.toNat_inj, BitVec.extractLsb'_toNat, BitVec.toNat_ofNat, Nat.shiftRight_zero]
  omega

theorem opcodeRows_read (maj w lit : Nat) : RowsRead maj w lit 0 (opcodeRows maj w lit) := by
  unfold opcodeRows
  dsimp only
  split <;> simp [RowsRead, FormsRead, ReadsAs, Instr.view, Form.readFrom, SForm.cnd_ofWord_eq, IForm.mod_ofWord_zero, XForm.mod_ofWord_zero,
    XForm.mod_ofWord_low]

/-! ## Fields that offend (R77) -/

theorem higher_eq_none {a b : Option (Nat × Nat)} : higher a b = none ↔ a = none ∧ b = none := by
  cases a <;> cases b <;> simp [higher]
  split <;> simp

theorem worstOffence_eq_none {w : Nat} {fs : List Field} :
    worstOffence w fs = none ↔ ∀ f ∈ fs, f.chk.why (bits w f.hi f.lo) = none := by
  induction fs with
  | nil => simp [worstOffence]
  | cons f rest ih => simp [worstOffence, higher_eq_none, ih]

/-- A word whose fields are sound has an assigned MAJ and MIN, and every field of its row is one that its check lets through. -/
theorem sound_of_encodingOffence {w lit : Nat} (h : encodingOffence w lit = none) :
    ∃ rows fs, fieldRows (bits w 63 56) w = some rows ∧ rows[bits w 55 50]? = some fs ∧ ∀ f ∈ fs, f.chk.why (bits w f.hi f.lo) = none := by
  unfold encodingOffence at h
  split at h
  · cases h
  · rename_i rows assigned
    split at h
    · cases h
    · rename_i fs row
      split at h
      · cases h
      · exact ⟨rows, fs, assigned, row, worstOffence_eq_none.mp (by simpa using h)⟩

theorem Chk.why_zero_eq_none {n : Nat} : Chk.why .zero n = none ↔ n = 0 := by
  simp [Chk.why]

/-- A reserved field that is 0 takes its place away from the number below its high end. -/
theorem mod_of_reserved {w hi lo : Nat} (h : lo ≤ hi) (sound : Chk.why .zero (bits w hi lo) = none) : w % 2 ^ (hi + 1) = w % 2 ^ lo := by
  have zero : w / 2 ^ lo % 2 ^ (hi - lo + 1) = 0 := by
    simpa [Chk.why_zero_eq_none, bits, Nat.shiftRight_eq_div_pow] using sound
  rw [show hi + 1 = lo + (hi - lo + 1) by omega, Nat.pow_add, Nat.mod_mul, zero, Nat.mul_zero, Nat.add_zero]

/-- The reserved fields of an L pair are 0, so that its guard, D and TY are all its bits below MIN (R69, R100). -/
theorem LForm.low_ofWords {w lit : Nat} (long : bits w 63 56 = 0xF0) (h : encodingOffence w lit = none) :
    (LForm.ofWords w lit).low = w % 2 ^ 50 := by
  obtain ⟨rows, fs, assigned, row, sound⟩ := sound_of_encodingOffence h
  rw [long] at assigned
  obtain rfl : fieldsF0 w = rows := Option.some.inj assigned
  have parts (middle : w % 2 ^ 40 = w % 2 ^ 22) (last : w % 2 ^ 17 = 0) : (LForm.ofWords w lit).low = w % 2 ^ 50 := by
    simp only [LForm.ofWords, LForm.low, BitVec.toNat_ofNat, Nat.shiftRight_eq_div_pow]
    omega
  have mem := List.mem_of_getElem? row
  have branch (f : fs = [⟨45, 40, .zero⟩, ⟨39, 32, .zero⟩, ⟨31, 0, .zero⟩]) : (LForm.ofWords w lit).low = w % 2 ^ 50 := by
    simp only [f, List.forall_mem_cons] at sound
    obtain ⟨-, high, low, -⟩ := sound
    have high := mod_of_reserved (by decide) high
    have low := mod_of_reserved (by decide) low
    exact parts (by omega) (by omega)
  have register (ty : Chk) (f : fs = rF .any .zero .zero .zero ty .zero .zero false false false rMod0) : (LForm.ofWords w lit).low = w % 2 ^ 50 := by
    simp only [f, rF, rMod0, useIf, List.cons_append, List.nil_append, Bool.false_eq_true, if_false, List.forall_mem_cons] at sound
    obtain ⟨-, a, b, c, -, rm, sm, fa, fb, fc, mod, -⟩ := sound
    refine parts ?_ ?_
    · exact (mod_of_reserved (by decide) a).trans ((mod_of_reserved (by decide) b).trans (mod_of_reserved (by decide) c))
    · refine (mod_of_reserved (by decide) rm).trans ((mod_of_reserved (by decide) sm).trans ((mod_of_reserved (by decide) fa).trans ?_))
      exact (mod_of_reserved (by decide) fb).trans ((mod_of_reserved (by decide) fc).trans ((mod_of_reserved (by decide) mod).trans (Nat.mod_one w)))
  simp only [fieldsF0, List.mem_cons, List.not_mem_nil, or_false] at mem
  rcases mem with f | f | f | f
  · exact branch f
  · exact branch f
  · exact register _ f
  · exact register _ f

theorem word_of_bits {w : Nat} (h : w < 2 ^ 64) : bits w 63 56 * 2 ^ 56 + bits w 55 50 * 2 ^ 50 + w % 2 ^ 50 = w := by
  simp only [bits, Nat.shiftRight_eq_div_pow]
  omega

/-! ## Opcodes that are not assigned (R73, R74) -/

theorem decodeWords_unassignedMaj {w : Nat} (lit : Nat) (h : fieldRows (bits w 63 56) w = none) :
    decodeWords w lit = .error (.illegalOpcode 63) := by
  simp [decodeWords, encodingOffence, h]

theorem decodeWords_unassignedMin {w : Nat} {rows : List (List Field)} (lit : Nat) (h : fieldRows (bits w 63 56) w = some rows)
    (beyond : rows.length ≤ bits w 55 50) : decodeWords w lit = .error (.illegalOpcode 55) := by
  simp [decodeWords, encodingOffence, h, List.getElem?_eq_none beyond]

theorem fieldRows_eq_none {maj : Nat} (w : Nat)
    (h : maj ∉ [0x01, 0x02, 0x03, 0x10, 0x11, 0x12, 0x13, 0x40, 0x50, 0x60, 0x68, 0x70, 0x80, 0x81, 0x82, 0x83, 0xC0, 0xC1, 0xD0, 0xD1, 0xD2, 0xD3, 0xD4,
      0xE0, 0xE8, 0xF0]) : fieldRows maj w = none := by
  unfold fieldRows
  split <;> simp at h ⊢

/-! ## Decoding and encoding of words -/

theorem Form.low_of_readFrom {w lit : Nat} {f : Form} (h : f.readFrom w lit) (long : f.literal.isSome = (bits w 63 56 == 0xF0))
    (sound : encodingOffence w lit = none) : f.low = w % 2 ^ 50 := by
  cases f with
  | r f => exact h ▸ RForm.low_ofWord w
  | i f => exact h ▸ IForm.low_ofWord w
  | j f => exact h ▸ JForm.low_ofWord w
  | m f => exact h ▸ MForm.low_ofWord w
  | s f => exact h ▸ SForm.low_ofWord w
  | x f => exact h ▸ XForm.low_ofWord w
  | l f => exact h ▸ LForm.low_ofWords (eq_of_beq long.symm) sound

/-- An instruction that a word decodes to: its view has the word's own fields. -/
theorem view_of_decodeWords {w lit : Nat} {i : Instr} (hw : w < 2 ^ 64) (h : decodeWords w lit = .ok i) :
    ∃ v, i.view = some v ∧ v.sub = true ∧ v.word = w ∧ v.form.literal = if isLong w then some (BitVec.ofNat 64 lit) else none := by
  obtain ⟨sound, sub, forms, row, form⟩ := decodeWords_eq_ok.mp h
  obtain ⟨v, hv, maj, min, own, fields⟩ := (opcodeRows_read _ w lit).get row form
  have fits := Instr.view_fits i
  rw [hv, Option.all_some, View.fits, Bool.and_eq_true, beq_iff_eq, maj] at fits
  obtain ⟨-, long⟩ := fits
  have low := Form.low_of_readFrom fields long.symm sound
  refine ⟨v, hv, own, ?_, ?_⟩
  · rw [View.word, maj, min, low, Nat.zero_add, word_of_bits hw]
  · rw [isLong, long]
    cases hf : v.form with
    | l f => rw [hf] at fields; simp [Form.literal, show f = LForm.ofWords w lit from fields, LForm.ofWords]
    | r f | i f | j f | m f | s f | x f => rfl

/-- `Instr.formError` over any judgement of the words: with a judgement that is a variable, no check of a proof evaluates the fields of a word. -/
def Instr.formErrorBy (offence : Nat → Nat → Option (Nat × Nat × Bool)) (i : Instr) : Option FormError :=
  match i.view with
  | none => if i.unitOk then none else some .noSuchUnit
  | some v =>
    match offence v.word (v.form.literal.getD 0).toNat with
    | some (hi, why, second) => some (.encoding hi why second)
    | none => if v.sub then none else some .otherForm

theorem Instr.formErrorBy_encodingOffence (i : Instr) : i.formErrorBy encodingOffence = i.formError := rfl

theorem Instr.formErrorBy_eq_none {i : Instr} {v : View} (offence : Nat → Nat → Option (Nat × Nat × Bool)) (h : i.view = some v) :
    i.formErrorBy offence = none ↔ offence v.word (v.form.literal.getD 0).toNat = none ∧ v.sub = true := by
  simp only [Instr.formErrorBy, h]
  generalize offence v.word (v.form.literal.getD 0).toNat = o
  cases o with
  | some o => simp
  | none => cases v.sub <;> simp

theorem wellFormed_iff {i : Instr} {v : View} (h : i.view = some v) :
    i.wellFormed = true ↔ encodingOffence v.word (v.form.literal.getD 0).toNat = none ∧ v.sub = true := by
  rw [Instr.wellFormed, ← Instr.formErrorBy_encodingOffence, Option.isNone_iff_eq_none]
  exact Instr.formErrorBy_eq_none encodingOffence h

section
open Sys2Proof.Laws.TableRow

/-- The row of every instruction gives it back from its own word: event rows have no word, and the others are as the laws of the table say. -/
theorem tableRow (i : Instr) : Statement i := by
  cases i <;> rintro _ ⟨⟩
  exacts [nop _ _ rfl, br _ _ rfl, brany _ _ rfl, brall _ _ rfl, call _ _ rfl, ret _ _ rfl, brx _ _ rfl, callx _ _ rfl, loop _ _ rfl,
    endFiring _ _ rfl, ipf _ _ rfl, brL _ _ rfl, callL _ _ rfl, moviL _ _ rfl, leaL _ _ rfl, modbind _ _ rfl, modfree _ _ rfl, modq _ _ rfl,
    add _ _ rfl, sub _ _ rfl, mul _ _ rfl, mulh _ _ rfl, div _ _ rfl, rem _ _ rfl, and _ _ rfl, or _ _ rfl, xor _ _ rfl, andn _ _ rfl, shl _ _ rfl,
    shr _ _ rfl, sra _ _ rfl, rot _ _ rfl, clz _ _ rfl, ctz _ _ rfl, popc _ _ rfl, min _ _ rfl, max _ _ rfl, absd _ _ rfl, cmp _ _ rfl, sel _ _ rfl,
    mov _ _ rfl, ext _ _ rfl, ins _ _ rfl, lea _ _ rfl, addImm _ _ rfl, andImm _ _ rfl, orImm _ _ rfl, xorImm _ _ rfl, shlImm _ _ rfl,
    shrImm _ _ rfl, sraImm _ _ rfl, cmpImm _ _ rfl, movi _ _ rfl, leaImm _ _ rfl, leaPc _ _ rfl, kset _ _ rfl, klog _ _ rfl, kmov _ _ rfl,
    kcnt _ _ rfl, flag _ _ rfl, empty _ _ rfl, full _ _ rfl, gets _ _ rfl, sets _ _ rfl, gettTicks _ _ rfl, gettPtp _ _ rfl, gettBoth _ _ rfl,
    perf _ _ rfl, guardEntry _ _ rfl, guardTable _ _ rfl, unguardOne _ _ rfl, unguardMask _ _ rfl, gqryEntry _ _ rfl, gqryElig _ _ rfl, ctxq _ _ rfl,
    qpush _ _ rfl, qpop _ _ rfl, qpeek _ _ rfl, qres _ _ rfl, qrel _ _ rfl, qeos _ _ rfl, qcred _ _ rfl, qbindPort _ _ rfl, qbindHome _ _ rfl,
    qbindTmpl _ _ rfl, qunbind _ _ rfl, qstat _ _ rfl, qfwd _ _ rfl, mcadd _ _ rfl, mcread _ _ rfl, wcond _ _ rfl, wait _ _ rfl, eread _ _ rfl,
    eclr _ _ rfl, lease _ _ rfl, lrenew _ _ rfl, lfreeHeld _ _ rfl, lfreePend _ _ rfl, lqryLease _ _ rfl, lqryCls _ _ rfl, evackNow _ _ rfl,
    evackDrain _ _ rfl, rast _ _ rfl, trace _ _ rfl, sample _ _ rfl, codec _ _ rfl, spawn _ _ rfl, gload _ _ rfl, garm _ _ rfl, gdrainGraph _ _ rfl,
    gdrainQdrain _ _ rfl, gdrainQabort _ _ rfl, gstart _ _ rfl, placePin _ _ rfl, placeHint _ _ rfl, placeFree _ _ rfl, placeOwn _ _ rfl,
    lstatLaunch _ _ rfl, lstatGraph _ _ rfl, vadd _ _ rfl, vsub _ _ rfl, vmul _ _ rfl, vmulh _ _ rfl, vmad _ _ rfl, vand _ _ rfl, vor _ _ rfl,
    vxor _ _ rfl, vshl _ _ rfl, vshr _ _ rfl, vsra _ _ rfl, vmin _ _ rfl, vmax _ _ rfl, vabs _ _ rfl, vcmp _ _ rfl, vsel _ _ rfl, vmov _ _ rfl,
    vpopc _ _ rfl, fadd _ _ rfl, fsub _ _ rfl, fmul _ _ rfl, ffma _ _ rfl, fmin _ _ rfl, fmax _ _ rfl, fsgn _ _ rfl, fcmp _ _ rfl, fclass _ _ rfl,
    frcps _ _ rfl, frsqs _ _ rfl, fexp2 _ _ rfl, flog2 _ _ rfl, fsinp _ _ rfl, fcosp _ _ rfl, frnd _ _ rfl, vbcast _ _ rfl, vperm _ _ rfl,
    vrot _ _ rfl, vred _ _ rfl, vscan _ _ rfl, vextl _ _ rfl, vinsl _ _ rfl, cvt _ _ rfl, cvtq _ _ rfl, cvtd _ _ rfl, pack _ _ rfl, unpack _ _ rfl,
    amax _ _ rfl, scale _ _ rfl, mxlds _ _ rfl, mxswap _ _ rfl, mxstrm _ _ rfl, mxtile _ _ rfl, mxzero _ _ rfl, mxrd _ _ rfl, mxwr _ _ rfl,
    mxtrn _ _ rfl, mxperm _ _ rfl, mxrred _ _ rfl, mxescWiden _ _ rfl, mxescNarrow _ _ rfl, mxtok _ _ rfl, bdrdBnd _ _ rfl, bdrdStat _ _ rfl,
    bdwr _ _ rfl, bdthr _ _ rfl, bdst _ _ rfl, bdld _ _ rfl, bdpropCvt _ _ rfl, bdpropScale _ _ rfl, bdpropSum _ _ rfl, ld _ _ rfl, vld _ _ rfl,
    vldx _ _ rfl, st _ _ rfl, vst _ _ rfl, vstx _ _ rfl, atom _ _ rfl, atomr _ _ rfl, cas _ _ rfl, copy _ _ rfl, chain _ _ rfl, awarm _ _ rfl,
    awcred _ _ rfl, fence _ _ rfl, pref _ _ rfl, cwb _ _ rfl, cinv _ _ rfl, cflush _ _ rfl, bankcfg _ _ rfl, blend _ _ rfl, seqret _ _ rfl,
    assetMake _ _ rfl, assetRoot _ _ rfl, assetKill _ _ rfl, assetSelf _ _ rfl, tlbinvVa _ _ rfl, tlbinvAsid _ _ rfl, tlbinvIpa _ _ rfl,
    tlbinvPart _ _ rfl, partcfgOpen _ _ rfl, partcfgShut _ _ rfl, partcfgAssign _ _ rfl, partcfgWays _ _ rfl, partcfgShare _ _ rfl,
    partcfgGang _ _ rfl, partcfgQbank _ _ rfl, partcfgQsb _ _ rfl, partcfgQdel _ _ rfl, partcfgHostwin _ _ rfl, quote _ _ rfl, svc _ _ rfl,
    trap _ _ rfl, resumeSelf _ _ rfl, resumeCtx _ _ rfl, rqrd _ _ rfl, rqwr _ _ rfl, ckpt _ _ rfl, swapNow _ _ rfl, swapFull _ _ rfl,
    swapStage _ _ rfl, spillqSave _ _ rfl, spillqRestore _ _ rfl]

end

/-- The words of an instruction: its first word, and its literal in an L pair. -/
theorem encode_eq {i : Instr} {v : View} (h : i.view = some v) : encode i = BitVec.ofNat 64 v.word :: v.form.literal.toList := by
  rw [encode, h]

theorem encode_eq_wordsOf {i : Instr} (h : i.view.isSome = true) : ∃ w lit, encode i = wordsOf w lit := by
  obtain ⟨v, hv⟩ := Option.isSome_iff_exists.mp h
  obtain ⟨small, -, -, long⟩ := View.bits_word (by simpa [hv] using Instr.view_fits i : v.fits = true)
  refine ⟨BitVec.ofNat 64 v.word, v.form.literal.getD 0, ?_⟩
  rw [encode_eq hv, wordsOf, BitVec.toNat_ofNat, Nat.mod_eq_of_lt small, long]
  cases v.form.literal <;> rfl

/-- Words decode to an instruction just where it is well formed and they are its words. -/
theorem decodeWords_iff_encode {w lit : Word} {i : Instr} :
    decodeWords w.toNat (if isLong w.toNat then lit.toNat else 0) = .ok i ↔
      i.wellFormed = true ∧ i.view.isSome = true ∧ encode i = wordsOf w lit := by
  constructor
  · intro h
    obtain ⟨v, hv, own, word, literal⟩ := view_of_decodeWords w.isLt h
    have value : (v.form.literal.getD 0).toNat = if isLong w.toNat then lit.toNat else 0 := by
      rw [literal]
      cases isLong w.toNat <;> simp
    refine ⟨(wellFormed_iff hv).mpr ⟨?_, own⟩, by simp [hv], ?_⟩
    · rw [word, value]
      exact (decodeWords_eq_ok.mp h).1
    · rw [encode_eq hv, word, literal, wordsOf]
      cases isLong w.toNat <;> simp
  · rintro ⟨formed, word, words⟩
    obtain ⟨v, hv⟩ := Option.isSome_iff_exists.mp word
    obtain ⟨sound, own⟩ := (wellFormed_iff hv).mp formed
    obtain ⟨small, maj, min, long⟩ := View.bits_word (by simpa [hv] using Instr.view_fits i : v.fits = true)
    rw [encode_eq hv, wordsOf, List.cons.injEq] at words
    obtain ⟨rfl, literal⟩ := words
    rw [BitVec.toNat_ofNat, Nat.mod_eq_of_lt small] at literal ⊢
    have value : (if isLong v.word then lit.toNat else 0) = (v.form.literal.getD 0).toNat := by
      rw [long] at literal ⊢
      cases hl : v.form.literal with
      | none => rfl
      | some x =>
        obtain rfl : x = lit := by simpa [hl] using literal
        rfl
    rw [value, decodeWords_eq_ok, maj, min]
    exact ⟨sound, tableRow i v hv own⟩

end Sys2Proof

namespace Sys2Proof.EncodingProofs
open Sys2Proof Sys2Proof.Machine

theorem encodingUndoesDecoding : Claims.encodingUndoesDecoding := by
  intro bs rest i h
  obtain ⟨w, lit, bytes, decoded⟩ := words_of_decode h
  obtain ⟨formed, -, words⟩ := decodeWords_iff_encode.mp decoded
  exact ⟨formed, by rw [words, bytes]⟩

theorem unassignedOpcodesRefused : Claims.unassignedOpcodesRefused := by
  refine fun w lit _ => ⟨fun unlisted => ?_, fun m listed maj beyond => ?_⟩
  · exact decodeWords_unassignedMaj lit (fieldRows_eq_none w unlisted)
  · have rows : ((fieldRows m.1 w).map List.length == some m.2) = true :=
      (List.all_eq_true (p := fun m => (fieldRows m.1 w).map List.length == some m.2)).mp rfl m listed
    obtain ⟨rows, assigned, length⟩ := Option.map_eq_some_iff.mp (eq_of_beq rows)
    exact decodeWords_unassignedMin lit (maj ▸ assigned) (length ▸ beyond)

end Sys2Proof.EncodingProofs

open Sys2Proof Sys2Proof.Machine Sys2Proof.EncodingProofs

/-- Settles O2: the bytes give the words back, the fields of a word give MAJ, MIN and the form back, and the table's row at them the instruction. -/
theorem decodingUndoesEncoding : Obligations.DecodingUndoesEncoding := by
  intro i rest formed word
  obtain ⟨w, lit, words⟩ := encode_eq_wordsOf word
  rw [words, decode_wordsOf, decodeWords_iff_encode.mpr ⟨formed, word, words⟩]
  rfl

/-- Settles O3: a form read from a word holds all its bits below MIN, since an L pair's other fields are reserved, so the word is encoded again; and the
field table has no row for an unassigned opcode. -/
theorem decodingIsExact : Obligations.DecodingIsExact := ⟨encodingUndoesDecoding, unassignedOpcodesRefused⟩

/-- Settles O1, by decoding the five words. -/
theorem writtenWordsDecode : Obligations.WrittenWordsDecode :=
  ⟨by decide +kernel, by decide +kernel, by decide +kernel, by decide +kernel, by decide +kernel⟩

end

section

namespace Sys2Proof.Machine

/-! ## What every instruction word asks of its issue (R58, R59, R75) -/

/-- The privilege of an instruction word, and its guard, which is its KG field where it is scalar. -/
structure Asks (i : Instr) (v : View) (a : Ask) : Prop where
  priv : a.priv = Claims.privOf i
  guard : a.guard = if Claims.isVector v.maj v.min then .vector else if Claims.takesNoGuard v.maj v.min then .unguarded else .scalar
  kg : a.guard = .scalar → a.kg = v.form.kg

/-- Every instruction word but SVC issues through the one function, with the privilege and the guard that the manual gives it. -/
theorem exec_issues {i : Instr} {v : View} (h : i.view = some v) (notSvc : ∀ f, i ≠ .svc f) (s : State) :
    ∃ a body, Asks i v a ∧ exec i s = runControl i a body s := by
  cases i <;> cases h
  case svc f => exact absurd rfl (notSvc f)
  case endFiring f => exact ⟨_, _, ⟨rfl, rfl, fun h => Guarding.noConfusion h⟩, rfl⟩
  case resumeSelf f => exact ⟨_, _, ⟨rfl, rfl, fun h => Guarding.noConfusion h⟩, rfl⟩
  all_goals exact ⟨_, _, ⟨rfl, rfl, fun _ => rfl⟩, rfl⟩

/-- What SVC adds to the outcome of its issue: an SVC that has been carried out releases at scope package (R379). -/
def State.afterSvc (s : State) (r : Result) : Result :=
  match r with
  | .next t => .next (if s.svcDone t then t.releaseWays (s.cur.getD 0) 4 else t)
  | r => r

theorem State.afterSvc_undone {s t : State} (h : s.svcDone t = false) : s.afterSvc (.next t) = .next t := by
  simp [State.afterSvc, h]

theorem exec_svc_issues (f : SForm) (s : State) :
    ∃ a body, Asks (.svc f) ⟨0xE0, 4, true, .s f⟩ a ∧ exec (.svc f) s = s.afterSvc (runControl (.svc f) a body s) :=
  ⟨sAsk f [sA f, sB .g f] [gDst f.d.toNat], _, ⟨rfl, rfl, fun _ => rfl⟩, rfl⟩

/-! ## A context that has only moved on -/

/-- The counts of an issue move nothing of a context but its counters. -/
theorem State.ctx?_issuedOne (s : State) (key graph k : Nat) : ((s.issuedOne key graph).ctx? k).map Ctx.uncounted = (s.ctx? k).map Ctx.uncounted :=
  (State.ctx?_passTime _ key k).trans (State.ctx?_countEvent _ key 1 1 k)

/-- A context whose frames are as they were, in the firing it was in, has carried out no SVC. -/
theorem State.svcDone_issuedOne {s : State} {key : Nat} {c : Ctx} {f : Firing} (h : Issuing s key c f) (g : Firing) (graph : Nat)
    (same : g.serial = f.serial) : s.svcDone ((s.setCtx key { c with firing := some g }).issuedOne key graph) = false := by
  have counted := State.ctx?_issuedOne (s.setCtx key { c with firing := some g }) key graph key
  rw [State.ctx?_setCtx, Option.map_some, Option.map_eq_some_iff] at counted
  obtain ⟨d, hd, moved⟩ := counted
  have frames : d.frames = c.frames := (congrArg Ctx.frames moved :)
  have firing : d.firing = some g := (congrArg Ctx.firing moved :)
  simp [State.svcDone, h.cur, h.ctx, h.firing, hd, frames, firing, same]

end Sys2Proof.Machine

open Sys2Proof Sys2Proof.Machine

/-- Settles O9: SVC, which every privilege may issue, aside, an instruction word issues with the privilege that R75 asks of it, and that is checked first. -/
theorem privilegeChecked : Obligations.PrivilegeChecked := by
  intro s key c f i h word below
  obtain ⟨v, hv⟩ := Option.isSome_iff_exists.mp word
  have notSvc : ∀ x, i ≠ .svc x := by
    rintro x rfl
    exact absurd below (Nat.not_lt_zero _)
  obtain ⟨a, body, asks, run⟩ := exec_issues hv notSvc s
  rw [run, runControl_privilege h (asks.priv ▸ below), asks.priv]

/-- Settles O8: a scalar guard that is off ends the issue before the body, and an SVC that has only moved on is not carried out. -/
theorem guardOffSkips : Obligations.GuardOffSkips := by
  intro s key c f i v h hv scalar guarded off priv
  have skips (a : Ask) (body : M Next) (asks : Asks i v a) : runControl i a body s =
      .next ((s.setCtx key { c with firing := some { f with pc := nextPc f.pc (instrLen i), stall := .none } }).issuedOne key c.graph) := by
    have guard : a.guard = .scalar := by simp [asks.guard, scalar, guarded]
    exact runControl_guardOff h (Nat.not_lt.mpr (asks.priv ▸ priv)) guard (asks.kg guard ▸ off)
  by_cases svc : ∃ x, i = .svc x
  · obtain ⟨x, rfl⟩ := svc
    cases hv
    obtain ⟨a, body, asks, run⟩ := exec_svc_issues x s
    rw [run, skips a body asks]
    exact State.afterSvc_undone (State.svcDone_issuedOne h _ _ rfl)
  · obtain ⟨a, body, asks, run⟩ := exec_issues hv (fun x hx => svc ⟨x, hx⟩) s
    rw [run, skips a body asks]

end

section

namespace Sys2Proof.Machine

/-! ## Transfers that are refused (R57, R83, R84) -/

/-- No refused transfer is a call of a supervisor. -/
theorem svc_of_refuses {s : State} {c : Ctx} {f : Firing} {t : Target} {tr : Trap} (h : Claims.refuses s c f t tr) : tr.svc = false := by
  obtain ⟨-, rfl⟩ | ⟨-, -, rfl⟩ | ⟨b, -, -, -, rfl⟩ := h <;> rfl

theorem run_transferTo_refused {s : State} {key : Nat} {c : Ctx} {f : Firing} {t : Target} {tr : Trap} (h : Issuing s key c f)
    (refused : Claims.refuses s c f t tr) : (transferTo t).run s = .error (.trap tr) := by
  unfold transferTo
  rw [M.run_bind_ok (run_curCtx h.cur h.ctx), M.run_bind_ok (run_curFiring h.cur h.ctx h.firing)]
  obtain ⟨misaligned, rfl⟩ | ⟨aligned, absent, rfl⟩ | ⟨b, aligned, enters, outside, rfl⟩ := refused
  · simp [misaligned]
  · simp [aligned, absent]
  · simp [aligned, enters, outside]

/-! ## Captured operands, as a body reads them -/

theorem run_opG_capture {s : State} {c : Ctx} {e : ReplayEntry} {r : Src} {l : List Src} (kind : r.kind = .g) (later : ∀ x ∈ l, x.slot ≠ r.slot) :
    (opG r.slot).run (s.issues (some (capture c e (r :: l)))) = .ok (c.rg r.n, s.issues (some (capture c e (r :: l)))) := by
  rw [run_opG rfl, capture_op c e r l later, Ctx.readSrc, kind]
  exact congrArg (fun p => Except.ok (p, _)) (captured_word _)

theorem run_opK_capture {s : State} {c : Ctx} {e : ReplayEntry} {r : Src} {l : List Src} (kind : r.kind = .k) (later : ∀ x ∈ l, x.slot ≠ r.slot) :
    (opK r.slot).run (s.issues (some (capture c e (r :: l)))) = .ok (c.rk r.n, s.issues (some (capture c e (r :: l)))) := by
  unfold opK
  rw [M.run_bind_ok (run_opV rfl r.slot), M.run_pure, capture_op c e r l later, Ctx.readSrc, kind]
  exact congrArg (fun k => Except.ok (k, _)) (captured_kmask _)

section
variable (s : State) (i : Instr) (kg : Nat) (c : Ctx) (f : Firing)

theorem run_opG_captured_rA (x : RForm) :
    (opG .a).run (s.issues (some (captured i [rA .g x] kg c f))) = .ok (c.rg x.a.toNat, s.issues (some (captured i [rA .g x] kg c f))) :=
  run_opG_capture (r := rA .g x) rfl nofun

theorem run_opG_captured_jA (x : JForm) :
    (opG .a).run (s.issues (some (captured i [jA .g x] kg c f))) = .ok (c.rg x.a.toNat, s.issues (some (captured i [jA .g x] kg c f))) :=
  run_opG_capture (r := jA .g x) rfl nofun

/-- The masks of BRANY and BRALL. -/
theorem run_opK_captured_masks (x : JForm) :
    (opK .a).run (s.issues (some (captured i [jA .k x, jM x] kg c f))) =
      .ok (c.rk x.a.toNat, s.issues (some (captured i [jA .k x, jM x] kg c f))) ∧
    (opK .b).run (s.issues (some (captured i [jA .k x, jM x] kg c f))) =
      .ok (c.rk (bits x.mod.toNat 3 0), s.issues (some (captured i [jA .k x, jM x] kg c f))) :=
  ⟨run_opK_capture (r := jA .k x) rfl (by simp [jA, jM]), run_opK_capture (r := jM x) rfl nofun⟩

end

/-- An M-format address that is misaligned, from the captured base and index, raises ALIGNMENT with it (R65, R252). -/
theorem run_memAddr_misaligned {s : State} {c : Ctx} {e : ReplayEntry} {x : MForm} {a : Nat}
    (address : effAddr x.ty.toNat (c.rg x.base.toNat) (if x.idx = 0 then 0 else c.rg x.idx.toNat) x.disp.toInt = some a)
    (misaligned : a % tyBytes x.ty.toNat ≠ 0) :
    (memAddr x.ty.toNat (x.idx ≠ 0) (mDisp x)).run (s.issues (some (capture c e (mBase x :: mIdx x)))) =
      .error (.trap { cause := cAlignment, info := wd a }) := by
  have base : (opG .b).run (s.issues (some (capture c e (mBase x :: mIdx x)))) = .ok (c.rg x.base.toNat, _) :=
    run_opG_capture (r := mBase x) rfl (by unfold mIdx; split <;> simp [mBase])
  unfold memAddr
  rw [M.run_bind_ok base]
  by_cases none : x.idx = 0
  · rw [if_pos none] at address
    rw [if_neg (by simp [none]), pure_bind, mDisp]
    dsimp only
    rw [address]
    simp [misaligned]
  · rw [if_neg none] at address
    have index : (opG .c).run (s.issues (some (capture c e (mBase x :: mIdx x)))) = .ok (c.rg x.idx.toNat, s.issues (some (capture c e (mBase x :: mIdx x)))) := by
      rw [mIdx, if_neg none]
      exact run_opG_capture (r := { slot := .c, kind := .g, n := x.idx.toNat }) rfl nofun
    rw [if_pos (by simpa using none), M.run_bind_ok index]
    simp [mDisp, address, misaligned]

/-- Masks are always ready (R36). -/
theorem operands_masks (s : State) (key : Nat) (c : Ctx) (x : JForm) : Operands s key c [jA .k x, jM x] [] where
  full := by simp [jA, jM, Ctx.isEmptySrc]
  sound := by simp [jA, jM, Ctx.fails]
  free := nofun

theorem operands_none (s : State) (key : Nat) (c : Ctx) : Operands s key c [] [] := ⟨nofun, nofun, nofun⟩

section
variable {s : State} {key : Nat} {c : Ctx} {f : Firing} {tr : Trap}

/-- A transfer of a word without privilege whose guard is on and whose operands are ready traps where its body is refused. -/
theorem runControl_refused {i : Instr} {a : Ask} {body : M Next} {t : Target} (h : Issuing s key c f) (user : a.priv = .u)
    (on : (c.rk a.kg).getLsbD 0 = true) (ops : Operands s key c a.srcs a.dsts) (refused : Claims.refuses s c f t tr)
    (run : body.run (s.issues (some (captured i a.srcs a.kg c f))) = .error (.trap tr)) :
    runControl i a body s = .next (s.trapped key f i tr) :=
  runControl_traps h (by rw [user]; exact Nat.not_lt_zero _) (fun _ => on) ops run (svc_of_refuses refused)

end

end Sys2Proof.Machine

namespace Sys2Proof.FaultProofs
open Sys2Proof Sys2Proof.Machine

section
variable {s : State} {key : Nat} {c : Ctx} {f : Firing} {tr : Trap}

theorem offset_faults {x : JForm} (h : Issuing s key c f) (on : c.guardOn x.kg) (refused : Claims.refuses s c f (Claims.relative f x) tr) :
    exec (.br x) s = .next (s.trapped key f (.br x) tr) ∧
    (c.rk x.a.toNat &&& c.rk (bits x.mod.toNat 3 0) ≠ 0 → exec (.brany x) s = .next (s.trapped key f (.brany x) tr)) ∧
    (c.rk x.a.toNat &&& c.rk (bits x.mod.toNat 3 0) = c.rk (bits x.mod.toNat 3 0) → exec (.brall x) s = .next (s.trapped key f (.brall x) tr)) ∧
    (Operands s key c [] [gDst 63] → exec (.call x) s = .next (s.trapped key f (.call x) tr)) ∧
    (Operands s key c [jA .g x] [gDst x.a.toNat] → 1 < (c.rg x.a.toNat).toNat → exec (.loop x) s = .next (s.trapped key f (.loop x) tr)) := by
  have transfer (e : Option ReplayEntry) := run_transferTo_refused (h.issues e) refused
  refine ⟨?_, fun any => ?_, fun all => ?_, fun ops => ?_, fun ops above => ?_⟩
  · refine runControl_refused h rfl on (operands_none _ _ _) refused ?_
    rw [M.run_bind_ok (run_curPc rfl), captured_pc]
    exact transfer _
  · refine runControl_refused h rfl on (operands_masks _ _ _ x) refused ?_
    obtain ⟨a, m⟩ := run_opK_captured_masks s (.brany x) x.kg.toNat c f x
    dsimp only [jAsk]
    rw [M.run_bind_ok a, M.run_bind_ok m, if_pos any, M.run_bind_ok (run_curPc rfl), captured_pc]
    exact transfer _
  · refine runControl_refused h rfl on (operands_masks _ _ _ x) refused ?_
    obtain ⟨a, m⟩ := run_opK_captured_masks s (.brall x) x.kg.toNat c f x
    dsimp only [jAsk]
    rw [M.run_bind_ok m, M.run_bind_ok a, if_pos all, M.run_bind_ok (run_curPc rfl), captured_pc]
    exact transfer _
  · refine runControl_refused h rfl on ops refused ?_
    rw [M.run_bind_ok (run_curPc rfl), captured_pc]
    exact M.run_bind_error (transfer _)
  · refine runControl_refused h rfl on ops refused ?_
    dsimp only [jAsk]
    rw [M.run_bind_ok (run_opG_captured_jA _ _ _ _ _ _), if_pos above, M.run_bind_ok (run_curPc rfl), captured_pc]
    exact M.run_bind_error (transfer _)

theorem pointer_faults {x : RForm} (h : Issuing s key c f) (on : c.guardOn x.kg) (ops : Operands s key c [rA .g x] [])
    (refused : Claims.refuses s c f (ptrTarget (c.rg x.a.toNat)) tr) :
    exec (.ret x) s = .next (s.trapped key f (.ret x) tr) ∧ exec (.brx x) s = .next (s.trapped key f (.brx x) tr) ∧
    (Operands s key c [rA .g x] [gDst 63] → exec (.callx x) s = .next (s.trapped key f (.callx x) tr)) := by
  have transfer (e : Option ReplayEntry) := run_transferTo_refused (h.issues e) refused
  refine ⟨?_, ?_, fun ops => ?_⟩
  · refine runControl_refused h rfl on ops refused ?_
    dsimp only [rAsk]
    rw [M.run_bind_ok (run_opG_captured_rA _ _ _ _ _ _)]
    exact transfer _
  · refine runControl_refused h rfl on ops refused ?_
    dsimp only [rAsk]
    rw [M.run_bind_ok (run_opG_captured_rA _ _ _ _ _ _)]
    exact transfer _
  · refine runControl_refused h rfl on ops refused ?_
    dsimp only [rAsk]
    rw [M.run_bind_ok (run_opG_captured_rA _ _ _ _ _ _)]
    exact M.run_bind_error (transfer _)

theorem literal_faults {x : LForm} (h : Issuing s key c f) (on : c.guardOn x.kg) (refused : Claims.refuses s c f (relTarget f.pc x.lit.toInt) tr) :
    exec (.brL x) s = .next (s.trapped key f (.brL x) tr) ∧
    (Operands s key c [] [gDst 63] → exec (.callL x) s = .next (s.trapped key f (.callL x) tr)) := by
  have transfer (e : Option ReplayEntry) := run_transferTo_refused (h.issues e) refused
  refine ⟨?_, fun ops => ?_⟩
  · refine runControl_refused h rfl on (operands_none _ _ _) refused ?_
    rw [M.run_bind_ok (run_curPc rfl), captured_pc]
    exact transfer _
  · refine runControl_refused h rfl on ops refused ?_
    rw [M.run_bind_ok (run_curPc rfl), captured_pc]
    exact M.run_bind_error (transfer _)

end

theorem transferFaults : Claims.transferFaults := fun _ _ _ _ _ h =>
  ⟨fun _ on refused => offset_faults h on refused, fun _ on ops refused => pointer_faults h on ops refused, fun _ on refused => literal_faults h on refused⟩

theorem misalignedAccessFaults : Claims.misalignedAccessFaults := by
  intro s key c f x a h on address misaligned
  have priv (g : Guarding) (l : List Src) (d : List Dst) : ¬ c.priv.level < (mAsk g x l d).priv.level := Nat.not_lt_zero _
  refine ⟨fun ops => ?_, fun ops => ?_, fun ops => ?_, fun ops => ?_⟩
  · exact runInstr_traps h (priv .scalar _ _) (fun _ => on) ops (M.run_bind_error (run_memAddr_misaligned address misaligned)) rfl
  · exact runInstr_traps h (priv .scalar _ _) (fun _ => on) ops (M.run_bind_error (run_memAddr_misaligned address misaligned)) rfl
  · exact runInstr_traps h (priv .vector _ _) (fun _ => on) ops (M.run_bind_error (run_memAddr_misaligned address misaligned)) rfl
  · exact runInstr_traps h (priv .vector _ _) (fun _ => on) ops (M.run_bind_error (run_memAddr_misaligned address misaligned)) rfl

end Sys2Proof.FaultProofs

open Sys2Proof.FaultProofs

/-- Settles O22: a transfer checks its target, and a load or store its address, before its body has written anything, so the trap is that of the state as it was. -/
theorem faultsAtIssue : Obligations.FaultsAtIssue := ⟨transferFaults, misalignedAccessFaults⟩

end

section

namespace Sys2Proof.Machine

/-! ## Fetching (R69, R76, R79) -/

theorem instrLen_eq {i : Instr} {v : View} (h : i.view = some v) : instrLen i = if v.form.literal.isSome then 16 else 8 := by
  unfold instrLen
  rw [h]
  obtain ⟨maj, min, sub, form⟩ := v
  cases form <;> rfl

/-- An instruction that words decode to is two words long just where the first is that of an L pair. -/
theorem instrLen_of_decodeWords {w : Word} {lit : Nat} {i : Instr} (h : decodeWords w.toNat lit = .ok i) :
    instrLen i = if isLong w.toNat then 16 else 8 := by
  obtain ⟨v, hv, -, -, literal⟩ := view_of_decodeWords w.isLt h
  rw [instrLen_eq hv, literal]
  cases isLong w.toNat <;> rfl

variable {s : State} {key : Nat} {c : Ctx} {f : Firing} {b : Binding} {off : Nat} {w lit : Word}

/-- A word that the binding holds as memory stores it is the word that is fetched, without a choice between the two. -/
theorem fetchWord_of_codeWord (h : s.codeWord key c b off w) : fetchWord s key c b off = .ok (w.toNat, s) := by
  obtain ⟨pa, mapped, sound, stored, bound⟩ := h
  have value : leNat (leBytes 8 w.toNat) = w.toNat := by
    rw [leNat_leBytes, Nat.mod_eq_of_lt (by have := w.isLt; omega)]
  unfold fetchWord
  dsimp only
  rw [mapped]
  dsimp only
  rw [sound, stored, bound, value, if_neg Bool.false_ne_true, if_pos rfl]

/-- A word at the program counter is fetched with its literal, where it takes one. -/
theorem fetchPair_of_codeWord (forward : f.pc.getLsbD 63 = false) (enters : s.enterBinding c.asid f (cpSlot f.pc) = some b)
    (inside : cpOffset f.pc + (if isLong w.toNat then 16 else 8) ≤ b.len) (first : s.codeWord key c b (cpOffset f.pc) w)
    (second : isLong w.toNat = true → s.codeWord key c b (cpOffset f.pc + 8) lit) :
    fetchPair s key c f = .ok (w.toNat, if isLong w.toNat then lit.toNat else 0, s) := by
  unfold fetchPair
  dsimp only
  rw [enters]
  dsimp only
  rw [if_neg (by rw [forward]; split at inside <;> simp <;> omega), fetchWord_of_codeWord first]
  dsimp only
  rw [takesLiteral]
  cases long : isLong w.toNat with
  | false => simp
  | true =>
    rw [long, if_pos rfl] at inside
    rw [if_pos rfl, if_neg (by omega), fetchWord_of_codeWord (second long)]
    rfl

theorem issueFetched_of_fetchPair {w lit : Nat} {i : Instr} {t : State} (fetched : fetchPair s key c f = .ok (w, lit, t))
    (decoded : decodeWords w lit = .ok i) : issueFetched s key c f = exec i { t with cur := some key } := by
  unfold issueFetched
  rw [fetched]
  dsimp only
  rw [decoded]

/-! ## What issues (R76, R124) -/

theorem issueNext_eq_issueFetched (well : c.faultDue = false) (fresh : c.replay = []) : issueNext s key c f = issueFetched s key c f := by
  unfold issueNext
  rw [well, fresh, if_neg Bool.false_ne_true]

theorem State.issueFrom_of_issuable (context : s.ctx? key = some c) (issuable : c.issuable key = some f) (level : f.ahead = 0) :
    s.issueFrom key = issueNext s key c f := by
  unfold State.issueFrom
  rw [context]
  dsimp only
  rw [issuable]
  dsimp only
  rw [level]
  rfl

theorem step_eq_issueFrom (idle : s.inputs = []) (issuer : s.issuer = some key) : step s = s.issueFrom key := by
  unfold step
  rw [idle]
  dsimp only
  rw [issuer]

theorem step_eq_asked {i : Input} {rest : List Input} (h : s.inputs = i :: rest) : step s = State.asked { s with inputs := rest } i := by
  unfold step
  rw [h]

end Sys2Proof.Machine

namespace Sys2Proof.StepProofs
open Sys2Proof Sys2Proof.Machine

/-- The bytes that a step fetches decode as its two words do. -/
theorem decodeWords_of_decode_bytes {w lit : Word} {i : Instr}
    (h : decode (leBytes 8 w.toNat ++ if instrLen i = 16 then leBytes 8 lit.toNat else []) = .ok (i, [])) :
    decodeWords w.toNat (if isLong w.toNat then lit.toNat else 0) = .ok i := by
  obtain ⟨w', lit', bytes, decoded⟩ := words_of_decode h
  have length := instrLen_of_decodeWords decoded
  have value (x : Word) : leNat (leBytes 8 x.toNat) = x.toNat := by
    rw [leNat_leBytes, Nat.mod_eq_of_lt (by have := x.isLt; omega)]
  have inj {x y : Word} (h : leBytes 8 x.toNat = leBytes 8 y.toNat) : x = y :=
    BitVec.eq_of_toNat_eq (by rw [← value x, h, value y])
  rw [List.append_nil, wordsOf, wordBytes] at bytes
  obtain ⟨first, second⟩ := List.append_inj bytes (by simp)
  obtain rfl := inj first
  rw [length] at second
  cases long : isLong w.toNat with
  | false => simpa [long] using decoded
  | true =>
    rw [long] at second
    obtain rfl : lit = lit' := inj (by simpa [wordBytes] using second)
    simpa [long] using decoded

theorem stepRunsDecoded : Claims.stepRunsDecoded := by
  intro s key c f b w lit i idle issuer context issuable well fresh level forward enters inside first second decodes _
  have decoded := decodeWords_of_decode_bytes decodes
  have length := instrLen_of_decodeWords decoded
  rw [length] at inside
  have fetched : fetchPair s key c f = .ok (w.toNat, if isLong w.toNat then lit.toNat else 0, s) :=
    fetchPair_of_codeWord forward enters inside first fun long => second (by rw [length, if_pos long])
  rw [step_eq_issueFrom idle issuer, State.issueFrom_of_issuable context issuable level, issueNext_eq_issueFetched well fresh,
    issueFetched_of_fetchPair fetched decoded]

theorem stepRunsWhatIsAsked : Claims.stepRunsWhatIsAsked := by
  refine ⟨fun s key rest h => ?_, fun s i rest h row => ?_, fun s i v rest h row => ?_, fun s key n rest h => ?_, fun s id n rest h => ?_,
    fun s tile pa rest => ⟨fun h inside => ?_, fun h => ?_, fun asid va h => ?_⟩⟩
  all_goals rw [step_eq_asked h, State.asked]
  · rw [row]
  · rw [row]
  · rw [if_pos inside]
  · refine ⟨_, rfl, rfl, rfl, fun e held => ?_⟩
    by_cases gone : e.tile = tile ∧ e.asid = asid
    · exact .inr gone
    · refine .inl (List.mem_filter.mpr ⟨held, ?_⟩)
      simp only [Bool.not_eq_true', Bool.and_eq_false_imp, Bool.and_eq_true, beq_iff_eq]
      exact fun named => absurd named gone

end Sys2Proof.StepProofs

/-- Settles O4: memory and the binding agree on the words at the pc, so the fetch gives them without a choice, and they decode as the bytes do. -/
theorem stepRunsDecoded : Obligations.StepRunsDecoded :=
  ⟨Sys2Proof.StepProofs.stepRunsDecoded, Sys2Proof.StepProofs.stepRunsWhatIsAsked⟩

end

section

namespace Sys2Proof.Machine

/-! ## Captured operands, whatever their place in the list of sources (R385) -/

/-- A source is captured as its register where no two sources share a slot. -/
theorem capture_op_mem {c : Ctx} {r : Src} {l : List Src} (e : ReplayEntry) (apart : l.Pairwise fun x y => x.slot ≠ y.slot) (mem : r ∈ l) :
    (capture c e l).op r.slot = c.readSrc r := by
  induction l generalizing e with
  | nil => cases mem
  | cons x rest ih =>
    obtain ⟨head, tail⟩ := List.pairwise_cons.mp apart
    cases mem with
    | head => exact capture_op c e _ rest fun y hy => (head y hy).symm
    | tail _ later => exact ih _ tail later

/-- The state in which a body runs that has captured sources. -/
abbrev State.reading (s : State) (i : Instr) (l : List Src) (kg : Nat) (c : Ctx) (f : Firing) : State := s.issues (some (captured i l kg c f))

section
variable {s : State} {i : Instr} {c : Ctx} {f : Firing} {r : Src} {l : List Src} {kg : Nat}

/-- A body reads a g register that it captured. -/
theorem run_opG_captured (mem : r ∈ l) (kind : r.kind = .g) (apart : l.Pairwise fun x y => x.slot ≠ y.slot) :
    (opG r.slot).run (s.reading i l kg c f) = .ok (c.rg r.n, s.reading i l kg c f) := by
  rw [run_opG rfl, captured, capture_op_mem _ apart mem, Ctx.readSrc, kind]
  exact congrArg (fun w => Except.ok (w, _)) (captured_word _)

/-- A body reads a mask that it captured. -/
theorem run_opK_captured (mem : r ∈ l) (kind : r.kind = .k) (apart : l.Pairwise fun x y => x.slot ≠ y.slot) :
    (opK r.slot).run (s.reading i l kg c f) = .ok (c.rk r.n, s.reading i l kg c f) := by
  unfold opK
  rw [M.run_bind_ok (run_opV rfl r.slot), M.run_pure, captured, capture_op_mem _ apart mem, Ctx.readSrc, kind]
  exact congrArg (fun k => Except.ok (k, _)) (captured_kmask _)

end

/-- No two of the sources of an R word, as many as it takes, share a slot. -/
theorem rSources_apart (p q r t : RegKind) (x : RForm) (n : Nat) : ([rA p x, rB q x, rC r x, rOld t x].take n).Pairwise fun a b => a.slot ≠ b.slot :=
  List.Pairwise.sublist (List.take_sublist _ _) (by simp [rA, rB, rC, rOld])

section
variable {α : Type} (s : State) (i : Instr) (c : Ctx) (f : Firing) (x : RForm) (kg : Nat)

theorem run_readOne (k : Word → M α) :
    (opG .a >>= k).run (s.reading i [rA .g x] kg c f) = (k (c.rg x.a.toNat)).run (s.reading i [rA .g x] kg c f) :=
  M.run_bind_ok (run_opG_captured_rA s i kg c f x)

theorem run_readTwo (k : Word → Word → M α) :
    (opG .a >>= fun a => opG .b >>= k a).run (s.reading i [rA .g x, rB .g x] kg c f) =
      (k (c.rg x.a.toNat) (c.rg x.b.toNat)).run (s.reading i [rA .g x, rB .g x] kg c f) :=
  have apart := rSources_apart .g .g .g .g x 2
  (M.run_bind_ok (run_opG_captured (r := rA .g x) (by simp) rfl apart)).trans (M.run_bind_ok (run_opG_captured (r := rB .g x) (by simp) rfl apart))

theorem run_readThree (k : Word → Word → Word → M α) :
    (opG .a >>= fun a => opG .b >>= fun b => opG .c >>= k a b).run (s.reading i [rA .g x, rB .g x, rC .g x] kg c f) =
      (k (c.rg x.a.toNat) (c.rg x.b.toNat) (c.rg x.c.toNat)).run (s.reading i [rA .g x, rB .g x, rC .g x] kg c f) :=
  have apart := rSources_apart .g .g .g .g x 3
  (M.run_bind_ok (run_opG_captured (r := rA .g x) (by simp) rfl apart)).trans
    ((M.run_bind_ok (run_opG_captured (r := rB .g x) (by simp) rfl apart)).trans
      (M.run_bind_ok (run_opG_captured (r := rC .g x) (by simp) rfl apart)))

/-- The sources of INS: the old value of its destination first. -/
theorem run_readFour (k : Word → Word → Word → Word → M α) :
    (opG .x >>= fun d => opG .a >>= fun a => opG .b >>= fun b => opG .c >>= k d a b).run (s.reading i [rA .g x, rB .g x, rC .g x, rOld .g x] kg c f) =
      (k (c.rg x.d.toNat) (c.rg x.a.toNat) (c.rg x.b.toNat) (c.rg x.c.toNat)).run (s.reading i [rA .g x, rB .g x, rC .g x, rOld .g x] kg c f) :=
  have apart := rSources_apart .g .g .g .g x 4
  (M.run_bind_ok (run_opG_captured (r := rOld .g x) (by simp) rfl apart)).trans
    ((M.run_bind_ok (run_opG_captured (r := rA .g x) (by simp) rfl apart)).trans
      ((M.run_bind_ok (run_opG_captured (r := rB .g x) (by simp) rfl apart)).trans
        (M.run_bind_ok (run_opG_captured (r := rC .g x) (by simp) rfl apart))))

/-- The two masks of KLOG and KCNT. -/
theorem run_readMasks (k : Mask → Mask → M α) :
    (opK .a >>= fun a => opK .b >>= k a).run (s.reading i [rA .k x, rB .k x] kg c f) =
      (k (c.rk x.a.toNat) (c.rk x.b.toNat)).run (s.reading i [rA .k x, rB .k x] kg c f) :=
  have apart := rSources_apart .k .k .g .g x 2
  (M.run_bind_ok (run_opK_captured (r := rA .k x) (by simp) rfl apart)).trans (M.run_bind_ok (run_opK_captured (r := rB .k x) (by simp) rfl apart))

end

/-! ## Results written to a g register (R80, R97) -/

section
variable {s : State} {key : Nat} {c : Ctx} {f : Firing} {i : Instr} {x : RForm}

theorem intWarns_unsaturated (ty : Nat) (n : Int) : intWarns ty 0 n = 0 := by simp [intWarns, clamps]

theorem intValue_unsaturated (ty : Nat) (n : Int) : intValue ty 0 n = wrInt ty n := by simp [intValue, clamps]

/-- An instruction that leaves its context with one g register written, and warnings, completes with that. -/
theorem runInstr_putG {a : Ask} {body : M Unit} {d : BitVec 6} {v w : Word} (h : Issuing s key c f) (user : a.priv = .u)
    (on : a.guard = .scalar → (c.rk a.kg).getLsbD 0 = true) (ops : Operands s key c a.srcs a.dsts)
    (run : body.run (s.reading i a.srcs a.kg c f) = .ok ((), (s.reading i a.srcs a.kg c f).setCtx key ((c.wg d.toNat v).warns w))) :
    runInstr i a body s = Claims.putG s key c i d v w :=
  runInstr_completes h (by rw [user]; exact Nat.not_lt_zero _) on ops run rfl

/-- A write of a g register, as a write without a warning. -/
theorem run_writeG_issues (e : Option ReplayEntry) (d : Nat) (v : Word) (h : Issuing s key c f) :
    (writeG d v).run (s.issues e) = .ok ((), (s.issues e).setCtx key ((c.wg d v).warns 0)) := by
  rw [Ctx.warns_zero]
  exact run_writeG d v h.cur h.ctx

theorem run_putInt_issues (e : Option ReplayEntry) (ty sm d : Nat) (n : Int) (h : Issuing s key c f) :
    (putInt ty sm d n).run (s.issues e) = .ok ((), (s.issues e).setCtx key ((c.wg d (intValue ty sm n)).warns (intWarns ty sm n))) :=
  run_putInt ty sm d n (h.issues e).cur (h.issues e).ctx

/-- A result without saturation sets no warning. -/
theorem run_putInt_plain (e : Option ReplayEntry) (ty d : Nat) (n : Int) (h : Issuing s key c f) :
    (putInt ty 0 d n).run (s.issues e) = .ok ((), (s.issues e).setCtx key ((c.wg d (wrInt ty n)).warns 0)) := by
  rw [run_putInt_issues e ty 0 d n h, intValue_unsaturated, intWarns_unsaturated]

/-! ## The shapes of integer instructions (R97, R99) -/

theorem intTwo_completes (op : Int → Int → Int) (h : Issuing s key c f) (on : c.guardOn x.kg) (ops : Operands s key c [rA .g x, rB .g x] [gDst x.d.toNat]) :
    let n := op (rdInt x.ty.toNat (c.rg x.a.toNat)) (rdInt x.ty.toNat (c.rg x.b.toNat))
    intTwo i x op s = Claims.putG s key c i x.d (intValue x.ty.toNat x.sm.toNat n) (intWarns x.ty.toNat x.sm.toNat n) :=
  runInstr_putG h rfl (fun _ => on) ops ((run_readTwo s i c f x _ _).trans (run_putInt_issues _ _ _ _ _ h))

theorem intShift_completes (op : Word → Nat → Int) (h : Issuing s key c f) (on : c.guardOn x.kg) (ops : Operands s key c [rA .g x, rB .g x] [gDst x.d.toNat]) :
    let n := op (c.rg x.a.toNat) (c.rg x.b.toNat).toNat
    intShift i x op s = Claims.putG s key c i x.d (intValue x.ty.toNat x.sm.toNat n) (intWarns x.ty.toNat x.sm.toNat n) :=
  runInstr_putG h rfl (fun _ => on) ops ((run_readTwo s i c f x _ _).trans (run_putInt_issues _ _ _ _ _ h))

theorem bitwise_completes (op : Word → Word → Word) (h : Issuing s key c f) (on : c.guardOn x.kg) (ops : Operands s key c [rA .g x, rB .g x] [gDst x.d.toNat]) :
    bitwise i x op s = Claims.putG s key c i x.d (wrInt x.ty.toNat (op (c.rg x.a.toNat) (c.rg x.b.toNat)).toNat) 0 :=
  runInstr_putG h rfl (fun _ => on) ops ((run_readTwo s i c f x _ _).trans (run_putInt_plain _ _ _ _ h))

theorem intCount_completes (op : Nat → Nat → Nat) (h : Issuing s key c f) (on : c.guardOn x.kg) (ops : Operands s key c [rA .g x] [gDst x.d.toNat]) :
    intCount i x op s = Claims.putG s key c i x.d (wd (op (c.rg x.a.toNat).toNat (tyWidth x.ty.toNat))) 0 :=
  runInstr_putG h rfl (fun _ => on) ops ((run_readOne s i c f x _ _).trans (run_writeG_issues _ _ _ h))

/-- A division reads its divisor first. -/
theorem run_readDivisor {α : Type} (k : Word → M α) :
    (opG .b >>= k).run (s.reading i [rA .g x, rB .g x] x.kg.toNat c f) = (k (c.rg x.b.toNat)).run (s.reading i [rA .g x, rB .g x] x.kg.toNat c f) :=
  M.run_bind_ok (run_opG_captured (r := rB .g x) (by simp) rfl (rSources_apart .g .g .g .g x 2))

theorem intDivide_completes (op : Int → Int → Int) (h : Issuing s key c f) (on : c.guardOn x.kg) (ops : Operands s key c [rA .g x, rB .g x] [gDst x.d.toNat])
    (divisor : rdInt x.ty.toNat (c.rg x.b.toNat) ≠ 0) :
    let n := op (rdInt x.ty.toNat (c.rg x.a.toNat)) (rdInt x.ty.toNat (c.rg x.b.toNat))
    intDivide i x op s = Claims.putG s key c i x.d (intValue x.ty.toNat x.sm.toNat n) (intWarns x.ty.toNat x.sm.toNat n) := by
  refine runInstr_putG h rfl (fun _ => on) ops ((run_readDivisor _).trans ?_)
  rw [if_neg divisor]
  exact (M.run_bind_ok (run_opG_captured (r := rA .g x) (by simp) rfl (rSources_apart .g .g .g .g x 2))).trans (run_putInt_issues _ _ _ _ _ h)

theorem intDivide_traps (op : Int → Int → Int) (h : Issuing s key c f) (on : c.guardOn x.kg) (ops : Operands s key c [rA .g x, rB .g x] [gDst x.d.toNat])
    (divisor : rdInt x.ty.toNat (c.rg x.b.toNat) = 0) :
    intDivide i x op s = .next (s.trapped key f i { cause := cArith, free := true }) := by
  refine runInstr_traps h (Nat.not_lt_zero _) (fun _ => on) ops ((run_readDivisor _).trans ?_) rfl
  rw [if_pos divisor]
  exact M.run_bind_error (run_raiseFree _ _)

theorem intImm_completes {x : IForm} (op : Word → Word → Int) (h : Issuing s key c f) (on : c.guardOn x.kg) (ops : Operands s key c [iA x] [gDst x.d.toNat]) :
    intImm i x op s = Claims.putG s key c i x.d (wrInt x.ty.toNat (op (c.rg x.a.toNat) (x.imm.signExtend 64))) 0 :=
  runInstr_putG h rfl (fun _ => on) ops
    ((M.run_bind_ok (run_opG_captured (r := iA x) (by simp) rfl (List.pairwise_singleton _ _))).trans (run_putInt_plain _ _ _ _ h))

end

end Sys2Proof.Machine

namespace Sys2Proof.IntegerProofs
open Sys2Proof Sys2Proof.Machine

theorem integerArithmetic : Claims.integerArithmetic := by
  intro s key c f x h on ops
  simp only [Claims.intTwo, List.forall_mem_cons, List.not_mem_nil, false_imp_iff, implies_true, and_true]
  refine ⟨?add, ?sub, ?mul, ?mulh, ?min, ?max, ?shl, ?shr, ?sra, ?rot⟩
  case add => exact intTwo_completes (· + ·) h on ops
  case sub => exact intTwo_completes (· - ·) h on ops
  case mul => exact intTwo_completes (· * ·) h on ops
  case mulh => exact intTwo_completes (mulHigh x.ty.toNat) h on ops
  case min => exact intTwo_completes (fun a b => if a ≤ b then a else b) h on ops
  case max => exact intTwo_completes (fun a b => if a ≤ b then b else a) h on ops
  case shl => exact intShift_completes (fun a n => shlExact (rdInt x.ty.toNat a) n) h on ops
  case shr => exact intShift_completes (shrExact x.ty.toNat) h on ops
  case sra => exact intShift_completes (sraExact x.ty.toNat) h on ops
  case rot => exact intShift_completes (rotExact x.ty.toNat) h on ops

theorem divisionAndRemainder : Claims.divisionAndRemainder := by
  intro s key c f x h on ops p hp
  simp only [Claims.intDivide, List.mem_cons, List.not_mem_nil, or_false] at hp
  obtain rfl | rfl := hp
  · exact ⟨intDivide_completes Int.tdiv h on ops, intDivide_traps Int.tdiv h on ops⟩
  · rw [← Int.tmod_def]
    exact ⟨intDivide_completes Int.tmod h on ops, intDivide_traps Int.tmod h on ops⟩

section
variable {s : State} {key : Nat} {c : Ctx} {f : Firing} {x : RForm}

/-- The members with two sources that write a plain value. -/
theorem plain_completes (h : Issuing s key c f) (on : c.guardOn x.kg) (ops : Operands s key c [rA .g x, rB .g x] [gDst x.d.toNat]) :
    ∀ p ∈ Claims.intPlain x (c.rg x.a.toNat) (c.rg x.b.toNat), exec p.1 s = Claims.putG s key c p.1 x.d p.2 0 := by
  simp only [Claims.intPlain, List.forall_mem_cons, List.not_mem_nil, false_imp_iff, implies_true, and_true, ← wd_b2n]
  refine ⟨?and, ?or, ?xor, ?andn, ?absd, ?cmp, ?lea⟩
  case and => exact bitwise_completes (· &&& ·) h on ops
  case or => exact bitwise_completes (· ||| ·) h on ops
  case xor => exact bitwise_completes (· ^^^ ·) h on ops
  case andn => exact bitwise_completes (fun a b => a &&& ~~~b) h on ops
  all_goals exact runInstr_putG h rfl (fun _ => on) ops ((run_readTwo s _ c f x _ _).trans (run_writeG_issues _ _ _ h))

/-- MOV and the counts. -/
theorem oneSource_completes (h : Issuing s key c f) (on : c.guardOn x.kg) (ops : Operands s key c [rA .g x] [gDst x.d.toNat]) :
    ∀ p ∈ Claims.intOne x (c.rg x.a.toNat), exec p.1 s = Claims.putG s key c p.1 x.d p.2 0 := by
  simp only [Claims.intOne, List.forall_mem_cons, List.not_mem_nil, false_imp_iff, implies_true, and_true]
  refine ⟨?mov, ?clz, ?ctz, ?popc⟩
  case mov => exact runInstr_putG h rfl (fun _ => on) ops ((run_readOne s _ c f x _ _).trans (run_writeG_issues _ _ _ h))
  case clz => exact intCount_completes leadZeros h on ops
  case ctz => exact intCount_completes trailZeros h on ops
  case popc => exact intCount_completes popCount h on ops

/-- SEL and EXT. -/
theorem threeSources_completes (h : Issuing s key c f) (on : c.guardOn x.kg) (ops : Operands s key c [rA .g x, rB .g x, rC .g x] [gDst x.d.toNat]) :
    ∀ p ∈ Claims.intThree x (c.rg x.a.toNat) (c.rg x.b.toNat) (c.rg x.c.toNat), exec p.1 s = Claims.putG s key c p.1 x.d p.2 0 := by
  simp only [Claims.intThree, List.forall_mem_cons, List.not_mem_nil, false_imp_iff, implies_true, and_true]
  constructor <;>
    exact runInstr_putG h rfl (fun _ => on) ops ((run_readThree s _ c f x _ _).trans (run_writeG_issues _ _ _ h))

theorem ins_completes (h : Issuing s key c f) (on : c.guardOn x.kg) (ops : Operands s key c [rA .g x, rB .g x, rC .g x, rOld .g x] [gDst x.d.toNat]) :
    exec (.ins x) s =
      Claims.putG s key c (.ins x) x.d (insertField (c.rg x.d.toNat) (c.rg x.a.toNat) (c.rg x.b.toNat) (c.rg x.c.toNat)) 0 :=
  runInstr_putG h rfl (fun _ => on) ops ((run_readFour s _ c f x _ _).trans (run_writeG_issues _ _ _ h))

end

end Sys2Proof.IntegerProofs

open Sys2Proof.IntegerProofs

/-- Settles O10: the members differ in one function of their operands, and each shape of member writes its result through `putInt`. -/
theorem integerArithmetic : Obligations.IntegerArithmetic := ⟨Sys2Proof.IntegerProofs.integerArithmetic, divisionAndRemainder⟩

/-- Settles O11: each body reads its captured sources in turn and writes one g register. -/
theorem bitwiseAndFields : Obligations.BitwiseAndFields := fun _ _ _ _ _ h on =>
  ⟨plain_completes h on, oneSource_completes h on, threeSources_completes h on, ins_completes h on⟩

end

section

namespace Sys2Proof.Machine

/-! ## The address of the word that issues (R99, R100) -/

section
variable {s : State} {key : Nat} {c : Ctx} {f : Firing} {b : Binding}

/-- A firing enters a slot whose binding it holds through that binding (R83). -/
theorem State.enterBinding_of_held {slot : Nat} (asid : Nat) (held : s.heldBinding f slot = some b) : s.enterBinding asid f slot = some b := by
  have refers : (f.refs.any fun r => r.slot == slot) = true := by
    by_contra absent
    have : f.refs.find? (fun r => r.slot == slot) = none := by simpa using absent
    simp [State.heldBinding, this] at held
  rw [State.enterBinding, if_pos refers, held]

theorem run_pcAddress {i : Instr} {l : List Src} {kg : Nat} (h : Issuing s key c f) (held : s.heldBinding f (cpSlot f.pc) = some b) :
    pcAddress.run (s.reading i l kg c f) = .ok (wd (b.base + cpOffset f.pc), s.reading i l kg c f) := by
  have issuing := h.issues (some (captured i l kg c f))
  have enters : (s.reading i l kg c f).enterBinding c.asid f (cpSlot f.pc) = some b := State.enterBinding_of_held c.asid held
  unfold pcAddress
  rw [M.run_bind_ok (run_curCtx issuing.cur issuing.ctx), M.run_bind_ok (run_curFiring issuing.cur issuing.ctx issuing.firing),
    M.run_bind_ok (run_curPc rfl), captured_pc, M.run_bind_ok (M.run_get _), enters]
  rfl

end

end Sys2Proof.Machine

namespace Sys2Proof.ImmediateProofs
open Sys2Proof Sys2Proof.Machine

section
variable {s : State} {key : Nat} {c : Ctx} {f : Firing}

/-- The immediate forms with a register source. -/
theorem register_completes {x : IForm} (h : Issuing s key c f) (on : c.guardOn x.kg) (ops : Operands s key c [iA x] [gDst x.d.toNat]) :
    ∀ p ∈ Claims.intImm x (c.rg x.a.toNat), exec p.1 s = Claims.putG s key c p.1 x.d p.2 0 := by
  have read {i : Instr} {α : Type} (k : Word → M α) :
      (opG .a >>= k).run (s.reading i [iA x] x.kg.toNat c f) = (k (c.rg x.a.toNat)).run (s.reading i [iA x] x.kg.toNat c f) :=
    M.run_bind_ok (run_opG_captured (r := iA x) (by simp) rfl (List.pairwise_singleton _ _))
  simp only [Claims.intImm, List.forall_mem_cons, List.not_mem_nil, false_imp_iff, implies_true, and_true, ← wd_b2n]
  refine ⟨?add, ?and, ?or, ?xor, ?shl, ?shr, ?sra, ?cmp, ?lea⟩
  case add => exact intImm_completes (fun a b => rdInt x.ty.toNat a + rdInt x.ty.toNat b) h on ops
  case and => exact intImm_completes (fun a b => (a &&& b).toNat) h on ops
  case or => exact intImm_completes (fun a b => (a ||| b).toNat) h on ops
  case xor => exact intImm_completes (fun a b => (a ^^^ b).toNat) h on ops
  case shl => exact intImm_completes (fun a b => shlExact (rdInt x.ty.toNat a) b.toNat) h on ops
  case shr => exact intImm_completes (fun a b => shrExact x.ty.toNat a b.toNat) h on ops
  case sra => exact intImm_completes (fun a b => sraExact x.ty.toNat a b.toNat) h on ops
  all_goals exact runInstr_putG h rfl (fun _ => on) ops ((read _).trans (run_writeG_issues _ _ _ h))

/-- MOVI and LEA of the pc. -/
theorem immediate_completes {x : IForm} (h : Issuing s key c f) (on : c.guardOn x.kg) (ops : Operands s key c [] [gDst x.d.toNat]) :
    exec (.movi x) s = Claims.putG s key c (.movi x) x.d (wrInt x.ty.toNat (rdInt x.ty.toNat (x.imm.signExtend 64))) 0 ∧
    ∀ b, s.heldBinding f (cpSlot f.pc) = some b →
      exec (.leaPc x) s = Claims.putG s key c (.leaPc x) x.d (wd (b.base + cpOffset f.pc) + x.imm.signExtend 64) 0 := by
  refine ⟨?_, fun b held => ?_⟩
  · exact runInstr_putG h rfl (fun _ => on) ops (run_writeG_issues _ _ _ h)
  · exact runInstr_putG h rfl (fun _ => on) ops ((M.run_bind_ok (run_pcAddress h held)).trans (run_writeG_issues _ _ _ h))

/-- MOVI.L and LEA.L. -/
theorem literal_completes {x : LForm} (h : Issuing s key c f) (on : c.guardOn x.kg) (ops : Operands s key c [] [gDst x.d.toNat]) :
    exec (.moviL x) s = Claims.putG s key c (.moviL x) x.d (wrInt x.ty.toNat (rdInt x.ty.toNat x.lit)) 0 ∧
    ∀ b, s.heldBinding f (cpSlot f.pc) = some b →
      exec (.leaL x) s = Claims.putG s key c (.leaL x) x.d (wd (b.base + cpOffset f.pc) + x.lit) 0 := by
  refine ⟨?_, fun b held => ?_⟩
  · exact runInstr_putG h rfl (fun _ => on) ops (run_writeG_issues _ _ _ h)
  · exact runInstr_putG h rfl (fun _ => on) ops ((M.run_bind_ok (run_pcAddress h held)).trans (run_writeG_issues _ _ _ h))

end

end Sys2Proof.ImmediateProofs

open Sys2Proof.ImmediateProofs

/-- Settles O13: each form writes the value of R99 to its destination; the forms of the pc take their address from the binding that the firing holds. -/
theorem immediateForms : Obligations.ImmediateForms := fun _ _ _ _ h =>
  ⟨fun _ on ops => register_completes h on ops, fun _ on ops => immediate_completes h on ops, fun _ on ops => literal_completes h on ops⟩

end

section

namespace Sys2Proof.MaskProofs
open Sys2Proof Sys2Proof.Machine

section
variable {s : State} {key : Nat} {c : Ctx} {f : Firing} {x : RForm}

/-- An instruction of MAJ 0x12 whose body leaves its context as `c'` completes with it. -/
theorem completes {i : Instr} {srcs : List Src} {dsts : List Dst} {body : M Unit} {c' : Ctx} (h : Issuing s key c f) (on : c.guardOn x.kg)
    (ops : Operands s key c srcs dsts)
    (run : body.run (s.reading i srcs x.kg.toNat c f) = .ok ((), (s.reading i srcs x.kg.toNat c f).setCtx key c')) (graph : c'.graph = c.graph) :
    runInstr i (rAsk x srcs dsts) body s = .next (s.completed key (c'.advance (instrLen i))) :=
  runInstr_completes h (Nat.not_lt_zero _) (fun _ => on) ops run graph

theorem graph_wk (c : Ctx) (n : Nat) (m : Mask) : (c.wk n m).graph = c.graph := by
  unfold Ctx.wk
  split <;> rfl

theorem kset_completes (h : Issuing s key c f) (on : c.guardOn x.kg) (ops : Operands s key c [rA .g x] []) :
    exec (.kset x) s = .next (s.completed key ((c.wk x.d.toNat ((c.rg x.a.toNat).setWidth 32)).advance 8)) :=
  completes h on ops ((run_readOne s _ c f x _ _).trans (run_modCur _ h.cur h.ctx)) (graph_wk _ _ _)

theorem klog_completes (h : Issuing s key c f) (on : c.guardOn x.kg) (ops : Operands s key c [rA .k x, rB .k x] []) :
    exec (.klog x) s =
      .next (s.completed key ((c.wk x.d.toNat (logOp (bits x.mod.toNat 2 0) (c.rk x.a.toNat) (c.rk x.b.toNat))).advance 8)) :=
  completes h on ops ((run_readMasks s _ c f x _ _).trans (run_modCur _ h.cur h.ctx)) (graph_wk _ _ _)

theorem kcnt_completes (h : Issuing s key c f) (on : c.guardOn x.kg) (ops : Operands s key c [rA .k x, rB .k x] [gDst x.d.toNat]) :
    exec (.kcnt x) s =
      .next (s.completed key ((c.wg x.d.toNat (wd (popCount (c.rk x.a.toNat &&& c.rk x.b.toNat).toNat 32))).advance 8)) :=
  completes h on ops ((run_readMasks s _ c f x _ _).trans (run_writeG _ _ h.cur h.ctx)) rfl

/-- KMOV reads its one mask. -/
theorem run_readMask {i : Instr} {α : Type} (k : Mask → M α) :
    (opK .a >>= k).run (s.reading i [rA .k x] x.kg.toNat c f) = (k (c.rk x.a.toNat)).run (s.reading i [rA .k x] x.kg.toNat c f) :=
  M.run_bind_ok (run_opK_captured (r := rA .k x) (by simp) rfl (List.pairwise_singleton _ _))

theorem kmov_mask_completes (h : Issuing s key c f) (on : c.guardOn x.kg) (mask : x.mod.getLsbD 0 = false) (ops : Operands s key c [rA .k x] []) :
    exec (.kmov x) s = .next (s.completed key ((c.wk x.d.toNat (c.rk x.a.toNat)).advance 8)) := by
  show execKmov x s = _
  unfold execKmov
  rw [mask]
  exact completes h on ops ((run_readMask _).trans (run_modCur _ h.cur h.ctx)) (graph_wk _ _ _)

theorem kmov_register_completes (h : Issuing s key c f) (on : c.guardOn x.kg) (register : x.mod.getLsbD 0 = true)
    (ops : Operands s key c [rA .k x] [gDst x.d.toNat]) :
    exec (.kmov x) s = .next (s.completed key ((c.wg x.d.toNat ((c.rk x.a.toNat).setWidth 64)).advance 8)) := by
  show execKmov x s = _
  unfold execKmov
  rw [register]
  exact completes h on ops ((run_readMask _).trans (run_writeG _ _ h.cur h.ctx)) rfl

/-- FLAG updates the flags after it may have written their old value. -/
theorem flag_completes (h : Issuing s key c f) (on : c.guardOn x.kg) :
    (x.mod.getLsbD 8 = false →
      exec (.flag x) s = .next (s.completed key (Ctx.advance { c with flags := flagUpdate c.flags (setField x) (clrField x) } 8))) ∧
    (x.mod.getLsbD 8 = true → Operands s key c [] [gDst x.d.toNat] →
      exec (.flag x) s = .next (s.completed key
        (Ctx.advance { c.wg x.d.toNat (c.flags.setWidth 64) with flags := flagUpdate c.flags (setField x) (clrField x) } 8))) := by
  have context (i : Instr) := run_curCtx (s := s.reading i [] x.kg.toNat c f) h.cur h.ctx
  refine ⟨fun plain => ?_, fun reads ops => ?_⟩ <;> show execFlag x s = _ <;> unfold execFlag
  · rw [plain]
    exact completes h on (operands_none _ _ _) ((M.run_bind_ok (context _)).trans (run_modCur _ h.cur h.ctx)) rfl
  · rw [reads]
    refine completes h on ops ?_ rfl
    rw [M.run_bind_ok (context _), if_pos rfl, M.run_bind_ok (run_writeG _ _ (h.issues _).cur (h.issues _).ctx)]
    exact run_modCur_setCtx _ _ (h.issues _).cur

/-- EMPTY and FULL mark the one register that they name, g or v. -/
theorem mark_completes {i : Instr} {d : Dst} (empty : Bool) (h : Issuing s key c f) (on : c.guardOn x.kg) (named : markDst x = d)
    (ops : Operands s key c [] [d]) :
    runInstr i (rAsk x [] [markDst x]) (markReg (markDst x) empty) s =
      .next (s.completed key (Ctx.advance (if d.vec then c.markV d.n empty else c.markG d.n empty) (instrLen i))) := by
  rw [named]
  refine completes h on ops ?_ (by split <;> rfl)
  unfold markReg
  exact run_modCur _ (h.issues _).cur (h.issues _).ctx

theorem markDst_g (g : x.mod.getLsbD 0 = false) : markDst x = gDst x.d.toNat := by simp only [markDst, g, gDst]

theorem markDst_v (v : x.mod.getLsbD 0 = true) : markDst x = vDst x.d.toNat := by simp only [markDst, v, vDst]

end

end Sys2Proof.MaskProofs

open Sys2Proof.Machine Sys2Proof.MaskProofs

/-- Settles O14: each member writes or marks one register of its context, and FLAG its flags besides. -/
theorem masksAndFlags : Obligations.MasksAndFlags := by
  intro s key c f x h on
  obtain ⟨flag, flagReads⟩ := flag_completes h on
  refine ⟨kset_completes h on, klog_completes h on, kmov_mask_completes h on, kmov_register_completes h on, kcnt_completes h on, flag, flagReads,
    fun g ops => ⟨?emptyG, ?fullG⟩, fun v ops => ⟨?emptyV, ?fullV⟩⟩
  case emptyG => exact mark_completes (d := gDst x.d.toNat) true h on (markDst_g g) ops
  case fullG => exact mark_completes (d := gDst x.d.toNat) false h on (markDst_g g) ops
  case emptyV => exact mark_completes (d := vDst x.d.toNat) true h on (markDst_v v) ops
  case fullV => exact mark_completes (d := vDst x.d.toNat) false h on (markDst_v v) ops

end

section

namespace Sys2Proof.Machine

/-! ## Where an instruction leaves its firing (R87, R88) -/

section
variable {s u : State} {key : Nat} {c c' : Ctx} {f : Firing} {i : Instr} {a : Ask} {body : M Next}

/-- A control instruction whose body goes on at the next word. -/
theorem runControl_goesOn (h : Issuing s key c f) (user : a.priv = .u) (on : a.guard = .scalar → (c.rk a.kg).getLsbD 0 = true)
    (ops : Operands s key c a.srcs a.dsts) (run : body.run (s.reading i a.srcs a.kg c f) = .ok (.seq, u)) (context : u.ctx? key = some c')
    (graph : c'.graph = c.graph) : runControl i a body s = .next (u.completed key (c'.advance (instrLen i))) := by
  have context' : (u.issues none).ctx? key = some c' := context
  rw [runControl_ready h (by rw [user]; exact Nat.not_lt_zero _) on ops, run]
  simp [closing, State.leave, State.completed, Ctx.advance, graph, State.modCtx_eq _ _ _ _ context']

/-- A control instruction whose body transfers to a target, with its context otherwise as `c'`. -/
theorem runControl_jumps {t : Target} {b : Binding} (h : Issuing s key c f) (user : a.priv = .u) (on : a.guard = .scalar → (c.rk a.kg).getLsbD 0 = true)
    (ops : Operands s key c a.srcs a.dsts)
    (run : body.run (s.reading i a.srcs a.kg c f) = .ok (.jump t.ptr, (s.reading i a.srcs a.kg c f).setCtx key { c' with firing := some (f.take b) }))
    (graph : c'.graph = c.graph) : runControl i a body s = .next (s.completed key (Claims.jumped c' f t b)) := by
  rw [runControl_ready h (by rw [user]; exact Nat.not_lt_zero _) on ops, run]
  simp [closing, State.leave, State.completed, Claims.jumped, Ctx.goOn, graph]

end

section
variable {s : State} {key : Nat} {c : Ctx} {f : Firing} {t : Target} {b : Binding}

/-- A transfer to an allowed target takes a reference to the binding it enters (R83, R88). -/
theorem run_transferTo (h : Issuing s key c f) (enters : Claims.enters s c f t b) :
    (transferTo t).run s = .ok (.jump t.ptr, s.setCtx key { c with firing := some (f.take b) }) := by
  obtain ⟨aligned, binding, nonneg, inside⟩ := enters
  have offset : ¬ (t.offset < 0 ∨ (b.len : Int) ≤ t.offset) := by omega
  unfold transferTo
  rw [M.run_bind_ok (run_curCtx h.cur h.ctx), M.run_bind_ok (run_curFiring h.cur h.ctx h.firing), if_neg (not_not.mpr aligned)]
  dsimp only
  rw [M.run_bind_ok (M.run_get s), binding]
  dsimp only
  rw [if_neg offset, M.run_bind_ok (run_modCur _ h.cur h.ctx), h.firing]
  rfl

/-- A transfer that writes a g register as it goes: the link of a call, or the counter of LOOP. -/
theorem run_transferTo_writes (d : Nat) (v : Word) (h : Issuing s key c f) (enters : Claims.enters s c f t b) :
    (transferTo t >>= fun n => writeG d v >>= fun _ => pure n).run s =
      .ok (.jump t.ptr, s.setCtx key { c.wg d v with firing := some (f.take b) }) := by
  rw [M.run_bind_ok (run_transferTo h enters)]
  exact M.run_bind_ok (run_modCur_setCtx _ _ h.cur)

end

end Sys2Proof.Machine

namespace Sys2Proof.ControlProofs
open Sys2Proof Sys2Proof.Machine

section
variable {s : State} {key : Nat} {c : Ctx} {f : Firing} {b : Binding}

theorem relative_transfers {x : JForm} (h : Issuing s key c f) (on : c.guardOn x.kg) (enters : Claims.enters s c f (Claims.relative f x) b) :
    exec (.br x) s = .next (s.completed key (Claims.jumped c f (Claims.relative f x) b)) ∧
    (c.rk x.a.toNat &&& c.rk (bits x.mod.toNat 3 0) ≠ 0 → exec (.brany x) s = .next (s.completed key (Claims.jumped c f (Claims.relative f x) b))) ∧
    (c.rk x.a.toNat &&& c.rk (bits x.mod.toNat 3 0) = c.rk (bits x.mod.toNat 3 0) →
      exec (.brall x) s = .next (s.completed key (Claims.jumped c f (Claims.relative f x) b))) ∧
    (Operands s key c [] [gDst 63] →
      exec (.call x) s = .next (s.completed key (Claims.jumped (c.wg 63 (linkPtr f.pc 8)) f (Claims.relative f x) b))) ∧
    (Operands s key c [jA .g x] [gDst x.a.toNat] → 1 < (c.rg x.a.toNat).toNat →
      exec (.loop x) s = .next (s.completed key (Claims.jumped (c.wg x.a.toNat (c.rg x.a.toNat - 1)) f (Claims.relative f x) b))) := by
  have transfer (e : Option ReplayEntry) := run_transferTo (h.issues e) enters
  have writes (e : Option ReplayEntry) (d : Nat) (v : Word) := run_transferTo_writes d v (h.issues e) enters
  refine ⟨?br, fun any => ?brany, fun all => ?brall, fun ops => ?call, fun ops above => ?loop⟩
  case br =>
    refine runControl_jumps h rfl (fun _ => on) (operands_none _ _ _) ?_ rfl
    rw [M.run_bind_ok (run_curPc rfl), captured_pc]
    exact transfer _
  case brany =>
    refine runControl_jumps h rfl (fun _ => on) (operands_masks _ _ _ x) ?_ rfl
    obtain ⟨a, m⟩ := run_opK_captured_masks s (.brany x) x.kg.toNat c f x
    dsimp only [jAsk]
    rw [M.run_bind_ok a, M.run_bind_ok m, if_pos any, M.run_bind_ok (run_curPc rfl), captured_pc]
    exact transfer _
  case brall =>
    refine runControl_jumps h rfl (fun _ => on) (operands_masks _ _ _ x) ?_ rfl
    obtain ⟨a, m⟩ := run_opK_captured_masks s (.brall x) x.kg.toNat c f x
    dsimp only [jAsk]
    rw [M.run_bind_ok m, M.run_bind_ok a, if_pos all, M.run_bind_ok (run_curPc rfl), captured_pc]
    exact transfer _
  case call =>
    refine runControl_jumps h rfl (fun _ => on) ops ?_ rfl
    rw [M.run_bind_ok (run_curPc rfl), captured_pc]
    exact writes _ _ _
  case loop =>
    refine runControl_jumps h rfl (fun _ => on) ops ?_ rfl
    dsimp only [jAsk]
    rw [M.run_bind_ok (run_opG_captured_jA _ _ _ _ _ _), if_pos above, M.run_bind_ok (run_curPc rfl), captured_pc]
    exact writes _ _ _

theorem pointer_transfers {x : RForm} (h : Issuing s key c f) (on : c.guardOn x.kg) (ops : Operands s key c [rA .g x] [])
    (enters : Claims.enters s c f (ptrTarget (c.rg x.a.toNat)) b) :
    exec (.ret x) s = .next (s.completed key (Claims.jumped c f (ptrTarget (c.rg x.a.toNat)) b)) ∧
    exec (.brx x) s = .next (s.completed key (Claims.jumped c f (ptrTarget (c.rg x.a.toNat)) b)) ∧
    (Operands s key c [rA .g x] [gDst 63] →
      exec (.callx x) s = .next (s.completed key (Claims.jumped (c.wg 63 (linkPtr f.pc 8)) f (ptrTarget (c.rg x.a.toNat)) b))) := by
  have transfer (e : Option ReplayEntry) := run_transferTo (h.issues e) enters
  refine ⟨?ret, ?brx, fun ops => ?callx⟩
  case ret => exact runControl_jumps h rfl (fun _ => on) ops ((run_readOne s _ c f x _ _).trans (transfer _)) rfl
  case brx => exact runControl_jumps h rfl (fun _ => on) ops ((run_readOne s _ c f x _ _).trans (transfer _)) rfl
  case callx =>
    refine runControl_jumps h rfl (fun _ => on) ops ((run_readOne s _ c f x _ _).trans ?_) rfl
    rw [M.run_bind_ok (transfer _), M.run_bind_ok (run_curPc rfl), captured_pc]
    exact M.run_bind_ok (run_modCur_setCtx _ _ (h.issues _).cur)

theorem literal_transfers {x : LForm} (h : Issuing s key c f) (on : c.guardOn x.kg) (enters : Claims.enters s c f (relTarget f.pc x.lit.toInt) b) :
    exec (.brL x) s = .next (s.completed key (Claims.jumped c f (relTarget f.pc x.lit.toInt) b)) ∧
    (Operands s key c [] [gDst 63] →
      exec (.callL x) s = .next (s.completed key (Claims.jumped (c.wg 63 (linkPtr f.pc 16)) f (relTarget f.pc x.lit.toInt) b))) := by
  refine ⟨?brL, fun ops => ?callL⟩
  case brL =>
    refine runControl_jumps h rfl (fun _ => on) (operands_none _ _ _) ?_ rfl
    rw [M.run_bind_ok (run_curPc rfl), captured_pc]
    exact run_transferTo (h.issues _) enters
  case callL =>
    refine runControl_jumps h rfl (fun _ => on) ops ?_ rfl
    rw [M.run_bind_ok (run_curPc rfl), captured_pc]
    exact run_transferTo_writes _ _ (h.issues _) enters

end

end Sys2Proof.ControlProofs

open Sys2Proof.ControlProofs

/-- Settles O15: a transfer that is taken goes through `transferTo`, and a link or a counter is written after it to the same context. -/
theorem takenTransfers : Obligations.TakenTransfers := fun _ _ _ _ _ h =>
  ⟨fun _ on enters => relative_transfers h on enters, fun _ on ops enters => pointer_transfers h on ops enters,
    fun _ on enters => literal_transfers h on enters⟩

end

section

namespace Sys2Proof.Machine

/-! ## What counting leaves of a context (R107, R108) -/

/-- The context of an instruction that has completed, but for what its counters have counted. -/
theorem State.ctx?_completed (s : State) (key : Nat) (c : Ctx) :
    ∃ d, (s.completed key c).ctx? key = some d ∧ d.uncounted = c.uncounted := by
  have counted := State.ctx?_issuedOne ((s.issues none).setCtx key c) key c.graph key
  rw [State.ctx?_setCtx, Option.map_some, Option.map_eq_some_iff] at counted
  exact counted

/-- An event changes a context that is there in its counters alone. -/
theorem State.exists_ctx?_countEvent {s : State} {key : Nat} {c : Ctx} (event n : Nat) (h : s.ctx? key = some c) :
    ∃ d, (s.countEvent key event n).ctx? key = some d ∧ d.uncounted = c.uncounted := by
  have counted := State.ctx?_countEvent s key event n key
  rw [h, Option.map_some, Option.map_eq_some_iff] at counted
  exact counted

@[simp] theorem State.mem_completed (s : State) (key : Nat) (c : Ctx) : (s.completed key c).mem = s.mem := by
  simp [State.completed]

/-! ## Speculative firings at the END of a firing (R127, R133) -/

/-- A squash leaves no speculative firing of its context. -/
theorem State.specsOf_squash (s : State) (key : Nat) : (s.squash key).specsOf key = [] := by
  unfold State.squash
  split
  · assumption
  · simp [State.specsOf]

/-- A commit takes the oldest speculative firing of its context out of the list. -/
theorem State.specsOf_commitSpec (s : State) (key : Nat) (c : Ctx) (x : Spec) : (s.commitSpec key c x).specsOf key = (s.specsOf key).tail := by
  have oldest (l : List Spec) : (l.eraseP fun y => y.key == key).filter (fun y => y.key == key) = (l.filter fun y => y.key == key).tail := by
    induction l with
    | nil => rfl
    | cons y rest ih => by_cases own : y.key == key <;> simp [own, ih]
  exact oldest s.specs

/-- What the END of a firing does to a context that is there, and the speculative firings of it that are left: none of them there, it stays; otherwise the
oldest one is committed, or all are squashed. -/
theorem State.afterEnd_cases {s : State} {key : Nat} {c : Ctx} (h : s.ctx? key = some c) :
    (s.specsOf key = [] ∧ s.afterEnd key = s) ∨
    ∃ x rest, s.specsOf key = x :: rest ∧ (s.afterEnd key = s.commitSpec key c x ∨ s.afterEnd key = s.squash key) := by
  unfold State.afterEnd
  rw [h]
  cases specs : s.specsOf key with
  | nil => exact .inl ⟨rfl, rfl⟩
  | cons x rest =>
    refine .inr ⟨x, rest, rfl, ?_⟩
    dsimp only
    split
    · exact .inl rfl
    · exact .inr rfl

/-- A context without its firing, and without what is set when a firing begins and stops. -/
def Ctx.resting (c : Ctx) : Ctx := { c.uncounted with firing := none, past := none, stoppedAt := none }

/-- The END of a firing leaves memory alone, and of its context everything but the next firing and the committed state it begins with. -/
theorem State.afterEnd_spec {s : State} {key : Nat} {c : Ctx} (h : s.ctx? key = some c) (ended : c.firing = none) :
    (s.afterEnd key).mem = s.mem ∧ ∃ d, (s.afterEnd key).ctx? key = some d ∧ d.resting = c.resting ∧
      (s.specsOf key = [] → d.firing = none) ∧
      ∀ y ys, s.specsOf key = y :: ys → (d.firing = none ∧ (s.afterEnd key).specsOf key = []) ∨
        ∃ g, d.firing = some g ∧ g.pc = y.start ∧ g.refs = [y.ref] ∧ g.ahead = y.issued ∧ (s.afterEnd key).specsOf key = ys := by
  obtain ⟨alone, same⟩ | ⟨x, rest, specs, committed | squashed⟩ := State.afterEnd_cases h
  · rw [same]
    exact ⟨rfl, c, h, rfl, fun _ => ended, fun y ys more => by simp [alone] at more⟩
  · rw [committed]
    refine ⟨rfl, _, State.ctx?_setCtx _ _ _, rfl, fun alone => by simp [alone] at specs, fun y ys more => .inr ?_⟩
    obtain ⟨rfl, rfl⟩ := List.cons.inj (specs.symm.trans more)
    exact ⟨_, rfl, rfl, rfl, rfl, by rw [State.specsOf_commitSpec, specs, List.tail_cons]⟩
  · rw [squashed]
    have counted := State.ctx?_squash s key key
    rw [h, Option.map_some, Option.map_eq_some_iff] at counted
    obtain ⟨d, there, uncounted⟩ := counted
    have firing : d.firing = none := (congrArg Ctx.firing uncounted :).trans ended
    exact ⟨State.squash_mem _ _, d, there, (congrArg Ctx.resting uncounted :), fun _ => firing, fun y ys _ => .inl ⟨firing, State.specsOf_squash _ _⟩⟩

/-- A control instruction whose body has ended its firing. -/
theorem runControl_ends {s u : State} {key : Nat} {c : Ctx} {f : Firing} {i : Instr} {a : Ask} {body : M Next} (h : Issuing s key c f) (user : a.priv = .u)
    (unguarded : a.guard = .unguarded) (ops : Operands s key c a.srcs a.dsts) (run : body.run (s.reading i a.srcs a.kg c f) = .ok (.ended, u)) :
    runControl i a body s = .next ((u.issues none).issuedOne key c.graph) := by
  rw [runControl_ready h (by rw [user]; exact Nat.not_lt_zero _) (fun scalar => Guarding.noConfusion (unguarded.symm.trans scalar)) ops, run]
  rfl

/-! ## Lines that IPF fills (R91) -/

/-- The state after the instruction lines of an IPF are filled: a free number of them is counted, where the pc has a binding. -/
def State.filled (s : State) (key : Nat) (c : Ctx) (x : JForm) (f : Firing) : State :=
  match s.enterBinding c.asid f (cpSlot f.pc) with
  | some b => s.drawWord.2.countEvent key 0x30 (s.drawWord.1.toNat % (ipfLines s.drawWord.2 key c x f.pc b + 1))
  | none => s

theorem State.filled_spec (s : State) {key : Nat} {c : Ctx} (x : JForm) (f : Firing) (h : s.ctx? key = some c) :
    (s.filled key c x f).mem = s.mem ∧ ∃ d, (s.filled key c x f).ctx? key = some d ∧ d.uncounted = c.uncounted := by
  unfold State.filled
  split
  · exact ⟨State.countEvent_mem _ _ _ _, State.exists_ctx?_countEvent (s := s.drawWord.2) _ _ h⟩
  · exact ⟨rfl, c, h, rfl⟩

end Sys2Proof.Machine

namespace Sys2Proof.ControlProofs
open Sys2Proof Sys2Proof.Machine

section
variable {s : State} {key : Nat} {c : Ctx} {f : Firing}

theorem nop_goesOn {x : RForm} (h : Issuing s key c f) (on : c.guardOn x.kg) : exec (.nop x) s = .next (s.completed key (c.advance 8)) :=
  runInstr_ready (t := s.reading (.nop x) [] x.kg.toNat c f) h (Nat.not_lt_zero _) (fun _ => on) (operands_none _ _ _) (M.run_pure _ _) h.ctx rfl

/-- A branch on masks that is not taken. -/
theorem untaken_goesOn {x : JForm} (h : Issuing s key c f) (on : c.guardOn x.kg) :
    (c.rk x.a.toNat &&& c.rk (bits x.mod.toNat 3 0) = 0 → exec (.brany x) s = .next (s.completed key (c.advance 8))) ∧
    (c.rk x.a.toNat &&& c.rk (bits x.mod.toNat 3 0) ≠ c.rk (bits x.mod.toNat 3 0) → exec (.brall x) s = .next (s.completed key (c.advance 8))) := by
  refine ⟨fun none => ?brany, fun some => ?brall⟩
  case brany =>
    refine runControl_goesOn (u := s.reading (.brany x) [jA .k x, jM x] x.kg.toNat c f) h rfl (fun _ => on) (operands_masks _ _ _ x) ?_ h.ctx rfl
    obtain ⟨a, m⟩ := run_opK_captured_masks s (.brany x) x.kg.toNat c f x
    dsimp only [jAsk]
    rw [M.run_bind_ok a, M.run_bind_ok m, if_neg (not_not.mpr none)]
    rfl
  case brall =>
    refine runControl_goesOn (u := s.reading (.brall x) [jA .k x, jM x] x.kg.toNat c f) h rfl (fun _ => on) (operands_masks _ _ _ x) ?_ h.ctx rfl
    obtain ⟨a, m⟩ := run_opK_captured_masks s (.brall x) x.kg.toNat c f x
    dsimp only [jAsk]
    rw [M.run_bind_ok m, M.run_bind_ok a, if_neg some]
    rfl

/-- LOOP with a counter of 0 or 1 ends at 0. -/
theorem loop_ends {x : JForm} (h : Issuing s key c f) (on : c.guardOn x.kg) (ops : Operands s key c [jA .g x] [gDst x.a.toNat])
    (last : (c.rg x.a.toNat).toNat ≤ 1) : exec (.loop x) s = .next (s.completed key ((c.wg x.a.toNat 0).advance 8)) := by
  rw [← State.completed_setCtx s key (c.wg x.a.toNat 0)]
  refine runControl_goesOn (u := (s.reading (.loop x) [jA .g x] x.kg.toNat c f).setCtx key (c.wg x.a.toNat 0)) h rfl (fun _ => on) ops ?_
    (State.ctx?_setCtx _ _ _) rfl
  dsimp only [jAsk]
  rw [M.run_bind_ok (run_opG_captured_jA _ _ _ _ _ _), if_neg (by omega)]
  exact M.run_bind_ok (run_writeG _ _ (h.issues _).cur (h.issues _).ctx)

/-- IPF leaves its context as it was, and the rest as `State.filled` has it. -/
theorem exec_ipf {x : JForm} (h : Issuing s key c f) (on : c.guardOn x.kg) :
    ∃ (u : State) (d : Ctx), exec (.ipf x) s = .next (u.completed key (d.advance 8)) ∧ u.mem = s.mem ∧ d.uncounted = c.uncounted := by
  obtain ⟨mem, d, there, uncounted⟩ := (s.reading (.ipf x) [] x.kg.toNat c f).filled_spec x f h.ctx
  refine ⟨_, d, runInstr_ready (a := jAsk x [] []) h (Nat.not_lt_zero _) (fun _ => on) (operands_none _ _ _) ?_ there (congrArg Ctx.graph uncounted :), mem,
    uncounted⟩
  have issuing := h.issues (some (captured (.ipf x) [] x.kg.toNat c f))
  dsimp only [jAsk]
  rw [M.run_bind_ok (run_curCtx issuing.cur issuing.ctx), M.run_bind_ok (run_curFiring issuing.cur issuing.ctx issuing.firing),
    M.run_bind_ok (run_curPc rfl), captured_pc, M.run_bind_ok (run_curKey issuing.cur), M.run_bind_ok (M.run_get _), State.filled]
  cases (s.reading (.ipf x) [] x.kg.toNat c f).enterBinding c.asid f (cpSlot f.pc) <;> rfl

/-- IPF leaves memory and the registers alone (R91). -/
theorem ipf_goesOn {x : JForm} (h : Issuing s key c f) (on : c.guardOn x.kg) :
    ∃ t, exec (.ipf x) s = .next t ∧ t.mem = s.mem ∧
      ∃ c', t.ctx? key = some c' ∧ c'.g = c.g ∧ c'.gEmpty = c.gEmpty ∧ c'.firing = some { f with pc := nextPc f.pc 8, stall := .none, wait := none } := by
  obtain ⟨u, d, run, mem, uncounted⟩ := exec_ipf (x := x) h on
  obtain ⟨c', there, counted⟩ := u.ctx?_completed key (d.advance 8)
  have advanced : (d.advance 8).uncounted = (c.advance 8).uncounted := (congrArg (Ctx.advance · 8) uncounted :)
  replace counted := counted.trans advanced
  refine ⟨_, run, by rw [State.mem_completed, mem], c', there, (congrArg Ctx.g counted :), (congrArg Ctx.gEmpty counted :),
    (congrArg Ctx.firing counted :).trans ?_⟩
  simp [Ctx.uncounted, Ctx.advance, Ctx.goOn, h.firing]

/-- END writes its context as `Ctx.endFiring` has it, and then the next firing follows. -/
theorem exec_endFiring (x : RForm) (h : Issuing s key c f) :
    exec (.endFiring x) s = .next (((((s.reading (.endFiring x) [] 0 c f).setCtx key (c.endFiring (setField x) (clrField x))).afterEnd key).issues none).issuedOne
      key c.graph) := by
  refine runControl_ends (a := { guard := .unguarded }) h rfl rfl (operands_none _ _ _) ?_
  rw [M.run_bind_ok (run_curKey (h.issues _).cur), M.run_bind_ok (run_modCur _ (h.issues _).cur (h.issues _).ctx)]
  rfl

theorem end_ends (x : RForm) (h : Issuing s key c f) :
    ∃ t, exec (.endFiring x) s = .next t ∧ t.mem = s.mem ∧
      ∃ c', t.ctx? key = some c' ∧ (s.specsOf key = [] → c'.firing = none) ∧
        (∀ y ys, s.specsOf key = y :: ys → (c'.firing = none ∧ t.specsOf key = []) ∨
          ∃ g, c'.firing = some g ∧ g.pc = y.start ∧ g.refs = [y.ref] ∧ g.ahead = y.issued ∧ t.specsOf key = ys) ∧
        c'.flags = ((c.flags &&& ~~~clrField x) ||| setField x) ||| c.flagsHeld ∧ c'.flagsHeld = 0 ∧
        c'.guards = c.guardsHeld.getD c.guards ∧ c'.g = c.g ∧ c'.v = c.v ∧ c'.k = c.k ∧
        c'.frames = if f.handler then c.frames.tail else c.frames := by
  obtain ⟨mem, d, there, rests, alone, specs⟩ :=
    State.afterEnd_spec (s := (s.reading (.endFiring x) [] 0 c f).setCtx key (c.endFiring (setField x) (clrField x))) (State.ctx?_setCtx _ _ _) rfl
  refine ⟨_, exec_endFiring x h, ?_, ?_⟩
  all_goals generalize ((s.reading (.endFiring x) [] 0 c f).setCtx key (c.endFiring (setField x) (clrField x))).afterEnd key = u at *
  · simpa using mem
  · have counted := State.ctx?_issuedOne (u.issues none) key c.graph key
    rw [State.ctx?_issues, there, Option.map_some, Option.map_eq_some_iff] at counted
    obtain ⟨c', there', uncounted⟩ := counted
    have rested : c'.resting = (c.endFiring (setField x) (clrField x)).resting := (congrArg Ctx.resting uncounted :).trans rests
    have firing : c'.firing = d.firing := (congrArg Ctx.firing uncounted :)
    have left : ((u.issues none).issuedOne key c.graph).specsOf key = u.specsOf key := by simp [State.specsOf]
    rw [← firing] at alone specs
    rw [left]
    refine ⟨c', there', alone, specs, (congrArg Ctx.flags rested :), (congrArg Ctx.flagsHeld rested :), (congrArg Ctx.guards rested :),
      (congrArg Ctx.g rested :), (congrArg Ctx.v rested :), (congrArg Ctx.k rested :), (congrArg Ctx.frames rested :).trans ?_⟩
    simp [Ctx.resting, Ctx.endFiring, Ctx.uncounted, h.firing]

end

end Sys2Proof.ControlProofs

open Sys2Proof.ControlProofs

/-- Settles O16: what goes on at the next word leaves its context as its body has it; END writes its own context, and then commits the oldest speculative
firing or squashes all. -/
theorem sequentialControl : Obligations.SequentialControl := by
  intro s key c f h
  refine ⟨fun x on => nop_goesOn h on, fun x on => ?_, fun x => end_ends x h⟩
  obtain ⟨brany, brall⟩ := untaken_goesOn (x := x) h on
  exact ⟨brany, brall, loop_ends h on, ipf_goesOn h on⟩

end

section

namespace Sys2Proof.Machine

/-! ## A context that has moved on, with g registers written or marked -/

/-- A context as another one, but for its g registers. -/
def Ctx.sameButG (c d : Ctx) : Prop := { d with g := c.g, gEmpty := c.gEmpty, gBad := c.gBad } = c

theorem Ctx.sameButG_markG (c : Ctx) (n : Nat) (empty : Bool) : c.sameButG (c.markG n empty) := rfl
theorem Ctx.sameButG_wg (c : Ctx) (n : Nat) (v : Word) : c.sameButG (c.wg n v) := rfl

/-- An instruction that has completed with g registers of its context changed alone has moved its firing on; its registers are as it left them. -/
theorem movedOn_completed {s : State} {key : Nat} {c d : Ctx} {f : Firing} (n : Nat) (firing : c.firing = some f) (same : c.sameButG d) :
    ∃ c', Claims.movedOn (s.completed key (d.advance n)) key c f n c' ∧ c'.g = d.g ∧ c'.gEmpty = d.gEmpty := by
  obtain ⟨c', there, uncounted⟩ := s.ctx?_completed key (d.advance n)
  have moved : { c'.uncounted with g := c.g, gEmpty := c.gEmpty, gBad := c.gBad } = (c.advance n).uncounted :=
    (congrArg (fun x : Ctx => { x with g := c.g, gEmpty := c.gEmpty, gBad := c.gBad }) uncounted).trans
      (congrArg (fun x => (Ctx.advance x n).uncounted) same :)
  refine ⟨c', ⟨there, (congrArg Ctx.firing moved :).trans ?_, (congrArg Ctx.k moved :), (congrArg Ctx.frames moved :), (congrArg Ctx.trapcause moved :),
    (congrArg Ctx.trapinfo moved :), (congrArg Ctx.trapvec moved :), (congrArg Ctx.priv moved :), (congrArg Ctx.asid moved :), (congrArg Ctx.part moved :)⟩,
    (congrArg Ctx.g uncounted :), (congrArg Ctx.gEmpty uncounted :)⟩
  simp [Ctx.uncounted, Ctx.advance, Ctx.goOn, firing]

@[simp] theorem State.asids_completed (s : State) (key : Nat) (c : Ctx) : (s.completed key c).asids = s.asids := by
  simp [State.completed]

@[simp] theorem State.bindings_completed (s : State) (key : Nat) (c : Ctx) : (s.completed key c).bindings = s.bindings := by
  simp [State.completed]

@[simp] theorem State.ops_completed (s : State) (key : Nat) (c : Ctx) : (s.completed key c).ops = s.ops := by
  simp [State.completed]

/-! ## Reading the image of a module (R248) -/

/-- What issues does not change what an image reads as. -/
theorem imageFrom_issues (s : State) (e : Option ReplayEntry) (key : Nat) (c : Ctx) (base len fuel off : Nat) (m : Map Byte) :
    imageFrom (s.issues e) key c base len fuel off m = imageFrom s key c base len fuel off m := by
  induction fuel generalizing off m with
  | zero => rfl
  | succ fuel ih =>
    simp only [imageFrom, ih]
    rfl

/-- A context without accesses does not wait for them, whatever issues (R248). -/
theorem State.accessing_issues_of_noAccess {s : State} {key : Nat} (quiet : s.noAccess key) (e : Option ReplayEntry) : (s.issues e).accessing key = false := by
  have none : s.inFlightOf key = [] := quiet
  show (!(s.inFlightOf key).isEmpty) = false
  rw [none]
  rfl

/-- Dropping bindings changes the bindings alone. -/
theorem State.dropBindings_eq (s : State) (asid slot : Nat) (l : List Binding) :
    ∃ bs, l.foldl (fun s b => s.dropBinding asid slot b.gen) s = { s with bindings := bs } :=
  foldl_keeps (fun t => ∃ bs, t = { s with bindings := bs }) _ (fun _ _ ⟨_, h⟩ => ⟨_, by rw [h]; rfl⟩) l s ⟨s.bindings, rfl⟩

/-- Drained bindings that may be gone: the choice is drawn, and the bindings may change (R93). -/
theorem State.purge_eq (s : State) (asid slot : Nat) (gone : Bool) (l : List Binding) :
    ∃ bs, (if gone then l.foldl (fun s b => s.dropBinding asid slot b.gen) s.drawChoice.2 else s.drawChoice.2) =
      { s with bindings := bs, drawn := s.drawn + 1 } := by
  cases gone with
  | false => exact ⟨s.bindings, rfl⟩
  | true => exact s.drawChoice.2.dropBindings_eq asid slot l

/-- The state in which a slot has no binding, and the one it had is released (R82). -/
def State.unbound (s : State) (asid slot : Nat) (b : Binding) : State :=
  ({ s with bindings := s.bindings.map fun y =>
      if y.asid = b.asid ∧ y.slot = slot ∧ y.gen = b.gen then { y with released := true } else y } : State).setAsid asid
    { s.asid asid with bound := setBit (s.asid asid).bound slot false }

end Sys2Proof.Machine

namespace Sys2Proof.ModuleProofs
open Sys2Proof Sys2Proof.Machine

section
variable {s : State} {key : Nat} {c : Ctx} {f : Firing} {x : RForm}

/-- The binding that MODBIND makes, under a tag that no generation has (R93). -/
def boundImage (s : State) (c : Ctx) (base slot len : Word) (image : Map Byte) : Binding :=
  { asid := c.asid, slot := slot.toNat, gen := 2 ^ 48 + s.fresh, base := base.toNat, len := len.toNat, image := image
    digest := Config.shake256 ((List.range len.toNat).map fun j => Map.get 0 image j) }

/-- MODBIND of a readable image: the instruction goes in flight, and its binding joins the others under a tag of its own (R93). -/
theorem modbind_sends {image : Map Byte} (h : Issuing s key c f) (on : c.guardOn x.kg) (room : s.issueRoom key f)
    (ops : Operands s key c [rA .g x, rB .g x, rC .g x] [gDst x.d.toNat]) (quiet : s.noAccess key) (aligned : (c.rg x.a.toNat).toNat % 128 = 0)
    (nonempty : c.rg x.c.toNat ≠ 0) (words : (c.rg x.c.toNat).toNat % 8 = 0) (slot : (c.rg x.b.toNat).toNat ≤ 15) (fits : (c.rg x.c.toNat).toNat ≤ 2 ^ 48)
    (read : imageFrom s key c (c.rg x.a.toNat).toNat (c.rg x.c.toNat).toNat ((c.rg x.c.toNat).toNat / 65536 + 2) 0 [] = .ok image) :
    ∃ u : State, exec (.modbind x) s = .next (u.completed key ((c.markG x.d.toNat true).advance 8)) ∧ u.mem = s.mem ∧ u.asids = s.asids ∧
      ∃ b : Binding, u.bindings = s.bindings ++ [b] ∧ b.asid = c.asid ∧ b.slot = (c.rg x.b.toNat).toNat ∧ b.base = (c.rg x.a.toNat).toNat ∧
        b.len = (c.rg x.c.toNat).toNat ∧ b.image = image ∧
        ∃ o ∈ u.ops, o.ctx = key ∧ o.dstG = [x.d.toNat] ∧ o.kind = .modbind c.asid b.slot b.gen := by
  let e := captured (.modbind x) [rA .g x, rB .g x, rC .g x] x.kg.toNat c f
  let b := boundImage s c (c.rg x.a.toNat) (c.rg x.b.toNat) (c.rg x.c.toNat) image
  let o := s.opOf key f e (.modbind b.asid b.slot b.gen) [x.d.toNat] [] 0 0 0
  have sent := run_issueOp (.modbind b.asid b.slot b.gen) [x.d.toNat] [] 0 0 0 (h.issues (some e)) rfl room
  refine ⟨{ (s.send o).setCtx key (c.markG x.d.toNat true) with issuing := some e, bindings := s.bindings ++ [b] },
    runInstr_ready h (Nat.not_lt_zero _) (fun _ => on) ops ((run_readThree s _ c f x _ _).trans ?_) (State.ctx?_setCtx _ _ _) rfl, rfl, rfl,
    b, rfl, rfl, rfl, rfl, rfl, rfl, o, by simp [State.send], rfl, rfl, rfl⟩
  rw [if_neg (by tauto), if_neg (by omega), M.run_bind_ok (run_curKey (h.issues _).cur), M.run_bind_ok (run_curCtx (h.issues _).cur (h.issues _).ctx),
    M.run_bind_ok (M.run_get _), State.accessing_issues_of_noAccess quiet, if_neg Bool.false_ne_true, imageFrom_issues, read]
  dsimp only
  exact (M.run_bind_ok sent).trans (M.run_modify _ _)

/-- MODFREE of a slot without a binding. -/
theorem modfree_unbound (h : Issuing s key c f) (on : c.guardOn x.kg) (ops : Operands s key c [rA .g x] [gDst x.d.toNat])
    (slot : (c.rg x.a.toNat).toNat ≤ 15) (unbound : s.boundNow c.asid (c.rg x.a.toNat).toNat = none) :
    exec (.modfree x) s = .next (s.completed key ((c.wg x.d.toNat 0).advance 8)) := by
  have unbound' (e : Option ReplayEntry) : (s.issues e).boundNow c.asid (c.rg x.a.toNat).toNat = none := unbound
  refine runInstr_completes h (Nat.not_lt_zero _) (fun _ => on) ops ((run_readOne s _ c f x _ _).trans ?_) rfl
  rw [if_neg (by omega), M.run_bind_ok (run_curCtx (h.issues _).cur (h.issues _).ctx), M.run_bind_ok (M.run_get _), unbound']
  exact run_writeG _ _ (h.issues _).cur (h.issues _).ctx

/-- MODFREE of a bound slot: the instruction goes in flight, and the slot is unbound at once (R93). -/
theorem modfree_sends {b : Binding} (h : Issuing s key c f) (on : c.guardOn x.kg) (room : s.issueRoom key f)
    (ops : Operands s key c [rA .g x] [gDst x.d.toNat]) (slot : (c.rg x.a.toNat).toNat ≤ 15)
    (bound : s.boundNow c.asid (c.rg x.a.toNat).toNat = some b) :
    ∃ u : State, exec (.modfree x) s = .next (u.completed key ((c.markG x.d.toNat true).advance 8)) ∧ u.mem = s.mem ∧
      u.asids = (s.setAsid c.asid { s.asid c.asid with bound := setBit (s.asid c.asid).bound (c.rg x.a.toNat).toNat false }).asids ∧
      ∃ o ∈ u.ops, o.ctx = key ∧ o.dstG = [x.d.toNat] ∧ o.kind = .modfree c.asid (c.rg x.a.toNat).toNat b.gen := by
  let e := captured (.modfree x) [rA .g x] x.kg.toNat c f
  let o := s.opOf key f e (.modfree c.asid (c.rg x.a.toNat).toNat b.gen) [x.d.toNat] [] 0 0 0
  have bound' (e : Option ReplayEntry) : (s.issues e).boundNow c.asid (c.rg x.a.toNat).toNat = some b := bound
  have sent := run_issueOp (.modfree c.asid (c.rg x.a.toNat).toNat b.gen) [x.d.toNat] [] 0 0 0 (h.issues (some e)) rfl room
  refine ⟨_, runInstr_ready (a := rAsk x [rA .g x] [gDst x.d.toNat]) h (Nat.not_lt_zero _) (fun _ => on) ops ((run_readOne s _ c f x _ _).trans ?_)
    (State.ctx?_setCtx (((s.issues (some e)).send o).unbound c.asid (c.rg x.a.toNat).toNat b) _ _) rfl, rfl, rfl,
    o, by simp [State.unbound, State.send], rfl, rfl, rfl⟩
  rw [if_neg (by omega), M.run_bind_ok (run_curCtx (h.issues _).cur (h.issues _).ctx), M.run_bind_ok (M.run_get _), bound']
  dsimp only
  exact (M.run_bind_ok sent).trans (M.run_modify _ _)

/-- The word of MODQ (R93). -/
def slotWord (s : State) (asid slot : Nat) : Word :=
  wd (b2n ((s.asid asid).bound.getLsbD slot) + b2n (s.bindings.any fun b => b.asid == asid && b.slot == slot && b.released) * 2 +
    Map.get 0 (s.asid asid).gens slot * 2 ^ 16)

/-- MODQ of a slot all of whose released bindings are referred to. -/
theorem modq_reads (h : Issuing s key c f) (on : c.guardOn x.kg) (ops : Operands s key c [rA .g x] [gDst x.d.toNat])
    (slot : (c.rg x.a.toNat).toNat ≤ 15) (drained : s.drainedBindings c.asid (c.rg x.a.toNat).toNat = []) :
    exec (.modq x) s = .next (s.completed key ((c.wg x.d.toNat (slotWord s c.asid (c.rg x.a.toNat).toNat)).advance 8)) := by
  have drained' (e : Option ReplayEntry) : (s.issues e).drainedBindings c.asid (c.rg x.a.toNat).toNat = [] := drained
  refine runInstr_completes h (Nat.not_lt_zero _) (fun _ => on) ops ((run_readOne s _ c f x _ _).trans ?_) rfl
  rw [if_neg (by omega), M.run_bind_ok (run_curCtx (h.issues _).cur (h.issues _).ctx), M.run_bind_ok (M.run_get _), drained', if_neg (by simp),
    M.run_bind_ok (M.run_get _)]
  exact run_writeG _ _ (h.issues _).cur (h.issues _).ctx

/-- MODQ completes with a word in its destination, whether or not drained bindings are gone; memory stays. -/
theorem modq_completes (h : Issuing s key c f) (on : c.guardOn x.kg) (ops : Operands s key c [rA .g x] [gDst x.d.toNat])
    (slot : (c.rg x.a.toNat).toNat ≤ 15) :
    ∃ (u : State) (v : Word), exec (.modq x) s = .next (u.completed key ((c.wg x.d.toNat v).advance 8)) ∧ u.mem = s.mem := by
  by_cases drained : s.drainedBindings c.asid (c.rg x.a.toNat).toNat = []
  · exact ⟨s, _, modq_reads h on ops slot drained, rfl⟩
  · let r := s.reading (.modq x) [rA .g x] x.kg.toNat c f
    have drained' (e : Option ReplayEntry) : (!((s.issues e).drainedBindings c.asid (c.rg x.a.toNat).toNat).isEmpty) = true := by
      rw [Bool.not_eq_true', List.isEmpty_eq_false_iff]
      exact drained
    obtain ⟨bs, purged⟩ := r.purge_eq c.asid (c.rg x.a.toNat).toNat r.drawChoice.1 (r.drawChoice.2.drainedBindings c.asid (c.rg x.a.toNat).toNat)
    let u : State := { r with bindings := bs, drawn := s.drawn + 1 }
    refine ⟨_, slotWord u c.asid (c.rg x.a.toNat).toNat, runInstr_ready (a := rAsk x [rA .g x] [gDst x.d.toNat]) h (Nat.not_lt_zero _) (fun _ => on) ops
      ((run_readOne s _ c f x _ _).trans ?_) (State.ctx?_setCtx u _ _) rfl, rfl⟩
    rw [if_neg (by omega), M.run_bind_ok (run_curCtx (h.issues _).cur (h.issues _).ctx), M.run_bind_ok (M.run_get _),
      if_pos (drained' _)]
    dsimp only [rAsk]
    rw [purged, M.run_bind_ok (M.run_set _ _), M.run_bind_ok (M.run_get _)]
    exact run_writeG (s := u) _ _ h.cur h.ctx

end

end Sys2Proof.ModuleProofs

open Sys2Proof Sys2Proof.Machine Sys2Proof.ModuleProofs

/-- Settles O20: MODBIND and MODFREE of a bound slot go in flight with their destination empty; the others write it. -/
theorem moduleInstructions : Obligations.ModuleInstructions := by
  intro s key c f x h on room
  refine ⟨fun ops quiet image aligned nonempty words slot fits read => ?modbind, fun ops slot => ⟨?unbound, fun b bound => ?bound, ?reads, ?modq⟩⟩
  case modbind =>
    obtain ⟨u, run, mem, asids, b, bindings, asid, slot, base, len, image, sent⟩ := modbind_sends h on room ops quiet aligned nonempty words slot fits read
    obtain ⟨c', moved, -, gEmpty⟩ := movedOn_completed (s := u) 8 h.firing (c.sameButG_markG x.d.toNat true)
    refine ⟨_, c', run, moved, by rw [State.mem_completed, mem], by rw [State.asids_completed, asids], ?_, b, by rw [State.bindings_completed, bindings], asid,
      slot, base, len, image, by rwa [State.ops_completed]⟩
    exact (congrArg (·.getLsbD x.d.toNat) gEmpty).trans (setBit_get _ _ true x.d.isLt)
  case unbound => exact modfree_unbound h on ops slot
  case bound =>
    obtain ⟨u, run, mem, asids, sent⟩ := modfree_sends h on room ops slot bound
    obtain ⟨c', moved, -, -⟩ := movedOn_completed (s := u) 8 h.firing (c.sameButG_markG x.d.toNat true)
    exact ⟨_, c', run, moved, by rw [State.mem_completed, mem], by rw [State.asids_completed, asids], by rwa [State.ops_completed]⟩
  case reads => exact modq_reads h on ops slot
  case modq =>
    obtain ⟨u, v, run, mem⟩ := modq_completes h on ops slot
    obtain ⟨c', moved, -, gEmpty⟩ := movedOn_completed (s := u) 8 h.firing (c.sameButG_wg x.d.toNat v)
    exact ⟨_, c', run, moved, by rw [State.mem_completed, mem], (congrArg (·.getLsbD x.d.toNat) gEmpty).trans (Ctx.emptyG_wg c _ v x.d.isLt)⟩

end

section

namespace Sys2Proof.Machine

/-! ## What a counter's home and a write-back leave alone (R163, R246) -/

theorem State.writeBackAll_tlb (s : State) : s.writeBackAll.tlb = s.tlb := by
  refine foldl_same State.tlb _ (fun t tile => ?_) _ s
  obtain ⟨_, _, _, _, _, _, h⟩ := t.writeBack_eq tile fun _ => true
  rw [h]

/-- An add at a counter's home is a write to the DRAM region. -/
theorem addAtHome_eq {s : State} {va pa n : Nat} {r : Nat × State} (h : addAtHome s va pa n = .ok r) : ∃ bs, r.2 = s.dramWrite pa bs := by
  unfold addAtHome at h
  split at h
  · cases h
  · split at h
    · cases h
    · cases h
      exact ⟨_, rfl⟩

theorem agentAdd_eq {s t : State} {key : Nat} {c : Ctx} {va n : Nat} (h : agentAdd s key c va n = .ok t) : ∃ pa bs, t = s.dramWrite pa bs := by
  unfold agentAdd at h
  split at h
  · cases h
  · split at h
    · cases h
    · rename_i added
      cases h
      exact ⟨_, addAtHome_eq added⟩

/-! ## The end of an instruction that changes bindings (R82, R93) -/

/-- An instruction in flight that ends with the state as `u`, where its context is as it was: it is no longer in flight, and its destinations have its result. -/
theorem State.finishOp_spec {u : State} {o : Op} {c : Ctx} (slot : u.ctx? o.ctx = some c) (g : Word) (v : List VWord) :
    (u.finishOp o g v).op? o.id = none ∧ (u.finishOp o g v).mem = u.mem ∧ (u.finishOp o g v).asids = u.asids ∧
      (u.finishOp o g v).bindings = u.bindings ∧ ∃ c', (u.finishOp o g v).ctx? o.ctx = some c' ∧ c'.g = (c.deliver o.dstG o.dstV g v).g := by
  obtain ⟨f, finished⟩ := State.finishOp_slot slot g v
  obtain ⟨delivered, -⟩ := c.complete_registers o g v
  rw [finished]
  exact ⟨by simp, rfl, rfl, rfl, _, State.ctx?_setCtx _ _ _, delivered⟩

end Sys2Proof.Machine

namespace Sys2Proof.TranslationProofs
open Sys2Proof Sys2Proof.Machine

/-- A walk that finds a translation for reading caches it, whatever it would find for the other rights. -/
theorem pageWalk_caches (s : State) (tlb va : Nat) (e : TlbEntry) (live : (s.asid (tlb % 8192)).live = true) (mapped : va < 2 ^ 48)
    (missed : s.tlbHit (tlb / 8192) (tlb % 8192) (s.asid (tlb % 8192)).part va = none)
    (walked : walkBoth s (tlb % 8192) (s.asid (tlb % 8192)).part va .r = .ok e) :
    exec (.pageWalkCompletion tlb va) s = .next { s with tlb := s.tlb ++ [{ e with tile := tlb / 8192 }] } := by
  have goes : (!(s.asid (tlb % 8192)).live || decide (2 ^ 48 ≤ va) || (s.tlbHit (tlb / 8192) (tlb % 8192) (s.asid (tlb % 8192)).part va).isSome) = false := by
    rw [live, missed, decide_eq_false (Nat.not_le.mpr mapped)]
    rfl
  show execPageWalkCompletion tlb va s = _
  simp only [execPageWalkCompletion, runEvent, goes, List.findSome?_cons, walked, Bool.false_eq_true, if_false]

theorem shootdown_completes (s s2 : State) (id : Nat) (o : Op) (c : Ctx) (due : Claims.due s id o c) (kind : o.kind = .tlbinv)
    (alone : (s.ops.any fun p => s.usesOld o p) = false)
    (added : agentAdd (State.writeBackAll { s with tlb := s.tlb.filter fun e => !covers o e }) o.ctx c o.addr 1 = .ok s2) :
    ∃ t, exec (.tlbinvCompletion id) s = .next t ∧ t.mem = s2.mem ∧ t.op? id = none ∧ ∀ e ∈ t.tlb, e ∈ s.tlb ∧ covers o e = false := by
  obtain ⟨op, slot, performs⟩ := due
  have owner : State.owner? { s with tlb := s.tlb.filter fun e => !covers o e } o.ctx = some c := State.owner?_slot slot
  obtain ⟨pa, bs, written⟩ := agentAdd_eq added
  have tlb : s2.tlb = s.tlb.filter fun e => !covers o e := by
    rw [written]
    exact State.writeBackAll_tlb _
  refine ⟨(s2.dropOp id).wakeAll, ?_, rfl, State.op?_dropOp s2 id, fun e held => ?_⟩
  · show execTlbinvCompletion id s = _
    simp only [execTlbinvCompletion, runEvent, op, kind, performs, alone, Bool.not_false, and_self, if_true, owner, added]
  · have held' : e ∈ s2.tlb := held
    rw [tlb] at held'
    simpa using held'

theorem binding_takesEffect (s : State) (id asid slot tag : Nat) (o : Op) (c : Ctx) (op : s.op? id = some o) (context : s.ctx? o.ctx = some c)
    (kind : o.kind = .modbind asid slot tag) :
    ∃ t c', exec (.bindingTakesEffect id) s = .next t ∧ t.op? id = none ∧ t.mem = s.mem ∧ t.ctx? o.ctx = some c' ∧
      c'.g = (c.deliver o.dstG o.dstV (wd ((Map.get 0 (s.asid asid).gens slot + 1) % 2 ^ 48)) []).g ∧ t.asids = (s.applyBind asid slot tag).2.asids := by
  obtain rfl : o.id = id := State.id_of_op? op
  have run : exec (.bindingTakesEffect o.id) s = .next ((s.applyBind asid slot tag).2.finishOp o (wd (s.applyBind asid slot tag).1) []) := by
    show execBindingTakesEffect o.id s = _
    simp only [execBindingTakesEffect, runEvent, op, kind]
  obtain ⟨gone, mem, asids, -, c', there, g⟩ := State.finishOp_spec (u := (s.applyBind asid slot tag).2) context (wd (s.applyBind asid slot tag).1) []
  exact ⟨_, c', run, gone, mem, there, g, asids⟩

theorem drain_completes (s : State) (id asid slot gen : Nat) (o : Op) (c : Ctx) (op : s.op? id = some o) (context : s.ctx? o.ctx = some c)
    (kind : o.kind = .modfree asid slot gen) (unreferenced : s.referenced asid slot gen = false) :
    ∃ t c', exec (.modfreeDrainComplete id) s = .next t ∧ t.op? id = none ∧ t.mem = s.mem ∧ t.ctx? o.ctx = some c' ∧
      c'.g = (c.deliver o.dstG o.dstV (wd gen) []).g ∧ ∀ b ∈ t.bindings, ¬ (b.asid = asid ∧ b.slot = slot ∧ b.gen = gen ∧ b.released = true) := by
  obtain rfl : o.id = id := State.id_of_op? op
  have run : exec (.modfreeDrainComplete o.id) s = .next ((s.dropBinding asid slot gen).finishOp o (wd gen) []) := by
    show execModfreeDrainComplete o.id s = _
    simp only [execModfreeDrainComplete, runEvent, op, kind, unreferenced, Bool.false_eq_true, if_false]
  obtain ⟨gone, mem, -, bindings, c', there, g⟩ := State.finishOp_spec (u := s.dropBinding asid slot gen) context (wd gen) []
  refine ⟨_, c', run, gone, mem, there, g, fun b left => ?_⟩
  rw [bindings, State.dropBinding, List.mem_filter] at left
  rintro ⟨rfl, rfl, rfl, released⟩
  simp [released] at left

end Sys2Proof.TranslationProofs

open Sys2Proof.TranslationProofs

/-- Settles O33: a walk caches what it finds, a shootdown filters the translations before it writes memory, and the two bindings' ends deliver their generation
through `State.finishOp`. -/
theorem translationAndBindingEvents : Obligations.TranslationAndBindingEvents :=
  ⟨pageWalk_caches, shootdown_completes, binding_takesEffect, drain_completes⟩

end

section

namespace Sys2Proof.Machine

/-! ## Widths and words of a type (R96) -/

theorem tyWidth_cases (ty : Nat) : tyWidth ty = 8 ∨ tyWidth ty = 16 ∨ tyWidth ty = 32 ∨ tyWidth ty = 64 := by
  have : ty % 4 = 0 ∨ ty % 4 = 1 ∨ ty % 4 = 2 ∨ ty % 4 = 3 := by omega
  rcases this with h | h | h | h <;> simp [tyWidth, h]

theorem tyWidth_le (ty : Nat) : tyWidth ty ≤ 64 := by
  have := tyWidth_cases ty
  omega

theorem tyWidth_pos (ty : Nat) : 0 < tyWidth ty := by
  have := tyWidth_cases ty
  omega

/-- The low bits of a number as a signed integer are those of a bit vector. -/
theorem asInt_signed (w n : Nat) : asInt true w n = (BitVec.ofNat w n).toInt := by
  rw [BitVec.toInt_eq_toNat_cond, BitVec.toNat_ofNat, asInt]
  cases w with
  | zero => simp [Nat.mod_one]
  | succ w =>
    have half : 2 ^ (w + 1) = 2 * 2 ^ w := by rw [Nat.pow_succ, Nat.mul_comm]
    by_cases top : 2 ^ w ≤ n % 2 ^ (w + 1)
    · simp [top, show ¬ 2 * (n % 2 ^ (w + 1)) < 2 ^ (w + 1) by omega]
    · simp [top, show 2 * (n % 2 ^ (w + 1)) < 2 ^ (w + 1) by omega]

theorem asInt_unsigned (w n : Nat) : asInt false w n = ((BitVec.ofNat w n).toNat : Int) := by
  simp [asInt]

/-- A field as a word: extended by its sign or by zeros. -/
theorem ofInt_asInt (signed : Bool) (w n : Nat) :
    BitVec.ofInt 64 (asInt signed w n) = if signed then (BitVec.ofNat w n).signExtend 64 else (BitVec.ofNat w n).setWidth 64 := by
  cases signed with
  | true => rw [asInt_signed]; rfl
  | false => rw [asInt_unsigned, BitVec.ofInt_natCast, BitVec.ofNat_toNat]; rfl

/-- An integer written at a width is its bit vector, extended (R96). -/
theorem wrInt_eq (ty : Nat) (n : Int) :
    wrInt ty n = if tySigned ty then (BitVec.ofInt (tyWidth ty) n).signExtend 64 else (BitVec.ofInt (tyWidth ty) n).setWidth 64 := by
  have low : BitVec.ofNat (tyWidth ty) (lowBits (tyWidth ty) n) = BitVec.ofInt (tyWidth ty) n := by
    refine BitVec.eq_of_toNat_eq ?_
    rw [BitVec.toNat_ofInt, BitVec.toNat_ofNat, lowBits, Nat.mod_eq_of_lt]
    · push_cast
      rfl
    · have := Int.emod_lt_of_pos n (show (0 : Int) < 2 ^ tyWidth ty by positivity)
      zify
      rw [Int.toNat_of_nonneg (Int.emod_nonneg _ (by positivity))]
      exact this
  rw [wrInt, ofInt_asInt, low]

/-- A register read at a width, as a bit vector of that width. -/
theorem ofInt_rdInt (ty : Nat) (x : Word) : BitVec.ofInt (tyWidth ty) (rdInt ty x) = x.setWidth (tyWidth ty) := by
  rw [rdInt]
  cases tySigned ty with
  | true => rw [asInt_signed, BitVec.ofInt_toInt, BitVec.ofNat_toNat]
  | false => rw [asInt_unsigned, BitVec.ofInt_natCast, BitVec.ofNat_toNat, BitVec.ofNat_toNat, BitVec.setWidth_eq]

/-! ## Counts (R97) -/

theorem leadZeros_eq (n w : Nat) : leadZeros n w = w - Nat.size (n % 2 ^ w) := by
  unfold leadZeros
  split
  case isTrue zero => simp [zero]
  case isFalse nonzero =>
    have size : Nat.size (n % 2 ^ w) = Nat.log2 (n % 2 ^ w) + 1 :=
      le_antisymm (Nat.size_le.mpr Nat.lt_log2_self) (Nat.lt_size.mpr (Nat.log2_self_le nonzero))
    omega

theorem popCount_eq (n w : Nat) : popCount n w = ((List.range w).filter fun j => n.testBit j).length := by
  induction w generalizing n with
  | zero => rfl
  | succ w ih =>
    have rest : ((List.range w).map Nat.succ).filter (fun j => n.testBit j) = ((List.range w).filter fun j => (n / 2).testBit j).map Nat.succ := by
      rw [List.filter_map]
      congr 2
      funext j
      exact Nat.testBit_succ n j
    rw [popCount, ih, List.range_succ_eq_map, List.filter_cons, rest]
    obtain even | odd := Nat.mod_two_eq_zero_or_one n
    · simp [Nat.testBit_zero, even]
    · simp [Nat.testBit_zero, odd, Nat.add_comm]

theorem trailZeros_spec (n w : Nat) :
    trailZeros n w ≤ w ∧ (∀ j < trailZeros n w, n.testBit j = false) ∧ (trailZeros n w < w → n.testBit (trailZeros n w) = true) := by
  induction w generalizing n with
  | zero => simp [trailZeros]
  | succ w ih =>
    obtain ⟨bound, zeros, one⟩ := ih (n / 2)
    unfold trailZeros
    split
    case isTrue odd => simp [odd]
    case isFalse even =>
      refine ⟨by omega, fun j below => ?_, fun inside => ?_⟩
      · cases j with
        | zero => simpa [Nat.testBit_zero] using even
        | succ j => rw [Nat.testBit_succ]; exact zeros j (by omega)
      · rw [Nat.add_comm, Nat.testBit_add_one]
        exact one (by omega)

/-! ## Shifts and rotation (R97) -/

theorem shiftCount_eq {n : Nat} (h : n ≤ 128) : shiftCount n = n := Nat.min_eq_left h
theorem shiftCount_large {n : Nat} (h : 128 ≤ n) : shiftCount n = 128 := Nat.min_eq_right h

/-- A multiple of a power of two beyond a width is 0 at that width. -/
theorem ofInt_mul_two_pow (a : Int) {w n : Nat} (h : w ≤ n) : BitVec.ofInt w (a * 2 ^ n) = 0 := by
  refine BitVec.eq_of_toNat_eq ?_
  have multiple : (2 : Int) ^ w ∣ a * 2 ^ n := Dvd.dvd.mul_left (pow_dvd_pow 2 h) a
  rw [BitVec.toNat_ofInt]
  push_cast
  rw [Int.emod_eq_zero_of_dvd multiple]
  rfl

theorem wrInt_shlExact (ty : Nat) (a : Int) (n : Nat) : wrInt ty (shlExact a n) = wrInt ty (a * 2 ^ n) := by
  obtain small | large := Nat.le_total n 128
  · rw [shlExact, shiftCount_eq small]
  · have width := tyWidth_le ty
    rw [shlExact, shiftCount_large large, wrInt_eq, wrInt_eq, ofInt_mul_two_pow a (by omega), ofInt_mul_two_pow a (by omega)]

theorem shrExact_eq (ty : Nat) (x : Word) (n : Nat) : shrExact ty x n = ((x.toNat % 2 ^ tyWidth ty) / 2 ^ n : Nat) := by
  obtain small | large := Nat.le_total n 128
  · rw [shrExact, shiftCount_eq small]
  · have value : x.toNat % 2 ^ tyWidth ty < 2 ^ 128 :=
      (Nat.mod_le _ _).trans_lt (x.isLt.trans (by decide))
    rw [shrExact, shiftCount_large large, Nat.div_eq_of_lt value, Nat.div_eq_of_lt (value.trans_le (Nat.pow_le_pow_right (by decide) large))]

/-- An integer of at most 128 bits, divided by a larger power of two, is its sign. -/
theorem ediv_two_pow_large {a : Int} {n : Nat} (low : -2 ^ 128 ≤ a) (high : a < 2 ^ 128) (h : 128 ≤ n) : a / 2 ^ n = if a < 0 then -1 else 0 := by
  have power : (2 : Int) ^ 128 ≤ 2 ^ n := pow_le_pow_right₀ (by decide) h
  split
  case isTrue negative => exact Int.ediv_eq_neg_one_of_neg_of_le negative (by omega)
  case isFalse nonneg => exact Int.ediv_eq_zero_of_lt (by omega) (by omega)

theorem sraExact_eq (ty : Nat) (x : Word) (n : Nat) : sraExact ty x n = asInt true (tyWidth ty) x.toNat / 2 ^ n := by
  obtain small | large := Nat.le_total n 128
  · rw [sraExact, shiftCount_eq small]
  · have low := BitVec.le_two_mul_toInt (x := BitVec.ofNat (tyWidth ty) x.toNat)
    have high := BitVec.two_mul_toInt_lt (x := BitVec.ofNat (tyWidth ty) x.toNat)
    have width : (2 : Int) ^ tyWidth ty ≤ 2 ^ 64 := pow_le_pow_right₀ (by decide) (tyWidth_le ty)
    rw [← asInt_signed] at low high
    rw [sraExact, shiftCount_large large, ediv_two_pow_large (by omega) (by omega) le_rfl, ediv_two_pow_large (by omega) (by omega) large]

/-- A bit of the low bits rotated left: the bits above the count come from below, and those below it from the top. -/
theorem testBit_rotExact (ty : Nat) (x : Word) (n : Nat) {j : Nat} (h : j < tyWidth ty) :
    (rotExact ty x n).toNat.testBit j = x.toNat.testBit ((j + (tyWidth ty - n % tyWidth ty)) % tyWidth ty) := by
  have pos := tyWidth_pos ty
  have count : n % tyWidth ty < tyWidth ty := Nat.mod_lt _ pos
  rw [rotExact, Int.toNat_natCast]
  generalize tyWidth ty = w at *
  generalize n % w = r at *
  have split : 2 ^ w = 2 ^ r * 2 ^ (w - r) := by rw [← Nat.pow_add]; congr 1; omega
  have top : x.toNat % 2 ^ w / 2 ^ (w - r) < 2 ^ r :=
    Nat.div_lt_of_lt_mul ((Nat.mod_lt _ (Nat.two_pow_pos w)).trans_eq (by rw [split, Nat.mul_comm]))
  rw [Nat.testBit_mod_two_pow, decide_eq_true h, Bool.true_and, Nat.mul_comm (x.toNat % 2 ^ w), Nat.testBit_two_pow_mul_add _ top]
  split_ifs with below
  · have inside : j + (w - r) < w := by omega
    rw [Nat.testBit_div_two_pow, Nat.testBit_mod_two_pow, decide_eq_true inside, Bool.true_and, Nat.mod_eq_of_lt inside]
  · have inside : j - r < w := by omega
    have around : (j + (w - r)) % w = j - r := by
      rw [show j + (w - r) = j - r + w by omega, Nat.add_mod_right, Nat.mod_eq_of_lt inside]
    rw [Nat.testBit_mod_two_pow, decide_eq_true inside, Bool.true_and, around]

/-! ## Fields (R97 EXT, INS) -/

theorem fieldPos_lt (b : Word) : fieldPos b < 64 := Nat.mod_lt _ (by decide)

theorem fieldLen_le (c : Word) (p : Nat) : fieldLen c p ≤ 64 - p := Nat.min_le_right _ _

theorem getLsbD_wd (n j : Nat) : (wd n).getLsbD j = (decide (j < 64) && n.testBit j) := by
  simp [wd, BitVec.getLsbD_ofNat]

theorem getLsbD_insertField (d a b c : Word) {j : Nat} (h : j < 64) :
    (insertField d a b c).getLsbD j =
      if fieldPos b ≤ j ∧ j < fieldPos b + fieldLen c (fieldPos b) then a.getLsbD (j - fieldPos b) else d.getLsbD j := by
  have mask : (wd ((2 ^ fieldLen c (fieldPos b) - 1) * 2 ^ fieldPos b)).getLsbD j =
      decide (fieldPos b ≤ j ∧ j < fieldPos b + fieldLen c (fieldPos b)) := by
    rw [getLsbD_wd, Nat.testBit_mul_two_pow, Nat.testBit_two_pow_sub_one, decide_eq_true h, Bool.true_and, ← Bool.decide_and]
    exact decide_eq_decide.mpr (by omega)
  have value : (wd (a.toNat * 2 ^ fieldPos b)).getLsbD j = (decide (fieldPos b ≤ j) && a.getLsbD (j - fieldPos b)) := by
    rw [getLsbD_wd, Nat.testBit_mul_two_pow, decide_eq_true h, Bool.true_and]
    rfl
  rw [insertField, BitVec.getLsbD_or, BitVec.getLsbD_and, BitVec.getLsbD_and, BitVec.getLsbD_not, mask, value, decide_eq_true h, Bool.true_and]
  split_ifs with inside
  · simp [inside]
  · simp [inside]

theorem getLsbD_extractField (signed : Bool) (a b c : Word) {j : Nat} (h : j < 64) :
    (BitVec.ofInt 64 (extractField signed a b c)).getLsbD j =
      if j < fieldLen c (fieldPos b) then a.getLsbD (fieldPos b + j)
      else signed && decide (0 < fieldLen c (fieldPos b)) && a.getLsbD (fieldPos b + fieldLen c (fieldPos b) - 1) := by
  have field (i l : Nat) : (BitVec.ofNat l (a.toNat / 2 ^ fieldPos b)).getLsbD i = (decide (i < l) && a.getLsbD (fieldPos b + i)) := by
    rw [BitVec.getLsbD_ofNat, Nat.testBit_div_two_pow, Nat.add_comm]
    rfl
  unfold extractField
  generalize fieldLen c (fieldPos b) = l
  dsimp only
  by_cases empty : l = 0
  · simp [empty]
  · have top : l - 1 < l := by omega
    have last : fieldPos b + (l - 1) = fieldPos b + l - 1 := by omega
    rw [if_neg empty, ofInt_asInt]
    cases signed with
    | false =>
      rw [if_neg Bool.false_ne_true, BitVec.getLsbD_setWidth, field]
      by_cases inside : j < l <;> simp [inside, h]
    | true =>
      rw [if_pos rfl, BitVec.getLsbD_signExtend, BitVec.msb_eq_getLsbD_last, field, field, last]
      by_cases inside : j < l <;> simp [inside, h, top, Nat.pos_of_ne_zero empty]

end Sys2Proof.Machine

namespace Sys2Proof.IntegerProofs
open Sys2Proof Sys2Proof.Machine

theorem integerFunctions : Claims.integerFunctions :=
  ⟨leadZeros_eq, popCount_eq, trailZeros_spec, wrInt_shlExact, shrExact_eq, sraExact_eq, fun ty x n _ h => testBit_rotExact ty x n h,
    fun d a b c _ h => getLsbD_insertField d a b c h, fun signed a b c _ h => getLsbD_extractField signed a b c h⟩

/-- The extension of wrapping arithmetic, by the sign for an i type and by zeros for a w type. -/
theorem intValue_eq_of_ofInt {ty : Nat} {n : Int} {x : Word} (h : BitVec.ofInt (tyWidth ty) n = x.setWidth (tyWidth ty)) :
    intValue ty 0 n = if ty < 4 then (x.setWidth (tyWidth ty)).signExtend 64 else (x.setWidth (tyWidth ty)).setWidth 64 := by
  rw [intValue_unsaturated, wrInt_eq, h]
  simp [tySigned]

theorem wrappingArithmetic : Claims.wrappingArithmetic := by
  intro ty a b _ ext
  have width := tyWidth_le ty.toNat
  refine ⟨intValue_eq_of_ofInt ?add, intValue_eq_of_ofInt ?sub, intValue_eq_of_ofInt ?mul⟩
  case add => rw [BitVec.ofInt_add, ofInt_rdInt, ofInt_rdInt, BitVec.setWidth_add _ _ width]
  case sub =>
    rw [Int.sub_eq_add_neg, BitVec.ofInt_add, BitVec.ofInt_neg, ofInt_rdInt, ofInt_rdInt, BitVec.sub_eq_add_neg, BitVec.setWidth_add _ _ width,
      BitVec.setWidth_neg_of_le width]
  case mul => rw [BitVec.ofInt_mul, ofInt_rdInt, ofInt_rdInt, BitVec.setWidth_mul _ _ width]

end Sys2Proof.IntegerProofs

/-- Settles O12: the counts and fields bit by bit, the shifts because a count beyond 128 acts as 128, and wrapping because reading and writing at a width are
bit vectors of that width. -/
theorem integerFunctions : Obligations.IntegerFunctions :=
  ⟨Sys2Proof.IntegerProofs.integerFunctions, Sys2Proof.IntegerProofs.wrappingArithmetic⟩

end

section

namespace Sys2Proof.Machine

/-! ## What issues does not change what a context reads (R25, R243) -/

section
variable (s : State) (e : Option ReplayEntry)

theorem State.newWay_issues (cl owner pa : Nat) : (s.issues e).newWay cl owner pa = ((s.newWay cl owner pa).1, (s.newWay cl owner pa).2.issues e) := by
  have ways : (s.issues e).cluster cl = s.cluster cl := rfl
  have owners (w : Nat) : (s.issues e).wayOwnerOf cl w = s.wayOwnerOf cl w := rfl
  simp only [State.newWay, State.issues_slices, State.issues_drawn, ways, owners]
  split
  · rfl
  · split <;> rfl

theorem State.lineFor_issues (cl tile pa : Nat) : (s.issues e).lineFor cl tile pa = ((s.lineFor cl tile pa).1, (s.lineFor cl tile pa).2.issues e) := by
  simp only [State.lineFor, State.newWay_issues, State.issues_slices, State.issues_tileOwner]
  cases Map.find? s.slices (sliceKey cl pa) with
  | some l => rfl
  | none => rcases s.newWay cl (Map.get 0 s.tileOwner tile) pa with ⟨_ | w, t⟩ <;> rfl

theorem State.sliceAccess_issues (tile pa : Nat) (w : Bool) : (s.issues e).sliceAccess tile pa w = (s.sliceAccess tile pa w).issues e := by
  have same (t : State) (cl : Nat) (x : Cluster) : (t.issues e).setCluster cl x = (t.setCluster cl x).issues e := rfl
  have recalls (t : State) (cl : Option Nat) (n : Nat) : (t.issues e).recallSectors cl pa n = (t.recallSectors cl pa n).issues e := rfl
  have cluster (cl : Nat) : (s.issues e).cluster cl = s.cluster cl := rfl
  unfold State.sliceAccess
  split
  · rfl
  · simp only [same, recalls, cluster, State.issues_slices, State.issues_ticks]
    rw [← apply_ite (State.issues · e), State.lineFor_issues]
    generalize (if w then _ else _ : State) = t
    rcases t.lineFor (clusterOfTile tile) tile pa with ⟨_ | l, u⟩ <;> rfl

theorem State.fillSector_issues (tile pa : Nat) : (s.issues e).fillSector tile pa = (s.fillSector tile pa).issues e := by
  have ways : (s.issues e).hasWays tile = s.hasWays tile := rfl
  have held : (s.issues e).sector tile pa = s.sector tile pa := rfl
  have bad (a n : Nat) : (s.issues e).dramBad a n = s.dramBad a n := rfl
  simp only [State.fillSector, State.sliceAccess_issues, ways, held, bad]
  split
  · split
    · rfl
    · split <;> rfl
  · rfl

/-- A read gives the same bytes whatever issues, and leaves that as it was. -/
theorem readPlace_issues (key va n : Nat) (p : Place) : readPlace (s.issues e) key va n p = (readPlace s key va n p).map fun r => (r.1, r.2.issues e) := by
  cases p with
  | dram pa =>
    have bad : (s.issues e).dramBad pa n = s.dramBad pa n := rfl
    have cached (t a : Nat) : (s.issues e).cached? t a = s.cached? t a := rfl
    have seen (u : State) (t a : Nat) : (u.issues e).seenByte t a = u.seenByte t a := rfl
    simp only [readPlace, bad, cached, State.fillSector_issues, seen]
    split <;> rfl
  | bank tile bank off =>
    have checks : bankChecks (s.issues e) key va tile bank = bankChecks s key va tile bank := rfl
    have bad : (s.issues e).bankBad tile bank off n = s.bankBad tile bank off n := rfl
    simp only [readPlace, checks, bad]
    cases bankChecks s key va tile bank with
    | error t => rfl
    | ok _ => dsimp only; split <;> rfl

theorem loadAt_issues (key : Nat) (c : Ctx) (va n : Nat) : loadAt (s.issues e) key c va n = (loadAt s key c va n).map fun r => (r.1, r.2.issues e) := by
  have place : placeOf (s.issues e) key c va n .r = placeOf s key c va n .r := rfl
  unfold loadAt
  rw [place]
  cases placeOf s key c va n .r with
  | error t => rfl
  | ok p => exact readPlace_issues s e key va n p

end

theorem loadWords_issues (s : State) (e : Option ReplayEntry) (key : Nat) (c : Ctx) (va n : Nat) :
    loadWords (s.issues e) key c va n = (loadWords s key c va n).map fun r => (r.1, r.2.issues e) := by
  induction n generalizing s va with
  | zero => rfl
  | succ n ih =>
    simp only [loadWords, loadAt_issues]
    cases loadAt s key c va 8 with
    | error t => rfl
    | ok r =>
      simp only [Except.map, ih]
      cases loadWords r.2 key c (va + 8) n <;> rfl

/-- A read changes the ways, the slices, the estimators of the clusters and the counter of free values at most. -/
theorem readPlace_eq {s t : State} {key va n : Nat} {p : Place} {bs : List Byte} (h : readPlace s key va n p = .ok (bs, t)) :
    ∃ tc l n c, t = { s with tileCache := tc, slices := l, drawn := n, clusters := c } := by
  cases p with
  | dram pa =>
    obtain ⟨_, _, _, _, first⟩ := s.fillSector_eq (tileOf key) pa
    obtain ⟨_, _, _, _, second⟩ := (s.fillSector (tileOf key) pa).fillSector_eq (tileOf key) (pa + n - 1)
    unfold readPlace at h
    dsimp only at h
    split at h
    · cases h
    · cases h
      rw [second, first]
      exact ⟨_, _, _, _, rfl⟩
  | bank tile bank off =>
    unfold readPlace at h
    dsimp only at h
    split at h
    · cases h
    · split at h <;> cases h
      exact ⟨_, _, _, _, rfl⟩

theorem loadWords_eq {s t : State} {key : Nat} {c : Ctx} {va n : Nat} {ws : List Nat} (h : loadWords s key c va n = .ok (ws, t)) :
    ∃ tc l n c, t = { s with tileCache := tc, slices := l, drawn := n, clusters := c } := by
  induction n generalizing s va ws with
  | zero =>
    cases h
    exact ⟨_, _, _, _, rfl⟩
  | succ n ih =>
    unfold loadWords loadAt at h
    cases place : placeOf s key c va 8 .r with
    | error t => simp [place] at h
    | ok p =>
      cases first : readPlace s key va 8 p with
      | error t => simp [place, first] at h
      | ok r =>
        obtain ⟨bs, u⟩ := r
        cases rest : loadWords u key c (va + 8) n with
        | error t => simp [place, first, rest] at h
        | ok r' =>
          obtain ⟨vs, v⟩ := r'
          simp only [place, first, rest, Except.ok.injEq, Prod.mk.injEq] at h
          obtain ⟨-, rfl⟩ := h
          obtain ⟨_, _, _, _, rfl⟩ := readPlace_eq first
          obtain ⟨_, _, _, _, rfl⟩ := ih rest
          exact ⟨_, _, _, _, rfl⟩

/-! ## Reading the sources of an S word (R64) -/

section
variable {α : Type} (s : State) (i : Instr) (c : Ctx) (f : Firing) (x : SForm) (kg : Nat)

theorem run_readS (k : Word → M α) : (opG .a >>= k).run (s.reading i [sA x] kg c f) = (k (c.rg x.a.toNat)).run (s.reading i [sA x] kg c f) :=
  M.run_bind_ok (run_opG_captured (r := sA x) (by simp) rfl (by simp))

theorem run_readTwoS (k : Word → Word → M α) :
    (opG .a >>= fun a => opG .b >>= k a).run (s.reading i [sA x, sB .g x] kg c f) =
      (k (c.rg x.a.toNat) (c.rg x.b.toNat)).run (s.reading i [sA x, sB .g x] kg c f) :=
  have apart : [sA x, sB .g x].Pairwise fun a b => a.slot ≠ b.slot := by simp [sA, sB]
  (M.run_bind_ok (run_opG_captured (r := sA x) (by simp) rfl apart)).trans (M.run_bind_ok (run_opG_captured (r := sB .g x) (by simp) rfl apart))

end

/-! ## What the trigger unit sees does not depend on what issues (R126, R138, R139) -/

section
variable (s : State) (e : Option ReplayEntry) (key : Nat) (c : Ctx)

theorem State.committed_issues : (s.issues e).committed key c = ((s.committed key c).1.issues e, (s.committed key c).2) := by
  unfold State.committed
  split <;> rfl

theorem committedMask_issues : committedMask (s.issues e) key c = committedMask s key c := by
  rw [committedMask, State.committed_issues]
  rfl

theorem State.slotStatus_issues (asid : Nat) : (s.issues e).slotStatus asid key = s.slotStatus asid key := by
  have specs : (s.issues e).specsOf key = s.specsOf key := rfl
  simp only [State.slotStatus, State.ctx?_issues, committedMask_issues, specs]

end

/-! ## A context that has moved on, with its guards changed (R136) -/

/-- A context as another one, but for its g registers, the table put aside, %guardtab and what its counters have counted. -/
def Ctx.sameButGuards (c d : Ctx) : Prop :=
  Ctx.uncounted { d with g := c.g, gEmpty := c.gEmpty, gBad := c.gBad, guardsHeld := c.guardsHeld, guardtab := c.guardtab } = c.uncounted

/-- A context that differs in its counters alone may have those parts changed. -/
theorem Ctx.sameButGuards_of_uncounted {c d : Ctx} (g : Map Word) (gEmpty gBad : BitVec 64) (held : Option (Map (Word × Word))) (tab : Word)
    (h : d.uncounted = c.uncounted) : c.sameButGuards { d with g := g, gEmpty := gEmpty, gBad := gBad, guardsHeld := held, guardtab := tab } :=
  (congrArg (fun x : Ctx => { x with g := c.g, gEmpty := c.gEmpty, gBad := c.gBad, guardsHeld := c.guardsHeld, guardtab := c.guardtab }) h :)

/-- An instruction that has completed with those parts of its context changed alone has moved its firing on; the context is as it left it. -/
theorem movedOn_completed_guards {s : State} {key : Nat} {c d : Ctx} {f : Firing} (n : Nat) (firing : c.firing = some f) (same : c.sameButGuards d) :
    ∃ c', Claims.movedOn (s.completed key (d.advance n)) key c f n c' ∧ c'.uncounted = (d.advance n).uncounted := by
  obtain ⟨c', there, uncounted⟩ := s.ctx?_completed key (d.advance n)
  have moved : Ctx.uncounted { c' with g := c.g, gEmpty := c.gEmpty, gBad := c.gBad, guardsHeld := c.guardsHeld, guardtab := c.guardtab } =
      (c.advance n).uncounted :=
    (congrArg (fun x : Ctx => { x with g := c.g, gEmpty := c.gEmpty, gBad := c.gBad, guardsHeld := c.guardsHeld, guardtab := c.guardtab }) uncounted :).trans
      (congrArg (Ctx.advance · n) same :)
  refine ⟨c', ⟨there, (congrArg Ctx.firing moved :).trans ?_, (congrArg Ctx.k moved :), (congrArg Ctx.frames moved :), (congrArg Ctx.trapcause moved :),
    (congrArg Ctx.trapinfo moved :), (congrArg Ctx.trapvec moved :), (congrArg Ctx.priv moved :), (congrArg Ctx.asid moved :), (congrArg Ctx.part moved :)⟩,
    uncounted⟩
  simp [Ctx.uncounted, Ctx.advance, Ctx.goOn, firing]

/-! ## A table put aside (R136) -/

/-- A squash leaves a context that is there as it is, but for what its counters have counted. -/
theorem State.exists_ctx?_squash {s : State} {key : Nat} {c : Ctx} (h : s.ctx? key = some c) :
    ∃ d, (s.squash key).ctx? key = some d ∧ d.uncounted = c.uncounted := by
  have counted := State.ctx?_squash s key key
  rwa [h, Option.map_some, Option.map_eq_some_iff] at counted

/-- The context with a table read from an address put aside, and the address in %guardtab. -/
def Ctx.withTable (c : Ctx) (table : Map (Word × Word)) (addr : Word) : Ctx := { c with guardsHeld := some table, guardtab := addr }

theorem State.squash_of_specsOf_nil {s : State} {key : Nat} (none : s.specsOf key = []) : s.squash key = s := by
  unfold State.squash
  rw [none]

@[simp] theorem State.specsOf_completed (s : State) (key : Nat) (c : Ctx) (k : Nat) : (s.completed key c).specsOf k = s.specsOf k := by
  simp [State.completed, State.specsOf]

theorem Ctx.heldGuards_of_uncounted {c d : Ctx} (h : d.uncounted = c.uncounted) : d.heldGuards = c.heldGuards :=
  (congrArg Ctx.heldGuards h :)

section
variable {s : State} {key : Nat} {c d : Ctx} {f : Firing}

/-- The context that issues goes on issuing after a squash. -/
theorem Issuing.squash (h : Issuing s key c f) (there : (s.squash key).ctx? key = some d) (uncounted : d.uncounted = c.uncounted) :
    Issuing (s.squash key) key d f :=
  ⟨by simp [h.cur], there, (congrArg Ctx.firing uncounted :).trans h.firing, by simp [h.first]⟩

/-- What GUARD and UNGUARD do: a squash, and then the table is put aside in the context that the squash leaves. -/
theorem run_holdGuards (table : Ctx → Map (Word × Word)) (cur : s.cur = some key) (there : (s.squash key).ctx? key = some d) :
    (holdGuards table).run s = .ok ((), (s.squash key).setCtx key { d with guardsHeld := some (table d) }) := by
  unfold holdGuards
  rw [M.run_bind_ok (run_curKey cur), M.run_bind_ok (M.run_modify _ _)]
  exact run_modCur _ (by simp [cur]) there

/-- A context that reads memory goes on issuing; memory and what is in flight stay. -/
theorem Issuing.loadWords {t : State} {va n : Nat} {ws : List Nat} (h : Issuing s key c f) (read : loadWords s key c va n = .ok (ws, t)) :
    Issuing t key c f ∧ t.mem = s.mem ∧ t.ops = s.ops := by
  obtain ⟨_, _, _, _, rfl⟩ := loadWords_eq read
  exact ⟨⟨h.cur, h.ctx, h.firing, h.first⟩, rfl, rfl⟩

/-- A word without privilege whose body ends by putting a table aside. -/
theorem putsAside_of_run {i : Instr} {a : Ask} {body : M Unit} {table : Ctx → Map (Word × Word)} (run : exec i s = runInstr i a body s)
    (h : Issuing s key c f) (user : a.priv = .u) (on : a.guard = .scalar → (c.rk a.kg).getLsbD 0 = true) (ops : Operands s key c a.srcs a.dsts)
    (short : instrLen i = 8) (puts : body.run (s.reading i a.srcs a.kg c f) = (holdGuards table).run (s.reading i a.srcs a.kg c f))
    (same : ∀ d : Ctx, d.uncounted = c.uncounted → table d = table c) : Claims.putsAside s key c f i (table c) := by
  have priv : ¬ c.priv.level < a.priv.level := by rw [user]; exact Nat.not_lt_zero _
  have issuing := h.issues (some (captured i a.srcs a.kg c f))
  refine ⟨fun alone => ?_, ?_⟩
  · have none : (s.reading i a.srcs a.kg c f).squash key = s.reading i a.srcs a.kg c f := State.squash_of_specsOf_nil alone
    have held := run_holdGuards (s := s.reading i a.srcs a.kg c f) table issuing.cur (by rw [none]; exact issuing.ctx)
    rw [none] at held
    rw [run, ← short]
    exact runInstr_completes h priv on ops (puts.trans held) rfl
  · obtain ⟨d, there, uncounted⟩ := State.exists_ctx?_squash issuing.ctx
    have ready := runInstr_ready h priv on ops (puts.trans (run_holdGuards table issuing.cur there)) (State.ctx?_setCtx _ _ _)
      (congrArg Ctx.graph uncounted :)
    rw [← run, State.completed_setCtx, short] at ready
    obtain ⟨c', moved, left⟩ := movedOn_completed_guards (s := (s.reading i a.srcs a.kg c f).squash key) (key := key) 8 h.firing
      (Ctx.sameButGuards_of_uncounted d.g d.gEmpty d.gBad (some (table d)) d.guardtab uncounted)
    refine ⟨_, c', ready, moved, ?_, ?_, ?_, ?_, ?_⟩
    · exact (congrArg Ctx.guardsHeld left :).trans (congrArg some (same d uncounted))
    · exact (congrArg Ctx.guards left :).trans (congrArg Ctx.guards uncounted :)
    · exact (congrArg Ctx.g left :).trans (congrArg Ctx.g uncounted :)
    · simp
    · simp [State.specsOf_squash]

end

end Sys2Proof.Machine

namespace Sys2Proof.GuardProofs
open Sys2Proof Sys2Proof.Machine

section
variable {s : State} {key : Nat} {c : Ctx} {f : Firing} {x : SForm}

theorem guardEntry_putsAside (h : Issuing s key c f) (on : c.guardOn x.kg) (ops : Operands s key c [sA x, sB .g x] [])
    (valid : entryOffences (c.rg x.a.toNat) (c.rg x.b.toNat) = []) :
    Claims.putsAside s key c f (.guardEntry x) (Map.set (0, 0) c.heldGuards (x.imm.toNat % 16) (c.rg x.a.toNat, c.rg x.b.toNat)) := by
  refine putsAside_of_run (table := fun c' => Map.set (0, 0) c'.heldGuards (sImm x % 16) (c.rg x.a.toNat, c.rg x.b.toNat)) (a := sAsk x [sA x, sB .g x] [])
    rfl h rfl (fun _ => on) ops rfl ((run_readTwoS s _ c f x _ _).trans ?_) fun d uncounted => ?_
  · rw [valid]
    rfl
  · rw [Ctx.heldGuards_of_uncounted uncounted]

theorem guardEntry_traps {o : GuardOffence} {rest : List GuardOffence} (h : Issuing s key c f) (on : c.guardOn x.kg)
    (ops : Operands s key c [sA x, sB .g x] []) (invalid : entryOffences (c.rg x.a.toNat) (c.rg x.b.toNat) = o :: rest) :
    exec (.guardEntry x) s = .next (s.trapped key f (.guardEntry x) { cause := cIllegalEncoding, info := guardInfo x.imm.toNat o }) := by
  refine runInstr_traps (a := sAsk x [sA x, sB .g x] []) h (Nat.not_lt_zero _) (fun _ => on) ops ((run_readTwoS s _ c f x _ _).trans ?_) rfl
  rw [invalid]
  rfl

theorem unguardOne_putsAside (h : Issuing s key c f) (on : c.guardOn x.kg) :
    Claims.putsAside s key c f (.unguardOne x) (clearV c.heldGuards fun n => n == x.imm.toNat % 16) :=
  putsAside_of_run (table := fun c => clearV c.heldGuards fun n => n == sImm x % 16) (a := sAsk x [] []) rfl h rfl (fun _ => on) (operands_none _ _ _) rfl rfl
    fun d uncounted => by rw [Ctx.heldGuards_of_uncounted uncounted]

theorem unguardMask_putsAside (h : Issuing s key c f) (on : c.guardOn x.kg) (ops : Operands s key c [sA x] []) :
    Claims.putsAside s key c f (.unguardMask x) (clearV c.heldGuards fun n => (c.rg x.a.toNat).getLsbD n) :=
  putsAside_of_run (table := fun c' => clearV c'.heldGuards fun n => (c.rg x.a.toNat).getLsbD n) (a := sAsk x [sA x] []) rfl h rfl (fun _ => on) ops rfl
    (run_readS s _ c f x _ _) fun d uncounted => by rw [Ctx.heldGuards_of_uncounted uncounted]

theorem gqryEntry_completes (h : Issuing s key c f) (on : c.guardOn x.kg) (ops : Operands s key c [] [gDst x.d.toNat, gDst x.b.toNat]) :
    exec (.gqryEntry x) s = .next (s.completed key
      (((c.wg x.d.toNat (c.guard (x.imm.toNat % 16)).1).wg x.b.toNat (c.guard (x.imm.toNat % 16)).2).advance 8)) := by
  refine runInstr_completes (a := sAsk x [] [gDst x.d.toNat, gDst x.b.toNat]) h (Nat.not_lt_zero _) (fun _ => on) ops ?_ rfl
  have issuing := h.issues (some (captured (.gqryEntry x) [] x.kg.toNat c f))
  dsimp only [sAsk]
  rw [M.run_bind_ok (run_curCtx issuing.cur issuing.ctx), M.run_bind_ok (run_writeG _ _ issuing.cur issuing.ctx)]
  exact run_modCur_setCtx _ _ issuing.cur

theorem gqryElig_completes (h : Issuing s key c f) (on : c.guardOn x.kg) (ops : Operands s key c [] [gDst x.d.toNat]) :
    exec (.gqryElig x) s = .next (s.completed key ((c.wg x.d.toNat (wd (committedMask s key c + c.committedFlags.toNat * 2 ^ 16))).advance 8)) := by
  refine runInstr_completes (a := sAsk x [] [gDst x.d.toNat]) h (Nat.not_lt_zero _) (fun _ => on) ops ?_ rfl
  have issuing := h.issues (some (captured (.gqryElig x) [] x.kg.toNat c f))
  dsimp only [sAsk]
  rw [M.run_bind_ok (run_curCtx issuing.cur issuing.ctx), M.run_bind_ok (run_curKey issuing.cur), M.run_bind_ok (M.run_get _), committedMask_issues]
  exact run_writeG _ _ issuing.cur issuing.ctx

theorem ctxq_completes (h : Issuing s key c f) (on : c.guardOn x.kg) (ops : Operands s key c [] [gDst x.d.toNat]) :
    exec (.ctxq x) s = .next (s.completed key
      ((c.wg x.d.toNat (s.slotStatus c.asid (mkKey (tileOf key) (strandOf key) (x.imm.toNat % 8)))).advance 8)) := by
  refine runInstr_completes (a := sAsk x [] [gDst x.d.toNat]) h (Nat.not_lt_zero _) (fun _ => on) ops ?_ rfl
  have issuing := h.issues (some (captured (.ctxq x) [] x.kg.toNat c f))
  dsimp only [sAsk]
  rw [M.run_bind_ok (run_curCtx issuing.cur issuing.ctx), M.run_bind_ok (run_curKey issuing.cur), M.run_bind_ok (M.run_get _), State.slotStatus_issues]
  exact run_writeG _ _ issuing.cur issuing.ctx

/-- GUARD .table of valid entries: the reads change no context, the table is put aside after a squash, and the count goes in flight (R136). -/
theorem guardTable_sends {s1 : State} {ws : List Nat} (h : Issuing s key c f) (on : c.guardOn x.kg) (ops : Operands s key c [sA x] [gDst x.d.toNat])
    (room : s.issueRoom key f) (quiet : s.noAccess key) (aligned : (c.rg x.a.toNat).toNat % 256 = 0)
    (read : loadWords s key c (c.rg x.a.toNat).toNat 32 = .ok (ws, s1)) (valid : firstInvalid (pairWords ws) 0 = none) :
    ∃ (u : State) (d : Ctx), d.uncounted = c.uncounted ∧ u.mem = s.mem ∧
      exec (.guardTable x) s =
        .next (u.completed key (((d.withTable (guardMap (pairWords ws)) (c.rg x.a.toNat)).markG x.d.toNat true).advance 8)) ∧
      ∃ o ∈ u.ops, o.ctx = key ∧ o.dstG = [x.d.toNat] ∧ o.kind = .value (wd ((pairWords ws).filter fun e => entryV e.1).length) [] := by
  let e := captured (.guardTable x) [sA x] x.kg.toNat c f
  have issuing := h.issues (some (captured (.guardTable x) [sA x] x.kg.toNat c f))
  obtain ⟨reading, mem, inFlight⟩ := h.loadWords read
  have loaded := reading.issues (some (captured (.guardTable x) [sA x] x.kg.toNat c f))
  obtain ⟨d, there, uncounted⟩ := State.exists_ctx?_squash loaded.ctx
  have squashed := loaded.squash there uncounted
  let s2 := ((s1.issues (some e)).squash key).setCtx key (d.withTable (guardMap (pairWords ws)) (c.rg x.a.toNat))
  have writing : Issuing s2 key (d.withTable (guardMap (pairWords ws)) (c.rg x.a.toNat)) f :=
    ⟨squashed.cur, State.ctx?_setCtx _ _ _, squashed.firing, squashed.first⟩
  have room2 : s2.issueRoom key f := by simpa [s2, State.issueRoom, State.takenOps, inFlight] using room
  have issued : s2.issuing = some e := by simp [s2]
  let count := wd ((pairWords ws).filter fun e => entryV e.1).length
  let u := s2.send (s2.opOf key f e (.value count []) [x.d.toNat] [] 0 0 0)
  refine ⟨u, d, uncounted, by simpa [u, s2, State.send] using mem, ?run, ⟨_, List.mem_append_right _ (List.mem_singleton_self _), rfl, rfl, rfl⟩⟩
  rw [← State.completed_setCtx u key ((d.withTable (guardMap (pairWords ws)) (c.rg x.a.toNat)).markG x.d.toNat true)]
  refine runInstr_ready (a := sAsk x [sA x] [gDst x.d.toNat]) h (Nat.not_lt_zero _) (fun _ => on) ops ((run_readS s _ c f x _ _).trans ?_)
    (State.ctx?_setCtx u key _) (congrArg Ctx.graph uncounted :)
  dsimp only [sAsk]
  rw [M.run_bind_ok (run_curKey issuing.cur), M.run_bind_ok (run_curCtx issuing.cur issuing.ctx), if_neg (by omega), M.run_bind_ok (M.run_get _),
    State.accessing_issues_of_noAccess quiet, if_neg Bool.false_ne_true, M.run_bind_ok (M.run_get _), loadWords_issues, read]
  dsimp only [Except.map]
  rw [M.run_bind_ok (M.run_set _ _), valid]
  dsimp only
  rw [M.run_bind_ok (run_holdGuards _ loaded.cur there), M.run_bind_ok (run_modCur_setCtx _ _ squashed.cur)]
  exact run_issueValue x.d.toNat count writing issued room2

end

theorem guardInstructions : Claims.guardInstructions := fun _ _ _ _ _ h on =>
  ⟨fun ops => ⟨guardEntry_putsAside h on ops, fun _ _ => guardEntry_traps h on ops⟩, unguardOne_putsAside h on, unguardMask_putsAside h on,
    gqryEntry_completes h on, fun ops => ⟨gqryElig_completes h on ops, ctxq_completes h on ops⟩⟩

theorem guardTableLoads : Claims.guardTableLoads := by
  intro s s1 key c f x ws h on ops room quiet aligned read valid
  obtain ⟨u, d, uncounted, mem, run, sent⟩ := guardTable_sends h on ops room quiet aligned read valid
  obtain ⟨c', moved, left⟩ := movedOn_completed_guards (s := u) (key := key) 8 h.firing
    (Ctx.sameButGuards_of_uncounted d.g (setBit d.gEmpty x.d.toNat true) d.gBad (some (guardMap (pairWords ws))) (c.rg x.a.toNat) uncounted)
  have empty : c'.gEmpty = setBit d.gEmpty x.d.toNat true := (congrArg Ctx.gEmpty left :)
  refine ⟨_, c', run, moved, by rw [State.mem_completed, mem], (congrArg Ctx.guardsHeld left :), (congrArg Ctx.guardtab left :),
    (congrArg Ctx.guards left :).trans (congrArg Ctx.guards uncounted :), (congrArg Ctx.g left :).trans (congrArg Ctx.g uncounted :), ?_,
    by simpa using sent⟩
  rw [Ctx.emptyG, empty, setBit_get _ _ _ x.d.isLt]

end Sys2Proof.GuardProofs

open Sys2Proof.GuardProofs

/-- Settles O19: a squash leaves the context that issues as it is but for its counters, so what is put aside, read or sent is that of the context at issue. -/
theorem guardInstructions : Obligations.GuardInstructions := ⟨Sys2Proof.GuardProofs.guardInstructions, guardTableLoads⟩

end

section

namespace Sys2Proof.LaunchProofs
open Sys2Proof Sys2Proof.Machine

/-! ## An image under the number of a slot that is taken -/

/-- The number of the one consumer of the start edge: slot 7 of strand 3 of tile 0. -/
def consumer : Nat := mkKey 0 3 7

/-- An armed graph whose handle is 0x9000, with one actor that receives the start edge through a queue of eight tokens. -/
def startGraph : Graph :=
  { handle := 0x9001, va := 0x9000, asid := 1, part := 1, state := .armed,
    actors := [{ slot := 0, growth := 1, min := 1, initial := 1, max := 1, ports := [(7, true, false)], guards := [], guardAddr := 0 }],
    queues := [{ proxy := false, depth := 8, manual := false, spill := false, ring := 0 }],
    edges := [{ pact := 255, pq := 0, cact := 0, cq := 0, queue := 0, owner := false }] }

/-- A launch of that graph without dependences, alone in the window of its queue. -/
def waitingLaunch : Launch := { words := 0x9000 :: List.replicate 15 0, qsb := 0x4000, part := 1, asid := 1, prio := 0, order := 0 }
def launchQueue : Subq :=
  { addr := 0x4000, base := 0x8000, logsize := 4, maxprio := 7, part := 1, asid := 1, deviceFed := true, doorbell := 0, slot := some 0,
    window := [waitingLaunch] }

/-- The context of the graph's actor, in copy 2. -/
def thirdCopy : Ctx := { priv := .u, asid := 1, part := 1, graph := 0x9001, copy := 2 }

/-- The start edge's queue for that context. -/
def startQueue : Queue := { graph := 0x9001, edge := 0, consumer := consumer, depth := 8, credits := 8 }

/-- The machine after reset with those, the GCB mapped, and a context of no graph in the slot whose number the image bears. -/
def collidingSt : State :=
  { State.reset with
    ctxs := [(consumer, { priv := .u, asid := 1, part := 1 })], images := [{ addr := 0x100000, key := consumer, part := 1, ctx := thirdCopy }],
    graphs := [startGraph], queues := [startQueue], subqs := [launchQueue], asids := [(1, { live := true, part := 1 })],
    parts := [(1, { isOpen := true })],
    tlb := [{ tile := noTile, asid := 1, part := 1, va := 0, log := 21, ipa := 0, pa := 0, rights1 := 7, level1 := 2, rights2 := 7, level2 := 2 }] }

theorem collidingSt_chooses : collidingSt.chosen = some (waitingLaunch, 1, 1) ∧ collidingSt.graphOf waitingLaunch = some startGraph := by decide +kernel

theorem startGraph_startEdge : (0, startGraph.edges[0]) ∈ startGraph.edgesWhere fun d => d.pact == 255 := by decide

theorem collidingSt_consumers : ((collidingSt.allInstances 0x9001).filter fun e => e.1 == consumer) = [(consumer, thirdCopy)] := by decide +kernel

/-- The dispatch gives the context in the slot copy 0, and not the image, to which it then pushes no token. -/
theorem collidingSt_sendsNothing (t : State) (run : exec .launchDispatch collidingSt = .next t) :
    (t.queue? 0x9001 0 consumer).map (·.transit) = some [] := by
  have sent : (match exec .launchDispatch collidingSt with | .next t => (t.queue? 0x9001 0 consumer).map (·.transit) | _ => none) = some [] := by
    decide +kernel
  rwa [run] at sent

end Sys2Proof.LaunchProofs

open Sys2Proof Sys2Proof.Machine Sys2Proof.LaunchProofs

/-- Refutes O51: the clause on the start tokens also speaks of states in which an image bears the number of a slot that is taken, as no image does that is
written out. In `collidingSt` the one consumer stands in such an image, in copy 2: the dispatch clears the copy of the context in the slot instead, and a
launch pushes no token to copy 2. -/
theorem not_launchesAndFirings : ¬ Obligations.LaunchesAndFirings := by
  unfold Obligations.LaunchesAndFirings Claims.launchEvents
  rintro ⟨⟨starts, -⟩, -⟩
  obtain ⟨chosen, graph⟩ := collidingSt_chooses
  obtain ⟨-, -, t, run, -, -, -, -, pushes⟩ := starts _ _ _ _ _ chosen graph
  obtain ⟨q', there, transit, -⟩ := pushes rfl 0 _ consumer thirdCopy startQueue startGraph_startEdge rfl collidingSt_consumers rfl
  have nothing := collidingSt_sendsNothing t run
  have found : t.queue? 0x9001 0 consumer = some q' := there
  rw [found, Option.map_some, Option.some_inj, transit] at nothing
  exact absurd nothing (by simp [startQueue])

end

section

namespace Sys2Proof.CounterProofs
open Sys2Proof Sys2Proof.Machine

section
variable {s : State} {key : Nat} {c : Ctx} {f : Firing} {x : SForm}

/-- MCADD and MCREAD go in flight with the address that they have captured, whatever their other source. -/
theorem counterOp_sends {i : Instr} {srcs : List Src} {kind : OpKind} {ord : Nat} (h : Issuing s key c f) (on : c.guardOn x.kg) (room : s.issueRoom key f)
    (free : s.noAcquire key) (short : instrLen i = 8) (mem : sA x ∈ srcs) (apart : srcs.Pairwise fun a b => a.slot ≠ b.slot)
    (ops : Operands s key c srcs [gDst x.d.toNat]) :
    runInstr i (sAsk x srcs [gDst x.d.toNat]) (do
        let a ← opG .a
        gateAcquire
        let _ ← issueOp kind [x.d.toNat] [] a.toNat x.sc.toNat ord) s =
      .next ((s.send (s.opOf key f (captured i srcs x.kg.toNat c f) kind [x.d.toNat] [] (c.rg x.a.toNat).toNat x.sc.toNat ord)).completed key
        ((c.markG x.d.toNat true).advance 8)) := by
  have issuing := h.issues (some (captured i srcs x.kg.toNat c f))
  rw [← short]
  refine runInstr_leaves (a := sAsk x srcs [gDst x.d.toNat])
    (s.send (s.opOf key f (captured i srcs x.kg.toNat c f) kind [x.d.toNat] [] (c.rg x.a.toNat).toNat x.sc.toNat ord))
    (c.markG x.d.toNat true) h (Nat.zero_le _) (fun _ => on) ops ?_ rfl
  refine (M.run_bind_ok (run_opG_captured (r := sA x) mem rfl apart)).trans ?_
  dsimp only [sAsk, sA]
  rw [M.run_bind_ok (run_gateAcquire issuing.cur free), M.run_bind_ok (run_issueOp kind [x.d.toNat] [] _ _ _ issuing rfl room)]
  rfl

/-- EREAD writes the event counter that it names to its destination. -/
theorem eread_completes (h : Issuing s key c f) (on : c.guardOn x.kg) (ops : Operands s key c [] [gDst x.d.toNat]) :
    exec (.eread x) s = .next (s.completed key ((c.wg x.d.toNat (c.re (x.imm.toNat % 4))).advance 8)) := by
  have issuing := h.issues (some (captured (.eread x) [] x.kg.toNat c f))
  refine runInstr_completes (a := sAsk x [] [gDst x.d.toNat]) h (Nat.not_lt_zero _) (fun _ => on) ops ?_ rfl
  dsimp only [sAsk]
  rw [M.run_bind_ok (run_curCtx issuing.cur issuing.ctx)]
  exact run_writeG _ _ issuing.cur issuing.ctx

/-- ECLR does so too, and clears the counter. -/
theorem eclr_completes (h : Issuing s key c f) (on : c.guardOn x.kg) (ops : Operands s key c [] [gDst x.d.toNat]) :
    exec (.eclr x) s = .next (s.completed key (((c.wg x.d.toNat (c.re (x.imm.toNat % 4))).we (x.imm.toNat % 4) 0).advance 8)) := by
  have issuing := h.issues (some (captured (.eclr x) [] x.kg.toNat c f))
  refine runInstr_completes (a := sAsk x [] [gDst x.d.toNat]) h (Nat.not_lt_zero _) (fun _ => on) ops ?_ rfl
  dsimp only [sAsk]
  rw [M.run_bind_ok (run_curCtx issuing.cur issuing.ctx), M.run_bind_ok (run_writeG _ _ issuing.cur issuing.ctx)]
  exact run_modCur_setCtx _ _ issuing.cur

/-- The kinds 0 and 1 of WCOND capture both registers, and the kinds 2 to 4 the second. -/
theorem wcond_captures (e : ReplayEntry) :
    (x.cnd.toNat ≤ 1 → ((capture c e (wcondSrcs x)).op .a).extractLsb' 0 64 = c.rg x.a.toNat) ∧
    (x.cnd.toNat ≤ 4 → ((capture c e (wcondSrcs x)).op .b).extractLsb' 0 64 = c.rg x.b.toNat) := by
  have apart : (wcondSrcs x).Pairwise fun a b => a.slot ≠ b.slot := by
    unfold wcondSrcs
    split <;> simp [sA, sB]
  have first : x.cnd.toNat ≤ 1 → sA x ∈ wcondSrcs x := by
    intro kind
    unfold wcondSrcs
    split <;> simp_all [sCnd]
    omega
  have second : x.cnd.toNat ≤ 4 → sB .g x ∈ wcondSrcs x := by
    intro kind
    unfold wcondSrcs
    split <;> simp_all [sCnd]
    omega
  refine ⟨fun kind => ?_, fun kind => ?_⟩
  · exact (congrArg (BitVec.extractLsb' 0 64) (capture_op_mem e apart (first kind))).trans (captured_word _)
  · exact (congrArg (BitVec.extractLsb' 0 64) (capture_op_mem e apart (second kind))).trans (captured_word _)

theorem wcond_completes (h : Issuing s key c f) (on : c.guardOn x.kg) (ops : Operands s key c (wcondSrcs x) []) :
    ∃ a b, (x.cnd.toNat ≤ 1 → a = c.rg x.a.toNat) ∧ (x.cnd.toNat ≤ 4 → b = c.rg x.b.toNat) ∧
      exec (.wcond x) s = .next (s.completed key (Ctx.advance { c with slots := Map.set .never c.slots (x.imm.toNat % 4) (wcondOf x a b) } 8)) := by
  have issuing := h.issues (some (captured (.wcond x) (wcondSrcs x) x.kg.toNat c f))
  obtain ⟨first, second⟩ := wcond_captures (x := x) (c := c) { word := instrWord (.wcond x), pc := f.pc, mask := c.rk x.kg.toNat }
  refine ⟨_, _, first, second, ?_⟩
  refine runInstr_completes (a := sAsk x (wcondSrcs x) []) h (Nat.not_lt_zero _) (fun _ => on) ops ?_ rfl
  rw [M.run_bind_ok (run_opG rfl .a), M.run_bind_ok (run_opG rfl .b)]
  exact run_modCur _ issuing.cur issuing.ctx

end

end Sys2Proof.CounterProofs

open Sys2Proof Sys2Proof.Machine Sys2Proof.CounterProofs

/-- Settles O27: MCADD and MCREAD issue alike, and the others change their own context as their bodies say. -/
theorem counterInstructions : Obligations.CounterInstructions := by
  intro s key c f x h on
  refine ⟨fun room free => ⟨fun srcs eq ops => ?mcadd, fun ops => ?mcread⟩, fun ops => ⟨eread_completes h on ops, eclr_completes h on ops⟩,
    fun ops => wcond_completes h on ops⟩
  case mcadd =>
    subst eq
    exact counterOp_sends (i := .mcadd x) h on room free rfl List.mem_cons_self (by split <;> simp [sA, sB]) ops
  case mcread => exact counterOp_sends (i := .mcread x) h on room free rfl List.mem_cons_self (List.pairwise_singleton _ _) ops

end

section

namespace Sys2Proof.Machine

/-! ## What the ways of a tile do, whatever contexts stand and issue (R25, R246, R280) -/

/-- The state with other contexts, and another instruction that issues. -/
def State.wearing (s : State) (cs : Map Ctx) (e : Option ReplayEntry) : State := { s with ctxs := cs, issuing := e }

section
variable (s : State) (cs : Map Ctx) (e : Option ReplayEntry)

theorem State.newWay_wearing (cl owner pa : Nat) :
    (s.wearing cs e).newWay cl owner pa = ((s.newWay cl owner pa).1, (s.newWay cl owner pa).2.wearing cs e) := by
  have ways : (s.wearing cs e).cluster cl = s.cluster cl := rfl
  have owners (w : Nat) : (s.wearing cs e).wayOwnerOf cl w = s.wayOwnerOf cl w := rfl
  have slices : (s.wearing cs e).slices = s.slices := rfl
  have drawn : (s.wearing cs e).drawn = s.drawn := rfl
  simp only [State.newWay, slices, drawn, ways, owners]
  split
  · rfl
  · split <;> rfl

theorem State.lineFor_wearing (cl tile pa : Nat) :
    (s.wearing cs e).lineFor cl tile pa = ((s.lineFor cl tile pa).1, (s.lineFor cl tile pa).2.wearing cs e) := by
  have slices : (s.wearing cs e).slices = s.slices := rfl
  have owner : (s.wearing cs e).tileOwner = s.tileOwner := rfl
  simp only [State.lineFor, State.newWay_wearing, slices, owner]
  cases Map.find? s.slices (sliceKey cl pa) with
  | some l => rfl
  | none => rcases s.newWay cl (Map.get 0 s.tileOwner tile) pa with ⟨_ | w, t⟩ <;> rfl

theorem State.sliceAccess_wearing (tile pa : Nat) (w : Bool) : (s.wearing cs e).sliceAccess tile pa w = (s.sliceAccess tile pa w).wearing cs e := by
  have same (t : State) (cl : Nat) (x : Cluster) : (t.wearing cs e).setCluster cl x = (t.setCluster cl x).wearing cs e := rfl
  have recalls (t : State) (cl : Option Nat) (n : Nat) : (t.wearing cs e).recallSectors cl pa n = (t.recallSectors cl pa n).wearing cs e := rfl
  have cluster (cl : Nat) : (s.wearing cs e).cluster cl = s.cluster cl := rfl
  have slices : (s.wearing cs e).slices = s.slices := rfl
  have ticks : (s.wearing cs e).ticks = s.ticks := rfl
  unfold State.sliceAccess
  split
  · rfl
  · simp only [same, recalls, cluster, slices, ticks]
    rw [← apply_ite (State.wearing · cs e), State.lineFor_wearing]
    generalize (if w then _ else _ : State) = t
    rcases t.lineFor (clusterOfTile tile) tile pa with ⟨_ | l, u⟩ <;> rfl

theorem State.sendSector_wearing (tile pa : Nat) (x : Sector) : (s.wearing cs e).sendSector tile pa x = (s.sendSector tile pa x).wearing cs e := by
  unfold State.sendSector
  rw [← State.sliceAccess_wearing]
  rfl

theorem State.writeBack_wearing (tile : Nat) (p : Nat → Bool) : (s.wearing cs e).writeBack tile p = (s.writeBack tile p).wearing cs e := by
  have sends (l : List (Nat × Sector)) (t : State) :
      l.foldl (fun s x => s.sendSector tile (sectorPa x.1) x.2) (t.wearing cs e) = (l.foldl (fun s x => s.sendSector tile (sectorPa x.1) x.2) t).wearing cs e := by
    induction l generalizing t with
    | nil => rfl
    | cons x rest ih => rw [List.foldl_cons, State.sendSector_wearing, ih, List.foldl_cons]
  unfold State.writeBack
  have cache : (s.wearing cs e).tileCache = s.tileCache := rfl
  simp only [cache, sends]
  rfl

theorem State.releaseWays_wearing (key scope : Nat) : (s.wearing cs e).releaseWays key scope = (s.releaseWays key scope).wearing cs e := by
  unfold State.releaseWays
  split
  · exact s.writeBack_wearing cs e _ _
  · rfl

theorem State.flushSector_wearing (tile pa : Nat) : (s.wearing cs e).flushSector tile pa = (s.flushSector tile pa).wearing cs e := by
  unfold State.flushSector State.flushWays
  rw [State.writeBack_wearing]
  rfl

end

/-! ## What a sample of a WAIT reads does not depend on what issues (R167) -/

theorem sampleWait_issues (s : State) (e : Option ReplayEntry) (key : Nat) (c : Ctx) (x : SForm) (seen : BitVec 4) :
    sampleWait (s.issues e) key c x seen = sampleWait s key c x seen := by
  have word (va pa : Nat) : homeWord ((s.issues e).flushSector (tileOf key) pa) va pa = homeWord (s.flushSector (tileOf key) pa) va pa :=
    (congrArg (fun t => homeWord t va pa) (s.flushSector_wearing s.ctxs e (tileOf key) pa) :)
  have condition (w : WaitCond) : condHolds (s.issues e) key c w = condHolds s key c w := by
    cases w
    case ctr a v n =>
      have place : counterPlace (s.issues e) key c a.toNat .r = counterPlace s key c a.toNat .r := rfl
      simp only [condHolds, place, word]
      rfl
    all_goals rfl
  have slots (l : List Nat) (mask : BitVec 4) : sampleSlots (s.issues e) key c mask l = sampleSlots s key c mask l := by
    induction l with
    | nil => rfl
    | cons n rest ih => simp only [sampleSlots, condition, ih]
  simp only [sampleWait, slots]

/-- What an acquire of a WAIT does to the ways leaves every other part of the state alone. -/
theorem State.waitAcquire_eq (s : State) (key : Nat) (c : Ctx) (x : SForm) (seen : BitVec 4) :
    ∃ tc, s.waitAcquire key c x seen = { s with tileCache := tc } := by
  unfold State.waitAcquire State.acquireWays
  split
  · split <;> exact ⟨_, rfl⟩
  · exact ⟨_, rfl⟩

theorem State.waitAcquire_issues (s : State) (e : Option ReplayEntry) (key : Nat) (c : Ctx) (x : SForm) (seen : BitVec 4) :
    (s.issues e).waitAcquire key c x seen = (s.waitAcquire key c x seen).issues e := by
  unfold State.waitAcquire State.acquireWays
  split
  · split <;> rfl
  · rfl

theorem Issuing.waitAcquire {s : State} {key : Nat} {c : Ctx} {f : Firing} (h : Issuing s key c f) (x : SForm) (seen : BitVec 4) :
    Issuing (s.waitAcquire key c x seen) key c f := by
  obtain ⟨tc, ways⟩ := s.waitAcquire_eq key c x seen
  rw [ways]
  exact ⟨h.cur, h.ctx, h.firing, h.first⟩

@[simp] theorem run_orTrap_ok {α : Type} (x : α) (s : State) : (orTrap (.ok x) : M α).run s = .ok (x, s) := rfl

/-- A WAIT in progress that is over: its result is written and its firing goes on. -/
theorem State.waitStep_ends {s : State} {key : Nat} {c : Ctx} {f : Firing} {r : Sampled} {w : WaitRun} {timeout : Bool} (hc : s.ctx? key = some c) (hf : c.firing = some f) (wait : f.wait = some w)
    (stalled : f.stall = .waiting) (sampled : sampleWait s key c (SForm.ofWord w.word.toNat) w.seen = .ok r)
    (ended : r.done = true ∨ timeout = true ∧ w.deadline ≤ s.ticks) :
    s.waitStep key timeout = (s.waitAcquire key c (SForm.ofWord w.word.toNat) r.seen).setCtx key
      { c.wg (SForm.ofWord w.word.toNat).d.toNat (waitResult r) with firing := some { f with pc := nextPc f.pc 8, wait := none, stall := .none } } := by
  obtain ⟨tc, ways⟩ := s.waitAcquire_eq key c (SForm.ofWord w.word.toNat) r.seen
  have there : (s.waitAcquire key c (SForm.ofWord w.word.toNat) r.seen).ctx? key = some c := by
    rw [ways]
    exact hc
  have finished : (r.done || (timeout && decide (w.deadline ≤ s.ticks))) = true := by simpa using ended
  simp only [State.waitStep, hc, hf, wait, stalled, sampled, finished, if_true, ne_eq, not_true_eq_false, if_false]
  rw [State.modCtx_eq _ _ _ _ there]

end Sys2Proof.Machine

namespace Sys2Proof.CounterProofs
open Sys2Proof Sys2Proof.Machine

section
variable {s : State} {key : Nat} {c : Ctx} {f : Firing} {x : SForm} {r : Sampled}

/-- A context whose firing goes on waiting at a WAIT, with the conditions seen. -/
def waitingCtx (c : Ctx) (f : Firing) (x : SForm) (deadline : Nat) (seen : BitVec 4) : Ctx :=
  { c with firing := some { f with wait := some { word := instrWord (.wait x), deadline := deadline, seen := seen }, stall := .waiting } }

/-- The deadline of a WAIT that begins now. -/
def deadlineOf (s : State) (c : Ctx) (x : SForm) : Nat := s.ticks + Nat.min (c.rg x.a.toNat).toNat (2 ^ 32)

/-- What a WAIT reads before it samples. -/
theorem run_waitReads {α : Type} (k : Nat → Ctx → Firing → Word → State → M α) (h : Issuing s key c f) (free : s.noAcquire key) :
    (curKey >>= fun key => curCtx >>= fun c => curFiring >>= fun f => opG .a >>= fun t => gateAcquire >>= fun _ => get >>= fun s => k key c f t s).run
        (s.reading (.wait x) [sA x] x.kg.toNat c f) =
      (k key c f (c.rg x.a.toNat) (s.reading (.wait x) [sA x] x.kg.toNat c f)).run (s.reading (.wait x) [sA x] x.kg.toNat c f) := by
  have issuing := h.issues (some (captured (.wait x) [sA x] x.kg.toNat c f))
  rw [M.run_bind_ok (run_curKey issuing.cur), M.run_bind_ok (run_curCtx issuing.cur issuing.ctx),
    M.run_bind_ok (run_curFiring issuing.cur issuing.ctx issuing.firing), run_readS, M.run_bind_ok (run_gateAcquire issuing.cur free),
    M.run_bind_ok (M.run_get _)]

/-- What a WAIT does with a first sample that has found no fault. -/
theorem run_waitSamples {α : Type} (e : Option ReplayEntry) (k : Sampled → M α) (sampled : sampleWait s key c x 0 = .ok r) :
    (orTrap (sampleWait (s.issues e) key c x 0) >>= fun r => modify (fun s => s.waitAcquire key c x r.seen) >>= fun _ => k r).run (s.issues e) =
      (k r).run ((s.waitAcquire key c x r.seen).issues e) := by
  rw [sampleWait_issues, sampled, M.run_bind_ok (run_orTrap_ok _ _), M.run_bind_ok (M.run_modify _ _), State.waitAcquire_issues]

theorem wait_completes (h : Issuing s key c f) (on : c.guardOn x.kg) (ops : Operands s key c [sA x] [gDst x.d.toNat]) (idle : f.wait = none)
    (free : s.noAcquire key) (sampled : sampleWait s key c x 0 = .ok r) (ended : r.done = true ∨ deadlineOf s c x ≤ s.ticks) :
    exec (.wait x) s = .next ((s.waitAcquire key c x r.seen).completed key ((c.wg x.d.toNat (waitResult r)).advance 8)) := by
  have acquired := (h.waitAcquire x r.seen).issues (some (captured (.wait x) [sA x] x.kg.toNat c f))
  rw [← State.completed_issues _ (some (captured (.wait x) [sA x] x.kg.toNat c f)), ← State.completed_setCtx]
  refine runControl_goesOn (a := sAsk x [sA x] [gDst x.d.toNat]) h rfl (fun _ => on) ops ((run_waitReads _ h free).trans ?_) (State.ctx?_setCtx _ _ _) rfl
  rw [idle]
  refine (run_waitSamples _ _ sampled).trans ?_
  rw [if_pos (by simpa [deadlineOf] using ended), M.run_bind_ok (run_writeG _ _ acquired.cur acquired.ctx)]
  rfl

theorem wait_goesOn (h : Issuing s key c f) (on : c.guardOn x.kg) (ops : Operands s key c [sA x] [gDst x.d.toNat]) (idle : f.wait = none)
    (free : s.noAcquire key) (sampled : sampleWait s key c x 0 = .ok r) (unseen : r.done = false) (early : s.ticks < deadlineOf s c x) :
    exec (.wait x) s = .next ((s.waitAcquire key c x r.seen).completed key (waitingCtx c f x (deadlineOf s c x) r.seen)) := by
  have acquired := (h.waitAcquire x r.seen).issues (some (captured (.wait x) [sA x] x.kg.toNat c f))
  refine (runControl_ready (a := sAsk x [sA x] [gDst x.d.toNat]) h (Nat.not_lt_zero _) (fun _ => on) ops).trans ?_
  dsimp only [sAsk]
  rw [run_waitReads _ h free, idle]
  dsimp only [Option.map_none, Option.getD_none]
  rw [run_waitSamples _ _ sampled, if_neg (by simpa [unseen, deadlineOf, Nat.pos_iff_ne_zero] using early), M.run_bind_ok (run_issuing rfl), M.run_bind_ok (run_modCur _ acquired.cur acquired.ctx), h.firing]
  rfl

/-- The result of a WAIT that is over stands in its destination, and memory is as it was. -/
theorem waitStep_movesOn {w : WaitRun} {timeout : Bool} (hc : s.ctx? key = some c) (hf : c.firing = some f) (wait : f.wait = some w)
    (stalled : f.stall = .waiting) (sampled : sampleWait s key c (SForm.ofWord w.word.toNat) w.seen = .ok r)
    (ended : r.done = true ∨ timeout = true ∧ w.deadline ≤ s.ticks) :
    ∃ c', Claims.movedOn (s.waitStep key timeout) key c f 8 c' ∧ c'.g = (c.wg (SForm.ofWord w.word.toNat).d.toNat (waitResult r)).g ∧
      (s.waitStep key timeout).mem = s.mem := by
  obtain ⟨tc, ways⟩ := s.waitAcquire_eq key c (SForm.ofWord w.word.toNat) r.seen
  rw [State.waitStep_ends hc hf wait stalled sampled ended, ways]
  exact ⟨_, ⟨State.ctx?_setCtx _ _ _, rfl, rfl, rfl, rfl, rfl, rfl, rfl, rfl, rfl⟩, rfl, rfl⟩

end

theorem waitInstruction : Claims.waitInstruction := by
  intro s key c f x r h on ops idle free sampled
  exact ⟨fun ended => wait_completes h on ops idle free sampled ended, fun unseen early => wait_goesOn h on ops idle free sampled unseen early⟩

theorem waitEnds : Claims.waitEnds := by
  intro s key c f w r hc hf wait stalled sampled
  refine ⟨fun done => ?_, fun undone late => ?_⟩
  · obtain ⟨c', moved, g, mem⟩ := waitStep_movesOn (timeout := false) hc hf wait stalled sampled (.inl done)
    exact ⟨_, c', rfl, moved, by simpa [waitResult, done] using g, mem⟩
  · obtain ⟨c', moved, g, mem⟩ := waitStep_movesOn (timeout := true) hc hf wait stalled sampled (.inr ⟨rfl, late⟩)
    exact ⟨_, c', rfl, moved, by simpa [waitResult, undone] using g, mem⟩

end Sys2Proof.CounterProofs

open Sys2Proof.CounterProofs

/-- Settles O28: a sample does not depend on what issues, and the ways that an acquire cleans are the one part of the state that a WAIT changes besides its
context. -/
theorem waits : Obligations.Waits := ⟨waitInstruction, waitEnds⟩
end

section

namespace Sys2Proof.Machine

/-! ## Queues and shadows: a change of one, and what is found after it (R140, R150) -/

/-- A change of a queue that leaves it the queue of its edge and its consumer. -/
def KeepsQueue (f : Queue → Queue) : Prop := ∀ q, (f q).graph = q.graph ∧ (f q).edge = q.edge ∧ (f q).consumer = q.consumer

/-- A change of a shadow that leaves it the shadow of its edge and its producer. -/
def KeepsShadow (f : Shadow → Shadow) : Prop := ∀ q, (f q).graph = q.graph ∧ (f q).edge = q.edge ∧ (f q).producer = q.producer

section
variable {s : State} {g e o : Nat} {f h : Queue → Queue}

/-- Two changes of one queue are one. -/
theorem State.modQueue_modQueue (keeps : KeepsQueue f) : (s.modQueue g e o f).modQueue g e o h = s.modQueue g e o fun q => h (f q) := by
  have entry (q : Queue) : (let x := if q.graph = g ∧ q.edge = e ∧ q.consumer = o then f q else q
      if x.graph = g ∧ x.edge = e ∧ x.consumer = o then h x else x) = if q.graph = g ∧ q.edge = e ∧ q.consumer = o then h (f q) else q := by
    obtain ⟨graph, edge, consumer⟩ := keeps q
    by_cases own : q.graph = g ∧ q.edge = e ∧ q.consumer = o
    · simp [own, graph, edge, consumer]
    · simp [own]
  simp only [State.modQueue, List.map_map]
  exact congrArg (fun l => { s with queues := l }) (List.map_congr_left fun q _ => entry q)

/-- The queue that is found after a change is the one that was found before it, changed where it is the one concerned. -/
theorem State.queue?_modQueue (keeps : KeepsQueue f) (g' e' o' : Nat) :
    (s.modQueue g e o f).queue? g' e' o' = (s.queue? g' e' o').map fun q => if q.graph = g ∧ q.edge = e ∧ q.consumer = o then f q else q := by
  have same : ((fun q : Queue => q.graph == g' && q.edge == e' && q.consumer == o') ∘ fun q => if q.graph = g ∧ q.edge = e ∧ q.consumer = o then f q else q) =
      fun q => q.graph == g' && q.edge == e' && q.consumer == o' := by
    funext q
    obtain ⟨graph, edge, consumer⟩ := keeps q
    by_cases own : q.graph = g ∧ q.edge = e ∧ q.consumer = o <;> simp [own, graph, edge, consumer]
  simp only [State.queue?, State.modQueue, List.find?_map, same]

theorem State.key_of_queue? {q : Queue} (found : s.queue? g e o = some q) : q.graph = g ∧ q.edge = e ∧ q.consumer = o := by
  have := List.find?_some found
  simpa [and_assoc] using this

theorem State.queue?_modQueue_same {q : Queue} (found : s.queue? g e o = some q) (keeps : KeepsQueue f := by exact fun _ => ⟨rfl, rfl, rfl⟩) : (s.modQueue g e o f).queue? g e o = some (f q) := by
  rw [State.queue?_modQueue keeps, found, Option.map_some, if_pos (State.key_of_queue? found)]

theorem State.queue?_modQueue_ne {g' e' o' : Nat} (other : (g', e', o') ≠ (g, e, o)) (keeps : KeepsQueue f := by exact fun _ => ⟨rfl, rfl, rfl⟩) :
    (s.modQueue g e o f).queue? g' e' o' = s.queue? g' e' o' := by
  rw [State.queue?_modQueue keeps]
  cases found : s.queue? g' e' o' with
  | none => rfl
  | some q =>
    obtain ⟨rfl, rfl, rfl⟩ := State.key_of_queue? found
    rw [Option.map_some, if_neg (by simpa using other)]

end

section
variable {s : State} {g e o : Nat} {f h : Shadow → Shadow}

theorem State.shadow?_modShadow_same {q : Shadow} (found : s.shadow? g e o = some q) (keeps : KeepsShadow f := by exact fun _ => ⟨rfl, rfl, rfl⟩) :
    (s.modShadow g e o f).shadow? g e o = some (f q) := by
  have key := List.find?_some found
  have same : ((fun q : Shadow => q.graph == g && q.edge == e && q.producer == o) ∘ fun q => if q.graph = g ∧ q.edge = e ∧ q.producer = o then f q else q) =
      fun q => q.graph == g && q.edge == e && q.producer == o := by
    funext q
    obtain ⟨graph, edge, producer⟩ := keeps q
    by_cases own : q.graph = g ∧ q.edge = e ∧ q.producer = o <;> simp [own, graph, edge, producer]
  have own : q.graph = g ∧ q.edge = e ∧ q.producer = o := by simpa [and_assoc] using key
  simp only [State.shadow?, State.modShadow, List.find?_map, same]
  rw [show s.shadows.find? _ = some q from found, Option.map_some, if_pos own]

end

@[simp] theorem State.queue?_progress (s : State) (h g e o : Nat) : (s.progress h).queue? g e o = s.queue? g e o := rfl

/-- The graph that is found after a change of the graph of a handle. -/
theorem State.graph?_modGraph {s : State} {h : Nat} {f : Graph → Graph} (keeps : ∀ g, (f g).handle = g.handle) (h' : Nat) :
    (s.modGraph h f).graph? h' = (s.graph? h').map fun g => if g.handle = h then f g else g := by
  have same : ((fun g : Graph => g.handle == h') ∘ fun g => if g.handle = h then f g else g) = fun g => g.handle == h' := by
    funext g
    by_cases own : g.handle = h <;> simp [own, keeps]
  simp only [State.graph?, State.modGraph, List.find?_map, same]

theorem State.graph?_modGraph_same {s : State} {h : Nat} {g : Graph} {f : Graph → Graph} (keeps : ∀ g, (f g).handle = g.handle)
    (found : s.graph? h = some g) : (s.modGraph h f).graph? h = some (f g) := by
  have own : g.handle = h := by simpa using List.find?_some found
  rw [State.graph?_modGraph keeps, found, Option.map_some, if_pos own]

/-- A token that names the consumer of its queue enters the FIFO, repacked (R112, R143). -/
theorem State.arrive_own {s : State} {q : Queue} {t : Token} (own : q.consumer % 2048 + 2048 * hdrTag t.header + q.consumer / 16384 * 16384 = q.consumer) :
    s.arrive q t = (s.modQueue q.graph q.edge q.consumer fun x => { x with fifo := x.fifo ++ adaptToken q.outFmt q.inFmt t }).progress q.graph := by
  simp only [State.arrive, own, if_true]

end Sys2Proof.Machine

namespace Sys2Proof.QueueProofs
open Sys2Proof Sys2Proof.Machine

/-- An event has changed a queue in one way, and neither memory nor a context. -/
def changesQueue (s u : State) (q : Queue) (f : Queue → Queue) : Prop :=
  u.mem = s.mem ∧ u.ctxs = s.ctxs ∧ u.queues = s.queues.map fun x => if x.graph = q.graph ∧ x.edge = q.edge ∧ x.consumer = q.consumer then f x else x

section
variable {s : State} {n : Nat} {q : Queue}

/-- A token that leaves its place in a queue and enters the FIFO of its own consumer. -/
theorem arrive_changesQueue {t : Token} {f : Queue → Queue} (keeps : KeepsQueue f)
    (own : q.consumer % 2048 + 2048 * hdrTag t.header + q.consumer / 16384 * 16384 = q.consumer) :
    changesQueue s ((s.modQueue q.graph q.edge q.consumer f).arrive q t) q
      fun x => { f x with fifo := (f x).fifo ++ adaptToken q.outFmt q.inFmt t } := by
  rw [State.arrive_own own, State.modQueue_modQueue keeps]
  exact ⟨rfl, rfl, rfl⟩

theorem tokenArrival_moves {t : Token} {rest : List Token} (found : s.queues[n]? = some q) (transit : q.transit = t :: rest)
    (own : q.consumer % 2048 + 2048 * hdrTag t.header + q.consumer / 16384 * 16384 = q.consumer) :
    ∃ u, exec (.tokenArrival n) s = .next u ∧ changesQueue s u q fun x => { x with transit := rest, fifo := x.fifo ++ adaptToken q.outFmt q.inFmt t } := by
  refine ⟨(s.modQueue q.graph q.edge q.consumer fun x => { x with transit := rest }).arrive q t, ?_, arrive_changesQueue (fun _ => ⟨rfl, rfl, rfl⟩) own⟩
  show Host.Outcome.next _ = _
  simp only [found, transit]

theorem creditReturn_moves (found : s.queues[n]? = some q) (some : q.returning ≠ 0) :
    ∃ u, exec (.creditReturn n) s = .next u ∧ changesQueue s u q fun x => { x with credits := x.credits + x.returning, returning := 0 } := by
  refine ⟨(s.modQueue q.graph q.edge q.consumer fun x => { x with credits := x.credits + x.returning, returning := 0 }).progress q.graph, ?_, rfl, rfl, rfl⟩
  show Host.Outcome.next _ = _
  simp only [found, some, if_false]

theorem spillRingDrain_moves {t : Token} {rest : List Token} (found : s.queues[n]? = some q) (ring : q.ring = t :: rest) (none : q.transit = [])
    (credits : t.slots ≤ q.credits) (own : q.consumer % 2048 + 2048 * hdrTag t.header + q.consumer / 16384 * 16384 = q.consumer) :
    ∃ u, exec (.spillRingDrain n) s = .next u ∧ changesQueue s u q fun x =>
      { x with ring := rest, credits := x.credits - t.slots, fifo := x.fifo ++ adaptToken q.outFmt q.inFmt t } := by
  refine ⟨(s.modQueue q.graph q.edge q.consumer fun x => { x with ring := rest, credits := x.credits - t.slots }).arrive q t, ?_,
    arrive_changesQueue (fun _ => ⟨rfl, rfl, rfl⟩) own⟩
  show Host.Outcome.next _ = _
  simp [found, ring, none, credits]

/-- A batch of one entry moves to its queue when the queue accepts it (R150). -/
theorem forwardShadow_one {sh : Shadow} {e : ShadowEntry} {o : Nat} {tok : Token} (found : s.shadows[n]? = some sh) (batch : batchOf 64 sh.entries = [e])
    (routed : s.routeEntry sh.graph sh.edge e = some (o, tok)) (queue : s.queue? sh.graph sh.edge o = some q)
    (credits : deliveredSlots q.outFmt q.inFmt tok ≤ q.credits) :
    s.forwardShadow n =
      ((((s.modShadow sh.graph sh.edge sh.producer fun x => { x with entries := x.entries.tail, credits := x.credits + e.token.slots }).modQueue
        sh.graph sh.edge o fun x => { x with credits := x.credits - deliveredSlots q.outFmt q.inFmt tok, producer := some sh.producer }).sendToken
        sh.graph sh.edge o tok).progress sh.graph) := by
  simp only [State.forwardShadow, found, batch, State.forward, routed, queue, credits, if_true]

theorem forwardShadow_moves {sh : Shadow} {e : ShadowEntry} {o : Nat} {tok : Token} (found : s.shadows[n]? = some sh) (batch : batchOf 64 sh.entries = [e])
    (routed : s.routeEntry sh.graph sh.edge e = some (o, tok)) (queue : s.queue? sh.graph sh.edge o = some q)
    (credits : deliveredSlots q.outFmt q.inFmt tok ≤ q.credits) :
    (s.forwardShadow n).mem = s.mem ∧ (s.forwardShadow n).ctxs = s.ctxs ∧
      (s.forwardShadow n).queue? sh.graph sh.edge o = some { q with
        credits := q.credits - deliveredSlots q.outFmt q.inFmt tok, transit := q.transit ++ [tok], producer := some sh.producer } ∧
      (s.forwardShadow n).shadows = s.shadows.map fun y => if y.graph = sh.graph ∧ y.edge = sh.edge ∧ y.producer = sh.producer
        then { y with entries := y.entries.tail, credits := y.credits + e.token.slots } else y := by
  have kept : (s.modShadow sh.graph sh.edge sh.producer fun x => { x with entries := x.entries.tail, credits := x.credits + e.token.slots }).queue?
      sh.graph sh.edge o = some q := queue
  rw [forwardShadow_one found batch routed queue credits]
  simp only [State.progress_mem, State.progress_ctxs, State.queue?_progress, State.progress_shadows, State.sendToken]
  exact ⟨rfl, rfl, State.queue?_modQueue_same (State.queue?_modQueue_same kept), rfl⟩

end

theorem queueEvents : Claims.queueEvents := by
  refine ⟨fun s n q found => ⟨fun t rest transit own => ?_, fun some => ?_, fun t rest ring none credits own => ?_⟩, ?_⟩
  · exact tokenArrival_moves found transit own
  · exact creditReturn_moves found some
  · exact spillRingDrain_moves found ring none credits own
  · intro s n sh e rest o tok q found _ batch routed queue credits i hi
    have run : exec i s = .next (s.forwardShadow n) := by
      simp only [List.mem_cons, List.not_mem_nil, or_false] at hi
      rcases hi with rfl | rfl <;> rfl
    exact ⟨_, run, forwardShadow_moves found batch routed queue credits⟩

/-- The detector of a graph that has fired raises DEADLOCK in the supervisor, which has room for it. -/
theorem deadlockDetection_raises {h : Nat} {g : Graph} {s : State} (found : s.graph? h = some g) (detects : s.detects g = true) (report : g.report = 0)
    {c : Ctx} (there : s.ctx? (supervisorOf g.part) = some c) (room : c.pending.length < 4) :
    exec (.deadlockDetection h) s = .next ((s.modGraph h fun g => { g with fired := true }).setCtx (supervisorOf g.part)
      { c with pending := c.pending ++ [{ cause := cDeadlock, info := wd g.report, fpc := 0, fword := 0, addr := wd g.report }] }) := by
  have there' : (s.modGraph h fun g => { g with fired := true }).ctx? (supervisorOf g.part) = some c := there
  have owner : (s.modGraph h fun g => { g with fired := true }).owner? (supervisorOf g.part) = some c := State.owner?_slot there'
  show Host.Outcome.next _ = _
  simp only [found, detects, report, if_true, State.queueFault, owner, room, State.modOwner_slot _ there']

theorem deadlockDetector : Claims.deadlockDetector := by
  intro s h g found
  refine ⟨fun thresh fired timer blocked report c there room => ?_, fun quiet => ?_⟩
  · have detects : s.detects g = true := by simp [State.detects, thresh, fired, timer, blocked]
    exact ⟨_, _, deadlockDetection_raises found detects report there room, rfl, State.graph?_modGraph_same (fun _ => rfl) found, State.ctx?_setCtx _ _ _, _, rfl, rfl⟩
  · have silent : s.detects g = false := by
      rw [← Bool.not_eq_true]
      simp only [State.detects, Bool.and_eq_true, decide_eq_true_eq, Bool.not_eq_true', List.isEmpty_eq_false_iff]
      rintro ⟨⟨⟨thresh, fired⟩, timer⟩, blocked⟩
      rcases quiet with h | h | h | h
      · exact thresh h
      · simp [h] at fired
      · omega
      · exact blocked h
    show Host.Outcome.next _ = _
    simp [found, silent]

end Sys2Proof.QueueProofs
open Sys2Proof.QueueProofs

/-- Settles O38: each event is a change of one queue, by `changesQueue`, or of one shadow entry and its queue, and the detector is silent where one of its four
conditions fails. -/
theorem queueEvents : Obligations.QueueEvents := ⟨Sys2Proof.QueueProofs.queueEvents, deadlockDetector⟩
end

section

namespace Sys2Proof.QueueProofs
open Sys2Proof Sys2Proof.Machine

/-! ## A stream register that is listed twice -/

/-- A graph of one actor, whose port 1 is a declared input. -/
def portedGraph : Graph :=
  { handle := 1, va := 0, asid := 1, part := 1,
    actors := [{ slot := 0, growth := 0, min := 1, initial := 1, max := 1, ports := [(7, true, true), (7, false, true)], guards := [], guardAddr := 0 }] }

def bindFiring : Firing := { pc := 0, serial := 0, entry := 16 }

/-- A context of the actor whose bindings list q4 twice, as none does that the machine has written. -/
def twiceBound : Ctx :=
  { priv := .u, asid := 1, part := 1, graph := 1, g := [(6, 1)], q := [(4, .input 2), (4, .input 2)], firing := some bindFiring }

/-- It is about to bind q4 to port 1, the 1 in g6. -/
def twiceSt : State := { State.reset with cur := some 0, ctxs := [(0, twiceBound)], graphs := [portedGraph] }
def rebind : SForm := { SForm.ofWord 0 with p := 4, a := 6 }

theorem twiceSt_issuing : Issuing twiceSt 0 twiceBound bindFiring := ⟨rfl, rfl, rfl, rfl⟩

theorem twiceBound_guardOn : twiceBound.guardOn rebind.kg := by
  unfold Ctx.guardOn
  decide

theorem twiceSt_operands : Operands twiceSt 0 twiceBound [sA rebind, sB .g rebind] [] := ⟨by decide +kernel, by decide +kernel, by decide⟩

theorem twiceSt_free :
    twiceSt.portDesc twiceBound (twiceBound.rg 6).toNat = some (7, false, true) ∧
      ¬ ∃ m < 16, m ≠ 4 ∧ (twiceBound.rq m).isPort (twiceBound.rg 6).toNat = true := by
  decide +kernel

/-- The bindings of context 0 after an instruction. -/
def boundTo : Result → Option (Map PortBind)
  | .next t => (t.ctx? 0).map (·.q)
  | _ => none

/-- QBIND takes the first entry away, and writes the binding over the second. -/
theorem rebind_leavesOne : boundTo (exec (.qbindPort rebind) twiceSt) = some [(4, .input 1)] := by decide +kernel

end Sys2Proof.QueueProofs

open Sys2Proof Sys2Proof.Machine Sys2Proof.QueueProofs

/-- Refutes O36: QBIND first unbinds the register and then writes its binding, and the clause on a declared port asks for the map after the second write
alone. In `twiceSt` the context's map lists q4 twice: QBIND leaves one entry of it, one write alone would leave two. -/
theorem not_queuePorts : ¬ Obligations.QueuePorts := by
  unfold Obligations.QueuePorts Claims.bindingInstructions
  rintro ⟨-, binds⟩
  obtain ⟨ofPort, -, -, -, -⟩ := binds twiceSt 0 twiceBound bindFiring rebind twiceSt_issuing twiceBound_guardOn
  obtain ⟨declared, -⟩ := ofPort twiceSt_operands
  obtain ⟨desc, free⟩ := twiceSt_free
  obtain ⟨t, c', run, ⟨there, -⟩, -, written, -⟩ := declared 7 false desc free
  have left := rebind_leavesOne
  rw [run, boundTo, there, Option.map_some, Option.some_inj, written] at left
  exact absurd left (by decide +kernel)

end

section

namespace Sys2Proof.Machine

/-! ## States that differ in their contexts and in what issues -/

/-- A state that is `u` but for its contexts and for what issues, which is `e`; context `key` stands in it as `d`. -/
def State.stands (u : State) (key : Nat) (d : Ctx) (e : Option ReplayEntry) (t : State) : Prop := t.ctx? key = some d ∧ ∃ cs, t = u.wearing cs e

theorem Issuing.stands {s : State} {key : Nat} {c : Ctx} {f : Firing} (h : Issuing s key c f) (e : Option ReplayEntry) : s.stands key c e (s.issues e) :=
  ⟨h.ctx, s.ctxs, rfl⟩

section
variable {u t : State} {key : Nat} {c d : Ctx} {e : Option ReplayEntry}

theorem State.stands.setCtx (h : u.stands key c e t) (d : Ctx) : u.stands key d e (t.setCtx key d) := by
  obtain ⟨-, cs, rfl⟩ := h
  exact ⟨State.ctx?_setCtx _ _ _, _, rfl⟩

theorem State.stands.warn (h : u.stands key c e t) (cur : u.cur = some key) (w : Word) :
    (warn w).run t = .ok ((), t.setCtx key (c.warns w)) := by
  obtain ⟨there, cs, rfl⟩ := h
  exact run_warn w cur there

end

/-! ## Contexts that differ in their takings and their warnings -/

/-- A context with what the firing in flight of another has taken and popped, and with its warnings. -/
def Ctx.withNotes (d c : Ctx) : Ctx := { d with past := c.past, warn := c.warn }

/-- A context as another one, but for those. -/
def Ctx.sameButNotes (c d : Ctx) : Prop := d.withNotes c = c

theorem Ctx.sameButNotes.trans {a b c : Ctx} (h : a.sameButNotes b) (h' : b.sameButNotes c) : a.sameButNotes c :=
  have h : b.withNotes a = a := h
  (congrArg (Ctx.withNotes · a) h').trans h

theorem Ctx.sameButNotes_refl (c : Ctx) : c.sameButNotes c := rfl
theorem Ctx.sameButNotes_warns (c : Ctx) (w : Word) : c.sameButNotes (c.warns w) := rfl
theorem Ctx.sameButNotes_notePops (c : Ctx) (edge : Nat) (ts : List Token) : c.sameButNotes (c.notePops edge ts) := rfl

theorem Ctx.sameButNotes.setReserved {c d : Ctx} (h : c.sameButNotes d) (n k : Nat) : (c.setReserved n k).sameButNotes (d.setReserved n k) :=
  (congrArg (Ctx.setReserved · n k) h :)

/-- A context with the registers, reservations, takings and sticky bits of another. -/
def Ctx.withWork (d c : Ctx) : Ctx :=
  { d with
    g := c.g, gEmpty := c.gEmpty, gBad := c.gBad, v := c.v, vEmpty := c.vEmpty, vBad := c.vBad, resv := c.resv, past := c.past, warn := c.warn
    fpflags := c.fpflags }

/-- A context as another one, but also for its g and v registers, its reservations and its floating-point flags. -/
def Ctx.sameSelf (c d : Ctx) : Prop := d.withWork c = c

theorem Ctx.sameSelf_refl (c : Ctx) : c.sameSelf c := rfl

theorem Ctx.sameSelf.trans {a b c : Ctx} (h : a.sameSelf b) (h' : b.sameSelf c) : a.sameSelf c :=
  have h : b.withWork a = a := h
  (congrArg (Ctx.withWork · a) h').trans h

theorem Ctx.sameSelf_setReserved (c : Ctx) (n k : Nat) : c.sameSelf (c.setReserved n k) := rfl

theorem Ctx.sameButNotes.sameSelf {c d : Ctx} (h : c.sameButNotes d) : c.sameSelf d := (congrArg (Ctx.withWork · c) h :)

/-- An instruction that has left its context as itself has moved its firing on; the rest of the context is as it left it. -/
theorem movedOn_completed_self {s : State} {key : Nat} {c d : Ctx} {f : Firing} (n : Nat) (firing : c.firing = some f) (same : c.sameSelf d) :
    ∃ c', Claims.movedOn (s.completed key (d.advance n)) key c f n c' ∧ c'.uncounted = (d.advance n).uncounted := by
  obtain ⟨c', there, uncounted⟩ := s.ctx?_completed key (d.advance n)
  have moved : (c'.withWork c).uncounted = (c.advance n).uncounted :=
    (congrArg (Ctx.withWork · c) uncounted :).trans (congrArg (fun x => (Ctx.advance x n).uncounted) same :)
  refine ⟨c', ⟨there, (congrArg Ctx.firing moved :).trans ?_, (congrArg Ctx.k moved :), (congrArg Ctx.frames moved :), (congrArg Ctx.trapcause moved :),
    (congrArg Ctx.trapinfo moved :), (congrArg Ctx.trapvec moved :), (congrArg Ctx.priv moved :), (congrArg Ctx.asid moved :), (congrArg Ctx.part moved :)⟩,
    uncounted⟩
  simp [Ctx.uncounted, Ctx.advance, Ctx.goOn, firing]

section
variable (s : State) (key : Nat) (c : Ctx)

@[simp] theorem State.queues_completed : (s.completed key c).queues = s.queues := by simp [State.completed]
@[simp] theorem State.shadows_completed : (s.completed key c).shadows = s.shadows := by simp [State.completed]
@[simp] theorem State.subqs_completed : (s.completed key c).subqs = s.subqs := by simp [State.completed]
@[simp] theorem State.queue?_completed (g e o : Nat) : (s.completed key c).queue? g e o = s.queue? g e o := by simp [State.queue?]
@[simp] theorem State.shadow?_completed (g e o : Nat) : (s.completed key c).shadow? g e o = s.shadow? g e o := by simp [State.shadow?]

end

/-- Two changes of one shadow are one. -/
theorem State.modShadow_modShadow {s : State} {g e o : Nat} {f h : Shadow → Shadow} (keeps : KeepsShadow f) :
    (s.modShadow g e o f).modShadow g e o h = s.modShadow g e o fun q => h (f q) := by
  have entry (q : Shadow) : (let x := if q.graph = g ∧ q.edge = e ∧ q.producer = o then f q else q
      if x.graph = g ∧ x.edge = e ∧ x.producer = o then h x else x) = if q.graph = g ∧ q.edge = e ∧ q.producer = o then h (f q) else q := by
    obtain ⟨graph, edge, producer⟩ := keeps q
    by_cases own : q.graph = g ∧ q.edge = e ∧ q.producer = o
    · simp [own, graph, edge, producer]
    · simp [own]
  simp only [State.modShadow, List.map_map]
  exact congrArg (fun l => { s with shadows := l }) (List.map_congr_left fun q _ => entry q)

/-! ## Pushes (R148, R149) -/

section
variable {s : State} {key n o : Nat} {c : Ctx} {p : OutPort} {q : Queue} {t : Token} {owner : Bool}

/-- Credits that a port's queue has taken or got back are noted in the context, and nowhere else. -/
theorem State.addCredits_plain (there : s.ctx? key = some c) (plain : p.proxy = false) (paired : p.consumer = some o) (m : Int) :
    s.addCredits key p m =
      (s.setCtx key (c.noteCredits p.edge (-m))).modQueue p.graph p.edge o fun y => { y with credits := ((y.credits : Int) + m).toNat } := by
  simp only [State.addCredits, plain, paired, State.modCtx_eq _ _ _ _ there]
  rfl

theorem State.addCredits_proxy (there : s.ctx? key = some c) (proxy : p.proxy = true) (m : Int) :
    s.addCredits key p m =
      (s.setCtx key (c.noteCredits p.edge (-m))).modShadow p.graph p.edge key fun y => { y with credits := ((y.credits : Int) + m).toNat } := by
  simp only [State.addCredits, proxy, State.modCtx_eq _ _ _ _ there]
  rfl

theorem State.freeCredits_plain (plain : p.proxy = false) (paired : p.consumer = some o) (found : s.queue? p.graph p.edge o = some q) :
    s.freeCredits key p = q.credits := by
  simp [State.freeCredits, plain, paired, found]

theorem State.spilling_plain (plain : p.proxy = false) (paired : p.consumer = some o) (found : s.queue? p.graph p.edge o = some q) :
    s.spilling p = !q.ring.isEmpty := by
  simp [State.spilling, plain, paired, found]

theorem State.ringFree_plain (plain : p.proxy = false) (paired : p.consumer = some o) (found : s.queue? p.graph p.edge o = some q) :
    s.ringFree p = q.ringFree := by
  simp [State.ringFree, plain, paired, found]

/-- A token that a push of `k` slots with `r` reserved puts on its way. -/
def Queue.sent (q : Queue) (key r k : Nat) (t : Token) : Queue :=
  { q with credits := q.credits - (k - r), transit := q.transit ++ [t], producer := some key }

/-- A push that its reservation and the credits cover puts its token on its way. -/
theorem State.push_sends (there : s.ctx? key = some c) (plain : p.proxy = false) (paired : p.consumer = some o) (found : s.queue? p.graph p.edge o = some q)
    (idle : q.ring = []) {k : Nat} (slots : k = deliveredSlots p.fmt p.inFmt t) (enough : k ≤ c.reserved n + q.credits) :
    ∃ d, (c.setReserved n (c.reserved n - k)).sameButNotes d ∧ s.push key n c p o owner t =
      .done (((s.setCtx key d).modQueue p.graph p.edge o (Queue.sent · key (c.reserved n) k { t with slots := k })).progress p.graph) := by
  have quiet : s.spilling p = false := by simp [State.spilling_plain plain paired found, idle]
  have free : s.freeCredits key p = q.credits := State.freeCredits_plain plain paired found
  have progress {u v : State} (h : u = v) : Pushed.done (u.progress p.graph) = .done (v.progress p.graph) := by rw [h]
  by_cases covered : k ≤ c.reserved n
  · refine ⟨c.setReserved n (c.reserved n - k), rfl, ?_⟩
    have none (y : Queue) : y.credits - (k - c.reserved n) = y.credits := by omega
    simp only [State.push, plain, ← slots, quiet, covered, if_true, if_false, Bool.false_eq_true, State.modCtx_eq _ _ _ _ there, State.sendToken, Queue.sent,
      none]
    refine progress (State.modQueue_modQueue ?_)
    exact fun _ => ⟨rfl, rfl, rfl⟩
  · have lacking : k - c.reserved n ≤ q.credits := by omega
    have nothing : c.reserved n - k = 0 := by omega
    have taken (y : Queue) : ((y.credits : Int) + -((k - c.reserved n : Nat) : Int)).toNat = y.credits - (k - c.reserved n) := by omega
    refine ⟨(c.setReserved n 0).noteCredits p.edge (- -((k - c.reserved n : Nat) : Int)), by rw [nothing]; rfl, ?_⟩
    simp only [State.push, plain, ← slots, quiet, covered, free, lacking, if_true, if_false, Bool.false_eq_true, State.modCtx_eq _ _ _ _ there, State.sendToken, Queue.sent,
        State.addCredits_plain (State.ctx?_setCtx _ _ _) plain paired, State.setCtx_setCtx, taken]
    refine progress ((congrArg (State.modQueue · _ _ _ _) (State.modQueue_modQueue ?_)).trans (State.modQueue_modQueue ?_)) <;> exact fun _ => ⟨rfl, rfl, rfl⟩

/-- A queue whose ring has taken a token, while freed slots go to its draining. -/
def Queue.spilled (q : Queue) (key freed : Nat) (t : Token) : Queue :=
  { q with ring := q.ring ++ [t], credits := q.credits + freed, producer := some key }

/-- A push that its reservation covers joins a ring in use; the reserved slots become credits. -/
theorem State.push_joins (there : s.ctx? key = some c) (plain : p.proxy = false) (paired : p.consumer = some o) (found : s.queue? p.graph p.edge o = some q)
    (busy : q.ring ≠ []) {k : Nat} (slots : k = deliveredSlots p.fmt p.inFmt t) (covered : k ≤ c.reserved n) :
    ∃ d, (c.setReserved n (c.reserved n - k)).sameButNotes d ∧ s.push key n c p o owner t =
      .done (((s.setCtx key d).modQueue p.graph p.edge o (Queue.spilled · key k { t with slots := k })).progress p.graph) := by
  have spills : s.spilling p = true := by simp [State.spilling_plain plain paired found, busy]
  have freed (y : Queue) : ((y.credits : Int) + (k : Int)).toNat = y.credits + k := by omega
  refine ⟨(c.setReserved n (c.reserved n - k)).noteCredits p.edge (-(k : Int)), rfl, ?_⟩
  simp only [State.push, plain, ← slots, spills, covered, if_true, if_false, Bool.false_eq_true, State.modCtx_eq _ _ _ _ there, Queue.spilled,
    State.addCredits_plain (State.ctx?_setCtx _ _ _) plain paired, State.setCtx_setCtx, freed]
  refine congrArg (fun u : State => Pushed.done (u.progress p.graph)) (State.modQueue_modQueue ?_)
  exact fun _ => ⟨rfl, rfl, rfl⟩

/-- A push that nothing covers goes to the ring where it has room. -/
theorem State.push_spills (plain : p.proxy = false) (paired : p.consumer = some o) (found : s.queue? p.graph p.edge o = some q) {k : Nat}
    (slots : k = deliveredSlots p.fmt p.inFmt t) (lacks : (q.ring ≠ [] ∧ c.reserved n < k) ∨ (q.ring = [] ∧ c.reserved n + q.credits < k))
    (room : k ≤ q.ringFree) :
    s.push key n c p o owner t = .done ((s.modQueue p.graph p.edge o (Queue.spilled · key 0 { t with slots := k })).progress p.graph) := by
  have uncovered : ¬ k ≤ c.reserved n := by omega
  simp only [State.push, plain, ← slots, uncovered, if_false, Bool.false_eq_true, State.spilling_plain plain paired found,
    State.freeCredits_plain plain paired found, State.ringFree_plain plain paired found, room]
  rcases lacks with ⟨busy, -⟩ | ⟨idle, short⟩
  · simp [busy, Queue.spilled]
  · have short' : ¬ k - c.reserved n ≤ q.credits := by omega
    simp [idle, short', Queue.spilled]

/-- A shadow that has taken an entry of `k` slots, of which `r` were reserved. -/
def Shadow.sent (q : Shadow) (r k : Nat) (e : ShadowEntry) : Shadow := { q with credits := q.credits - (k - r), entries := q.entries ++ [e] }

/-- A push to a proxy queue that its reservation and the shadow's credits cover puts its token in the shadow. -/
theorem State.push_shadows {sh : Shadow} (there : s.ctx? key = some c) (proxy : p.proxy = true) (found : s.shadow? p.graph p.edge key = some sh) {k : Nat}
    (slots : k = slotsOf t.words.length) (enough : k ≤ c.reserved n + sh.credits) :
    ∃ d, (c.setReserved n (c.reserved n - k)).sameButNotes d ∧ s.push key n c p o owner t =
      .done ((((s.setCtx key d).modShadow p.graph p.edge key
        (Shadow.sent · (c.reserved n) k { consumer := o, owner := owner, token := { t with slots := k } })).modQueue p.graph p.edge o
          fun y => { y with producer := some key }).progress p.graph) := by
  have quiet : s.spilling p = false := by simp [State.spilling, proxy]
  have free : s.freeCredits key p = sh.credits := by simp [State.freeCredits, proxy, found]
  have pushed {u v : State} (h : u = v) : Pushed.done ((u.modQueue p.graph p.edge o fun y => { y with producer := some key }).progress p.graph) =
      .done ((v.modQueue p.graph p.edge o fun y => { y with producer := some key }).progress p.graph) := by rw [h]
  by_cases covered : k ≤ c.reserved n
  · refine ⟨c.setReserved n (c.reserved n - k), rfl, ?_⟩
    have none (y : Shadow) : y.credits - (k - c.reserved n) = y.credits := by omega
    simp only [State.push, proxy, ← slots, quiet, covered, if_true, if_false, Bool.false_eq_true, State.modCtx_eq _ _ _ _ there, Shadow.sent, none]
  · have lacking : k - c.reserved n ≤ sh.credits := by omega
    have nothing : c.reserved n - k = 0 := by omega
    have taken (y : Shadow) : ((y.credits : Int) + -((k - c.reserved n : Nat) : Int)).toNat = y.credits - (k - c.reserved n) := by omega
    refine ⟨(c.setReserved n 0).noteCredits p.edge (- -((k - c.reserved n : Nat) : Int)), by rw [nothing]; rfl, ?_⟩
    simp only [State.push, proxy, ← slots, quiet, covered, free, lacking, if_true, if_false, Bool.false_eq_true, State.modCtx_eq _ _ _ _ there, Shadow.sent,
      State.addCredits_proxy (State.ctx?_setCtx _ _ _) proxy, State.setCtx_setCtx, taken]
    refine pushed (State.modShadow_modShadow ?_)
    exact fun _ => ⟨rfl, rfl, rfl⟩

/-- A push has put its token in the ring, so that W_SPILL is set. -/
theorem State.spillWarn_ring {g e : Nat} {f : Queue → Queue} {u : State} (found : s.queue? g e o = some q) (longer : q.ring.length < (f q).ring.length)
    (queues : u.queues = (s.modQueue g e o f).queues) : s.spillWarn u = wSpill := by
  obtain ⟨own, before, after, split, -⟩ := List.find?_eq_some_iff_append.mp found
  have own : q.graph = g ∧ q.edge = e ∧ q.consumer = o := by simpa [and_assoc] using own
  have grown : (s.queues.zip u.queues).any (fun q => decide (q.1.ring.length < q.2.ring.length)) = true := by
    rw [queues, State.modQueue, List.zip_map_right, List.any_map, List.any_eq_true]
    exact ⟨(q, q), by rw [split]; simp [List.zip_append], by simp [own, longer]⟩
  rw [State.spillWarn, grown, if_pos rfl]

end

end Sys2Proof.Machine
end

section

namespace Sys2Proof.Machine

/-! ## Pushes as an instruction makes them (R149, R151, R156) -/

/-- A push of a header goes to a consumer, with the header that it gets: to the paired one, or by owner to that of its partition id. -/
def State.routes (s : State) (p : OutPort) (owner : Bool) (h0 : Word) (o : Nat) (h : Word) : Prop :=
  (owner = false ∧ p.consumer = some o ∧ h = h0) ∨
  (owner = true ∧ p.proxy = true ∧ s.ownerOf p.graph p.actor (bits h0.toNat 19 0) = some o ∧ h = setTag h0 (slotOf o))

/-- The token of a push, before its slots are counted as its queue does. -/
def pushedToken (p : OutPort) (h : Word) (ws : List LinkWord) : Token :=
  { header := setFmt (setL h ws.length) p.fmt, words := ws, slots := slotsOf ws.length }

/-- A register with an output port is bound to one. -/
theorem State.rq_of_outPort {s : State} {key n : Nat} {c : Ctx} {p : OutPort} (port : s.outPort key c n = some p) : ∃ m tm, c.rq n = .output m tm := by
  unfold State.outPort at port
  split at port
  next m tm bound => exact ⟨m, tm, bound⟩
  next => cases port

/-- A push that does not wait leaves its effect, and the warning of a spill. -/
theorem run_pushThrough_port {t u : State} {key n o : Nat} {c d : Ctx} {p : OutPort} {owner : Bool} {h0 h : Word} {ws : List LinkWord} (cur : t.cur = some key)
    (there : t.ctx? key = some c) (port : t.outPort key c n = some p) (fits : slotsOf ws.length ≤ p.depth) (route : t.routes p owner h0 o h)
    (done : t.push key n c p o owner (pushedToken p h ws) = .done u) (cur' : u.cur = some key) (left : u.ctx? key = some d) :
    (pushThrough n owner h0 ws).run t = .ok ((), u.setCtx key (d.warns (t.spillWarn u))) := by
  obtain ⟨m, tm, bound⟩ := State.rq_of_outPort port
  unfold pushThrough
  rw [M.run_bind_ok (run_curKey cur), M.run_bind_ok (run_curCtx cur there), M.run_bind_ok (M.run_get _), bound]
  dsimp only
  rw [port]
  dsimp only
  rw [if_neg (Nat.not_lt.mpr fits)]
  have finish : (match t.push key n c p o owner (pushedToken p h ws) with
      | .done s1 => (do set s1; warn (t.spillWarn s1) : M Unit)
      | .wait => stall (.space n (t.spaceSeen key c n))).run t = .ok ((), u.setCtx key (d.warns (t.spillWarn u))) := by
    rw [done]
    exact (M.run_bind_ok (M.run_set _ _)).trans (run_warn _ cur' left)
  rcases route with ⟨rfl, paired, rfl⟩ | ⟨rfl, proxy, owned, rfl⟩
  · rw [if_neg Bool.false_ne_true, paired]
    exact finish
  · rw [if_pos rfl, proxy, if_neg (by simp), owned]
    exact finish

/-- What the order of an instruction that only writes does to the ways of its tile, where it is a release. -/
def State.ordered (s : State) (key : Nat) (x : SForm) (release : Bool) : State := if release then s.releaseWays key x.sc.toNat else s

section
variable {s t : State} {key : Nat} {c : Ctx} {e : Option ReplayEntry}

/-- A release with no access in flight writes the dirty sectors of the tile back. -/
theorem run_releaseNow (scope : Nat) (stands : s.stands key c e t) (cur : s.cur = some key) (quiet : s.noAccess key) :
    ∃ t', (releaseNow scope).run t = .ok ((), t') ∧ (s.releaseWays key scope).stands key c e t' := by
  obtain ⟨there, cs, rfl⟩ := stands
  have same : (s.wearing cs e).inFlightOf key = s.inFlightOf key := rfl
  have none : s.inFlightOf key = [] := quiet
  have clear : (s.wearing cs e).accessing key = false := by simp [State.accessing, same, none]
  refine ⟨(s.releaseWays key scope).wearing cs e, ?_, there, cs, rfl⟩
  unfold releaseNow
  rw [M.run_bind_ok (run_curKey (s := s.wearing cs e) cur), M.run_bind_ok (M.run_get _), clear, if_neg Bool.false_ne_true]
  refine (M.run_modify _ _).trans ?_
  rw [State.releaseWays_wearing]

/-- The order of an instruction that only writes changes its context's warnings and the ways of its tile alone. -/
theorem run_writeOrder (x : SForm) (stands : s.stands key c e t) (cur : s.cur = some key) (quiet : x.ord ≠ 0 → s.noAccess key) :
    ∃ t' d b, (writeOrder x).run t = .ok (b, t') ∧ (s.ordered key x (x.ord != 0)).stands key d e t' ∧ c.sameButNotes d := by
  have zero : x.ord.toNat = 0 ↔ x.ord = 0 := by bv_omega
  by_cases plain : x.ord = 0
  · refine ⟨t, c, false, ?_, by rwa [State.ordered, if_neg (by simp [plain])], c.sameButNotes_refl⟩
    unfold writeOrder
    rw [plain]
    rfl
  · have ordered : x.ord.toNat ≠ 0 := mt zero.mp plain
    rw [State.ordered, if_pos (bne_iff_ne.mpr plain)]
    unfold writeOrder
    by_cases combo : storeCombo x.ord.toNat = true
    · obtain ⟨t', release, released⟩ := run_releaseNow x.sc.toNat (stands.setCtx (c.warns wModcombo)) cur (quiet plain)
      refine ⟨t', _, decide (x.ord.toNat ≠ 0), ?_, released, c.sameButNotes_warns wModcombo⟩
      rw [if_pos combo, M.run_bind_ok (stands.warn cur _), if_pos ordered, M.run_bind_ok release]
      rfl
    · obtain ⟨t', release, released⟩ := run_releaseNow x.sc.toNat stands cur (quiet plain)
      refine ⟨t', c, decide (x.ord.toNat ≠ 0), ?_, released, c.sameButNotes_refl⟩
      rw [if_neg combo, if_pos ordered, M.run_bind_ok release]
      rfl

end

end Sys2Proof.Machine
end

section

namespace Sys2Proof.QueueProofs
open Sys2Proof Sys2Proof.Machine

/-! ## QPUSH and QEOS (R156) -/

/-- A release changes only what stands in the ways and behind them. -/
theorem ordered_eq (s : State) (key : Nat) (x : SForm) (release : Bool) :
    ∃ m tc sl b c n, s.ordered key x release = { s with mem := m, tileCache := tc, slices := sl, badSectors := b, clusters := c, drawn := n } := by
  unfold State.ordered State.releaseWays
  split
  · split
    · exact s.writeBack_eq _ _
    · exact ⟨_, _, _, _, _, _, rfl⟩
  · exact ⟨_, _, _, _, _, _, rfl⟩

section
variable (s : State) (key : Nat) (x : SForm) (b : Bool)

@[simp] theorem ordered_cur : (s.ordered key x b).cur = s.cur := by obtain ⟨_, _, _, _, _, _, h⟩ := ordered_eq s key x b; rw [h]
@[simp] theorem ordered_graphs : (s.ordered key x b).graphs = s.graphs := by obtain ⟨_, _, _, _, _, _, h⟩ := ordered_eq s key x b; rw [h]
@[simp] theorem ordered_queues : (s.ordered key x b).queues = s.queues := by obtain ⟨_, _, _, _, _, _, h⟩ := ordered_eq s key x b; rw [h]
@[simp] theorem ordered_shadows : (s.ordered key x b).shadows = s.shadows := by obtain ⟨_, _, _, _, _, _, h⟩ := ordered_eq s key x b; rw [h]
@[simp] theorem ordered_subqs : (s.ordered key x b).subqs = s.subqs := by obtain ⟨_, _, _, _, _, _, h⟩ := ordered_eq s key x b; rw [h]

end

section
variable {s t : State} {key n o : Nat} {c d : Ctx} {f : Firing} {x : SForm} {p : OutPort}

/-- A body reads a v register that it captured. -/
theorem run_opV_captured {i : Instr} {r : Src} {l : List Src} {kg : Nat} (mem : r ∈ l) (kind : r.kind = .v) (apart : l.Pairwise fun x y => x.slot ≠ y.slot) :
    (opV r.slot).run (s.reading i l kg c f) = .ok (c.rv r.n, s.reading i l kg c f) := by
  rw [run_opV rfl, captured, capture_op_mem _ apart mem, Ctx.readSrc, kind]

/-- Up to four words are those of vB. -/
theorem regWords_short (fmt : Nat) (short : hdrL (c.rg x.a.toNat) ≤ 4) : regWords fmt (c.rv x.b.toNat) (hdrL (c.rg x.a.toNat)) = Claims.pushWords fmt c x := by
  refine List.map_congr_left fun j hj => ?_
  have first : j < 4 := by have := List.mem_range.mp hj; omega
  simp only [if_pos first]

/-- More are also those of vB + 1. -/
theorem regWords_long (fmt : Nat) (long : 4 < hdrL (c.rg x.a.toNat)) :
    regWords fmt (c.rv x.b.toNat) 4 ++ regWords fmt (c.rv (x.b.toNat + 1)) (hdrL (c.rg x.a.toNat) - 4) = Claims.pushWords fmt c x := by
  obtain ⟨m, more⟩ : ∃ m, hdrL (c.rg x.a.toNat) = 4 + m := ⟨hdrL (c.rg x.a.toNat) - 4, by omega⟩
  rw [Claims.pushWords, more, List.range_add, List.map_append, List.map_map, regWords, regWords, Nat.add_sub_cancel_left]
  refine congr (congrArg _ (List.map_congr_left fun j hj => ?_)) (List.map_congr_left fun j _ => ?_)
  · simp only [if_pos (List.mem_range.mp hj)]
  · simp

/-- A QPUSH that is ready does as its order and its push do. -/
theorem qpush_leaves (h : Issuing s key c f) (on : c.guardOn x.kg) (ready : Claims.pushReady s key c x) (out : (c.rq x.p.toNat).isOut = true)
    (fits : ∀ p, s.outPort key c x.p.toNat = some p → slotsOf (hdrL (c.rg x.a.toNat)) ≤ p.depth)
    (run : (writeOrder x >>= fun _ => pushThrough x.p.toNat (sCnd x == 1) (c.rg x.a.toNat) (Claims.pushWords (s.outFormat key c x.p.toNat) c x)).run
      (s.reading (.qpush x) [sA x, sB .v x] x.kg.toNat c f) = .ok ((), t))
    (left : t.ctx? key = some d) (graph : d.graph = c.graph) : exec (.qpush x) s = .next (t.completed key (d.advance 8)) := by
  obtain ⟨ops, short, -, second⟩ := ready
  have reading := h.issues (some (captured (.qpush x) [sA x, sB .v x] x.kg.toNat c f))
  have apart : [sA x, sB .v x].Pairwise fun a b => a.slot ≠ b.slot := by simp [sA, sB]
  refine runInstr_ready (a := sAsk x [sA x, sB .v x] []) h (Nat.not_lt_zero _) (fun _ => on) ops ?_ left graph
  refine (M.run_bind_ok (run_opG_captured (r := sA x) (by simp) rfl apart)).trans ?_
  refine (M.run_bind_ok (run_curCtx reading.cur reading.ctx)).trans ?_
  have short' : ¬ 8 < hdrL (c.rg x.a.toNat) := Nat.not_lt.mpr short
  have named := run_curKey reading.cur
  have payload : (opV .b).run (s.reading (.qpush x) [sA x, sB .v x] x.kg.toNat c f) = .ok (c.rv x.b.toNat, _) :=
    run_opV_captured (r := sB .v x) (by simp) rfl apart
  have format : (s.reading (.qpush x) [sA x, sB .v x] x.kg.toNat c f).outFormat key c x.p.toNat = s.outFormat key c x.p.toNat := rfl
  have loose (p : OutPort) (port : (s.reading (.qpush x) [sA x, sB .v x] x.kg.toNat c f).outPort key c x.p.toNat = some p):
      ¬ p.depth < slotsOf (hdrL (c.rg x.a.toNat)) := Nat.not_lt.mpr (fits p port)
  unfold State.reading at *
  generalize s.issues _ = r at *
  have register : (sA x).n = x.a.toNat := rfl
  simp only [sP, out, register, Bool.not_true, short', Bool.false_eq_true, if_false, M.run_bind, M.run_get, named] at run ⊢
  split
  any_goals rw [if_neg (loose _ ‹_›)]
  all_goals
    by_cases long : 4 < hdrL (c.rg x.a.toNat)
    · obtain ⟨last, full, sound⟩ := second long
      simpa only [long, last, and_false, if_true, if_false, M.run_bind, M.run_get, M.run_pure, named, payload, format, full, sound, Bool.false_eq_true,
        regWords_long _ long] using run
    · simpa only [long, false_and, if_false, M.run_bind, M.run_get, M.run_pure, named, payload, format, regWords_short _ (Nat.not_lt.mp long)] using run

/-- What issues reads no port of another context: it is found in the graphs. -/
theorem outPort_congr (graphs : t.graphs = s.graphs) (q : d.q = c.q) (graph : d.graph = c.graph) (actor : d.actor = c.actor) :
    t.outPort key d n = s.outPort key c n := by
  simp only [State.outPort, State.graph?, Ctx.rq, graphs, q, graph, actor]

/-- A QPUSH to a port of the actor that does not wait leaves the effect of its push. -/
theorem qpush_port (h : Issuing s key c f) (on : c.guardOn x.kg) (ready : Claims.pushReady s key c x) (port : s.outPort key c x.p.toNat = some p)
    (fits : slotsOf (hdrL (c.rg x.a.toNat)) ≤ p.depth) {hd : Word} (route : s.routes p (sCnd x == 1) (c.rg x.a.toNat) o hd) {u : State} {c2 : Ctx}
    (ucur : u.cur = some key) (same : c.sameSelf c2)
    (pushes : ∀ t d e, (s.ordered key x (x.ord != 0)).stands key d e t → c.sameButNotes d → ∃ v d',
      t.push key x.p.toNat d p o (sCnd x == 1) (pushedToken p hd (Claims.pushWords p.fmt c x)) = .done v ∧ u.stands key d' e v ∧ c2.sameButNotes d') :
    ∃ t d e, exec (.qpush x) s = .next (t.completed key (d.advance 8)) ∧ u.stands key d e t ∧ c2.sameButNotes d ∧
      d.warn &&& s.spillWarn u = s.spillWarn u := by
  obtain ⟨ops, short, quiet, second⟩ := ready
  let e := some (captured (.qpush x) [sA x, sB .v x] x.kg.toNat c f)
  obtain ⟨t, d, b, order, stands, noted⟩ := run_writeOrder x (h.stands e) h.cur quiet
  obtain ⟨v, d', done, stands', noted'⟩ := pushes t d e stands noted
  have length : (Claims.pushWords p.fmt c x).length = hdrL (c.rg x.a.toNat) := by simp [Claims.pushWords]
  have format : s.outFormat key c x.p.toNat = p.fmt := by rw [State.outFormat, port]; rfl
  obtain ⟨m, tm, bound⟩ := State.rq_of_outPort port
  have out : (c.rq x.p.toNat).isOut = true := by rw [bound]; rfl
  obtain ⟨there, cs, rfl⟩ := stands
  obtain ⟨there', cs', rfl⟩ := stands'
  have port' : ((s.ordered key x (x.ord != 0)).wearing cs e).outPort key d x.p.toNat = some p :=
    (outPort_congr (ordered_graphs s key x (x.ord != 0)) (congrArg Ctx.q noted :) (congrArg Ctx.graph noted :) (congrArg Ctx.actor noted :)).trans port
  have route' : ((s.ordered key x (x.ord != 0)).wearing cs e).routes p (sCnd x == 1) (c.rg x.a.toNat) o hd := by
    simpa only [State.routes, State.ownerOf, State.graph?, State.wearing, ordered_graphs] using route
  have cur : ((s.ordered key x (x.ord != 0)).wearing cs e).cur = some key := (ordered_cur s key x (x.ord != 0)).trans h.cur
  have spill : ((s.ordered key x (x.ord != 0)).wearing cs e).spillWarn (u.wearing cs' e) = s.spillWarn u := by
    simp only [State.spillWarn, State.wearing, ordered_queues]
  have run := run_pushThrough_port cur there port' (length ▸ fits) route' done (show (u.wearing cs' e).cur = some key from ucur) there'
  rw [spill] at run
  refine ⟨_, d'.warns (s.spillWarn u), e, qpush_leaves h on ⟨ops, short, quiet, second⟩ out (fun p' port' => ?_) ?_ (State.ctx?_setCtx _ key _) ?_,
    State.stands.setCtx ⟨there', cs', rfl⟩ _, noted'.trans (Ctx.sameButNotes_warns _ _), ?_⟩
  · cases port.symm.trans port'
    exact fits
  · rw [format]
    exact (M.run_bind_ok order).trans run
  · exact (congrArg Ctx.graph noted' :).trans (congrArg Ctx.graph same :)
  · ext i hi
    simpa [Ctx.warns] using Or.inr

/-- What a push that went through has left. -/
theorem movedOn_of_stands {u : State} {c2 : Ctx} {e : Option ReplayEntry} (h : Issuing s key c f) (stands : u.stands key d e t) (self : c.sameSelf c2)
    (same : c2.sameButNotes d) :
    ∃ c', Claims.movedOn (t.completed key (d.advance 8)) key c f 8 c' ∧ c'.g = c2.g ∧ c'.v = c2.v ∧ c'.k = c2.k ∧ c'.resv = c2.resv ∧ c'.warn = d.warn ∧
      (t.completed key (d.advance 8)).queues = u.queues ∧ (t.completed key (d.advance 8)).shadows = u.shadows := by
  obtain ⟨c', moved, left⟩ := movedOn_completed_self (s := t) (key := key) 8 h.firing (self.trans same.sameSelf)
  obtain ⟨-, cs, rfl⟩ := stands
  exact ⟨c', moved, (congrArg Ctx.g left :).trans (congrArg Ctx.g same :), (congrArg Ctx.v left :).trans (congrArg Ctx.v same :),
    (congrArg Ctx.k left :).trans (congrArg Ctx.k same :), (congrArg Ctx.resv left :).trans (congrArg Ctx.resv same :), (congrArg Ctx.warn left :),
    State.queues_completed _ _ _, State.shadows_completed _ _ _⟩

/-- A token as QPUSH makes it, of k slots, from a header. -/
def qpushToken (p : OutPort) (c : Ctx) (x : SForm) (hd : Word) (k : Nat) : Token := { pushedToken p hd (Claims.pushWords p.fmt c x) with slots := k }

theorem paired_route (paired : x.cnd ≠ 1) (consumer : p.consumer = some o) : s.routes p (sCnd x == 1) (c.rg x.a.toNat) o (c.rg x.a.toNat) :=
  .inl ⟨by simp only [sCnd, beq_eq_false_iff_ne]; bv_omega, consumer, rfl⟩

section
variable {q : Queue} {k : Nat} (h : Issuing s key c f) (on : c.guardOn x.kg) (ready : Claims.pushReady s key c x)
  (port : s.outPort key c x.p.toNat = some p) (fits : slotsOf (hdrL (c.rg x.a.toNat)) ≤ p.depth)

section
variable (paired : x.cnd ≠ 1) (plain : p.proxy = false) (consumer : p.consumer = some o) (found : s.queue? p.graph p.edge o = some q)
  (slots : k = deliveredSlots p.fmt p.inFmt (pushedToken p (c.rg x.a.toNat) (Claims.pushWords p.fmt c x)))
include h on ready port fits paired plain consumer found slots

theorem qpush_sends (idle : q.ring = []) (enough : k ≤ c.reserved x.p.toNat + q.credits) :
    ∃ t c', exec (.qpush x) s = .next t ∧ Claims.movedOn t key c f 8 c' ∧ c'.g = c.g ∧ c'.v = c.v ∧ c'.k = c.k ∧
      c'.resv = (c.setReserved x.p.toNat (c.reserved x.p.toNat - k)).resv ∧
      t.queue? p.graph p.edge o = some (q.sent key (c.reserved x.p.toNat) k (qpushToken p c x (c.rg x.a.toNat) k)) := by
  have found' : (s.ordered key x (x.ord != 0)).queue? p.graph p.edge o = some q := by simpa [State.queue?] using found
  obtain ⟨t, d, e, run, stands, same, -⟩ := qpush_port (c2 := c.setReserved x.p.toNat (c.reserved x.p.toNat - k))
    (u := ((s.ordered key x (x.ord != 0)).modQueue p.graph p.edge o
      (Queue.sent · key (c.reserved x.p.toNat) k (qpushToken p c x (c.rg x.a.toNat) k))).progress p.graph)
    h on ready port fits (paired_route paired consumer) (by simp [State.modQueue, h.cur]) rfl (by
      rintro t d e ⟨there, cs, rfl⟩ noted
      have reserved : d.reserved x.p.toNat = c.reserved x.p.toNat := (congrArg (Ctx.reserved · x.p.toNat) noted :)
      obtain ⟨d', same, done⟩ := State.push_sends (n := x.p.toNat) (owner := sCnd x == 1) there plain consumer
        (show State.queue? _ _ _ _ = _ from found') idle slots (reserved ▸ enough)
      rw [reserved] at same done
      exact ⟨_, d', done, ⟨State.ctx?_setCtx _ _ _, _, rfl⟩, (noted.setReserved _ _).trans same⟩)
  obtain ⟨c', moved, g, v, k', resv, -, queues, -⟩ := movedOn_of_stands h stands (c.sameSelf_setReserved _ _) same
  refine ⟨_, c', run, moved, g, v, k', resv, ?_⟩
  rw [State.queue?, queues]
  exact State.queue?_modQueue_same found'

theorem qpush_joins (busy : q.ring ≠ []) (covered : k ≤ c.reserved x.p.toNat) :
    ∃ t c', exec (.qpush x) s = .next t ∧ Claims.movedOn t key c f 8 c' ∧ c'.warn &&& wSpill = wSpill ∧
      c'.resv = (c.setReserved x.p.toNat (c.reserved x.p.toNat - k)).resv ∧
      t.queue? p.graph p.edge o = some (q.spilled key k (qpushToken p c x (c.rg x.a.toNat) k)) := by
  have found' : (s.ordered key x (x.ord != 0)).queue? p.graph p.edge o = some q := by simpa [State.queue?] using found
  obtain ⟨t, d, e, run, stands, same, warned⟩ := qpush_port (c2 := c.setReserved x.p.toNat (c.reserved x.p.toNat - k))
    (u := ((s.ordered key x (x.ord != 0)).modQueue p.graph p.edge o (Queue.spilled · key k (qpushToken p c x (c.rg x.a.toNat) k))).progress p.graph)
    h on ready port fits (paired_route paired consumer) (by simp [State.modQueue, h.cur]) rfl (by
      rintro t d e ⟨there, cs, rfl⟩ noted
      have reserved : d.reserved x.p.toNat = c.reserved x.p.toNat := (congrArg (Ctx.reserved · x.p.toNat) noted :)
      obtain ⟨d', same, done⟩ := State.push_joins (n := x.p.toNat) (owner := sCnd x == 1) there plain consumer
        (show State.queue? _ _ _ _ = _ from found') busy slots (reserved ▸ covered)
      rw [reserved] at same
      exact ⟨_, d', done, ⟨State.ctx?_setCtx _ _ _, _, rfl⟩, (noted.setReserved _ _).trans same⟩)
  rw [State.spillWarn_ring found (f := (Queue.spilled · key k (qpushToken p c x (c.rg x.a.toNat) k))) (by simp [Queue.spilled])
    (by simp [State.modQueue])] at warned
  obtain ⟨c', moved, -, -, -, resv, warn, queues, -⟩ := movedOn_of_stands h stands (c.sameSelf_setReserved _ _) same
  refine ⟨_, c', run, moved, warn ▸ warned, resv, ?_⟩
  rw [State.queue?, queues]
  exact State.queue?_modQueue_same found'

theorem qpush_spills (lacks : (q.ring ≠ [] ∧ c.reserved x.p.toNat < k) ∨ (q.ring = [] ∧ c.reserved x.p.toNat + q.credits < k)) (room : k ≤ q.ringFree) :
    ∃ t c', exec (.qpush x) s = .next t ∧ Claims.movedOn t key c f 8 c' ∧ c'.warn &&& wSpill = wSpill ∧ c'.resv = c.resv ∧
      t.queue? p.graph p.edge o = some (q.spilled key 0 (qpushToken p c x (c.rg x.a.toNat) k)) := by
  have found' : (s.ordered key x (x.ord != 0)).queue? p.graph p.edge o = some q := by simpa [State.queue?] using found
  obtain ⟨t, d, e, run, stands, same, warned⟩ := qpush_port (c2 := c)
    (u := ((s.ordered key x (x.ord != 0)).modQueue p.graph p.edge o (Queue.spilled · key 0 (qpushToken p c x (c.rg x.a.toNat) k))).progress p.graph)
    h on ready port fits (paired_route paired consumer) (by simp [State.modQueue, h.cur]) rfl (by
      rintro t d e ⟨there, cs, rfl⟩ noted
      have reserved : d.reserved x.p.toNat = c.reserved x.p.toNat := (congrArg (Ctx.reserved · x.p.toNat) noted :)
      have done := State.push_spills (key := key) (n := x.p.toNat) (owner := sCnd x == 1) (c := d) (s := (s.ordered key x (x.ord != 0)).wearing cs e) plain consumer found' slots
        (by rwa [reserved]) room
      exact ⟨_, d, done, ⟨there, cs, rfl⟩, noted⟩)
  rw [State.spillWarn_ring found (f := (Queue.spilled · key 0 (qpushToken p c x (c.rg x.a.toNat) k))) (by simp [Queue.spilled])
    (by simp [State.modQueue])] at warned
  obtain ⟨c', moved, -, -, -, resv, warn, queues, -⟩ := movedOn_of_stands h stands c.sameSelf_refl same
  refine ⟨_, c', run, moved, warn ▸ warned, resv, ?_⟩
  rw [State.queue?, queues]
  exact State.queue?_modQueue_same found'

end

theorem qpush_shadows {sh : Shadow} {hd : Word} (h : Issuing s key c f) (on : c.guardOn x.kg) (ready : Claims.pushReady s key c x)
    (port : s.outPort key c x.p.toNat = some p) (fits : slotsOf (hdrL (c.rg x.a.toNat)) ≤ p.depth) (proxy : p.proxy = true)
    (route : s.routes p (sCnd x == 1) (c.rg x.a.toNat) o hd) (found : s.shadow? p.graph p.edge key = some sh)
    (slots : k = slotsOf (Claims.pushWords p.fmt c x).length) (enough : k ≤ c.reserved x.p.toNat + sh.credits) :
    ∃ t c', exec (.qpush x) s = .next t ∧ Claims.movedOn t key c f 8 c' ∧
      t.queues = (s.modQueue p.graph p.edge o fun q => { q with producer := some key }).queues ∧
      t.shadow? p.graph p.edge key =
        some (sh.sent (c.reserved x.p.toNat) k { consumer := o, owner := sCnd x == 1, token := qpushToken p c x hd k }) := by
  have found' : (s.ordered key x (x.ord != 0)).shadow? p.graph p.edge key = some sh := by simpa [State.shadow?] using found
  obtain ⟨t, d, e, run, stands, same, -⟩ := qpush_port (c2 := c.setReserved x.p.toNat (c.reserved x.p.toNat - k))
    (u := (((s.ordered key x (x.ord != 0)).modShadow p.graph p.edge key
      (Shadow.sent · (c.reserved x.p.toNat) k { consumer := o, owner := sCnd x == 1, token := qpushToken p c x hd k })).modQueue p.graph p.edge o
        fun q => { q with producer := some key }).progress p.graph)
    h on ready port fits route (by simp [State.modQueue, State.modShadow, h.cur]) rfl (by
      rintro t d e ⟨there, cs, rfl⟩ noted
      have reserved : d.reserved x.p.toNat = c.reserved x.p.toNat := (congrArg (Ctx.reserved · x.p.toNat) noted :)
      obtain ⟨d', same, done⟩ := State.push_shadows (n := x.p.toNat) (o := o) (owner := sCnd x == 1) there proxy
        (show State.shadow? _ _ _ _ = _ from found') (t := pushedToken p hd (Claims.pushWords p.fmt c x)) slots (reserved ▸ enough)
      rw [reserved] at same done
      exact ⟨_, d', done, ⟨State.ctx?_setCtx _ _ _, _, rfl⟩, (noted.setReserved _ _).trans same⟩)
  obtain ⟨c', moved, -, -, -, -, -, queues, shadows⟩ := movedOn_of_stands h stands (c.sameSelf_setReserved _ _) same
  refine ⟨_, c', run, moved, queues.trans ?_, ?_⟩
  · simp [State.modQueue, State.modShadow]
  · rw [State.shadow?, shadows]
    exact State.shadow?_modShadow_same found'

end

end

end Sys2Proof.QueueProofs
end

section

namespace Sys2Proof.QueueProofs
open Sys2Proof Sys2Proof.Machine

section
variable {s t : State} {key n o : Nat} {c d : Ctx} {f : Firing} {x : SForm} {p : OutPort} {q : Queue} {k : Nat}

/-- A progress event changes no port (R169). -/
@[simp] theorem outPort_progress (s : State) (g key : Nat) (c : Ctx) (n : Nat) : (s.progress g).outPort key c n = s.outPort key c n := by
  have found : (s.progress g).graph? c.graph = (s.graph? c.graph).map fun y => if y.handle = g then { y with timer := 0, fired := false } else y := by
    refine State.graph?_modGraph ?_ _
    exact fun _ => rfl
  unfold State.outPort
  split
  · rw [found]
    cases s.graph? c.graph with
    | none => rfl
    | some y =>
      by_cases own : y.handle = g
      · simp only [Option.map_some, if_pos own]
        rfl
      · simp only [Option.map_some, if_neg own]
  · rfl

/-- The queue of an output with the rest of a reservation back. -/
def Queue.returned (q : Queue) (m : Nat) : Queue := { q with credits := q.credits + m }

/-- Reserved slots that a port's queue gets back. -/
theorem unreserve_plain (there : s.ctx? key = some c) (port : s.outPort key c n = some p) (plain : p.proxy = false) (consumer : p.consumer = some o) (m : Nat) :
    ∃ d, (c.setReserved n (c.reserved n - m)).sameButNotes d ∧
      s.unreserve key n m = (s.setCtx key d).modQueue p.graph p.edge o (Queue.returned · m) := by
  have back (y : Queue) : ((y.credits : Int) + (m : Int)).toNat = y.credits + m := by omega
  refine ⟨(c.setReserved n (c.reserved n - m)).noteCredits p.edge (-(m : Int)), rfl, ?_⟩
  simp only [State.unreserve, there, port, State.modCtx_eq _ _ _ _ there, State.addCredits_plain (State.ctx?_setCtx _ _ _) plain consumer,
    State.setCtx_setCtx, back, Queue.returned]

/-- The release of a QEOS, where its order has one. -/
theorem run_release {e : Option ReplayEntry} (x : SForm) (stands : s.stands key c e t) (cur : s.cur = some key)
    (quiet : hasRel x.ord.toNat = true → s.noAccess key) :
    ∃ t', (∀ m : M Unit, (if hasRel x.ord.toNat = true then releaseNow x.sc.toNat >>= fun _ => m else m).run t = m.run t') ∧
      (s.ordered key x (hasRel x.ord.toNat)).stands key c e t' := by
  unfold State.ordered
  by_cases release : hasRel x.ord.toNat = true
  · obtain ⟨t', run, stands'⟩ := run_releaseNow x.sc.toNat stands cur (quiet release)
    exact ⟨t', fun m => by rw [if_pos release, M.run_bind_ok run], by rwa [if_pos release]⟩
  · exact ⟨t, fun m => by rw [if_neg release], by rwa [if_neg release]⟩

/-- The header of the token of a QEOS. -/
def eosHeader (c : Ctx) (x : SForm) : Word := setEos (setL (c.rg x.a.toNat) 0) true

theorem qeos_sends (h : Issuing s key c f) (on : c.guardOn x.kg) (ops : Operands s key c [sA x] []) (quiet : hasRel x.ord.toNat = true → s.noAccess key)
    (rises : Map.risesFrom 0 c.resv = true) (port : s.outPort key c x.p.toNat = some p) (fits : slotsOf 0 ≤ p.depth) (plain : p.proxy = false)
    (consumer : p.consumer = some o) (found : s.queue? p.graph p.edge o = some q) (idle : q.ring = [])
    (slots : k = deliveredSlots p.fmt p.inFmt (pushedToken p (eosHeader c x) [])) (enough : k ≤ c.reserved x.p.toNat + q.credits) :
    ∃ t c', exec (.qeos x) s = .next t ∧ Claims.movedOn t key c f 8 c' ∧ c'.g = c.g ∧ c'.v = c.v ∧ c'.reserved x.p.toNat = 0 ∧
      t.queue? p.graph p.edge o = some (Queue.returned (q.sent key (c.reserved x.p.toNat) k { pushedToken p (eosHeader c x) [] with slots := k })
        (c.reserved x.p.toNat - k)) := by
  let e := some (captured (.qeos x) [sA x] x.kg.toNat c f)
  obtain ⟨t1, release, there, cs, rfl⟩ := run_release x (h.stands e) h.cur quiet
  let w := (s.ordered key x (hasRel x.ord.toNat)).wearing cs e
  have found' : w.queue? p.graph p.edge o = some q := by simpa [w, State.wearing, State.queue?] using found
  have port' : w.outPort key c x.p.toNat = some p := (outPort_congr (ordered_graphs s key x _) rfl rfl rfl).trans port
  have cur : w.cur = some key := (ordered_cur s key x _).trans h.cur
  obtain ⟨d, same, done⟩ := State.push_sends (n := x.p.toNat) (owner := false) there plain consumer found' idle slots enough
  have push := run_pushThrough_port (ws := []) cur there port' fits (.inl ⟨rfl, consumer, rfl⟩) done cur (State.ctx?_setCtx _ _ _)
  let m := c.reserved x.p.toNat - k
  let sent := (w.modQueue p.graph p.edge o (Queue.sent · key (c.reserved x.p.toNat) k { pushedToken p (eosHeader c x) [] with slots := k })).progress p.graph
  let d1 := d.warns (w.spillWarn (sent.setCtx key d))
  have same1 : (c.setReserved x.p.toNat m).sameButNotes d1 := same.trans (Ctx.sameButNotes_warns _ _)
  have rest : d1.reserved x.p.toNat = m :=
    (congrArg (Ctx.reserved · x.p.toNat) same1 :).trans (Map.get_set_self 0 c.resv 0 x.p.toNat m rises)
  have port1 : ((sent.setCtx key d).setCtx key d1).outPort key d1 x.p.toNat = some p :=
    (outPort_congr (s := sent) rfl (congrArg Ctx.q same1 :) (congrArg Ctx.graph same1 :) (congrArg Ctx.actor same1 :)).trans
      ((outPort_progress _ p.graph key c x.p.toNat).trans port')
  obtain ⟨d2, same2, back⟩ := unreserve_plain (State.ctx?_setCtx (sent.setCtx key d) key d1) port1 plain consumer m
  have same' : ((c.setReserved x.p.toNat m).setReserved x.p.toNat 0).sameButNotes d2 := by
    have step := (same1.setReserved x.p.toNat (d1.reserved x.p.toNat - m)).trans same2
    rwa [rest, Nat.sub_self] at step
  have none : ((c.setReserved x.p.toNat m).setReserved x.p.toNat 0).reserved x.p.toNat = 0 :=
    Map.get_set_self 0 _ 0 x.p.toNat 0 (Map.risesFrom_set _ _ _ _ _ (Nat.zero_le _) rises)
  have out : ¬ (!(c.rq (sP x)).isOut) = true := by
    obtain ⟨m, tm, bound⟩ := State.rq_of_outPort port
    simp [sP, bound, PortBind.isOut]
  let v := ((sent.setCtx key d).setCtx key d2).modQueue p.graph p.edge o (Queue.returned · m)
  have gives : ((sent.setCtx key d).setCtx key d1).unreserve key x.p.toNat (d1.reserved x.p.toNat) = v := by
    rw [rest, back, State.setCtx_setCtx]
  have run : exec (.qeos x) s = .next (v.completed key (d2.advance 8)) := by
    refine runInstr_ready (a := sAsk x [sA x] []) h (Nat.not_lt_zero _) (fun _ => on) ops ?_ (State.ctx?_setCtx _ _ _) (congrArg Ctx.graph same' :)
    refine (M.run_bind_ok (run_opG_captured (l := [sA x]) (r := sA x) (by simp) rfl (by simp))).trans ?_
    refine (M.run_bind_ok (run_curCtx (h.issues e).cur (h.issues e).ctx)).trans ((M.run_bind_ok (run_curKey (h.issues e).cur)).trans ?_)
    dsimp only
    rw [if_neg out]
    refine (release _).trans ((M.run_bind_ok push).trans ((M.run_modify _ _).trans ?_))
    rw [State.ctx?_setCtx]
    exact congrArg (fun u => Except.ok (PUnit.unit, u)) gives
  obtain ⟨c', moved, left⟩ := movedOn_completed_self (s := v) (key := key) 8 h.firing
    (((c.sameSelf_setReserved _ _).trans ((c.setReserved _ m).sameSelf_setReserved _ 0)).trans same'.sameSelf)
  refine ⟨_, c', run, moved, (congrArg Ctx.g left :).trans (congrArg Ctx.g same' :), (congrArg Ctx.v left :).trans (congrArg Ctx.v same' :), ?_, ?_⟩
  · exact (congrArg (Ctx.reserved · x.p.toNat) left :).trans ((congrArg (Ctx.reserved · x.p.toNat) same' :).trans none)
  · rw [State.queue?_completed]
    exact State.queue?_modQueue_same (State.queue?_modQueue_same found')

end

end Sys2Proof.QueueProofs
end

section

namespace Sys2Proof.QueueProofs
open Sys2Proof Sys2Proof.Machine

/-! ## Pushes to a home queue (R152) -/

section
variable {s t u : State} {key n : Nat} {c d : Ctx} {f : Firing} {x : SForm} {q : Subq}

/-- The launch of a context depends on its graph and on the graphs alone. -/
theorem launchOf_congr (before : s.ctx? key = some c) (after : t.ctx? key = some d) (graph : d.graph = c.graph) (graphs : t.graphs = s.graphs) :
    t.launchOf key = s.launchOf key := by
  simp only [State.launchOf, State.owner?, before, after, graph, State.graph?, graphs]

theorem noteSpawn_wearing (q : Subq) {cs : Map Ctx} (e : Option ReplayEntry) (before : s.ctx? key = some c) (after : (s.wearing cs e).ctx? key = some d)
    (graph : d.graph = c.graph) : (s.wearing cs e).noteSpawn key q = (s.noteSpawn key q).wearing cs e := by
  have launch : (s.wearing cs e).launchOf key = s.launchOf key := launchOf_congr before after graph rfl
  simp only [State.noteSpawn, State.countEffect, launch]
  split <;> rfl

/-- The state with a record in the slot at TAIL, which has been advanced. -/
def recordWritten (s : State) (q : Subq) (pa : Nat) (bs : List Byte) : State :=
  ({ s.dramWrite pa bs with fresh := s.fresh + 1 } : State).modSubq q.addr fun x =>
    { x with tail := (x.tail + 1) % 2 ^ 32, pending := x.pending || x.slot.isNone, pendingAt := if x.pending then x.pendingAt else s.fresh }

theorem appendRecord_eq (s : State) (q : Subq) (bs : List Byte) :
    s.appendRecord q bs = (slotByte s q q.tail 0 .w).map fun pa => (recordWritten s q pa bs).commitSubq q.addr := by
  unfold State.appendRecord
  cases slotByte s q q.tail 0 .w <;> rfl

theorem appendRecord_wearing (s : State) (q : Subq) (bs : List Byte) (cs : Map Ctx) (e : Option ReplayEntry) :
    (s.wearing cs e).appendRecord q bs = (s.appendRecord q bs).map (·.wearing cs e) := by
  have place : slotByte (s.wearing cs e) q q.tail 0 .w = slotByte s q q.tail 0 .w := rfl
  have commits (t : State) : (t.wearing cs e).commitSubq q.addr = (t.commitSubq q.addr).wearing cs e := by
    have found : ((t.wearing cs e).modSubq q.addr fun q => { q with snapHead := q.head, snapResident := q.slot.isSome, snapPending := q.pending }).subq? q.addr =
      (t.modSubq q.addr fun q => { q with snapHead := q.head, snapResident := q.slot.isSome, snapPending := q.pending }).subq? q.addr := rfl
    simp only [State.commitSubq, found]
    split <;> rfl
  rw [appendRecord_eq, appendRecord_eq, place]
  cases slotByte s q q.tail 0 .w with
  | error t => rfl
  | ok pa => exact congrArg Except.ok (commits (recordWritten s q pa bs))

/-- A push to a home queue with room appends its record. -/
theorem run_pushThrough_home {h0 : Word} {ws : List LinkWord} {a : Nat} {tmpl : Word} (cur : t.cur = some key) (there : t.ctx? key = some d)
    (bound : d.rq n = .home a tmpl) (four : ws.length = 4) (alone : t.redundant key = false) (found : t.subq? a = some q) (room : q.queued < q.size)
    (appended : (t.noteSpawn key q).appendRecord q (ws.flatMap fun w => leBytes 32 w.data.toNat) = .ok u) :
    (pushThrough n false h0 ws).run t = .ok ((), u.progress d.graph) := by
  unfold pushThrough
  rw [M.run_bind_ok (run_curKey cur), M.run_bind_ok (run_curCtx cur there), M.run_bind_ok (M.run_get _), bound]
  dsimp only
  rw [if_neg Bool.false_ne_true, if_neg (not_not.mpr four), if_neg (by simp [alone]), found]
  dsimp only
  rw [if_neg (Nat.not_le.mpr room), appended]
  rfl

theorem qpush_appends {s1 : State} {a : Nat} {tmpl : Word} (h : Issuing s key c f) (on : c.guardOn x.kg) (ready : Claims.pushReady s key c x)
    (bound : c.rq x.p.toNat = .home a tmpl) (paired : x.cnd ≠ 1) (four : hdrL (c.rg x.a.toNat) = 4) (alone : s.redundant key = false)
    (found : s.subq? a = some q) (room : q.queued < q.size)
    (appended : ((s.ordered key x (x.ord != 0)).noteSpawn key q).appendRecord q ((Claims.pushWords 7 c x).flatMap fun w => leBytes 32 w.data.toNat) = .ok s1) :
    ∃ t c', exec (.qpush x) s = .next t ∧ Claims.movedOn t key c f 8 c' ∧ t.mem = s1.mem ∧ t.subqs = s1.subqs := by
  obtain ⟨ops, short, quiet, second⟩ := ready
  let e := some (captured (.qpush x) [sA x, sB .v x] x.kg.toNat c f)
  obtain ⟨t, d, b, order, ⟨there, cs, rfl⟩, noted⟩ := run_writeOrder x (h.stands e) h.cur quiet
  have graph : d.graph = c.graph := (congrArg Ctx.graph noted :)
  have before : (s.ordered key x (x.ord != 0)).ctx? key = some c := by
    obtain ⟨_, _, _, _, _, _, same⟩ := ordered_eq s key x (x.ord != 0)
    rw [same]
    exact h.ctx
  have noPort : s.outPort key c x.p.toNat = none := by simp only [State.outPort, bound]
  have launch : ((s.ordered key x (x.ord != 0)).wearing cs e).launchOf key = s.launchOf key := launchOf_congr h.ctx there graph (ordered_graphs s key x _)
  have push := run_pushThrough_home (n := x.p.toNat) (h0 := c.rg x.a.toNat) (ws := Claims.pushWords 7 c x) (tmpl := tmpl) (u := s1.wearing cs e)
    (show ((s.ordered key x (x.ord != 0)).wearing cs e).cur = some key from (ordered_cur s key x _).trans h.cur) there
    ((congrArg (Ctx.rq · x.p.toNat) noted :).trans bound) (by simpa [Claims.pushWords] using four)
    (by simpa only [State.redundant, launch] using alone) (by simpa [State.subq?, State.wearing] using found) room
    (by rw [noteSpawn_wearing q e before there graph, appendRecord_wearing, appended]; rfl)
  have format : s.outFormat key c x.p.toNat = 7 := by rw [State.outFormat, noPort]; rfl
  have flat : (sCnd x == 1) = false := by simp only [sCnd, beq_eq_false_iff_ne]; bv_omega
  have run := qpush_leaves (t := (s1.wearing cs e).progress d.graph) h on ⟨ops, short, quiet, second⟩ (by rw [bound]; rfl) (by simp [noPort])
    (by rw [format, flat]; exact (M.run_bind_ok order).trans push) there graph
  obtain ⟨c', moved, -⟩ := movedOn_completed_self (s := (s1.wearing cs e).progress d.graph) (key := key) 8 h.firing noted.sameSelf
  exact ⟨_, c', run, moved, State.mem_completed _ _ _, State.subqs_completed _ _ _⟩

end

/-! ## The statements -/

theorem pushesComplete : Claims.pushesComplete := by
  intro s key c f x p o q h on out port plain consumer found idle
  refine ⟨fun ready paired fits enough => ?_, fun ops quiet rises fits enough => ?_⟩
  · exact qpush_sends h on ready port fits paired plain consumer found rfl idle enough
  · exact qeos_sends h on ops quiet rises port fits plain consumer found idle rfl enough

/-- A push is owner-routed under CND 1. -/
theorem routed_iff (x : SForm) : (sCnd x == 1) = (x.cnd == 1) := by
  rw [Bool.eq_iff_iff, beq_iff_eq, beq_iff_eq, sCnd]
  bv_omega

theorem otherPushesComplete : Claims.otherPushesComplete := by
  intro s key c f x h on ready
  refine ⟨fun p o q out port fits plain paired consumer found => ⟨fun lacks room => ?_, fun busy covered => ?_⟩,
    fun p o sh hd out port fits proxy route found enough => ?_, fun a tmpl q s1 bound paired four alone found room appended => ?_⟩
  · exact qpush_spills h on ready port fits paired plain consumer found rfl lacks room
  · exact qpush_joins h on ready port fits paired plain consumer found rfl busy covered
  · have route' : s.routes p (sCnd x == 1) (c.rg x.a.toNat) o hd := by
      rw [routed_iff]
      simpa [State.routes, proxy] using route
    rw [← routed_iff]
    exact qpush_shadows h on ready port fits proxy route' found rfl enough
  · refine qpush_appends h on ready bound paired four alone found room ?_
    by_cases relaxed : x.ord = 0
    · simpa only [State.ordered, relaxed, bne_self_eq_false, Bool.false_eq_true, if_true, if_false] using appended
    · simpa only [State.ordered, bne_iff_ne.mpr relaxed, relaxed, if_true, if_false] using appended

end Sys2Proof.QueueProofs

open Sys2Proof.QueueProofs

/-- Settles O35: what an instruction that pushes leaves is the effect of its push on one queue, on one shadow or on a home queue, whatever its order has done
to the ways of its tile before. -/
theorem queuePushes : Obligations.QueuePushes := ⟨pushesComplete, otherPushesComplete⟩
end

section

namespace Sys2Proof.QueueProofs
open Sys2Proof Sys2Proof.Machine

/-! ## Instructions that go in flight from a state that stands as another (R37) -/

section
variable {s t u : State} {key n : Nat} {c d : Ctx} {f : Firing} {x : SForm} {e : Option ReplayEntry} {kind : OpKind} {dv : List Nat}

theorem foldl_markV_sameSelf (c d : Ctx) (same : c.sameSelf d) (l : List Nat) : c.sameSelf (l.foldl (fun c n => c.markV n true) d) := by
  induction l generalizing d with
  | nil => exact same
  | cons n rest ih => exact ih (d.markV n true) same

theorem foldl_markV_gEmpty (c : Ctx) (l : List Nat) : (l.foldl (fun c n => c.markV n true) c).gEmpty = c.gEmpty := by
  induction l generalizing c with
  | nil => rfl
  | cons n rest ih => exact ih (c.markV n true)

/-- What an instruction that has gone in flight leaves: its firing past it, its g destination empty, memory as it was, and its record. -/
def wentInFlight (s : State) (key : Nat) (c : Ctx) (f : Firing) (x : SForm) (dv : List Nat) (kind : OpKind) (t : State) (c' : Ctx) : Prop :=
  Claims.movedOn t key c f 8 c' ∧ c'.emptyG x.d.toNat = true ∧ t.mem = s.mem ∧
    ∃ op ∈ t.ops, op.ctx = key ∧ op.dstG = [x.d.toNat] ∧ op.dstV = dv ∧ op.kind = kind

/-- An instruction whose body ends in the issue of a result goes in flight with it. -/
theorem runInstr_sends {i : Instr} {a : Ask} {body : M Unit} (h : Issuing s key c f) (hp : a.priv.level ≤ c.priv.level)
    (hg : a.guard = .scalar → (c.rk a.kg).getLsbD 0 = true) (ho : Operands s key c a.srcs a.dsts) (short : instrLen i = 8)
    (stands : u.stands key d (some (captured i a.srcs a.kg c f)) t) (noted : c.sameButNotes d) (cur : u.cur = some key) (first : u.replayNow = false)
    (room : u.issueRoom key f) (mem : u.mem = s.mem)
    (run : body.run (s.issues (some (captured i a.srcs a.kg c f))) = (issueOp kind [x.d.toNat] dv 0 0 0 >>= fun _ => pure ()).run t) :
    ∃ t c', runInstr i a body s = .next t ∧ wentInFlight s key c f x dv kind t c' ∧ t.queues = u.queues := by
  obtain ⟨there, cs, rfl⟩ := stands
  let e := captured i a.srcs a.kg c f
  let w := u.wearing cs (some e)
  let op := w.opOf key f e kind [x.d.toNat] dv 0 0 0
  let marked := dv.foldl (fun c n => c.markV n true) (d.markG x.d.toNat true)
  have issuing : Issuing w key d f := ⟨cur, there, (congrArg Ctx.firing noted :).trans h.firing, first⟩
  have sent : (issueOp kind [x.d.toNat] dv 0 0 0).run w = .ok (w.fresh, (w.send op).setCtx key marked) := run_issueOp kind _ dv 0 0 0 issuing rfl room
  have self : c.sameSelf marked := foldl_markV_sameSelf c (d.markG x.d.toNat true) noted.sameSelf dv
  obtain ⟨c', moved, left⟩ := movedOn_completed_self (s := (w.send op).setCtx key marked) (key := key) 8 h.firing self
  have full : c'.gEmpty = setBit d.gEmpty x.d.toNat true := (congrArg Ctx.gEmpty left :).trans (foldl_markV_gEmpty _ dv)
  have held : op ∈ (((w.send op).setCtx key marked).completed key (marked.advance 8)).ops := by
    rw [State.ops_completed]
    exact List.mem_append_right _ (List.mem_singleton_self _)
  refine ⟨_, c', short ▸ runInstr_ready h (Nat.not_lt.mpr hp) hg ho (run.trans (M.run_bind_ok sent)) (State.ctx?_setCtx _ _ _)
    (congrArg Ctx.graph self :), ⟨moved, ?_, (State.mem_completed _ _ _).trans mem, op, held, rfl, rfl, rfl, rfl⟩, State.queues_completed _ _ _⟩
  rw [Ctx.emptyG, full, setBit_get _ _ _ x.d.isLt]

/-! ## QPOP and QPEEK (R157) -/

/-- A state with other bytes in the ways of its tiles. -/
def withWays (s : State) (ways : Map Sector) : State := { s with tileCache := ways }

/-- The order of an instruction that only reads changes its context's warnings and the ways of its tile alone. -/
theorem run_readOrder (x : SForm) (stands : s.stands key c e t) (cur : s.cur = some key) :
    ∃ t' d ways, (readOrder x).run t = .ok ((), t') ∧ (withWays s ways).stands key d e t' ∧ c.sameButNotes d := by
  have acquires {c : Ctx} {t : State} (stands : s.stands key c e t) :
      ∃ t' ways, (acquireNow x.sc.toNat).run t = .ok ((), t') ∧ (withWays s ways).stands key c e t' := by
    obtain ⟨there, cs, rfl⟩ := stands
    refine ⟨_, (s.acquireWays key x.sc.toNat).tileCache,
      (M.run_bind_ok (run_curKey (s := s.wearing cs e) cur)).trans (M.run_modify _ _), ?_, cs, ?_⟩
    · unfold State.acquireWays
      split <;> exact there
    · unfold State.acquireWays
      split <;> rfl
  have ways : (withWays s s.tileCache) = s := rfl
  unfold readOrder
  by_cases plain : x.ord.toNat = 0
  · exact ⟨t, c, s.tileCache, by rw [plain]; rfl, stands, c.sameButNotes_refl⟩
  · by_cases combo : loadCombo x.ord.toNat = true
    · obtain ⟨t', ways, run, left⟩ := acquires (stands.setCtx (c.warns wModcombo))
      exact ⟨t', _, ways, by dsimp only; rw [if_pos combo, M.run_bind_ok (stands.warn cur _), if_pos plain, run], left, c.sameButNotes_warns _⟩
    · obtain ⟨t', ways, run, left⟩ := acquires stands
      exact ⟨t', c, ways, by dsimp only; rw [if_neg combo, if_pos plain, run], left, c.sameButNotes_refl⟩

/-- The input of a register that is bound to one. -/
theorem run_inputOf (cur : t.cur = some key) (there : t.ctx? key = some c) (bound : (c.rq n).isIn = true) :
    (inputOf n).run t = .ok (t.inQueue key c n, t) := by
  unfold inputOf
  rw [M.run_bind_ok (run_curKey cur), M.run_bind_ok (run_curCtx cur there)]
  dsimp only
  rw [if_neg (by simp [bound])]
  rfl

/-- The input of a context is a queue of which it is the consumer. -/
theorem consumer_of_inQueue {q : Queue} (found : s.inQueue key c n = some q) : s.queue? q.graph q.edge key = some q ∧ q.consumer = key := by
  have own {g e : Nat} (found : s.queue? g e key = some q) : s.queue? q.graph q.edge key = some q ∧ q.consumer = key := by
    obtain ⟨rfl, rfl, consumer⟩ := State.key_of_queue? found
    exact ⟨found, consumer⟩
  unfold State.inQueue at found
  split at found
  · split at found
    · cases found
    · split at found
      · cases found
      · exact own found
  · exact own found
  · cases found

/-- Taking a head token changes the queue, and what its firing has popped. -/
theorem run_takeHead {q : Queue} (tok : Token) (stands : s.stands key c e t) (consumer : q.consumer = key) :
    ∃ t', (takeHead q tok).run t = .ok ((), t') ∧ (s.popQueue q tok).stands key (c.notePops q.edge [tok]) e t' := by
  obtain ⟨there, cs, rfl⟩ := stands
  refine ⟨_, M.run_modify _ _, ?_⟩
  rw [consumer, State.modCtx_eq _ _ _ _ there]
  exact ⟨State.ctx?_setCtx _ _ _, _, rfl⟩

/-- The v registers of a token, and their values. -/
def tokenRegs (x : SForm) (tok : Token) : List Nat := if decide (4 < tok.words.length) then [x.b.toNat, x.b.toNat + 1] else [x.b.toNat]
def tokenValue (tok : Token) : OpKind :=
  .value tok.header (if decide (4 < tok.words.length) then [wordsReg tok.words, wordsReg (tok.words.drop 4)] else [wordsReg tok.words])

/-- A token has room for its words past vB. -/
def tokenRoom (s : State) (key : Nat) (x : SForm) (tok : Token) : Prop :=
  4 < tok.words.length → x.b ≠ 63 ∧ s.produced key (vDst (x.b.toNat + 1)) = false

/-- The checks of a token before it is delivered. -/
theorem run_tokenChecks {tok : Token} (h : Issuing s key c f) (room : tokenRoom s key x tok) (m : M Unit) :
    (do if decide (4 < tok.words.length) = true ∧ x.b = 63 then raiseQ (sP x) 17
        if decide (4 < tok.words.length) = true then needDst (vDst (x.b.toNat + 1))
        m : M Unit).run (s.issues e) = m.run (s.issues e) := by
  dsimp only
  by_cases long : 4 < tok.words.length
  · obtain ⟨last, free⟩ := room long
    have free' : (s.issues e).produced key (vDst (x.b.toNat + 1)) = false := free
    have needs : (needDst (vDst (x.b.toNat + 1))).run (s.issues e) = .ok ((), s.issues e) := by
      unfold needDst
      rw [M.run_bind_ok (run_curKey (h.issues e).cur), M.run_bind_ok (M.run_get _), free', if_neg Bool.false_ne_true]
      rfl
    rw [if_neg (fun both => last both.2), if_pos (decide_eq_true long), M.run_bind_ok needs]
  · rw [if_neg (fun both => long (of_decide_eq_true both.1)), if_neg (by simpa using long)]

theorem run_deliverToken {tok : Token} {pop : M Unit} {t' : State} (h : Issuing s key c f) (room : tokenRoom s key x tok)
    (sound : (tok.words.any fun w => w.bad) = false) (popped : pop.run (s.issues e) = .ok ((), t')) (stands : u.stands key d e t') (cur : u.cur = some key) :
    ∃ v d' ways, (deliverToken x tok pop).run (s.issues e) = (issueOp (tokenValue tok) [x.d.toNat] (tokenRegs x tok) 0 0 0 >>= fun _ => pure ()).run v ∧
      (withWays u ways).stands key d' e v ∧ d.sameButNotes d' := by
  have tail : ∀ d1 t1, u.stands key d1 e t1 → d.sameButNotes d1 → ∃ v d' ways,
      (readOrder x >>= fun _ => issueOp (tokenValue tok) [x.d.toNat] (tokenRegs x tok) 0 0 0 >>= fun _ => pure ()).run t1 =
        (issueOp (tokenValue tok) [x.d.toNat] (tokenRegs x tok) 0 0 0 >>= fun _ => pure () : M Unit).run v ∧
      (withWays u ways).stands key d' e v ∧ d.sameButNotes d' := by
    intro d1 t1 stands same
    obtain ⟨v, d', ways, order, left, same'⟩ := run_readOrder x stands cur
    exact ⟨v, d', ways, M.run_bind_ok order, left, same.trans same'⟩
  have clean : ¬ (tok.words.any fun w => w.bad) = true := by simp [sound]
  unfold deliverToken
  by_cases adj : (tok.words.any fun w => w.adj) = true
  · obtain ⟨v, d', ways, run, left, same⟩ := tail _ _ (stands.setCtx (d.warns wSat)) (d.sameButNotes_warns _)
    refine ⟨v, d', ways, (run_tokenChecks h room _).trans ?_, left, same⟩
    rw [if_neg clean, M.run_bind_ok popped, if_pos adj, M.run_bind_ok (stands.warn cur _)]
    exact run
  · obtain ⟨v, d', ways, run, left, same⟩ := tail _ _ stands d.sameButNotes_refl
    refine ⟨v, d', ways, (run_tokenChecks h room _).trans ?_, left, same⟩
    rw [if_neg clean, M.run_bind_ok popped, if_neg adj]
    exact run

end

end Sys2Proof.QueueProofs
end

section

namespace Sys2Proof.QueueProofs
open Sys2Proof Sys2Proof.Machine

section
variable {s t u : State} {key n : Nat} {c d : Ctx} {f : Firing} {x : SForm} {e : Option ReplayEntry} {kind : OpKind} {dv : List Nat} {tok : Token} {q : Queue}

/-- A pop or a peek that finds nothing goes in flight with the word of ones. -/
theorem run_missToken (x : SForm) (stands : s.stands key c e t) (cur : s.cur = some key) :
    ∃ v d ways, (missToken x).run t = (issueOp (.value (BitVec.allOnes 64) []) [x.d.toNat] [] 0 0 0 >>= fun _ => pure ()).run v ∧
      (withWays s ways).stands key d e v ∧ c.sameButNotes d := by
  obtain ⟨v, d, ways, order, left, same⟩ := run_readOrder x stands cur
  exact ⟨v, d, ways, M.run_bind_ok order, left, same⟩

/-- A token with a word that fails its check code makes a long-latency fault, with a free word as its information. -/
theorem run_deliverToken_bad {pop : M Unit} (h : Issuing s key c f) (room : tokenRoom s key x tok) (bad : ¬ (tok.words.any fun w => w.bad) = false) :
    (deliverToken x tok pop).run (s.issues e) =
      (issueOp (.fault cMemUncorrectable s.drawWord.1 0) [x.d.toNat] [x.b.toNat] 0 0 0 >>= fun _ => pure ()).run (s.drawWord.2.issues e) := by
  unfold deliverToken
  refine (run_tokenChecks h room _).trans ?_
  rw [if_pos (by simpa using bad)]
  rfl

/-- An input that is not there, and one without tokens, are read alike. -/
theorem run_inputOf_empty {k : Option Queue → M Unit} {a : Except Exn (Unit × State)} (cur : t.cur = some key) (there : t.ctx? key = some c)
    (bound : (c.rq n).isIn = true) (empty : ∀ q, t.inQueue key c n = some q → q.fifo = []) (absent : (k none).run t = a)
    (present : ∀ q : Queue, q.fifo = [] → (k (some q)).run t = a) : (inputOf n >>= k).run t = a := by
  rw [M.run_bind_ok (run_inputOf cur there bound)]
  cases port : t.inQueue key c n with
  | none => exact absent
  | some q => exact present q (empty q port)

theorem run_waitTokens {α : Type} (cur : t.cur = some key) (there : t.ctx? key = some c) :
    (waitTokens n : M α).run t = .error (.wait (.tokens n (t.tokensSeen key c n))) := by
  unfold waitTokens
  rw [M.run_bind_ok (run_curKey cur), M.run_bind_ok (run_curCtx cur there)]
  rfl

/-- The token that QPEEK names. -/
theorem peekedToken (s : State) (key : Nat) (c : Ctx) (x : SForm) :
    (((s.issues e).inQueue key c x.p.toNat).bind fun q => if sCnd x = 0 then q.queuedToken (sImm x) else q.held[sImm x]?) =
      (s.inQueue key c x.p.toNat).bind fun q => if x.cnd = 0 then q.queuedToken x.imm.toNat else q.held[x.imm.toNat]? := by
  have fifo : sCnd x = 0 ↔ x.cnd = 0 := by
    rw [sCnd]
    bv_omega
  simp only [fifo]
  rfl

section
variable (h : Issuing s key c f) (on : c.guardOn x.kg) (ops : Operands s key c [] [gDst x.d.toNat, vDst x.b.toNat]) (bound : (c.rq x.p.toNat).isIn = true)
include h on ops bound

theorem qpop_takes {rest : List Token} (issue : s.issueRoom key f) (found : s.inQueue key c x.p.toNat = some q) (fifo : q.fifo = tok :: rest) (room : tokenRoom s key x (q.headToken tok))
    (sound : ((q.headToken tok).words.any fun w => w.bad) = false) :
    ∃ t c', exec (.qpop x) s = .next t ∧ wentInFlight s key c f x (tokenRegs x (q.headToken tok)) (tokenValue (q.headToken tok)) t c' ∧
      t.queues = (s.popQueue q tok).queues := by
  let e := some (captured (.qpop x) [] x.kg.toNat c f)
  obtain ⟨t1, popped, left⟩ := run_takeHead tok (h.stands e) (consumer_of_inQueue found).2
  obtain ⟨v, d, ways, run, stands, same⟩ := run_deliverToken (e := e) h room sound popped left h.cur
  have port : (s.issues e).inQueue key c x.p.toNat = some q := found
  refine runInstr_sends (a := sAsk x [] [gDst x.d.toNat, vDst x.b.toNat]) (u := withWays (s.popQueue q tok) ways) h (Nat.zero_le _) (fun _ => on) ops rfl stands
    ((c.sameButNotes_notePops _ _).trans same) h.cur h.first issue rfl ?_
  refine (M.run_bind_ok (run_inputOf (h.issues e).cur h.ctx bound)).trans ?_
  rw [port]
  dsimp only
  rw [fifo]
  exact run

theorem qpop_faults {rest : List Token} (issue : s.issueRoom key f) (found : s.inQueue key c x.p.toNat = some q) (fifo : q.fifo = tok :: rest) (room : tokenRoom s key x (q.headToken tok))
    (bad : ¬ ((q.headToken tok).words.any fun w => w.bad) = false) :
    ∃ t c', exec (.qpop x) s = .next t ∧ wentInFlight s key c f x [x.b.toNat] (.fault cMemUncorrectable s.drawWord.1 0) t c' ∧ t.queues = s.queues := by
  let e := some (captured (.qpop x) [] x.kg.toNat c f)
  have port : (s.issues e).inQueue key c x.p.toNat = some q := found
  have stands : s.drawWord.2.stands key c e (s.drawWord.2.issues e) := ⟨h.ctx, s.ctxs, rfl⟩
  refine runInstr_sends (a := sAsk x [] [gDst x.d.toNat, vDst x.b.toNat]) (u := s.drawWord.2) h (Nat.zero_le _) (fun _ => on) ops rfl stands c.sameButNotes_refl h.cur h.first
    issue rfl ?_
  refine (M.run_bind_ok (run_inputOf (h.issues e).cur h.ctx bound)).trans ?_
  rw [port]
  dsimp only
  rw [fifo]
  exact run_deliverToken_bad h room bad

/-- A pop that finds no token says so, or waits. -/
theorem qpop_misses (issue : s.issueRoom key f) (empty : ∀ q, s.inQueue key c x.p.toNat = some q → q.fifo = []) :
    (x.cnd = 1 → ∃ t c', exec (.qpop x) s = .next t ∧ wentInFlight s key c f x [] (.value (BitVec.allOnes 64) []) t c' ∧ t.queues = s.queues) ∧
    (x.cnd ≠ 1 → exec (.qpop x) s = .next (s.setStall key (.tokens x.p.toNat (s.tokensSeen key c x.p.toNat)))) := by
  let e := some (captured (.qpop x) [] x.kg.toNat c f)
  have asks : x.cnd = 1 ↔ sCnd x = 1 := by
    rw [sCnd]
    bv_omega
  refine ⟨fun ones => ?_, fun waits => ?_⟩
  · obtain ⟨v, d, ways, run, stands, same⟩ := run_missToken x (h.stands e) h.cur
    refine runInstr_sends (a := sAsk x [] [gDst x.d.toNat, vDst x.b.toNat]) (u := withWays s ways) h (Nat.zero_le _) (fun _ => on) ops rfl stands same h.cur
      h.first issue rfl ?_
    refine run_inputOf_empty (h.issues e).cur h.ctx bound empty ?_ fun q nil => ?_
    · exact (congrArg (StateT.run · _) (if_pos (asks.mp ones))).trans run
    · dsimp only
      rw [nil]
      exact (congrArg (StateT.run · _) (if_pos (asks.mp ones))).trans run
  · refine runInstr_waits (a := sAsk x [] [gDst x.d.toNat, vDst x.b.toNat]) h (Nat.not_lt_zero _) (fun _ => on) ops ?_
    refine run_inputOf_empty (h.issues e).cur h.ctx bound empty ?_ fun q nil => ?_
    · exact (congrArg (StateT.run · _) (if_neg (mt asks.mpr waits))).trans (run_waitTokens (h.issues e).cur h.ctx)
    · dsimp only
      rw [nil]
      exact (congrArg (StateT.run · _) (if_neg (mt asks.mpr waits))).trans (run_waitTokens (h.issues e).cur h.ctx)

theorem qpeek_gives (issue : s.issueRoom key f)
    (peeked : ((s.inQueue key c x.p.toNat).bind fun q => if x.cnd = 0 then q.queuedToken x.imm.toNat else q.held[x.imm.toNat]?) = some tok)
    (room : tokenRoom s key x tok) (sound : (tok.words.any fun w => w.bad) = false) :
    ∃ t c', exec (.qpeek x) s = .next t ∧ wentInFlight s key c f x (tokenRegs x tok) (tokenValue tok) t c' ∧ t.queues = s.queues := by
  let e := some (captured (.qpeek x) [] x.kg.toNat c f)
  obtain ⟨v, d, ways, run, stands, same⟩ := run_deliverToken (e := e) (pop := pure ()) h room sound rfl (h.stands e) h.cur
  refine runInstr_sends (a := sAsk x [] [gDst x.d.toNat, vDst x.b.toNat]) (u := withWays s ways) h (Nat.zero_le _) (fun _ => on) ops rfl stands same h.cur
    h.first issue rfl ?_
  refine (M.run_bind_ok (run_inputOf (h.issues e).cur h.ctx bound)).trans ?_
  dsimp only
  rw [peekedToken (e := e), peeked]
  exact run

theorem qpeek_misses (issue : s.issueRoom key f)
    (peeked : ((s.inQueue key c x.p.toNat).bind fun q => if x.cnd = 0 then q.queuedToken x.imm.toNat else q.held[x.imm.toNat]?) = none) :
    ∃ t c', exec (.qpeek x) s = .next t ∧ wentInFlight s key c f x [] (.value (BitVec.allOnes 64) []) t c' ∧ t.queues = s.queues := by
  let e := some (captured (.qpeek x) [] x.kg.toNat c f)
  obtain ⟨v, d, ways, run, stands, same⟩ := run_missToken x (h.stands e) h.cur
  refine runInstr_sends (a := sAsk x [] [gDst x.d.toNat, vDst x.b.toNat]) (u := withWays s ways) h (Nat.zero_le _) (fun _ => on) ops rfl stands same h.cur
    h.first issue rfl ?_
  refine (M.run_bind_ok (run_inputOf (h.issues e).cur h.ctx bound)).trans ?_
  dsimp only
  rw [peekedToken (e := e), peeked]
  exact run

end

end

end Sys2Proof.QueueProofs
end

section

namespace Sys2Proof.QueueProofs
open Sys2Proof Sys2Proof.Machine

theorem tokenRegs_eq (x : SForm) (tok : Token) : tokenRegs x tok = if 4 < tok.words.length then [x.b.toNat, x.b.toNat + 1] else [x.b.toNat] := by
  simp [tokenRegs]

theorem tokenValue_eq (tok : Token) :
    tokenValue tok = .value tok.header (if 4 < tok.words.length then [wordsReg tok.words, wordsReg (tok.words.drop 4)] else [wordsReg tok.words]) := by
  simp [tokenValue]

theorem popsComplete : Claims.popsComplete := by
  intro s key c f x h on issue ops bound
  refine ⟨fun q tok rest found fifo room => ⟨fun sound => ?_, fun bad => ?_⟩, fun empty => qpop_misses h on ops bound issue empty,
    fun tok peeked room sound => ?_, fun nothing => qpeek_misses h on ops bound issue nothing⟩
  · have run := qpop_takes h on ops bound issue found fifo room sound
    rwa [tokenRegs_eq, tokenValue_eq] at run
  · obtain ⟨t, c', run⟩ := qpop_faults h on ops bound issue found fifo room bad
    exact ⟨t, c', _, run⟩
  · have run := qpeek_gives h on ops bound issue peeked room sound
    rwa [tokenRegs_eq, tokenValue_eq] at run

/-! ## QFWD (R161) -/

/-- A push to the paired consumer that its reservation and the credits cover, from a state that stands as another. -/
theorem run_pushThrough_sends {s t : State} {key n o k : Nat} {c : Ctx} {e : Option ReplayEntry} {p : OutPort} {q : Queue} {h0 : Word} {ws : List LinkWord}
    (stands : s.stands key c e t) (cur : s.cur = some key) (port : s.outPort key c n = some p) (fits : slotsOf ws.length ≤ p.depth) (plain : p.proxy = false)
    (consumer : p.consumer = some o) (found : s.queue? p.graph p.edge o = some q) (idle : q.ring = [])
    (slots : k = deliveredSlots p.fmt p.inFmt (pushedToken p h0 ws)) (enough : k ≤ c.reserved n + q.credits) :
    ∃ t' d, (pushThrough n false h0 ws).run t = .ok ((), t') ∧
      ((s.modQueue p.graph p.edge o (Queue.sent · key (c.reserved n) k { pushedToken p h0 ws with slots := k })).progress p.graph).stands key d e t' ∧
      (c.setReserved n (c.reserved n - k)).sameButNotes d := by
  obtain ⟨there, cs, rfl⟩ := stands
  have cur' : (s.wearing cs e).cur = some key := cur
  obtain ⟨d, same, done⟩ := State.push_sends (s := s.wearing cs e) (n := n) (owner := false) there plain consumer found idle slots enough
  exact ⟨_, _, run_pushThrough_port cur' there port fits (.inl ⟨rfl, consumer, rfl⟩) done cur' (State.ctx?_setCtx _ _ _),
    ⟨State.ctx?_setCtx _ _ _, _, rfl⟩, same.trans (Ctx.sameButNotes_warns _ _)⟩


/-- A warning that is given where a condition holds. -/
theorem run_warnIf {s t : State} {key : Nat} {c : Ctx} {e : Option ReplayEntry} {b : Bool} (w : Word) (stands : s.stands key c e t) (cur : s.cur = some key) :
    ∃ t' d, (if b = true then warn w else pure () : M Unit).run t = .ok ((), t') ∧ s.stands key d e t' ∧ c.sameButNotes d := by
  by_cases given : b = true
  · exact ⟨_, _, by rw [if_pos given, stands.warn cur], stands.setCtx _, c.sameButNotes_warns _⟩
  · exact ⟨t, c, by rw [if_neg given]; rfl, stands, c.sameButNotes_refl⟩

section
variable {s t : State} {key o : Nat} {c : Ctx} {f : Firing} {x : SForm} {p : OutPort} {q qo : Queue} {tok : Token} {rest : List Token} {port : Nat} {tmpl : Word}
  (h : Issuing s key c f) (on : c.guardOn x.kg) (bound : (c.rq x.p.toNat).isIn = true) (out : c.rq (x.imm.toNat % 16) = .output port tmpl)
  (outPort : s.outPort key c (x.imm.toNat % 16) = some p)
include h bound out

include on in
theorem qfwd_waits (empty : ∀ q, s.inQueue key c x.p.toNat = some q → q.fifo = []) :
    exec (.qfwd x) s = .next (s.setStall key (.tokens x.p.toNat (s.tokensSeen key c x.p.toNat))) := by
  let e := some (captured (.qfwd x) [] x.kg.toNat c f)
  have isOut : ¬ (!(c.rq (sImm x % 16)).isOut) = true := by simp [sImm, out, PortBind.isOut]
  refine runInstr_waits (a := sAsk x [] []) h (Nat.not_lt_zero _) (fun _ => on) (operands_none s key c) ?_
  refine (M.run_bind_ok (run_curKey (h.issues e).cur)).trans ((M.run_bind_ok (run_curCtx (h.issues e).cur h.ctx)).trans ?_)
  refine run_inputOf_empty (h.issues e).cur h.ctx bound empty ?_ fun q nil => ?_
  · exact (congrArg (StateT.run · _) (if_neg isOut)).trans (run_waitTokens (h.issues e).cur h.ctx)
  · dsimp only
    rw [nil]
    exact (congrArg (StateT.run · _) (if_neg isOut)).trans (run_waitTokens (h.issues e).cur h.ctx)

include outPort

/-- What the body of QFWD does with the head token of its input. -/
theorem qfwd_reads (found : s.inQueue key c x.p.toNat = some q) (fifo : q.fifo = tok :: rest) :
    ∃ body, exec (.qfwd x) s = runInstr (.qfwd x) (sAsk x [] []) body s ∧
      body.run (s.reading (.qfwd x) [] x.kg.toNat c f) = (do
        if hdrFmt tok.header ≠ p.fmt then raiseQ x.p.toNat 11
        takeHead q tok
        pushThrough (x.imm.toNat % 16) (sCnd x == 1) (setTag tok.header (hdrTag tmpl)) (q.headToken tok).words
        if (q.headToken tok).words.any (·.adj) then warn wSat : M Unit).run (s.reading (.qfwd x) [] x.kg.toNat c f) := by
  have issuing := h.issues (some (captured (.qfwd x) [] x.kg.toNat c f))
  have isOut : ¬ (!(c.rq (sImm x % 16)).isOut) = true := by simp [sImm, out, PortBind.isOut]
  have input : (s.reading (.qfwd x) [] x.kg.toNat c f).inQueue key c x.p.toNat = some q := found
  have format : (s.reading (.qfwd x) [] x.kg.toNat c f).outFormat key c (sImm x % 16) = p.fmt := congrArg (fun y => (Option.map OutPort.fmt y).getD 7) outPort
  refine ⟨_, rfl, ?_⟩
  refine (M.run_bind_ok (run_curKey issuing.cur)).trans ((M.run_bind_ok (run_curCtx issuing.cur h.ctx)).trans ?_)
  refine (M.run_bind_ok (run_inputOf issuing.cur h.ctx bound)).trans ?_
  dsimp only
  rw [if_neg isOut, input]
  dsimp only
  rw [fifo]
  refine (M.run_bind_ok (M.run_get _)).trans ?_
  rw [format, show c.rq (sImm x % 16) = .output port tmpl from out]
  rfl

include on in
theorem qfwd_traps (found : s.inQueue key c x.p.toNat = some q) (fifo : q.fifo = tok :: rest) (other : hdrFmt tok.header ≠ p.fmt) :
    exec (.qfwd x) s = .next (s.trapped key f (.qfwd x) (queueTrap x.p.toNat 11)) := by
  obtain ⟨body, run, reads⟩ := qfwd_reads h bound out outPort found fifo
  rw [run]
  refine runInstr_traps (a := sAsk x [] []) h (Nat.not_lt_zero _) (fun _ => on) (operands_none s key c) (reads.trans ?_) rfl
  dsimp only
  rw [if_pos other]
  rfl

/-- The token that QFWD sends. -/
def forwarded (p : OutPort) (tmpl : Word) (tok : Token) (ws : List LinkWord) (k : Nat) : Token :=
  { pushedToken p (setTag tok.header (hdrTag tmpl)) ws with slots := k }

include on in
theorem qfwd_forwards {k : Nat} (paired : x.cnd ≠ 1) (found : s.inQueue key c x.p.toNat = some q) (fifo : q.fifo = tok :: rest) (plain : p.proxy = false)
    (consumer : p.consumer = some o) (goal : s.queue? p.graph p.edge o = some qo)
    (apart : (qo.graph, qo.edge, qo.consumer) ≠ (q.graph, q.edge, q.consumer)) (idle : qo.ring = []) (same : hdrFmt tok.header = p.fmt)
    (fits : slotsOf (q.headToken tok).words.length ≤ p.depth)
    (slots : k = deliveredSlots p.fmt p.inFmt (pushedToken p (setTag tok.header (hdrTag tmpl)) (q.headToken tok).words))
    (enough : k ≤ c.reserved (x.imm.toNat % 16) + qo.credits) :
    ∃ t c', exec (.qfwd x) s = .next t ∧ Claims.movedOn t key c f 8 c' ∧ c'.g = c.g ∧ c'.v = c.v ∧
      t.queue? q.graph q.edge q.consumer = (s.popQueue q tok).queue? q.graph q.edge q.consumer ∧
      t.queue? p.graph p.edge o =
        some (qo.sent key (c.reserved (x.imm.toNat % 16)) k (forwarded p tmpl tok (q.headToken tok).words k)) := by
  let e := some (captured (.qfwd x) [] x.kg.toNat c f)
  let n := x.imm.toNat % 16
  have flat : (sCnd x == 1) = false := by rw [routed_iff, beq_eq_false_iff_ne]; exact paired
  have away : (p.graph, p.edge, o) ≠ (q.graph, q.edge, q.consumer) := by
    obtain ⟨graph, edge, owner⟩ := State.key_of_queue? goal
    rwa [graph, edge, owner] at apart
  obtain ⟨t1, popped, stands⟩ := run_takeHead tok (h.stands e) (consumer_of_inQueue found).2
  have outPort' : (s.popQueue q tok).outPort key (c.notePops q.edge [tok]) n = some p := (outPort_progress _ q.graph key c n).trans outPort
  have goal' : (s.popQueue q tok).queue? p.graph p.edge o = some qo := (State.queue?_modQueue_ne away).trans goal
  obtain ⟨t2, d, push, stands, left⟩ := run_pushThrough_sends (n := n) stands h.cur outPort' fits plain consumer goal' idle slots enough
  obtain ⟨t', d', warned, stands', noted⟩ := run_warnIf (b := (q.headToken tok).words.any fun w => w.adj) wSat stands h.cur
  have self : (c.setReserved n (c.reserved n - k)).sameButNotes d' :=
    (((c.sameButNotes_notePops _ _).setReserved n _).trans left).trans noted
  obtain ⟨body, run, reads⟩ := qfwd_reads h bound out outPort found fifo
  obtain ⟨c', moved, g, v, -, -, -, queues, -⟩ := movedOn_of_stands h stands' (c.sameSelf_setReserved _ _) self
  have leaves : exec (.qfwd x) s = .next (t'.completed key (d'.advance 8)) := by
    rw [run]
    refine runInstr_ready (a := sAsk x [] []) h (Nat.not_lt_zero _) (fun _ => on) (operands_none s key c) (reads.trans ?_) stands'.1
      (congrArg Ctx.graph self :)
    dsimp only
    rw [if_neg (not_not.mpr same), M.run_bind_ok popped, flat, M.run_bind_ok push]
    exact warned
  refine ⟨_, c', leaves, moved, g, v, ?_, ?_⟩
  · rw [State.queue?, queues]
    exact State.queue?_modQueue_ne away.symm
  · rw [State.queue?, queues]
    exact State.queue?_modQueue_same goal'

end

theorem forwardCompletes : Claims.forwardCompletes := by
  intro s key c f x p port tmpl h on paired bound n out' outPort
  refine ⟨fun q qo tok rest o found fifo plain consumer goal apart idle same fits enough => ?_, fun empty => qfwd_waits h on bound out' empty,
    fun q tok rest found fifo other => qfwd_traps h on bound out' outPort found fifo other⟩
  exact qfwd_forwards h on bound out' outPort paired found fifo plain consumer goal apart idle same fits rfl enough

end Sys2Proof.QueueProofs

open Sys2Proof.QueueProofs

/-- Settles O37: a pop changes one queue and what its firing has popped, and then goes in flight; QFWD pops, and pushes to another queue. -/
theorem queuePops : Obligations.QueuePops := ⟨popsComplete, forwardCompletes⟩
end

section

namespace Sys2Proof.StreamProofs
open Sys2Proof Sys2Proof.Machine Sys2Proof.QueueProofs

/-! ## Taking elements from a stream (R153) -/

/-- The words of one token give no more elements than are needed, and all of them where a word is left. -/
theorem takeWords_length (fmt need taken : Nat) (ws : List LinkWord) :
    let r := takeWords fmt need taken ws
    r.1.length ≤ need ∧ (r.2.1 ≠ [] → r.2.2.2.2 = false → r.1.length = need) := by
  induction ws generalizing need taken with
  | nil => simp [takeWords]
  | cons w rest ih =>
    simp only [takeWords]
    split
    · next none => simp [none]
    · split
      · simp
      · split
        · next more =>
          simp only [List.length_take, ne_eq, reduceCtorEq, not_false_eq_true, forall_const] at *
          omega
        · next few =>
          obtain ⟨most, all⟩ := ih (need - ((w.elems fmt).drop taken).length) 0
          simp only [List.length_append]
          exact ⟨by omega, fun left sound => by rw [all left sound]; omega⟩

/-- What a stream gives is as many elements as are needed. -/
theorem takeStream_length {fmt need taken taken' : Nat} {ts rest popped : List Token} {codes : List Nat} {adj : Bool}
    (took : takeStream fmt need taken ts = .ok codes rest taken' popped adj) : codes.length = need := by
  induction ts generalizing need taken codes popped adj with
  | nil =>
    simp only [takeStream] at took
    split at took
    · next none => cases took; simp [none]
    · cases took
  | cons t ts ih =>
    simp only [takeStream] at took
    split at took
    · next none => cases took; simp [none]
    · split at took
      · cases took
      · split at took
        · cases took
        · next sound =>
          obtain ⟨most, all⟩ := takeWords_length fmt need (skipWords fmt taken t.words).2 (skipWords fmt taken t.words).1
          split at took
          · split at took
            · next codes' rest' more popped' adj' again =>
              cases took
              rw [List.length_append, ih again]
              omega
            · next other => exact (other _ _ _ _ _ took).elim
          · next left =>
            cases took
            exact all (by simpa using left) (by simpa using sound)

/-! ## Elements of a result (R35, R311) -/

theorem length_vCodes (ty : Nat) (v : VWord) : (vCodes ty v).length = 1024 / tyBits ty := by
  simp [vCodes, unpackCodes, elemCount, elemBits]

/-- A list of the elements that a function gives, as many as a register has. -/
def elements (ty : Nat) (l : List Nat) (a : Nat → Nat) : Prop := l.length = 1024 / tyBits ty ∧ ∀ i < 1024 / tyBits ty, l.getD i 0 = a i

/-- The elements of an operation are those of its lanes. -/
theorem mapElems_eq_lanes {ty : Nat} (mask : Mask) {as bs cs : List Nat} {a b d : Nat → Nat} (op : Nat → Nat → Nat → Enc) {e : Nat → Enc}
    (ha : elements ty as a) (hb : elements ty bs b) (hd : elements ty cs d) (elems : ∀ i, e i = op (a i) (b i) (d i)) :
    mapElems ty mask as bs cs op = Claims.lanes ty mask e := by
  obtain ⟨la, ha⟩ := ha
  obtain ⟨lb, hb⟩ := hb
  obtain ⟨ld, hd⟩ := hd
  refine List.ext_getElem (by simp [mapElems, Claims.lanes, la, lb, ld]) fun i h _ => ?_
  have bound : i < 1024 / tyBits ty := by simpa [mapElems, la, lb, ld] using h
  have wa := ha i bound
  have wb := hb i bound
  have wd := hd i bound
  rw [List.getD_eq_getElem _ _ (by omega)] at wa wb wd
  simp [mapElems, Claims.lanes, takesPart, elemBits, elems, wa, wb, wd]

/-! ## What the members read -/

section
variable {s t u : State} {key : Nat} {c d : Ctx} {f : Firing} {x : RForm} {e : Option ReplayEntry}

/-- The queue behind a stream register, and its taken elements. -/
def tookFrom (s : State) (q : Queue) (rest popped : List Token) (taken : Nat) : State :=
  (s.modQueue q.graph q.edge q.consumer fun y =>
    { y with fifo := rest, taken := taken, held := if y.manual then y.held ++ popped else y.held,
             returning := if y.manual then y.returning else y.returning + slotsSum popped }).progress q.graph

theorem run_readStream {n ty : Nat} {q : Queue} {codes : List Nat} {rest popped : List Token} {taken : Nat} {adj : Bool} (stands : s.stands key c e t)
    (cur : s.cur = some key) (bound : (c.rq n).isIn = true) (found : s.inQueue key c n = some q) (accepts : streamAccepts q.inFmt ty = true)
    (took : takeStream q.inFmt (1024 / tyBits ty) q.taken q.fifo = .ok codes rest taken popped adj) :
    ∃ t' d, (readStream n ty).run t = .ok (codes.map (streamElem q.inFmt ty), t') ∧ (tookFrom s q rest popped taken).stands key d e t' ∧ c.sameButNotes d := by
  obtain ⟨there, cs, rfl⟩ := stands
  have cur' : (s.wearing cs e).cur = some key := cur
  have port : (s.wearing cs e).inQueue key c n = some q := found
  let w := tookFrom ((s.wearing cs e).setCtx key (c.notePops q.edge popped)) q rest popped taken
  have noted : (s.wearing cs e).modCtx q.consumer (fun c => c.notePops q.edge popped) = (s.wearing cs e).setCtx key (c.notePops q.edge popped) := by
    rw [(consumer_of_inQueue found).2, State.modCtx_eq _ _ _ _ there]
  have stands : (tookFrom s q rest popped taken).stands key (c.notePops q.edge popped) e w := ⟨State.ctx?_setCtx _ _ _, _, rfl⟩
  unfold readStream
  rw [M.run_bind_ok (run_inputOf cur' there bound), port]
  dsimp only
  rw [if_neg (by simp [accepts]), took]
  dsimp only
  rw [M.run_bind_ok (M.run_modify _ _), noted]
  by_cases given : adj = true
  · exact ⟨_, _, by rw [if_pos given]; exact M.run_bind_ok (stands.warn cur _), stands.setCtx _, (c.sameButNotes_notePops _ _).trans (Ctx.sameButNotes_warns _ _)⟩
  · exact ⟨w, _, by rw [if_neg given]; rfl, stands, c.sameButNotes_notePops _ _⟩

section
variable {i : Instr} {l : List Src} {kg : Nat} {r : Src} (apart : l.Pairwise fun x y => x.slot ≠ y.slot) (issuing : t.issuing = some (captured i l kg c f))
include apart issuing

/-- A captured source as a body reads it, wherever it stands. -/
theorem run_opV_of (mem : r ∈ l) (kind : r.kind = .v) : (opV r.slot).run t = .ok (c.rv r.n, t) := by
  rw [run_opV issuing, captured, capture_op_mem _ apart mem, Ctx.readSrc, kind]

theorem run_opG_of (mem : r ∈ l) (kind : r.kind = .g) : (opG r.slot).run t = .ok (c.rg r.n, t) := by
  rw [run_opG issuing, captured, capture_op_mem _ apart mem, Ctx.readSrc, kind]
  exact congrArg (fun w => Except.ok (w, t)) (captured_word _)

/-- The elements of A, from its register. -/
theorem run_vecA_register (plain : fQa x = false) (mem : rA .v x ∈ l) :
    ∃ as, (vecA x x.ty.toNat).run t = .ok (as, t) ∧ elements x.ty.toNat as (Claims.elem x.ty.toNat (c.rv x.a.toNat)) := by
  refine ⟨vCodes x.ty.toNat (c.rv x.a.toNat), ?_, length_vCodes _ _, fun _ _ => rfl⟩
  unfold vecA
  rw [if_neg (by simp [plain])]
  exact M.run_bind_ok (run_opV_of (r := rA .v x) apart issuing mem rfl)

/-- The elements of B, from its register or from a g register. -/
theorem run_vecB (mem : (if fBg x then rB .g x else rB .v x) ∈ l) :
    ∃ bs, (vecB x x.ty.toNat).run t = .ok (bs, t) ∧ elements x.ty.toNat bs (Claims.elemB c x) := by
  unfold vecB Claims.elemB
  by_cases scalar : fBg x = true
  · simp only [scalar, if_true] at mem ⊢
    refine ⟨List.replicate (elemCount x.ty.toNat) ((c.rg x.b.toNat).toNat % 2 ^ codeBits x.ty.toNat),
      M.run_bind_ok (run_opG_of (r := rB .g x) apart issuing mem rfl), List.length_replicate, fun i bound => ?_⟩
    rw [List.getD_eq_getElem _ _ (by simpa [elemCount, elemBits] using bound), List.getElem_replicate]
  · simp only [scalar] at mem ⊢
    exact ⟨vCodes x.ty.toNat (c.rv x.b.toNat), M.run_bind_ok (run_opV_of (r := rB .v x) apart issuing mem rfl), length_vCodes _ _, fun _ _ => rfl⟩

theorem run_vecC (mem : rC .v x ∈ l) :
    ∃ cs, (vecC x.ty.toNat).run t = .ok (cs, t) ∧ elements x.ty.toNat cs (Claims.elem x.ty.toNat (c.rv x.c.toNat)) :=
  ⟨vCodes x.ty.toNat (c.rv x.c.toNat), M.run_bind_ok (run_opV_of (r := rC .v x) apart issuing mem rfl), length_vCodes _ _, fun _ _ => rfl⟩

end

end

end Sys2Proof.StreamProofs
end

section

namespace Sys2Proof.StreamProofs
open Sys2Proof Sys2Proof.Machine Sys2Proof.QueueProofs

/-! ## The members that work lane by lane, by what they read (R316 to R324) -/

section
variable (x : RForm)

/-- What the members with one, two and three sources read, and VMOV. -/
def readOne : M (List Nat × List Nat × List Nat) := do
  let as ← vecA x x.ty.toNat
  pure (as, as, as)
def readTwo : M (List Nat × List Nat × List Nat) := do
  let as ← vecA x x.ty.toNat
  let bs ← vecB x x.ty.toNat
  pure (as, bs, bs)
def readThree : M (List Nat × List Nat × List Nat) := do
  let as ← vecA x x.ty.toNat
  let bs ← vecB x x.ty.toNat
  let cs ← vecC x.ty.toNat
  pure (as, bs, cs)
def readMove : M (List Nat × List Nat × List Nat) := do
  let as ← if fBg x then vecB x x.ty.toNat else vecA x x.ty.toNat
  pure (as, as, as)

/-- A body that reads elements, writes what an operation makes of them and ends in a warning of its fields, or in nothing. -/
def laneBody (reads : M (List Nat × List Nat × List Nat)) (op : Nat → Nat → Nat → Enc) (last : M Unit) : M Unit := do
  let r ← reads
  let mask ← opMask
  writeVec x x.ty.toNat (mapElems x.ty.toNat mask r.1 r.2.1 r.2.2 op)
  last

/-- An instruction that makes the elements `e` of those that it reads, `a`, `b` and `d`. -/
def lanewise (srcs : List Src) (reads : M (List Nat × List Nat × List Nat)) (a b d : Nat → Nat) (i : Instr) (e : Nat → Enc) : Prop :=
  ∃ op last, (∀ s, exec i s = runInstr i (vAsk x srcs) (laneBody x reads op last) s) ∧ instrLen i = 8 ∧ (∀ j, e j = op (a j) (b j) (d j)) ∧
    (last = pure () ∨ last = vecCombo x)

variable {x} {i : Instr} {a b d : Nat → Nat} {e : Nat → Enc}

theorem lanewise_of_vecOne {op : Nat → Enc} (short : instrLen i = 8) (run : ∀ s, exec i s = vecOne i x op s) (elems : ∀ j, e j = op (a j)) :
    lanewise x (vSrcA x) (readOne x) a a a i e :=
  ⟨fun a _ _ => op a, pure (), fun s => (run s).trans (by simp [vecOne, laneBody, readOne]), short, elems, .inl rfl⟩

theorem lanewise_of_vecTwo {op : Nat → Nat → Enc} (short : instrLen i = 8) (run : ∀ s, exec i s = vecTwo i x op s) (elems : ∀ j, e j = op (a j) (b j)) :
    lanewise x (vSrcA x ++ vSrcB x) (readTwo x) a b b i e :=
  ⟨fun a b _ => op a b, pure (), fun s => (run s).trans (by simp [vecTwo, laneBody, readTwo]), short, elems, .inl rfl⟩

theorem lanewise_of_vecIntTwo {op : Nat → Nat → Enc} (short : instrLen i = 8) (run : ∀ s, exec i s = vecIntTwo i x op s) (elems : ∀ j, e j = op (a j) (b j)) :
    lanewise x (vSrcA x ++ vSrcB x) (readTwo x) a b b i e :=
  ⟨fun a b _ => op a b, vecCombo x, fun s => (run s).trans (by simp [vecIntTwo, laneBody, readTwo]), short, elems, .inr rfl⟩

theorem lanewise_of_vecThree {op : Nat → Nat → Nat → Enc} (short : instrLen i = 8) (run : ∀ s, exec i s = vecThree i x op s) (elems : ∀ j, e j = op (a j) (b j) (d j)) :
    lanewise x (vSrcA x ++ vSrcB x ++ vSrcC x) (readThree x) a b d i e :=
  ⟨op, pure (), fun s => (run s).trans (by simp [vecThree, laneBody, readThree]), short, elems, .inl rfl⟩

/-- A comparison that writes elements. -/
theorem lanewise_of_vecCompare {op : Nat → Nat → Bool × Word} (vector : fK x = false) (short : instrLen i = 8) (run : ∀ s, exec i s = vecCompare i x op s)
    (elems : ∀ j, e j = { code := if (op (a j) (b j)).1 then 2 ^ tyBits x.ty.toNat - 1 else 0, fp := (op (a j) (b j)).2 }) :
    lanewise x (vSrcA x ++ vSrcB x) (readTwo x) a b b i e :=
  ⟨fun a b _ => { code := if (op a b).1 then 2 ^ tyBits x.ty.toNat - 1 else 0, fp := (op a b).2 }, pure (),
    fun s => (run s).trans (by simp [vecCompare, laneBody, readTwo, vector, elemBits, vAsk]), short, elems, .inl rfl⟩

theorem lanewise_vmov {mv : Nat → Nat} : lanewise x (if fBg x then [rB .g x] else vSrcA x) (readMove x) mv mv mv (.vmov x) fun j => { code := mv j } :=
  ⟨fun a _ _ => { code := a }, pure (), fun s => by
    show execVmov x s = _
    by_cases scalar : fBg x = true <;> simp [execVmov, laneBody, readMove, scalar], rfl, fun _ => rfl, .inl rfl⟩

variable (x)

theorem vecOne_lanewise (a : Nat → Nat) : ∀ p ∈ Claims.vecOne x a, lanewise x (vSrcA x) (readOne x) a a a p.1 p.2.1 := by
  intro p member
  simp only [Claims.vecOne, List.mem_cons, List.not_mem_nil, or_false] at member
  rcases member with rfl | member
  · exact ⟨fun a _ _ => intElem x.ty.toNat x.sm.toNat ((elemInt x.ty.toNat a).natAbs : Int), vecCombo x, fun s => by
      show execVabs x s = _
      simp [execVabs, laneBody, readOne], rfl, fun _ => rfl, .inr rfl⟩
  · rcases member with rfl | rfl | rfl | rfl | rfl | rfl | rfl | rfl | rfl <;> exact lanewise_of_vecOne rfl (fun _ => rfl) fun _ => rfl

theorem vecThree_lanewise (a b d : Nat → Nat) :
    ∀ p ∈ Claims.vecThree x a b d, lanewise x (vSrcA x ++ vSrcB x ++ vSrcC x) (readThree x) a b d p.1 p.2.1 := by
  intro p member
  simp only [Claims.vecThree, List.mem_cons, List.not_mem_nil, or_false] at member
  rcases member with rfl | rfl | rfl
  · exact ⟨fun a b c => intElem x.ty.toNat x.sm.toNat (elemInt x.ty.toNat a * elemInt x.ty.toNat b + elemInt x.ty.toNat c), vecCombo x, fun s => by
      show execVmad x s = _
      simp [execVmad, laneBody, readThree], rfl, fun _ => rfl, .inr rfl⟩
  · exact lanewise_of_vecThree rfl (fun _ => rfl) fun _ => rfl
  · exact lanewise_of_vecThree rfl (fun _ => rfl) fun _ => rfl

theorem vecTwo_lanewise (a b : Nat → Nat) : ∀ p ∈ Claims.vecTwo x a b, lanewise x (vSrcA x ++ vSrcB x) (readTwo x) a b b p.1 p.2.1 := by
  intro p member
  rcases List.mem_append.mp member with member | member
  · simp only [List.mem_cons, List.not_mem_nil, or_false] at member
    rcases member with rfl | rfl | rfl | rfl | rfl | rfl | rfl | rfl | rfl | rfl | rfl | rfl | rfl | rfl | rfl | rfl | rfl | rfl
    · exact lanewise_of_vecIntTwo rfl (fun _ => rfl) fun _ => rfl
    · exact lanewise_of_vecIntTwo rfl (fun _ => rfl) fun _ => rfl
    · exact lanewise_of_vecIntTwo rfl (fun _ => rfl) fun _ => rfl
    · exact lanewise_of_vecTwo rfl (fun _ => rfl) fun _ => rfl
    · exact lanewise_of_vecTwo rfl (fun _ => rfl) fun _ => rfl
    · exact lanewise_of_vecTwo rfl (fun _ => rfl) fun _ => rfl
    · exact lanewise_of_vecTwo rfl (fun _ => rfl) fun _ => rfl
    · exact lanewise_of_vecIntTwo rfl (fun _ => rfl) fun _ => rfl
    all_goals exact lanewise_of_vecTwo rfl (fun _ => rfl) fun _ => rfl
  · split at member
    · cases member
    · next vector =>
      simp only [List.mem_cons, List.not_mem_nil, or_false] at member
      have vector : fK x = false := by simpa using vector
      rcases member with rfl | rfl
      · exact lanewise_of_vecCompare vector rfl (fun _ => rfl) fun _ => rfl
      · exact lanewise_of_vecCompare vector rfl (fun _ => rfl) fun _ => rfl

end

end Sys2Proof.StreamProofs
end

section

namespace Sys2Proof.StreamProofs
open Sys2Proof Sys2Proof.Machine Sys2Proof.QueueProofs

/-! ## What the members read, from registers and from a stream -/

section
variable {s u t : State} {key : Nat} {c c1 : Ctx} {f : Firing} {x : RForm} {e : Option ReplayEntry} {a b d : Nat → Nat}

/-- A read of a list of elements that leaves the state as `u`. -/
def gives (s u : State) (key : Nat) (c : Ctx) (e : Option ReplayEntry) (ty : Nat) (m : M (List Nat)) (a : Nat → Nat) : Prop :=
  ∃ as t d, m.run (s.issues e) = .ok (as, t) ∧ u.stands key d e t ∧ c.sameButNotes d ∧ elements ty as a

/-- Reads of the elements of three sources that leave the state as `u`. -/
def gathers (s u : State) (key : Nat) (c : Ctx) (e : Option ReplayEntry) (ty : Nat) (m : M (List Nat × List Nat × List Nat)) (a b d : Nat → Nat) : Prop :=
  ∃ r t c1, m.run (s.issues e) = .ok (r, t) ∧ u.stands key c1 e t ∧ c.sameButNotes c1 ∧ elements ty r.1 a ∧ elements ty r.2.1 b ∧ elements ty r.2.2 d

theorem issuing_of_stands (stands : u.stands key c e t) : t.issuing = e := by
  obtain ⟨-, cs, rfl⟩ := stands
  rfl

/-- A source stream gives the elements of its tokens. -/
theorem vecA_gives_stream {q : Queue} {codes : List Nat} {rest popped : List Token} {taken : Nat} {adj : Bool} (h : Issuing s key c f) (stream : fQa x = true)
    (bound : (c.rq (x.a.toNat % 16)).isIn = true) (found : s.inQueue key c (x.a.toNat % 16) = some q) (accepts : streamAccepts q.inFmt x.ty.toNat = true)
    (took : takeStream q.inFmt (1024 / tyBits x.ty.toNat) q.taken q.fifo = .ok codes rest taken popped adj) (e : Option ReplayEntry) :
    gives s (tookFrom s q rest popped taken) key c e x.ty.toNat (vecA x x.ty.toNat) fun i => (codes.map (streamElem q.inFmt x.ty.toNat)).getD i 0 := by
  obtain ⟨t, d, run, stands, same⟩ := run_readStream (h.stands e) h.cur bound found accepts took
  refine ⟨_, t, d, ?_, stands, same, by rw [List.length_map, takeStream_length took], fun _ _ => rfl⟩
  rw [vecA, if_pos stream]
  exact run

section
variable {i : Instr} {l : List Src} {kg : Nat} (h : Issuing s key c f) (apart : l.Pairwise fun x y => x.slot ≠ y.slot)
include h apart

theorem vecA_gives_register (plain : fQa x = false) (mem : rA .v x ∈ l) :
    gives s s key c (some (captured i l kg c f)) x.ty.toNat (vecA x x.ty.toNat) (Claims.elem x.ty.toNat (c.rv x.a.toNat)) := by
  obtain ⟨as, run, all⟩ := run_vecA_register (t := s.issues (some (captured i l kg c f))) apart rfl plain mem
  exact ⟨as, _, c, run, h.stands _, c.sameButNotes_refl, all⟩

theorem vecB_gives (mem : (if fBg x then rB .g x else rB .v x) ∈ l) :
    gives s s key c (some (captured i l kg c f)) x.ty.toNat (vecB x x.ty.toNat) (Claims.elemB c x) := by
  obtain ⟨bs, run, all⟩ := run_vecB (t := s.issues (some (captured i l kg c f))) apart rfl mem
  exact ⟨bs, _, c, run, h.stands _, c.sameButNotes_refl, all⟩

end

theorem readOne_gathers (first : gives s u key c e x.ty.toNat (vecA x x.ty.toNat) a) : gathers s u key c e x.ty.toNat (readOne x) a a a := by
  obtain ⟨as, t, c1, run, stands, same, all⟩ := first
  exact ⟨(as, as, as), t, c1, M.run_bind_ok run, stands, same, all, all, all⟩

theorem readTwo_gathers {i : Instr} {l : List Src} {kg : Nat} (apart : l.Pairwise fun x y => x.slot ≠ y.slot)
    (memB : (if fBg x then rB .g x else rB .v x) ∈ l) (first : gives s u key c (some (captured i l kg c f)) x.ty.toNat (vecA x x.ty.toNat) a) :
    gathers s u key c (some (captured i l kg c f)) x.ty.toNat (readTwo x) a (Claims.elemB c x) (Claims.elemB c x) := by
  obtain ⟨as, t, c1, run, stands, same, all⟩ := first
  obtain ⟨bs, runB, allB⟩ := run_vecB apart (issuing_of_stands stands) memB
  exact ⟨(as, bs, bs), t, c1, (M.run_bind_ok run).trans (M.run_bind_ok runB), stands, same, all, allB, allB⟩

theorem readThree_gathers {i : Instr} {l : List Src} {kg : Nat} (apart : l.Pairwise fun x y => x.slot ≠ y.slot)
    (memB : (if fBg x then rB .g x else rB .v x) ∈ l) (memC : rC .v x ∈ l)
    (first : gives s u key c (some (captured i l kg c f)) x.ty.toNat (vecA x x.ty.toNat) a) :
    gathers s u key c (some (captured i l kg c f)) x.ty.toNat (readThree x) a (Claims.elemB c x) (Claims.elem x.ty.toNat (c.rv x.c.toNat)) := by
  obtain ⟨as, t, c1, run, stands, same, all⟩ := first
  obtain ⟨bs, runB, allB⟩ := run_vecB apart (issuing_of_stands stands) memB
  obtain ⟨cs, runC, allC⟩ := run_vecC apart (issuing_of_stands stands) memC
  exact ⟨(as, bs, cs), t, c1, (M.run_bind_ok run).trans ((M.run_bind_ok runB).trans (M.run_bind_ok runC)), stands, same, all, allB, allC⟩

theorem readMove_gathers (moved : gives s u key c e x.ty.toNat (if fBg x then vecB x x.ty.toNat else vecA x x.ty.toNat) a) :
    gathers s u key c e x.ty.toNat (readMove x) a a a := by
  obtain ⟨as, t, c1, run, stands, same, all⟩ := moved
  refine ⟨(as, as, as), t, c1, ?_, stands, same, all, all, all⟩
  unfold readMove
  by_cases scalar : fBg x = true
  · simp only [scalar, if_true] at run ⊢
    exact M.run_bind_ok run
  · simp only [scalar] at run ⊢
    exact M.run_bind_ok run

/-! ## What the members write -/

/-- A context as another one that has the v registers `v`, but for its reservations, takings, and sticky bits. -/
def sameWith (c : Ctx) (v : Map VWord) (d : Ctx) : Prop := c.sameSelf d ∧ d.g = c.g ∧ d.v = v

theorem sameWith.trans {c c1 d : Ctx} {v v' : Map VWord} (left : sameWith c v c1) (right : sameWith c1 v' d) : sameWith c v' d :=
  ⟨left.1.trans right.1, right.2.1.trans left.2.1, right.2.2⟩

theorem sameWith_of_sameButNotes {c d : Ctx} (same : c.sameButNotes d) : sameWith c c.v d :=
  ⟨same.sameSelf, (congrArg Ctx.g same :), (congrArg Ctx.v same :)⟩

/-- The end of a member sets sticky bits. -/
theorem run_marks {last : M Unit} (stands : u.stands key c e t) (cur : u.cur = some key) (fp w : Word) (ends : last = pure () ∨ last = vecCombo x) :
    ∃ t' d, (raiseFp fp >>= fun _ => warn w >>= fun _ => last).run t = .ok ((), t') ∧ u.stands key d e t' ∧ sameWith c c.v d := by
  have flagged : (raiseFp fp).run t = .ok ((), t.setCtx key (c.flagsFp fp)) := by
    obtain ⟨there, cs, rfl⟩ := stands
    exact run_raiseFp (s := u.wearing cs e) fp cur there
  have stands1 := stands.setCtx (c.flagsFp fp)
  have stands2 := stands1.setCtx ((c.flagsFp fp).warns w)
  have shown {t' : State} (tail : last.run ((t.setCtx key (c.flagsFp fp)).setCtx key ((c.flagsFp fp).warns w)) = .ok ((), t')) :
      (raiseFp fp >>= fun _ => warn w >>= fun _ => last).run t = .ok ((), t') := (M.run_bind_ok flagged).trans ((M.run_bind_ok (stands1.warn cur w)).trans tail)
  rcases ends with rfl | rfl
  · exact ⟨_, _, shown rfl, stands2, rfl, rfl, rfl⟩
  · by_cases combo : x.sm = 2
    · exact ⟨_, ((c.flagsFp fp).warns w).warns wModcombo, shown (by rw [vecCombo, if_pos combo, stands2.warn cur]), stands2.setCtx _, rfl, rfl, rfl⟩
    · exact ⟨_, _, shown (by rw [vecCombo, if_neg combo]; rfl), stands2, rfl, rfl, rfl⟩

/-- The write of a result leaves the state as `w`, with the v registers `v`. -/
def puts (u w : State) (key : Nat) (c : Ctx) (e : Option ReplayEntry) (x : RForm) (rs : List (Option Enc)) (v : Map VWord) : Prop :=
  ∀ t c1 last, u.stands key c1 e t → c.sameButNotes c1 → (last = pure () ∨ last = vecCombo x) →
    ∃ t' d, (writeVec x x.ty.toNat rs >>= fun _ => last).run t = .ok ((), t') ∧ w.stands key d e t' ∧ sameWith c v d

/-- A register keeps the elements that take no part. -/
theorem puts_register {rs : List (Option Enc)} (cur : u.cur = some key) (plain : fQd x = false) :
    puts u u key c e x rs (Claims.vecWritten c x.d.toNat x.ty.toNat rs 0).v := by
  intro t c1 last stands same ends
  let value := mergeCodes x.ty.toNat (c1.rv x.d.toNat) (rs.map fun r => r.map (·.code))
  have v1 : c1.v = c.v := (congrArg Ctx.v same :)
  obtain ⟨t', d, marks, left, marked⟩ := run_marks (x := x) (last := last) (stands.setCtx (c1.wv x.d.toNat value)) cur (orFp rs) (orWarn rs) ends
  refine ⟨t', d, ?_, left, (sameWith_of_sameButNotes same).trans (sameWith.trans (c1 := c1.wv x.d.toNat value) ⟨rfl, rfl, rfl⟩ ?_)⟩
  · obtain ⟨there, cs, rfl⟩ := stands
    have wrote := run_writeV (s := u.wearing cs e) x.d.toNat value cur there
    rw [← marks]
    simp only [writeVec, plain, Bool.false_eq_true, if_false, bind_assoc]
    exact (M.run_bind_ok (run_curCtx (s := u.wearing cs e) cur there)).trans (M.run_bind_ok wrote)
  · have written : (c1.wv x.d.toNat value).v = (Claims.vecWritten c x.d.toNat x.ty.toNat rs 0).v := by
      simp only [Ctx.wv, Claims.vecWritten, Ctx.warns, Ctx.flagsFp, value, Ctx.rv, v1]
    exact written ▸ marked

/-- A token of a result that a destination stream gets. -/
def laneWords (ty : Nat) (rs : List (Option Enc)) : List LinkWord := linkWords ty (rs.map fun r => match r with | some e => e.code | none => 0)

theorem puts_stream {rs : List (Option Enc)} {port o k : Nat} {tmpl : Word} {p : OutPort} {q : Queue} (cur : u.cur = some key) (stream : fQd x = true)
    (bound : c.rq (x.d.toNat % 16) = .output port tmpl) (outPort : u.outPort key c (x.d.toNat % 16) = some p) (format : p.fmt = x.ty.toNat)
    (plain : p.proxy = false) (consumer : p.consumer = some o) (found : u.queue? p.graph p.edge o = some q) (idle : q.ring = [])
    (fits : slotsOf (laneWords x.ty.toNat rs).length ≤ p.depth)
    (slots : k = deliveredSlots p.fmt p.inFmt (pushedToken p (setEos (templateBits tmpl) false) (laneWords x.ty.toNat rs)))
    (enough : k ≤ c.reserved (x.d.toNat % 16) + q.credits) :
    puts u ((u.modQueue p.graph p.edge o (Queue.sent · key (c.reserved (x.d.toNat % 16)) k
      { pushedToken p (setEos (templateBits tmpl) false) (laneWords x.ty.toNat rs) with slots := k })).progress p.graph) key c e x rs c.v := by
  intro t c1 last stands same ends
  let n := x.d.toNat % 16
  have reserved : c1.reserved n = c.reserved n := (congrArg (Ctx.reserved · n) same :)
  have bound1 : c1.rq n = .output port tmpl := (congrArg (Ctx.rq · n) same :).trans bound
  have outPort1 : u.outPort key c1 n = some p :=
    (outPort_congr (s := u) rfl (congrArg Ctx.q same :) (congrArg Ctx.graph same :) (congrArg Ctx.actor same :)).trans outPort
  obtain ⟨t1, c2, push, stands1, same1⟩ := run_pushThrough_sends (n := n) stands cur outPort1 fits plain consumer found idle slots (reserved ▸ enough)
  rw [reserved] at stands1 same1
  obtain ⟨t', d, marks, left, marked⟩ := run_marks (x := x) (last := last) stands1 cur (orFp rs) (orWarn rs) ends
  have sent : sameWith c c.v c2 := by
    have self := (sameWith_of_sameButNotes (same.setReserved n (c.reserved n - k))).trans (sameWith_of_sameButNotes same1)
    refine ⟨(c.sameSelf_setReserved _ _).trans self.1, self.2.1, self.2.2.trans ?_⟩
    exact (congrArg Ctx.v same :)
  refine ⟨t', d, ?_, left, sent.trans ?_⟩
  · have writes : (writeStream n x.ty.toNat (rs.map fun r => match r with | some e => e.code | none => 0)).run t = .ok ((), t1) := by
      obtain ⟨there, cs, rfl⟩ := stands
      have formats : (u.wearing cs e).outFormat key c1 n = x.ty.toNat := by
        rw [State.outFormat, show (u.wearing cs e).outPort key c1 n = some p from outPort1]
        exact format
      unfold writeStream
      rw [M.run_bind_ok (run_curKey (s := u.wearing cs e) cur), M.run_bind_ok (run_curCtx (s := u.wearing cs e) cur there), bound1]
      dsimp only
      rw [if_neg (by simp [PortBind.isOut]), M.run_bind_ok (M.run_get _), if_neg (not_not.mpr formats)]
      exact push
    rw [← marks]
    simp only [writeVec, stream, if_true, bind_assoc]
    exact M.run_bind_ok writes
  · have kept : c2.v = c.v := sent.2.2
    exact kept ▸ marked

end

end Sys2Proof.StreamProofs
end

section

namespace Sys2Proof.StreamProofs
open Sys2Proof Sys2Proof.Machine Sys2Proof.QueueProofs

/-! ## VectorStreams -/

section
variable {s u w : State} {key : Nat} {c : Ctx} {f : Firing} {x : RForm} {a b d : Nat → Nat} {v : Map VWord} {i : Instr} {srcs : List Src}

/-- What a member leaves that completes with the queues and the memory of `w` and the v registers `v`. -/
def leavesAs (w : State) (key : Nat) (c : Ctx) (f : Firing) (v : Map VWord) (i : Instr) (s : State) : Prop :=
  ∃ t c', exec i s = .next t ∧ Claims.movedOn t key c f 8 c' ∧ t.mem = w.mem ∧ c'.g = c.g ∧ c'.v = v ∧ t.queues = w.queues

/-- A member that reads its elements and writes its result completes, with what the two have done. -/
theorem lanewise_leaves {reads : M (List Nat × List Nat × List Nat)} {el : Nat → Enc} (h : Issuing s key c f) (ops : Operands s key c srcs (vDsts x))
    (member : lanewise x srcs reads a b d i el)
    (gathered : gathers s u key c (some (captured i srcs x.kg.toNat c f)) x.ty.toNat reads a b d)
    (written : puts u w key c (some (captured i srcs x.kg.toNat c f)) x (Claims.lanes x.ty.toNat (c.rk x.kg.toNat) el) v) :
    leavesAs w key c f v i s := by
  obtain ⟨op, last, run, short, elems, ends⟩ := member
  obtain ⟨r, t1, c1, read, stands1, same, ha, hb, hd⟩ := gathered
  obtain ⟨t2, c2, wrote, stands2, self, g, v'⟩ := written t1 c1 last stands1 same ends
  have mask : opMask.run t1 = .ok (c.rk x.kg.toNat, t1) := by
    rw [run_opMask (issuing_of_stands stands1), captured_mask]
  have body : (laneBody x reads op last).run (s.issues (some (captured i srcs x.kg.toNat c f))) = .ok ((), t2) := by
    refine (M.run_bind_ok read).trans ((M.run_bind_ok mask).trans ?_)
    rw [mapElems_eq_lanes (c.rk x.kg.toNat) op ha hb hd elems]
    exact wrote
  have leaves : exec i s = .next (t2.completed key (c2.advance 8)) := by
    rw [run, ← short]
    exact runInstr_ready (a := vAsk x srcs) h (Nat.not_lt_zero _) (fun scalar => nomatch scalar) ops body stands2.1 (congrArg Ctx.graph self :)
  obtain ⟨c', moved, g', v1, -, -, -, queues, -⟩ := movedOn_of_stands h stands2 self c2.sameButNotes_refl
  obtain ⟨-, cs, rfl⟩ := stands2
  exact ⟨_, c', leaves, moved, State.mem_completed _ _ _, g'.trans g, v1.trans v', queues⟩

/-- The sources of a member stand in slots of their own. -/
theorem sources_apart (x : RForm) : [rA .v x, if fBg x then rB .g x else rB .v x, rC .v x].Pairwise fun y z => y.slot ≠ z.slot := by
  cases fBg x <;> simp [rA, rB, rC]

theorem vSrcB_eq (x : RForm) : vSrcB x = [if fBg x then rB .g x else rB .v x] := by
  unfold vSrcB
  split <;> rfl

theorem vSrcA_of_stream (stream : fQa x = true) : vSrcA x = [] := if_pos stream
theorem vSrcA_of_register (plain : fQa x = false) : vSrcA x = [rA .v x] := if_neg (by simp [plain])
theorem vDsts_of_stream (stream : fQd x = true) : vDsts x = [] := if_pos stream
theorem vDsts_of_register (plain : fQd x = false) : vDsts x = [vDst x.d.toNat] := if_neg (by simp [plain])

section
variable (h : Issuing s key c f)
include h

/-- A source stream and a destination register. -/
theorem source_stream {q : Queue} {codes : List Nat} {rest popped : List Token} {taken : Nat} {adj : Bool} (stream : fQa x = true) (plain : fQd x = false)
    (bound : (c.rq (x.a.toNat % 16)).isIn = true) (found : s.inQueue key c (x.a.toNat % 16) = some q) (accepts : streamAccepts q.inFmt x.ty.toNat = true)
    (took : takeStream q.inFmt (1024 / tyBits x.ty.toNat) q.taken q.fifo = .ok codes rest taken popped adj) :
    let a (i : Nat) : Nat := (codes.map (streamElem q.inFmt x.ty.toNat)).getD i 0
    let takes (m : Instr × (Nat → Enc) × Word) : Prop := leavesAs (tookFrom s q rest popped taken) key c f
      (Claims.vecWritten c x.d.toNat x.ty.toNat (Claims.lanes x.ty.toNat (c.rk x.kg.toNat) m.2.1) 0).v m.1 s
    (Operands s key c [] [vDst x.d.toNat] → (∀ m ∈ Claims.vecOne x a, takes m) ∧ (fBg x = false → takes (.vmov x, fun i => { code := a i }, 0))) ∧
    (Operands s key c [if fBg x then rB .g x else rB .v x] [vDst x.d.toNat] → ∀ m ∈ Claims.vecTwo x a (Claims.elemB c x), takes m) ∧
    (Operands s key c [if fBg x then rB .g x else rB .v x, rC .v x] [vDst x.d.toNat] →
      ∀ m ∈ Claims.vecThree x a (Claims.elemB c x) (Claims.elem x.ty.toNat (c.rv x.c.toNat)), takes m) := by
  intro a takes
  have first (e : Option ReplayEntry) : gives s (tookFrom s q rest popped taken) key c e x.ty.toNat (vecA x x.ty.toNat) a :=
    vecA_gives_stream h stream bound found accepts took e
  have puts (e : Option ReplayEntry) (rs : List (Option Enc)) : puts (tookFrom s q rest popped taken) (tookFrom s q rest popped taken) key c e x rs _ :=
    puts_register h.cur plain
  rw [← vDsts_of_register plain]
  refine ⟨fun ops => ⟨fun m mem => ?_, fun flat => ?_⟩, fun ops m mem => ?_, fun ops m mem => ?_⟩
  · have member := vecOne_lanewise x a m mem
    rw [vSrcA_of_stream stream] at member
    exact lanewise_leaves h ops member (readOne_gathers (first _)) (puts _ _)
  · have member := lanewise_vmov (x := x) (mv := a)
    rw [if_neg (by simp [flat]), vSrcA_of_stream stream] at member
    exact lanewise_leaves h ops member (readMove_gathers (by rw [if_neg (by simp [flat])]; exact first _)) (puts _ _)
  · have member := vecTwo_lanewise x a (Claims.elemB c x) m mem
    rw [vSrcA_of_stream stream, vSrcB_eq] at member
    exact lanewise_leaves h ops member (readTwo_gathers (List.pairwise_singleton _ _) (List.mem_singleton_self _) (first _)) (puts _ _)
  · have member := vecThree_lanewise x a (Claims.elemB c x) (Claims.elem x.ty.toNat (c.rv x.c.toNat)) m mem
    rw [vSrcA_of_stream stream, vSrcB_eq] at member
    exact lanewise_leaves h ops member (readThree_gathers (sources_apart x).tail (by simp) (by simp) (first _)) (puts _ _)

/-- Source registers, whatever becomes of the result. -/
theorem source_registers {v : (Nat → Enc) → Map VWord} {w : (Nat → Enc) → State} {fits : (Nat → Enc) → Prop} (plain : fQa x = false)
    (putsAll : ∀ el e, fits el → puts s (w el) key c e x (Claims.lanes x.ty.toNat (c.rk x.kg.toNat) el) (v el)) :
    let a := Claims.elem x.ty.toNat (c.rv x.a.toNat)
    let b := Claims.elemB c x
    let gives (m : Instr × (Nat → Enc) × Word) : Prop := fits m.2.1 → leavesAs (w m.2.1) key c f (v m.2.1) m.1 s
    (Operands s key c [rA .v x] (vDsts x) → ∀ m ∈ Claims.vecOne x a, gives m) ∧
    (Operands s key c [if fBg x then rB .g x else rA .v x] (vDsts x) → gives (.vmov x, fun i => { code := if fBg x then b i else a i }, 0)) ∧
    (Operands s key c [rA .v x, if fBg x then rB .g x else rB .v x] (vDsts x) → ∀ m ∈ Claims.vecTwo x a b, gives m) ∧
    (Operands s key c [rA .v x, if fBg x then rB .g x else rB .v x, rC .v x] (vDsts x) →
      ∀ m ∈ Claims.vecThree x a b (Claims.elem x.ty.toNat (c.rv x.c.toNat)), gives m) := by
  intro a b gives
  have vector := vSrcA_of_register plain
  refine ⟨fun ops m mem fit => ?_, fun ops fit => ?_, fun ops m mem fit => ?_, fun ops m mem fit => ?_⟩
  · have member := vecOne_lanewise x a m mem
    rw [vector] at member
    exact lanewise_leaves h ops member (readOne_gathers (vecA_gives_register h (List.pairwise_singleton _ _) plain (by simp))) (putsAll _ _ fit)
  · have member := lanewise_vmov (x := x) (mv := fun i => if fBg x then b i else a i)
    rw [vector] at member
    refine lanewise_leaves h (srcs := if fBg x then [rB .g x] else [rA .v x]) (by rwa [← apply_ite (fun r => [r])]) member (readMove_gathers ?_)
      (putsAll _ _ fit)
    by_cases scalar : fBg x = true
    · simp only [scalar, if_true]
      exact vecB_gives h (List.pairwise_singleton _ _) (by simp [scalar])
    · simp only [scalar]
      exact vecA_gives_register h (List.pairwise_singleton _ _) plain (by simp)
  · have member := vecTwo_lanewise x a b m mem
    rw [vector, vSrcB_eq] at member
    have apart := (sources_apart x).sublist (List.sublist_append_left [rA .v x, if fBg x then rB .g x else rB .v x] [rC .v x])
    exact lanewise_leaves h ops member (readTwo_gathers apart (by simp) (vecA_gives_register h apart plain (by simp))) (putsAll _ _ fit)
  · have member := vecThree_lanewise x a b (Claims.elem x.ty.toNat (c.rv x.c.toNat)) m mem
    rw [vector, vSrcB_eq] at member
    exact lanewise_leaves h ops member (readThree_gathers (sources_apart x) (by simp) (by simp) (vecA_gives_register h (sources_apart x) plain (by simp)))
      (putsAll _ _ fit)

/-- Source registers and a destination stream. -/
theorem destination_stream {port o : Nat} {tmpl : Word} {p : OutPort} {q : Queue} (plainA : fQa x = false) (stream : fQd x = true)
    (bound : c.rq (x.d.toNat % 16) = .output port tmpl) (outPort : s.outPort key c (x.d.toNat % 16) = some p) (format : p.fmt = x.ty.toNat)
    (plain : p.proxy = false) (consumer : p.consumer = some o) (found : s.queue? p.graph p.edge o = some q) (idle : q.ring = []) :
    let a := Claims.elem x.ty.toNat (c.rv x.a.toNat)
    let b := Claims.elemB c x
    let words (el : Nat → Enc) := laneWords x.ty.toNat (Claims.lanes x.ty.toNat (c.rk x.kg.toNat) el)
    let tok (el : Nat → Enc) := pushedToken p (setEos (templateBits tmpl) false) (words el)
    let k (el : Nat → Enc) := deliveredSlots p.fmt p.inFmt (tok el)
    let sent (el : Nat → Enc) := q.sent key (c.reserved (x.d.toNat % 16)) (k el) { tok el with slots := k el }
    let gives (m : Instr × (Nat → Enc) × Word) : Prop :=
      slotsOf (words m.2.1).length ≤ p.depth → k m.2.1 ≤ c.reserved (x.d.toNat % 16) + q.credits →
        ∃ t c', exec m.1 s = .next t ∧ Claims.movedOn t key c f 8 c' ∧ t.mem = s.mem ∧ c'.g = c.g ∧ c'.v = c.v ∧
          t.queue? p.graph p.edge o = some (sent m.2.1)
    (Operands s key c [rA .v x] [] → ∀ m ∈ Claims.vecOne x a, gives m) ∧
    (Operands s key c [if fBg x then rB .g x else rA .v x] [] → gives (.vmov x, fun i => { code := if fBg x then b i else a i }, 0)) ∧
    (Operands s key c [rA .v x, if fBg x then rB .g x else rB .v x] [] → ∀ m ∈ Claims.vecTwo x a b, gives m) ∧
    (Operands s key c [rA .v x, if fBg x then rB .g x else rB .v x, rC .v x] [] →
      ∀ m ∈ Claims.vecThree x a b (Claims.elem x.ty.toNat (c.rv x.c.toNat)), gives m) := by
  intro a b words tok k sent gives
  let after (el : Nat → Enc) := (s.modQueue p.graph p.edge o
    (Queue.sent · key (c.reserved (x.d.toNat % 16)) (k el) { tok el with slots := k el })).progress p.graph
  have gave {m : Instr × (Nat → Enc) × Word} (left : slotsOf (words m.2.1).length ≤ p.depth ∧ k m.2.1 ≤ c.reserved (x.d.toNat % 16) + q.credits →
      leavesAs (after m.2.1) key c f c.v m.1 s) : gives m := by
    intro fits enough
    obtain ⟨t, c', run, moved, mem, g, v, queues⟩ := left ⟨fits, enough⟩
    refine ⟨t, c', run, moved, mem, g, v, ?_⟩
    rw [State.queue?, queues]
    exact State.queue?_modQueue_same found
  obtain ⟨one, move, two, three⟩ := source_registers h (v := fun _ => c.v) (w := after)
    (fits := fun el => slotsOf (words el).length ≤ p.depth ∧ k el ≤ c.reserved (x.d.toNat % 16) + q.credits) plainA fun el e fit =>
      puts_stream h.cur stream bound outPort format plain consumer found idle fit.1 rfl fit.2
  rw [vDsts_of_stream stream] at one move two three
  exact ⟨fun ops m mem => gave (one ops m mem), fun ops => gave (move ops), fun ops m mem => gave (two ops m mem),
    fun ops m mem => gave (three ops m mem)⟩

end

end

end Sys2Proof.StreamProofs

open Sys2Proof.StreamProofs

/-- Settles O40: a member reads its elements, whether from registers or from the tokens of a stream, and what it makes of them it puts in a register or in a
token; the two ends are said apart and joined in `lanewise_leaves`. -/
theorem vectorStreams : Obligations.VectorStreams := by
  unfold Obligations.VectorStreams
  intro s key c f x h
  refine ⟨fun q codes rest taken popped adj stream plain bound found accepts took => source_stream h stream plain bound found accepts took, ?_⟩
  intro port tmpl p o q plainA stream bound outPort format plain consumer found idle
  exact destination_stream h plainA stream bound outPort format plain consumer found idle

end

section

namespace Sys2Proof.Machine

/-! ## Clusters and engines of the state -/

theorem State.cluster_setCluster {s : State} (rises : Map.risesFrom 0 s.clusters = true) (cl : Nat) (c : Cluster) : (s.setCluster cl c).cluster cl = c :=
  Map.get_set_self _ _ 0 _ _ rises

theorem State.cluster_setCluster_ne (s : State) {cl n : Nat} (c : Cluster) (other : n ≠ cl) : (s.setCluster cl c).cluster n = s.cluster n :=
  Map.get_set_ne _ _ _ other

theorem State.clusters_setCluster_rise {s : State} (rises : Map.risesFrom 0 s.clusters = true) (cl : Nat) (c : Cluster) :
    Map.risesFrom 0 (s.setCluster cl c).clusters = true :=
  Map.risesFrom_set _ _ 0 _ _ (Nat.zero_le _) rises

theorem State.engine_setEngine {s : State} (rises : Map.risesFrom 0 s.engines = true) (e : Nat) (g : Engine) : (s.setEngine e g).engine e = g :=
  Map.get_set_self _ _ 0 _ _ rises

theorem State.engine_setEngine_ne (s : State) {e n : Nat} (g : Engine) (other : n ≠ e) : (s.setEngine e g).engine n = s.engine n :=
  Map.get_set_ne _ _ _ other

theorem State.engines_setEngine_rise {s : State} (rises : Map.risesFrom 0 s.engines = true) (e : Nat) (g : Engine) :
    Map.risesFrom 0 (s.setEngine e g).engines = true :=
  Map.risesFrom_set _ _ 0 _ _ (Nat.zero_le _) rises

/-! ## A conditional end -/

theorem next_of_ite {p : Prop} [Decidable p] {x : Result} {t e : State} (acts : x = .next (if p then t else e)) (holds : p) : x = .next t := by
  rw [acts, if_pos holds]

theorem next_of_not_ite {p : Prop} [Decidable p] {x : Result} {t e : State} (acts : x = .next (if p then t else e)) (fails : ¬ p) : x = .next e := by
  rw [acts, if_neg fails]

theorem and_holds {a b : Bool} (left : a = true) (right : b = true) : (a && b) = true := by
  rw [left, right]
  rfl

theorem and_fails {a b : Bool} (right : b = false) : ¬ (a && b) = true := by
  rw [right, Bool.and_false]
  exact Bool.false_ne_true

/-! ## Rails and loops (R199, R204, R426) -/

/-- A rail is good within two codes of its set-point (R199). -/
theorem railGood_eq (code vset : Nat) : railGood code vset = decide (((code : Int) - vset).natAbs ≤ 2) := by
  unfold railGood
  rw [← Bool.decide_and, decide_eq_decide]
  refine Iff.trans ?_ Int.ofNat_le
  rw [Int.natCast_natAbs, abs_sub_le_iff, sub_le_iff_le_add', sub_le_iff_le_add']
  exact (and_congr Int.ofNat_le Int.ofNat_le).symm

theorem Cluster.setVset_refused {c : Cluster} {v : Nat} (now : Nat) (h : v < 20 ∨ 100 < v) : c.setVset v now = c.error 6 := if_pos h

theorem Cluster.setVset_off {c : Cluster} {v : Nat} (now : Nat) (low : 20 ≤ v) (high : v ≤ 100) (off : c.en = false ∨ c.op = some .railOn) :
    c.setVset v now = { c with vset := v } := by
  refine (if_neg (not_or.mpr ⟨Nat.not_lt.mpr low, Nat.not_lt.mpr high⟩)).trans (if_neg ?_)
  rcases off with off | off
  · rw [off]
    exact Bool.false_ne_true
  · exact and_fails (by rw [off]; rfl)

theorem Cluster.setVset_on {c : Cluster} {v : Nat} (now : Nat) (low : 20 ≤ v) (high : v ≤ 100) (on : c.en = true) (idle : c.op ≠ some .railOn) :
    c.setVset v now = { c with vset := v, pgood := railGood c.railCode v, railStep := now } :=
  (if_neg (not_or.mpr ⟨Nat.not_lt.mpr low, Nat.not_lt.mpr high⟩)).trans (if_pos (and_holds on (bne_iff_ne.mpr idle)))

end Sys2Proof.Machine

namespace Sys2Proof.PowerProofs
open Sys2Proof Sys2Proof.Machine

theorem vsetWrite_refused (s : State) (cl : Nat) (w : Word) (bad : bits w.toNat 6 0 < 20 ∨ 100 < bits w.toNat 6 0) :
    exec (.vsetWrite cl w) s = .next (s.setCluster cl ((s.cluster cl).error 6)) :=
  congrArg (fun c => Host.Outcome.next (s.setCluster cl c)) (Cluster.setVset_refused s.ticks bad)

theorem vsetWrite_off (s : State) (cl : Nat) (w : Word) (low : 20 ≤ bits w.toNat 6 0) (high : bits w.toNat 6 0 ≤ 100) (off : (s.cluster cl).en = false) :
    exec (.vsetWrite cl w) s = .next (s.setCluster cl { s.cluster cl with vset := bits w.toNat 6 0 }) :=
  congrArg (fun c => Host.Outcome.next (s.setCluster cl c)) (Cluster.setVset_off s.ticks low high (.inl off))

theorem vsetWrite_on (s : State) (cl : Nat) (w : Word) (low : 20 ≤ bits w.toNat 6 0) (high : bits w.toNat 6 0 ≤ 100) (on : (s.cluster cl).en = true)
    (idle : (s.cluster cl).op ≠ some .railOn) : exec (.vsetWrite cl w) s = .next (s.setCluster cl { s.cluster cl with
      vset := bits w.toNat 6 0, pgood := decide ((((s.cluster cl).railCode : Int) - bits w.toNat 6 0).natAbs ≤ 2), railStep := s.ticks }) := by
  rw [← railGood_eq]
  exact congrArg (fun c => Host.Outcome.next (s.setCluster cl c)) (Cluster.setVset_on s.ticks low high on idle)

theorem fllTargetWrite_refused (s : State) (cl : Nat) (w : Word) (bad : 52 < bits w.toNat 5 0) :
    exec (.fllTargetWrite cl w) s = .next (s.setCluster cl ((s.cluster cl).error 6)) :=
  congrArg (fun c => Host.Outcome.next (s.setCluster cl c)) (if_pos bad)

theorem fllTargetWrite_taken (s : State) (cl : Nat) (w : Word) (good : bits w.toNat 5 0 ≤ 52) :
    exec (.fllTargetWrite cl w) s =
      .next (s.setCluster cl { s.cluster cl with target := bits w.toNat 5 0, lock := !(s.cluster cl).clocked && (s.cluster cl).lock }) := by
  refine (congrArg (fun c => Host.Outcome.next (s.setCluster cl c)) (if_neg (Nat.not_lt.mpr good))).trans ?_
  rw [Cluster.setTarget]
  cases (s.cluster cl).clocked <;> rfl

/-- A due step of a rail towards its set-point ends at a code. -/
theorem railSlewStep_to {s : State} {cl code : Nat} (on : (s.cluster cl).en = true) (state : (s.cluster cl).state ≠ .railoff)
    (due : (s.cluster cl).railStep + 10 ≤ s.ticks) (away : (s.cluster cl).railCode ≠ (s.cluster cl).vset)
    (ends : (if (s.cluster cl).railCode < (s.cluster cl).vset then (s.cluster cl).railCode + 1 else (s.cluster cl).railCode - 1) = code) :
    exec (.railSlewStep cl) s = .next (s.setCluster cl
      { s.cluster cl with railCode := code, railStep := s.ticks, pgood := decide (((code : Int) - (s.cluster cl).vset).natAbs ≤ 2) }) := by
  subst ends
  rw [← railGood_eq]
  exact next_of_ite rfl (and_holds (and_holds (and_holds on (bne_iff_ne.mpr state)) (bne_iff_ne.mpr away)) (decide_eq_true due))

theorem railSlewStep_early {s : State} {cl : Nat} (early : s.ticks < (s.cluster cl).railStep + 10) : exec (.railSlewStep cl) s = .next s :=
  next_of_not_ite rfl (and_fails (decide_eq_false (Nat.not_le.mpr early)))

/-- A step of a loop whose clock runs. -/
theorem fllStep_eq {s : State} {cl : Nat} (clocked : (s.cluster cl).clocked = true) : exec (.fllStep cl) s =
    .next (if (s.cluster cl).current = s.fllGoal cl then
        s.setCluster cl { s.cluster cl with lock := decide (s.fllGoal cl = (s.cluster cl).target - (s.cluster cl).droopSteps) }
      else if (s.cluster cl).fllStep + 50 ≤ s.ticks then s.setCluster cl { s.cluster cl with
        current := if (s.cluster cl).current < s.fllGoal cl then (s.cluster cl).current + 1 else (s.cluster cl).current - 1, fllStep := s.ticks, lock := false }
      else s) :=
  next_of_not_ite rfl (by rw [clocked]; exact Bool.false_ne_true)

theorem fllStep_settles {s : State} {cl : Nat} (clocked : (s.cluster cl).clocked = true) (there : (s.cluster cl).current = s.fllGoal cl)
    (cool : s.hot.getLsbD (dieOfCluster cl) = false) : exec (.fllStep cl) s = .next (s.setCluster cl { s.cluster cl with lock := true }) := by
  rw [← decide_eq_true (show s.fllGoal cl = (s.cluster cl).target - (s.cluster cl).droopSteps from if_neg (Bool.eq_false_iff.mp cool))]
  exact next_of_ite (fllStep_eq clocked) there

theorem fllStep_to {s : State} {cl step : Nat} (clocked : (s.cluster cl).clocked = true) (away : (s.cluster cl).current ≠ s.fllGoal cl)
    (due : (s.cluster cl).fllStep + 50 ≤ s.ticks)
    (ends : (if (s.cluster cl).current < s.fllGoal cl then (s.cluster cl).current + 1 else (s.cluster cl).current - 1) = step) :
    exec (.fllStep cl) s = .next (s.setCluster cl { s.cluster cl with current := step, fllStep := s.ticks, lock := false }) := by
  subst ends
  exact next_of_ite (next_of_not_ite (fllStep_eq clocked) away) due

theorem fllStep_early {s : State} {cl : Nat} (clocked : (s.cluster cl).clocked = true) (away : (s.cluster cl).current ≠ s.fllGoal cl)
    (early : s.ticks < (s.cluster cl).fllStep + 50) : exec (.fllStep cl) s = .next s :=
  next_of_not_ite (next_of_not_ite (fllStep_eq clocked) away) (Nat.not_le.mpr early)

theorem droopSag_acts {s : State} {cl : Nat} (clocked : (s.cluster cl).clocked = true) (calm : (s.cluster cl).stretch = false) :
    exec (.droopSag cl) s = .next (s.setCluster cl (if (s.cluster cl).droopSteps < 4 then { s.cluster cl with
        droopSteps := (s.cluster cl).droopSteps + 1, current := (s.cluster cl).current - 1, lock := false, fllStep := s.ticks, stretch := true, droopSince := s.ticks }
      else { s.cluster cl with stretch := true, droopSince := s.ticks })) := by
  refine (next_of_ite rfl (and_holds clocked (by rw [calm]; rfl))).trans (congrArg (fun c => Host.Outcome.next (s.setCluster cl c)) ?_)
  rw [Cluster.droopDown]
  split <;> rfl

theorem droopStepDown_acts {s : State} {cl : Nat} (sag : (s.cluster cl).stretch = true) (due : (s.cluster cl).droopSince + 100 ≤ s.ticks) :
    exec (.droopStepDown cl) s = .next (s.setCluster cl (if (s.cluster cl).droopSteps < 4 then { s.cluster cl with
        droopSteps := (s.cluster cl).droopSteps + 1, current := (s.cluster cl).current - 1, lock := false, fllStep := s.ticks, droopSince := s.ticks }
      else { s.cluster cl with droopSince := s.ticks })) := by
  refine (next_of_ite rfl (and_holds sag (decide_eq_true due))).trans (congrArg (fun c => Host.Outcome.next (s.setCluster cl c)) ?_)
  rw [Cluster.droopDown]
  split <;> rfl

theorem droopStepDown_early {s : State} {cl : Nat} (early : s.ticks < (s.cluster cl).droopSince + 100) : exec (.droopStepDown cl) s = .next s :=
  next_of_not_ite rfl (and_fails (decide_eq_false (Nat.not_le.mpr early)))

theorem droopSagEnd_acts {s : State} {cl : Nat} (sag : (s.cluster cl).stretch = true) :
    exec (.droopSagEnd cl) s = .next (s.setCluster cl { s.cluster cl with stretch := false, droopSince := s.ticks }) :=
  next_of_ite rfl sag

theorem droopRecoveryStep_acts {s : State} {cl : Nat} (calm : (s.cluster cl).stretch = false) (down : 0 < (s.cluster cl).droopSteps)
    (due : (s.cluster cl).droopSince + 1000 ≤ s.ticks) (step : (s.cluster cl).fllStep + 50 ≤ s.ticks) :
    ∃ c', exec (.droopRecoveryStep cl) s = .next (s.setCluster cl c') ∧ c'.droopSteps = (s.cluster cl).droopSteps - 1 ∧
      c'.current = (if (s.cluster cl).current < (s.cluster cl).target - ((s.cluster cl).droopSteps - 1) then (s.cluster cl).current + 1
        else (s.cluster cl).current) ∧ c'.target = (s.cluster cl).target ∧ c'.state = (s.cluster cl).state :=
  ⟨_, next_of_ite rfl (and_holds (and_holds (and_holds (by rw [calm]; rfl) (decide_eq_true down)) (decide_eq_true due)) (decide_eq_true step)),
    rfl, rfl, rfl, rfl⟩

theorem droopRecoveryStep_early {s : State} {cl : Nat} (early : s.ticks < (s.cluster cl).droopSince + 1000) : exec (.droopRecoveryStep cl) s = .next s :=
  next_of_not_ite rfl fun all => and_fails (decide_eq_false (Nat.not_le.mpr early)) (Bool.and_eq_true_iff.mp all).1

theorem clocksAndRails_hold : Claims.clocksAndRails := by
  intro s cl c becomes stays near
  exact ⟨fun w => ⟨vsetWrite_refused s cl w, vsetWrite_off s cl w, vsetWrite_on s cl w⟩, fun w => ⟨fllTargetWrite_refused s cl w, fllTargetWrite_taken s cl w⟩,
    fun on state due => ⟨fun below => railSlewStep_to on state due below.ne (if_pos below),
      fun above => railSlewStep_to on state due above.ne' (if_neg (Nat.not_lt.mpr above.le))⟩,
    railSlewStep_early,
    fun clocked => ⟨fllStep_settles clocked, fun below due => fllStep_to clocked below.ne due (if_pos below),
      fun above due => fllStep_to clocked above.ne' due (if_neg (Nat.not_lt.mpr above.le)), fllStep_early clocked, droopSag_acts clocked⟩,
    fun sag => ⟨droopStepDown_acts sag, droopStepDown_early, droopSagEnd_acts sag⟩,
    fun calm down => ⟨droopRecoveryStep_acts calm down, droopRecoveryStep_early⟩⟩

end Sys2Proof.PowerProofs

open Sys2Proof Sys2Proof.Machine

/-- Settles O7: the reset state is the state of all defaults; a bank without an entry has the mode of reset. -/
theorem resetState : Obligations.ResetState :=
  ⟨rfl, rfl, rfl, rfl, rfl, rfl, rfl, rfl, rfl, fun _ => ⟨rfl, rfl, rfl, rfl, rfl, rfl⟩, fun _ => ⟨rfl, rfl⟩, fun _ _ => rfl⟩

end

section

namespace Sys2Proof.Machine

/-! ## What evictions, releases and the ends of instructions in flight may change -/

/-- The state without its contexts, engines and instructions in flight, and without memory, where the image of a context may stand. -/
noncomputable def State.withoutWork (s : State) : State := { s with ctxs := [], images := [], mem := [], engines := [], ops := [], asyncDone := [], fresh := 0 }

/-- The second state differs from the first in its contexts, engines and instructions in flight at most, and in memory only where an image of a context
stands. -/
def State.sameButWork (s t : State) : Prop := t.withoutWork = s.withoutWork ∧ (s.images = [] → t.images = [] ∧ t.mem = s.mem)

theorem State.sameButWork.refl (s : State) : s.sameButWork s := ⟨rfl, fun none => ⟨none, rfl⟩⟩

theorem State.sameButWork.trans {s t u : State} (first : s.sameButWork t) (second : t.sameButWork u) : s.sameButWork u := by
  obtain ⟨rest1, mem1⟩ := first
  obtain ⟨rest2, mem2⟩ := second
  refine ⟨rest2.trans rest1, fun none => ?_⟩
  obtain ⟨noneT, memT⟩ := mem1 none
  obtain ⟨noneU, memU⟩ := mem2 noneT
  exact ⟨noneU, memU.trans memT⟩

theorem State.sameButWork_foldl {α : Type} (f : State → α → State) (each : ∀ (s : State) (a : α), s.sameButWork (f s a)) (l : List α) (s : State) :
    s.sameButWork (l.foldl f s) :=
  foldl_keeps (fun t => s.sameButWork t) f (fun t a so => so.trans (each t a)) l s (.refl s)

theorem State.sameButWork_setCtx (s : State) (k : Nat) (c : Ctx) : s.sameButWork (s.setCtx k c) := ⟨rfl, fun none => ⟨none, rfl⟩⟩
theorem State.sameButWork_setEngine (s : State) (e : Nat) (g : Engine) : s.sameButWork (s.setEngine e g) := ⟨rfl, fun none => ⟨none, rfl⟩⟩

theorem State.sameButWork_modOwner (s : State) (k : Nat) (f : Ctx → Ctx) : s.sameButWork (s.modOwner k f) := by
  unfold State.modOwner
  split
  · exact s.sameButWork_setCtx _ _
  · split
    case _ i found => exact ⟨rfl, fun none => by simp [none] at found⟩
    case _ => exact .refl s

/-- What does not depend on contexts, engines, instructions in flight and memory is the same. -/
theorem State.sameButWork.keeps {γ : Type} {s t : State} (same : s.sameButWork t) (g : State → γ) (blind : ∀ u : State, g u.withoutWork = g u) : g t = g s :=
  (blind t).symm.trans ((congrArg g same.1).trans (blind s))

theorem State.sameButWork.mem {s t : State} (same : s.sameButWork t) (none : s.images = []) : t.mem = s.mem := (same.2 none).2

/-! ## Dozing engines, notices and emergencies (R16, R182, R186) -/

theorem State.gateDozing_succ (s : State) (p : Nat → Bool) (fuel : Nat) (excess : Int) : s.gateDozing p (fuel + 1) excess =
    if excess ≤ 0 then s else (s.oldestDozing p).elim s fun e =>
      (s.setEngine e { s.engine e with power := .gated }).gateDozing p fuel (excess - engineLu e) := by
  refine if_congr Iff.rfl rfl ?_
  cases s.oldestDozing p <;> rfl

theorem State.sameButWork_gateDozing (p : Nat → Bool) (fuel : Nat) (s : State) (excess : Int) : s.sameButWork (s.gateDozing p fuel excess) := by
  induction fuel generalizing s excess with
  | zero => exact .refl s
  | succ fuel ih =>
    rw [State.gateDozing_succ]
    split
    · exact .refl s
    · cases s.oldestDozing p with
      | none => exact .refl s
      | some e => exact (s.sameButWork_setEngine _ _).trans (ih _ _)

theorem State.sameButWork_sendNotice (s : State) (e grace : Nat) : s.sameButWork (s.sendNotice e grace) := by
  unfold State.sendNotice
  extract_lets g
  cases g.holder with
  | none => exact .refl s
  | some k =>
    cases g.notice with
    | none => exact (s.sameButWork_setEngine _ _).trans (State.sameButWork_modOwner _ _ _)
    | some t => exact .refl s

theorem State.sameButWork_noticeOf (s : State) (e : Nat) : s.sameButWork (s.noticeOf e) := by
  unfold State.noticeOf
  split
  · exact s.sameButWork_sendNotice _ _
  · exact .refl s

theorem State.noticeUntil_cons (s : State) (grace : Option Nat) (e : Nat) (rest : List Nat) (need : Int) : s.noticeUntil grace (e :: rest) need =
    if need ≤ 0 then s else (grace.elim (s.noticeOf e) (s.sendNotice e)).noticeUntil grace rest (need - engineLu e) := by
  cases grace <;> rfl

theorem State.sameButWork_noticeUntil (grace : Option Nat) (l : List Nat) (s : State) (need : Int) : s.sameButWork (s.noticeUntil grace l need) := by
  induction l generalizing s need with
  | nil => exact .refl s
  | cons e rest ih =>
    rw [State.noticeUntil_cons]
    split
    · exact .refl s
    · cases grace with
      | none => exact (s.sameButWork_noticeOf e).trans (ih _ _)
      | some g => exact (s.sameButWork_sendNotice e g).trans (ih _ _)

theorem State.sameButWork_budgetEmergency (s : State) : s.sameButWork s.budgetEmergency := by
  unfold State.budgetEmergency
  dsimp only
  split
  · exact .refl s
  · exact (State.sameButWork_gateDozing _ _ s _).trans (State.sameButWork_noticeUntil _ _ _ _)

theorem State.sameButWork_evictWithin (s : State) (e grace : Nat) : s.sameButWork (s.evictWithin e grace) := by
  unfold State.evictWithin
  split
  · exact s.sameButWork_setEngine _ _
  · exact s.sameButWork_sendNotice _ _

/-! ## The firmware's reset, the committed set and CAD (R198, R203) -/

theorem State.restartFirmware_package (s : State) (key : Nat) (c : Ctx) :
    (s.restartFirmware key c).mem = s.mem ∧ (s.restartFirmware key c).images = s.images ∧ (s.restartFirmware key c).running = s.running ∧
    (s.restartFirmware key c).expired = s.expired ∧ (s.restartFirmware key c).latched = s.latched ∧ (s.restartFirmware key c).comBudget = s.comBudget :=
  ⟨s.squash_mem key, s.squash_images key, s.squash_running key, s.squash_expired key, s.squash_latched key, s.squash_comBudget key⟩

/-- A reset of a firmware context touches its own registers and work, and nothing of the package. -/
theorem State.resetFirmware_package (s : State) (key : Nat) :
    (s.resetFirmware key).mem = s.mem ∧ (s.resetFirmware key).images = s.images ∧ (s.resetFirmware key).running = s.running ∧
    (s.resetFirmware key).expired = s.expired ∧ (s.resetFirmware key).latched = s.latched ∧ (s.resetFirmware key).comBudget = s.comBudget := by
  unfold State.resetFirmware
  split
  · exact ⟨rfl, rfl, rfl, rfl, rfl, rfl⟩
  · exact State.restartFirmware_package _ _ _

/-- The committed set is one of budgets and clusters. -/
theorem State.restoreCommitted_package (s : State) :
    s.restoreCommitted.mem = s.mem ∧ s.restoreCommitted.images = s.images ∧ s.restoreCommitted.running = s.running ∧
    s.restoreCommitted.expired = s.expired ∧ (s.latched = true → s.restoreCommitted.budget = s.comBudget) := by
  unfold State.restoreCommitted
  split
  · exact ⟨rfl, rfl, rfl, rfl, fun _ => rfl⟩
  case _ unlatched => exact ⟨rfl, rfl, rfl, rfl, fun latched => absurd latched unlatched⟩

/-- What a restart from the committed set and the emergency after it leave of the package. -/
theorem State.restart_package (s : State) (key : Nat) :
    let t := (s.resetFirmware key).restoreCommitted.budgetEmergency
    t.running = s.running ∧ t.expired = s.expired ∧ (s.images = [] → t.mem = s.mem) ∧ (s.latched = true → t.budget = s.comBudget) := by
  obtain ⟨mem1, images1, running1, expired1, latched1, budget1⟩ := s.resetFirmware_package key
  obtain ⟨mem2, images2, running2, expired2, budget2⟩ := (s.resetFirmware key).restoreCommitted_package
  have same := (s.resetFirmware key).restoreCommitted.sameButWork_budgetEmergency
  exact ⟨(same.keeps State.running fun _ => rfl).trans (running2.trans running1), (same.keeps State.expired fun _ => rfl).trans (expired2.trans expired1),
    fun none => (same.mem (images2.trans (images1.trans none))).trans (mem2.trans mem1),
    fun latched => (same.keeps State.budget fun _ => rfl).trans ((budget2 (latched1.trans latched)).trans budget1)⟩

/-- The number whose base-16 digits are those of `d`. -/
noncomputable def hexNumber (d : Nat → Nat) (k : Nat) : Nat := (List.range k).foldl (fun m n => m + d n * 16 ^ n) 0

theorem hexNumber_succ (d : Nat → Nat) (k : Nat) : hexNumber d (k + 1) = hexNumber d k + d k * 16 ^ k := by
  simp [hexNumber, List.range_succ]

theorem hexNumber_lt {d : Nat → Nat} (digits : ∀ n, d n < 16) (k : Nat) : hexNumber d k < 16 ^ k := by
  induction k with
  | zero => exact Nat.zero_lt_one
  | succ k ih =>
    rw [hexNumber_succ, Nat.pow_succ', Nat.succ_mul, Nat.add_comm]
    exact Nat.add_lt_add_of_le_of_lt (Nat.mul_le_mul_right _ (Nat.le_of_lt_succ (digits k))) ih

theorem hexNumber_digit {d : Nat → Nat} (digits : ∀ n, d n < 16) {n k : Nat} (inside : n < k) : hexNumber d k / 16 ^ n % 16 = d n := by
  induction k with
  | zero => exact absurd inside (Nat.not_lt_zero n)
  | succ k ih =>
    rw [hexNumber_succ]
    rcases Nat.lt_succ_iff_lt_or_eq.mp inside with below | rfl
    · obtain ⟨q, above⟩ : 16 ^ (n + 1) ∣ d k * 16 ^ k := Dvd.dvd.mul_left (Nat.pow_dvd_pow 16 below) _
      rw [above, Nat.pow_succ, ← Nat.mod_mul_right_div_self, Nat.add_mul_mod_self_left, Nat.mod_mul_right_div_self]
      exact ih below
    · rw [Nat.add_mul_div_right _ _ (Nat.pow_pos (Nat.succ_pos 15)), Nat.div_eq_of_lt (hexNumber_lt digits n), Nat.zero_add, Nat.mod_eq_of_lt (digits n)]

/-- A code of the mask that FUSE bounds from below is the greater of the code that was written and FUSE (R198). -/
theorem fuseCad_digit (cl : Nat) (v : BitVec 32) {n : Nat} (inside : n < 8) :
    (fuseCad cl v).toNat / 16 ^ n % 16 = max (v.toNat / 16 ^ n % 16) (Config.fuse cl).toNat := by
  have digits : ∀ n, Nat.max (v.toNat / 16 ^ n % 16) (Config.fuse cl).toNat < 16 := fun n =>
    Nat.max_lt.mpr ⟨Nat.mod_lt _ (by decide), (Config.fuse cl).isLt⟩
  have eq : (fuseCad cl v).toNat = hexNumber (fun n => Nat.max (v.toNat / 16 ^ n % 16) (Config.fuse cl).toNat) 8 := by
    refine (BitVec.toNat_ofNat _ _).trans ?_
    exact Nat.mod_eq_of_lt (hexNumber_lt digits 8)
  rw [eq, hexNumber_digit digits inside]

/-! ## A change of many clusters -/

/-- A change that is the same when it is made twice, made to every cluster of a list. -/
theorem State.cluster_foldl_modCluster (f : Cluster → Cluster) (twice : ∀ c, f (f c) = f c) (l : List Nat) {s : State}
    (rises : Map.risesFrom 0 s.clusters = true) (n : Nat) :
    (l.foldl (fun s cl => s.modCluster cl f) s).cluster n = if n ∈ l then f (s.cluster n) else s.cluster n := by
  induction l generalizing s with
  | nil => simp
  | cons cl rest ih =>
    refine (ih (s := s.modCluster cl f) (State.clusters_setCluster_rise rises _ _)).trans ?_
    by_cases here : n = cl
    · subst here
      simp [State.modCluster, State.cluster_setCluster rises, twice]
    · simp [State.modCluster, State.cluster_setCluster_ne s _ here, here]

theorem State.foldl_modCluster_rest (f : Cluster → Cluster) (l : List Nat) (s : State) :
    let t := l.foldl (fun s cl => s.modCluster cl f) s
    t.mem = s.mem ∧ t.images = s.images ∧ t.hot = s.hot ∧ t.irqs = s.irqs :=
  ⟨foldl_same State.mem (fun s cl => s.modCluster cl f) (fun _ _ => rfl) l s, foldl_same State.images (fun s cl => s.modCluster cl f) (fun _ _ => rfl) l s,
    foldl_same State.hot (fun s cl => s.modCluster cl f) (fun _ _ => rfl) l s, foldl_same State.irqs (fun s cl => s.modCluster cl f) (fun _ _ => rfl) l s⟩

end Sys2Proof.Machine

namespace Sys2Proof.PowerProofs
open Sys2Proof Sys2Proof.Machine

theorem pmbudgetWrite_acts (s : State) (w : Word) :
    ∃ t, exec (.pmbudgetWrite w) s = .next t ∧ t.budget = min (bits w.toNat 12 0) 1600 ∧ (s.images = [] → t.mem = s.mem) ∧ t.clusters = s.clusters := by
  have same := State.sameButWork_budgetEmergency { s with budget := Nat.min (bits w.toNat 12 0) 1600 }
  exact ⟨s.writeBudget w.toNat, rfl, same.keeps State.budget fun _ => rfl, same.mem, same.keeps State.clusters fun _ => rfl⟩

theorem pmcommit_acts (s : State) :
    ∃ t, exec .pmcommit s = .next t ∧ t.latched = true ∧ t.comBudget = s.budget ∧ t.mem = s.mem ∧ t.ctxs = s.ctxs ∧
      t.clusters.length = s.clusters.length ∧
      ∀ e ∈ s.clusters, (e.1, { e.2 with comTarget := e.2.target, comVset := e.2.vset, comCad := e.2.mxcad }) ∈ t.clusters :=
  ⟨_, rfl, rfl, rfl, rfl, rfl, List.length_map _, fun _ found => List.mem_map.mpr ⟨_, found, rfl⟩⟩

theorem watchdogKick_acts (s : State) :
    ∃ t, exec .watchdogKick s = .next t ∧ t.kickedAt = s.ticks ∧ t.running = (s.running || !(s.mgmt.busy && s.mgmt.live)) ∧ t.budget = s.budget ∧
      t.clusters = s.clusters ∧ t.ticks = s.ticks ∧ (s.images = [] → t.mem = s.mem) := by
  have same := State.sameButWork_budgetEmergency { s with kickedAt := s.ticks, running := s.running || (true && !(s.mgmt.busy && s.mgmt.live)) }
  exact ⟨s.kick true, rfl, same.keeps State.kickedAt fun _ => rfl, same.keeps State.running fun _ => rfl, same.keeps State.budget fun _ => rfl,
    same.keeps State.clusters fun _ => rfl, same.keeps State.ticks fun _ => rfl, same.mem⟩

theorem watchdogExpiry_acts {s : State} (running : s.running = true) (due : s.kickedAt + 1000000 ≤ s.ticks) :
    ∃ t, exec .watchdogExpiry s = .next t ∧ t.running = false ∧ t.expired = true ∧ (s.images = [] → t.mem = s.mem) ∧
      (s.latched = true → t.budget = s.comBudget) :=
  ⟨_, next_of_ite rfl (and_holds running (decide_eq_true due)), State.restart_package _ _⟩

theorem watchdogExpiry_early {s : State} (early : s.ticks < s.kickedAt + 1000000) : exec .watchdogExpiry s = .next s :=
  next_of_not_ite rfl (and_fails (decide_eq_false (Nat.not_le.mpr early)))

theorem mxcadWrite_acts (s : State) (cl : Nat) (w : Word) (rises : Map.risesFrom 0 s.clusters = true) :
    ∃ t, exec (.mxcadWrite cl w) s = .next t ∧ t.mem = s.mem ∧ t.ctxs = s.ctxs ∧
      ∀ n < 8, (t.cluster cl).mxcad.toNat / 16 ^ n % 16 = max (w.toNat / 16 ^ n % 16) (Config.fuse cl).toNat % 16 := by
  refine ⟨s.writeCad cl w.toNat, rfl, rfl, rfl, fun n inside => ?_⟩
  have low : (BitVec.ofNat 32 w.toNat).toNat / 16 ^ n % 16 = w.toNat / 16 ^ n % 16 := by
    have split : 2 ^ 32 = 16 ^ n * 16 ^ (8 - n) := by rw [← Nat.pow_add, Nat.add_sub_cancel' (Nat.le_of_lt inside)]; rfl
    rw [BitVec.toNat_ofNat, split, Nat.mod_mul_right_div_self, Nat.mod_mod_of_dvd _ (dvd_pow_self 16 (Nat.sub_ne_zero_of_lt inside))]
  have digit : max (w.toNat / 16 ^ n % 16) (Config.fuse cl).toNat < 16 := Nat.max_lt.mpr ⟨Nat.mod_lt _ (by decide), (Config.fuse cl).isLt⟩
  rw [State.writeCad, State.modCluster, State.cluster_setCluster rises, fuseCad_digit cl _ inside, low, Nat.mod_eq_of_lt digit]

/-- When a way of a cluster is opened again, and when its top way is gated (R198). -/
def wayOpens (s : State) (cl : Nat) : Prop :=
  (s.cluster cl).state = .on ∧ (s.cluster cl).wgEn = true ∧ (s.cluster cl).waysOn < 16 ∧ (s.cluster cl).manyMisses s.ticks = true
def wayShuts (s : State) (cl : Nat) : Prop :=
  (s.cluster cl).state = .on ∧ (s.cluster cl).wgEn = true ∧ (s.cluster cl).minWays < (s.cluster cl).waysOn ∧ (s.cluster cl).quietMisses s.ticks = true ∧
    (s.wayOwnerOf cl ((s.cluster cl).waysOn - 1) = 0 ∨ ∃ w < (s.cluster cl).waysOn - 1, s.wayOwnerOf cl w = s.wayOwnerOf cl ((s.cluster cl).waysOn - 1))

theorem wayOpens_iff (s : State) (cl : Nat) : ((s.cluster cl).state == .on && (s.cluster cl).wgEn && decide ((s.cluster cl).waysOn < 16) &&
    (s.cluster cl).manyMisses s.ticks) = true ↔ wayOpens s cl := by
  simp only [Bool.and_eq_true, beq_iff_eq, decide_eq_true_eq, and_assoc, wayOpens]

theorem wayShuts_iff (s : State) (cl : Nat) : ((s.cluster cl).state == .on && (s.cluster cl).wgEn && decide ((s.cluster cl).minWays < (s.cluster cl).waysOn) &&
    (s.cluster cl).quietMisses s.ticks && (s.wayOwnerOf cl ((s.cluster cl).waysOn - 1) == 0 ||
      (List.range ((s.cluster cl).waysOn - 1)).any fun w => s.wayOwnerOf cl w == s.wayOwnerOf cl ((s.cluster cl).waysOn - 1))) = true ↔ wayShuts s cl := by
  simp only [Bool.and_eq_true, Bool.or_eq_true, List.any_eq_true, List.mem_range, beq_iff_eq, decide_eq_true_eq, and_assoc, wayShuts]

theorem wayReopen_acts {s : State} {cl : Nat} (opens : wayOpens s cl) :
    exec (.wayReopen cl) s = .next (s.setCluster cl { (s.cluster cl).roll s.ticks with waysOn := (s.cluster cl).waysOn + 1 }) :=
  next_of_ite rfl ((wayOpens_iff s cl).mpr opens)

theorem wayReopen_waits {s : State} {cl : Nat} (shut : ¬ wayOpens s cl) : exec (.wayReopen cl) s = .next s :=
  next_of_not_ite rfl (mt (wayOpens_iff s cl).mp shut)

theorem wayGate_acts {s : State} {cl : Nat} (shuts : wayShuts s cl) :
    ∃ t, exec (.wayGate cl) s = .next t ∧ t.mem = s.mem ∧ t.ctxs = s.ctxs ∧
      t.clusters = (s.setCluster cl { (s.cluster cl).roll s.ticks with waysOn := (s.cluster cl).waysOn - 1, lowSince := s.ticks }).clusters ∧
      ∀ e ∈ t.slices, ¬ (e.1 / 2 ^ 31 = cl ∧ e.2.way = (s.cluster cl).waysOn - 1) := by
  refine ⟨_, next_of_ite rfl ((wayShuts_iff s cl).mpr shuts), rfl, rfl, rfl, fun e kept gone => ?_⟩
  have other := (List.mem_filter.mp kept).2
  rw [Bool.not_eq_true'] at other
  exact Bool.eq_false_iff.mp other (and_holds (beq_iff_eq.mpr gone.1) (beq_iff_eq.mpr gone.2))

theorem wayGate_waits {s : State} {cl : Nat} (stays : ¬ wayShuts s cl) : exec (.wayGate cl) s = .next s :=
  next_of_not_ite rfl (mt (wayShuts_iff s cl).mp stays)

/-- The lowest step of a cluster's loop, the state with a die hot and its clusters at it, and the state with the leases of a die evicted. -/
noncomputable def lowest (c : Cluster) : Cluster := { c with current := 0, lock := false }
noncomputable def heated (s : State) (die : Nat) : State :=
  ((List.range 12).map fun i => 12 * die + i).foldl (fun s cl => s.modCluster cl lowest) { s with hot := setBit s.hot die true }

noncomputable def dieEvicted (s : State) (die : Nat) : State :=
  ((s.engines.filter fun e => dieOfCluster (engineCluster e.1) == die).map fun e => e.1).foldl (fun s e => s.evictWithin e 200) s

theorem heated_rest (s : State) (die : Nat) : (heated s die).mem = s.mem ∧ (heated s die).images = s.images ∧ (heated s die).hot = setBit s.hot die true ∧
    (heated s die).irqs = s.irqs := State.foldl_modCluster_rest _ _ _

theorem heated_cluster {s : State} (rises : Map.risesFrom 0 s.clusters = true) (die : Nat) {i : Nat} (inside : i < 12) :
    (heated s die).cluster (12 * die + i) = lowest (s.cluster (12 * die + i)) :=
  (State.cluster_foldl_modCluster lowest (fun _ => rfl) _ (s := { s with hot := setBit s.hot die true }) rises _).trans
    (if_pos (List.mem_map.mpr ⟨i, List.mem_range.mpr inside, rfl⟩))

/-- A thermal trip of a die that is not over it: its clusters go to the lowest step, their leases are evicted, and the host is interrupted (R205). -/
theorem thermalTrip_acts (s : State) {die : Nat} (real : die < 4) (cool : s.hot.getLsbD die = false) (rises : Map.risesFrom 0 s.clusters = true) :
    ∃ t, exec (.thermalTrip die) s = .next t ∧ t.hot.getLsbD die = true ∧ t.irqs = s.irqs ++ [HostIrq.thermal die] ∧ (s.images = [] → t.mem = s.mem) ∧
      ∀ i < 12, (t.cluster (12 * die + i)).current = 0 ∧ (t.cluster (12 * die + i)).target = (s.cluster (12 * die + i)).target := by
  have same : (heated s die).sameButWork (dieEvicted (heated s die) die) :=
    State.sameButWork_foldl _ (fun s e => s.sameButWork_evictWithin e 200) _ _
  obtain ⟨mem, images, hot, irqs⟩ := heated_rest s die
  refine ⟨(dieEvicted (heated s die) die).interrupt (.thermal die), next_of_not_ite (t := s) ?_ (Bool.eq_false_iff.mp cool), ?_, ?_, fun none => ?_, fun i inside => ?_⟩
  · show execThermalTrip die s = _
    rw [execThermalTrip, runEvent, Nat.mod_eq_of_lt real]
    rfl
  · exact (congrArg (BitVec.getLsbD · die) ((same.keeps State.hot fun _ => rfl).trans hot)).trans (setBit_get _ _ _ real)
  · exact congrArg (· ++ [HostIrq.thermal die]) ((same.keeps State.irqs fun _ => rfl).trans irqs)
  · exact (same.mem (images.trans none)).trans mem
  · have now := (same.keeps (fun u => u.cluster (12 * die + i)) fun _ => rfl).trans (heated_cluster rises die inside)
    exact ⟨congrArg Cluster.current now, (congrArg Cluster.target now :)⟩

theorem thermalRecovery_acts (s : State) {die : Nat} (real : die < 4) :
    ∃ t, exec (.thermalRecovery die) s = .next t ∧ t.hot.getLsbD die = false ∧ (∀ d, d ≠ die → t.hot.getLsbD d = s.hot.getLsbD d) ∧
      t.ctxs = s.ctxs ∧ t.mem = s.mem := by
  refine ⟨{ s with hot := setBit s.hot (die % 4) false }, rfl, ?_, fun d other => ?_, rfl, rfl⟩
  · rw [Nat.mod_eq_of_lt real, setBit_get _ _ _ real]
  · rw [Nat.mod_eq_of_lt real, setBit_get_ne _ _ other]

/-- Nothing is granted on a die that is too hot (R205). -/
theorem grantable_of_hot {s : State} {r : LeaseReq} (hot : s.hot.getLsbD (dieOfCluster r.cluster) = true) : s.grantable r = false := by
  have held : s.reasonOf r = .held := if_pos (by rw [hot, Bool.or_true])
  rw [State.grantable, State.fits, held]
  rfl

theorem leaseGrant_of_hot {s : State} {r : LeaseReq} (hot : s.hot.getLsbD (dieOfCluster r.cluster) = true)
    (waits : (s.requests.find? fun q => q.id == r.id) = some r) : exec (.leaseGrant r.id) s = .next s := by
  show execLeaseGrant r.id s = _
  simp [execLeaseGrant, runEvent, waits, grantable_of_hot hot]

theorem packagePower_holds : Claims.packagePower := fun s =>
  ⟨pmbudgetWrite_acts s, pmcommit_acts s, watchdogKick_acts s, watchdogExpiry_acts, watchdogExpiry_early, mxcadWrite_acts s,
    fun _ => ⟨wayReopen_acts, wayReopen_waits, wayGate_acts, wayGate_waits⟩, fun _ real => ⟨thermalTrip_acts s real, thermalRecovery_acts s real⟩,
    fun _ hot => ⟨grantable_of_hot hot, leaseGrant_of_hot hot⟩⟩

end Sys2Proof.PowerProofs

open Sys2Proof Sys2Proof.Machine Sys2Proof.PowerProofs

/-- Settles O59: each event's case by its own lemma; what an eviction may change says that clusters, registers and memory stay. -/
theorem powerRegisters : Obligations.PowerRegisters := ⟨clocksAndRails_hold, packagePower_holds⟩

end

section

namespace Sys2Proof.Machine

/-! ## Two writes of one entry, and two changes of one cluster -/

theorem Map.set_of_below {α : Type} [DecidableEq α] (d : α) {m : Map α} {k : Nat} (v : α) (above : Map.risesFrom (k + 1) m = true) :
    Map.set d m k v = if v = d then m else (k, v) :: m := by
  cases m with
  | nil => rfl
  | cons p rest => exact if_pos (of_decide_eq_true (Bool.and_eq_true_iff.mp above).1)

theorem Map.set_here {α : Type} [DecidableEq α] (d : α) (m : Map α) (k : Nat) (v w : α) :
    Map.set d ((k, v) :: m) k w = if w = d then m else (k, w) :: m :=
  (if_neg (Nat.lt_irrefl k)).trans (if_pos rfl)

theorem Map.set_past {α : Type} [DecidableEq α] (d : α) (m : Map α) {j k : Nat} (u w : α) (past : j < k) :
    Map.set d ((j, u) :: m) k w = (j, u) :: Map.set d m k w :=
  (if_neg (Nat.lt_asymm past)).trans (if_neg past.ne')

theorem Map.set_set_of_below {α : Type} [DecidableEq α] (d : α) {m : Map α} {k : Nat} (v w : α) (above : Map.risesFrom (k + 1) m = true) :
    Map.set d (if v = d then m else (k, v) :: m) k w = if w = d then m else (k, w) :: m := by
  split
  · exact Map.set_of_below d w above
  · exact Map.set_here d m k v w

theorem Map.set_set {α : Type} [DecidableEq α] (d : α) (k : Nat) (v w : α) {m : Map α} {n : Nat} (rises : Map.risesFrom n m = true) :
    Map.set d (Map.set d m k v) k w = Map.set d m k w := by
  induction m generalizing n with
  | nil => exact (Map.set_set_of_below d v w rfl).trans (Map.set_of_below d (m := []) w rfl).symm
  | cons p rest ih =>
    obtain ⟨j, u⟩ := p
    have above := (Bool.and_eq_true_iff.mp rises).2
    rcases Nat.lt_trichotomy k j with below | rfl | past
    · have high : Map.risesFrom (k + 1) ((j, u) :: rest) = true := Bool.and_eq_true_iff.mpr ⟨decide_eq_true below, above⟩
      rw [Map.set_of_below d v high, Map.set_set_of_below d v w high, Map.set_of_below d w high]
    · rw [Map.set_here, Map.set_set_of_below d v w above, Map.set_here]
    · rw [Map.set_past d _ _ _ past, Map.set_past d _ _ _ past, Map.set_past d _ _ _ past, ih above]

section
variable {s : State} (rises : Map.risesFrom 0 s.clusters = true) (cl : Nat)
include rises

theorem State.setCluster_setCluster (c d : Cluster) : (s.setCluster cl c).setCluster cl d = s.setCluster cl d :=
  congrArg (fun m => { s with clusters := m }) (Map.set_set _ _ _ _ rises)

theorem State.modCluster_setCluster (c : Cluster) (f : Cluster → Cluster) : (s.setCluster cl c).modCluster cl f = s.setCluster cl (f c) := by
  rw [State.modCluster, State.cluster_setCluster rises, State.setCluster_setCluster rises]

/-! ## The ends of operations (R200, R419) -/

/-- A cluster as an operation ends in a state, as one fails, and as one begins. -/
noncomputable def Cluster.ended (c : Cluster) (st : Clpm) : Cluster := { c with op := none, state := st, done := true }
noncomputable def Cluster.failed (c : Cluster) (code : Nat) : Cluster := { c with op := none, err := true, errcode := code }
noncomputable def Cluster.begun (c : Cluster) (op : ClpmOp) (now req : Nat) : Cluster :=
  { c with op := some op, opSince := now, req := req }

/-- Outside a wake sequence and without a RING the end of an operation is its state and DONE. -/
theorem State.endOp_quiet (st : Clpm) (asleep : (s.cluster cl).waking = false) (silent : (s.cluster cl).ringPending = false) :
    s.endOp cl st = s.setCluster cl ((s.cluster cl).ended st) :=
  have now := State.cluster_setCluster rises cl { s.cluster cl with op := none, state := st }
  (if_neg (Bool.eq_false_iff.mp ((congrArg Cluster.waking now).trans asleep))).trans
    ((if_neg (Bool.eq_false_iff.mp ((congrArg Cluster.ringPending now).trans silent))).trans (State.modCluster_setCluster rises cl _ _))

theorem State.endOp_setCluster {c : Cluster} (st : Clpm) (asleep : c.waking = false) (silent : c.ringPending = false) :
    (s.setCluster cl c).endOp cl st = s.setCluster cl (c.ended st) := by
  have now := State.cluster_setCluster rises cl c
  rw [State.endOp_quiet (State.clusters_setCluster_rise rises cl c) cl st (by rw [now, asleep]) (by rw [now, silent]), now,
    State.setCluster_setCluster rises]

omit rises in
/-- Outside a wake sequence and without a RING a failure is its code alone. -/
theorem State.failOp_quiet (code : Nat) (asleep : (s.cluster cl).waking = false) (silent : (s.cluster cl).ringPending = false) :
    s.failOp cl code = s.setCluster cl ((s.cluster cl).failed code) := by
  refine (if_neg (by rw [silent]; exact Bool.false_ne_true)).trans (congrArg (s.setCluster cl) ?_)
  exact congrArg₂ (fun w r => Cluster.error { s.cluster cl with op := none, waking := w, ringPending := r } code) asleep.symm
    (by rw [silent]; rfl : ((s.cluster cl).ringPending && !(s.cluster cl).waking) = (s.cluster cl).ringPending)

theorem State.failOp_setCluster {c : Cluster} (code : Nat) (asleep : c.waking = false) (silent : c.ringPending = false) :
    (s.setCluster cl c).failOp cl code = s.setCluster cl (c.failed code) := by
  have now := State.cluster_setCluster rises cl c
  rw [State.failOp_quiet cl code (by rw [now, asleep]) (by rw [now, silent]), now, State.setCluster_setCluster rises]

end

/-! ## The requests of CLPM_REQ and CLPM_RAIL (R199, R200) -/

theorem Cluster.op_of_idle {c : Cluster} (idle : c.busy = false) : c.op = none := by
  simp only [Cluster.busy, Bool.or_eq_false_iff, Option.isSome_eq_false_iff, Option.isNone_iff_eq_none] at idle
  exact idle.1

/-- A busy block refuses every request, but for the RESUME that cancels a QUIESCE. -/
theorem State.requestOp_busy {s : State} {cl op : Nat} (real : 0 < op ∧ op ≤ 5) (busy : (s.cluster cl).busy = true)
    (other : (s.cluster cl).op ≠ some .quiesce) : s.requestOp cl op = s.setCluster cl ((s.cluster cl).error 2) :=
  (if_neg real.1.ne').trans ((if_neg (Nat.not_lt.mpr real.2)).trans ((if_neg fun h => other h.2).trans (if_pos busy)))

section
variable {s : State} {cl : Nat} (idle : (s.cluster cl).busy = false)
include idle

/-- What an idle block does with a request, by its state. -/
noncomputable def State.idleRequest (s : State) (cl op : Nat) (st : Clpm) : State :=
  match op, st with
  | 1, .on => s.startQuiesce cl
  | 2, .quiesced => s.startOp cl .handoff (some 2)
  | 3, st => if !(s.cluster cl).retValid then s.modCluster cl fun c => c.error 3 else if st = .away then s.startOp cl .clkgate (some 3)
    else s.modCluster cl fun c => c.error 1
  | 4, .clkoff => (s.startOp cl .clkungate (some 4)).modCluster cl fun c => { c with current := 0, lock := false, fllStep := s.ticks }
  | 5, .away => if (s.cluster cl).railcyc then s.modCluster cl fun c => c.error 1 else s.startOp cl .resume (some 5)
  | 5, .quiesced => if (s.cluster cl).railcyc then s.modCluster cl fun c => c.error 1 else s.startOp cl .resume (some 5)
  | _, _ => s.modCluster cl fun c => c.error 1

theorem State.requestOp_idle {op : Nat} (real : 0 < op ∧ op ≤ 5) : s.requestOp cl op = s.idleRequest cl op (s.cluster cl).state := by
  have none : ¬ (op = 5 ∧ (s.cluster cl).op = some .quiesce) := fun h => by rw [Cluster.op_of_idle idle] at h; cases h.2
  refine (if_neg real.1.ne').trans ((if_neg (Nat.not_lt.mpr real.2)).trans ((if_neg none).trans ((if_neg (Bool.eq_false_iff.mp idle)).trans ?_)))
  rfl

theorem State.requestOp_quiesce (on : (s.cluster cl).state = .on) : s.requestOp cl 1 = s.startQuiesce cl := by
  rw [State.requestOp_idle idle (by decide), on]
  rfl

theorem State.requestOp_quiesce_refused (off : (s.cluster cl).state ≠ .on) : s.requestOp cl 1 = s.setCluster cl ((s.cluster cl).error 1) := by
  refine (State.requestOp_idle idle (by decide)).trans ?_
  generalize (s.cluster cl).state = st at off ⊢
  cases st with
  | on => exact absurd rfl off
  | _ => rfl

theorem State.requestOp_handoff : s.requestOp cl 2 = s.setCluster cl
    (if (s.cluster cl).state = .quiesced then (s.cluster cl).begun .handoff s.ticks 2 else (s.cluster cl).error 1) := by
  refine (State.requestOp_idle idle (by decide)).trans ?_
  generalize (s.cluster cl).state = st
  cases st <;> rfl

theorem State.requestOp_clkgate : s.requestOp cl 3 = s.setCluster cl
    (if (s.cluster cl).retValid then if (s.cluster cl).state = .away then (s.cluster cl).begun .clkgate s.ticks 3 else (s.cluster cl).error 1
     else (s.cluster cl).error 3) := by
  refine (State.requestOp_idle idle (by decide)).trans ?_
  unfold State.idleRequest
  generalize (s.cluster cl).state = st, (s.cluster cl).retValid = valid
  cases valid with
  | false => rfl
  | true => cases st <;> rfl

theorem State.requestOp_clkungate (rises : Map.risesFrom 0 s.clusters = true) : s.requestOp cl 4 = s.setCluster cl
    (if (s.cluster cl).state = .clkoff then { (s.cluster cl).begun .clkungate s.ticks 4 with current := 0, lock := false, fllStep := s.ticks }
     else (s.cluster cl).error 1) := by
  refine (State.requestOp_idle idle (by decide)).trans ?_
  generalize (s.cluster cl).state = st
  cases st with
  | clkoff => exact State.modCluster_setCluster rises cl ((s.cluster cl).begun .clkungate s.ticks 4) fun c => { c with current := 0, lock := false, fllStep := s.ticks }
  | _ => rfl

theorem State.requestOp_resume : s.requestOp cl 5 = s.setCluster cl
    (if ((s.cluster cl).state = .away ∨ (s.cluster cl).state = .quiesced) ∧ (s.cluster cl).railcyc = false then
      (s.cluster cl).begun .resume s.ticks 5 else (s.cluster cl).error 1) := by
  refine (State.requestOp_idle idle (by decide)).trans ?_
  unfold State.idleRequest
  generalize (s.cluster cl).state = st, (s.cluster cl).railcyc = cycled
  cases cycled <;> cases st <;> rfl

end

/-- A RESUME cancels a QUIESCE (R200). -/
theorem State.requestOp_cancel {s : State} {cl op : Nat} (rises : Map.risesFrom 0 s.clusters = true) (resume : op = 5)
    (quiesces : (s.cluster cl).op = some .quiesce) (asleep : (s.cluster cl).waking = false) (silent : (s.cluster cl).ringPending = false) :
    s.requestOp cl op = s.setCluster cl (Cluster.ended { s.cluster cl with req := 5 } .on) := by
  refine (if_neg (by rw [resume]; decide)).trans ((if_neg (by rw [resume]; decide)).trans ((if_pos ⟨resume, quiesces⟩).trans ?_))
  exact State.endOp_setCluster rises cl (c := { s.cluster cl with req := 5 }) .on asleep silent

/-- A change of a cluster, an operation that begins, and another change. -/
theorem State.modCluster_startOp_modCluster {s : State} {cl : Nat} (rises : Map.risesFrom 0 s.clusters = true) (f g : Cluster → Cluster) (op : ClpmOp) :
    ((s.modCluster cl f).startOp cl op none).modCluster cl g = s.setCluster cl (g { f (s.cluster cl) with op := some op, opSince := s.ticks }) := by
  have begun : (s.modCluster cl f).startOp cl op none = s.setCluster cl { f (s.cluster cl) with op := some op, opSince := s.ticks } :=
    State.modCluster_setCluster rises cl (f (s.cluster cl)) _
  rw [begun, State.modCluster_setCluster rises]

theorem ite_not_eq {p : Prop} [Decidable p] {f : Cluster → State} {a b : State} {x y : Cluster} (yes : b = f x) (no : a = f y) :
    (if ¬ p then a else b) = f (if p then x else y) := by
  subst yes no
  by_cases h : p
  · rw [if_pos h, if_neg (not_not_intro h)]
  · rw [if_neg h, if_pos h]

section
variable {s : State} {cl v : Nat} {en : Bool} (bit : (bits v 7 7 == 1) = en) (change : en ≠ (s.cluster cl).en)
include bit change

theorem State.writeRail_busy (busy : (s.cluster cl).busy = true) : s.writeRail cl v = s.setCluster cl ((s.cluster cl).error 2) := by
  subst bit
  exact (if_neg change).trans (if_pos busy)

/-- A write of EN to an idle block begins its operation in the state that it asks for. -/
theorem State.writeRail_idle (rises : Map.risesFrom 0 s.clusters = true) (idle : (s.cluster cl).busy = false) {d : Cluster}
    (keep : (s.cluster cl).setVset (bits v 6 0) s.ticks = d) : s.writeRail cl v = s.setCluster cl
      (if (s.cluster cl).state = (if en then .railoff else .clkoff) then
        { d with op := some (if en then .railOn else .railOff), opSince := s.ticks, en := en, pgood := false }
       else (s.cluster cl).error 1) := by
  subst bit keep
  exact (if_neg change).trans ((if_neg (Bool.eq_false_iff.mp idle)).trans (ite_not_eq (State.modCluster_startOp_modCluster rises _ _ _) rfl))

end

section
variable {s : State} {cl v : Nat} (same : bits v 6 0 = (s.cluster cl).vset) (rises : Map.risesFrom 0 s.clusters = true) (low : 20 ≤ (s.cluster cl).vset)
  (high : (s.cluster cl).vset ≤ 100) (idle : (s.cluster cl).busy = false)
include rises same low high idle

theorem State.writeRail_off (zero : (bits v 7 7 == 1) = false) (on : (s.cluster cl).en = true) : s.writeRail cl v = s.setCluster cl
    (if (s.cluster cl).state = .clkoff then
      { s.cluster cl with op := some .railOff, opSince := s.ticks, en := false, pgood := false, railStep := s.ticks }
     else (s.cluster cl).error 1) :=
  have keep := Cluster.setVset_on s.ticks low high on (by rw [Cluster.op_of_idle idle]; exact (Option.some_ne_none _).symm)
  State.writeRail_idle zero (by rw [on]; exact Bool.false_ne_true) rises idle ((congrArg (Cluster.setVset _ · s.ticks) same).trans keep)

theorem State.writeRail_on (one : (bits v 7 7 == 1) = true) (off : (s.cluster cl).en = false) : s.writeRail cl v = s.setCluster cl
    (if (s.cluster cl).state = .railoff then { s.cluster cl with op := some .railOn, opSince := s.ticks, en := true, pgood := false }
     else (s.cluster cl).error 1) :=
  have keep := Cluster.setVset_off s.ticks low high (.inl off)
  State.writeRail_idle one (by rw [off]; exact Bool.false_ne_true.symm) rises idle ((congrArg (Cluster.setVset _ · s.ticks) same).trans keep)

end

/-! ## The end of an instruction in flight -/

theorem State.sameButWork_modCtx (s : State) (k : Nat) (f : Ctx → Ctx) : s.sameButWork (s.modCtx k f) := by
  unfold State.modCtx
  split
  · exact .refl s
  · exact s.sameButWork_setCtx _ _

theorem State.sameButWork_dropOp (s : State) (id : Nat) : s.sameButWork (s.dropOp id) := ⟨rfl, fun none => ⟨none, rfl⟩⟩
theorem State.sameButWork_wakeAll (s : State) : s.sameButWork s.wakeAll := ⟨rfl, fun none => ⟨none, rfl⟩⟩

theorem State.sameButWork_finishOp (s : State) (o : Op) (g : Word) (v : List VWord) : s.sameButWork (s.finishOp o g v) :=
  (s.sameButWork_dropOp o.id).trans ((State.sameButWork_modOwner _ _ _).trans (State.sameButWork_modCtx _ _ _))

/-- QUIESCE begins: no request of the cluster stays, and the rest is work of contexts and engines (R176, R200). -/
theorem State.startQuiesce_spec {s : State} {cl : Nat} (rises : Map.risesFrom 0 s.clusters = true) :
    (s.startQuiesce cl).cluster cl = (s.cluster cl).begun .quiesce s.ticks 1 ∧
    (s.images = [] → (s.startQuiesce cl).mem = s.mem) ∧ ∀ r ∈ (s.startQuiesce cl).requests, r.cluster ≠ cl := by
  let s0 : State := s.startOp cl .quiesce (some 1)
  let s1 : State := { s0 with requests := s0.requests.filter fun r => r.cluster != cl }
  have withdrawn : s1.sameButWork (s0.withdrawAll cl) := State.sameButWork_foldl _ (fun _ o => State.sameButWork_finishOp _ o (refusal 6) []) _ s1
  have noticed : (s0.withdrawAll cl).sameButWork (s.startQuiesce cl) := State.sameButWork_foldl _ State.sameButWork_noticeOf _ _
  have same := withdrawn.trans noticed
  refine ⟨?_, same.mem, fun r waits => ?_⟩
  · have now : (s.startQuiesce cl).cluster cl = s0.cluster cl := same.keeps (fun u => u.cluster cl) fun _ => rfl
    exact now.trans (State.cluster_setCluster rises cl _)
  · have left : (s.startQuiesce cl).requests = s0.requests.filter fun r => r.cluster != cl := same.keeps State.requests fun _ => rfl
    rw [left] at waits
    simpa using (List.mem_filter.mp waits).2

end Sys2Proof.Machine

namespace Sys2Proof.PowerProofs
open Sys2Proof Sys2Proof.Machine

theorem clusterOnly_of_setCluster {s : State} {i : Instr} {cl : Nat} {c : Cluster} (rises : Map.risesFrom 0 s.clusters = true)
    (acts : exec i s = .next (s.setCluster cl c)) : Claims.clusterOnly s i cl c :=
  ⟨_, acts, State.cluster_setCluster rises cl c, fun _ other => State.cluster_setCluster_ne s c other, rfl, rfl, rfl⟩

/-- An event that is a change of one cluster. -/
theorem clusterOnly_of_eq {s t : State} {i : Instr} {cl : Nat} {c : Cluster} (rises : Map.risesFrom 0 s.clusters = true)
    (acts : exec i s = .next t) (change : t = s.setCluster cl c) : Claims.clusterOnly s i cl c :=
  clusterOnly_of_setCluster rises (change ▸ acts)

theorem request_refused_busy {s : State} {cl : Nat} (rises : Map.risesFrom 0 s.clusters = true) (busy : (s.cluster cl).busy = true)
    (other : (s.cluster cl).op ≠ some .quiesce) :
    ∀ i ∈ [Instr.quiesce cl, .handoff cl, .clkgate cl, .clkungate cl, .clpmResume cl], Claims.clusterOnly s i cl ((s.cluster cl).error 2) := by
  have refuses (i : Instr) (op : Nat) (acts : exec i s = .next (s.requestOp cl op)) (real : 0 < op ∧ op ≤ 5) :
      Claims.clusterOnly s i cl ((s.cluster cl).error 2) :=
    clusterOnly_of_eq rises acts (State.requestOp_busy real busy other)
  simp only [List.forall_mem_cons, List.not_mem_nil, false_implies, implies_true, and_true]
  exact ⟨refuses _ 1 rfl (by decide), refuses _ 2 rfl (by decide), refuses _ 3 rfl (by decide), refuses _ 4 rfl (by decide),
    refuses _ 5 rfl (by decide)⟩

theorem bits_railOff {v : Nat} (high : v ≤ 100) : bits v 6 0 = v ∧ bits v 7 7 = 0 := by
  revert v
  decide

theorem bits_railOn {v : Nat} (high : v ≤ 100) : bits (v + 128) 6 0 = v ∧ bits (v + 128) 7 7 = 1 := by
  revert v
  decide

theorem clusterOperations_hold : Claims.clusterOperations := by
  intro s cl rises c becomes starts
  have acts {i : Instr} {t : State} {c' : Cluster} (eq : t = s.setCluster cl c') (acts : exec i s = .next t) : Claims.clusterOnly s i cl c' :=
    clusterOnly_of_eq rises acts eq
  refine ⟨fun idle => ⟨fun on => ?_, fun off => acts (State.requestOp_quiesce_refused idle off) rfl, acts (State.requestOp_handoff idle) rfl,
    acts (State.requestOp_clkgate idle) rfl, acts (State.requestOp_clkungate idle rises) rfl, acts (State.requestOp_resume idle) rfl⟩,
    request_refused_busy rises, fun quiesces asleep silent => acts (State.requestOp_cancel rises rfl quiesces asleep silent) rfl, fun low high => ?_⟩
  · exact ⟨_, congrArg Host.Outcome.next (State.requestOp_quiesce idle on), State.startQuiesce_spec rises⟩
  · have off := bits_railOff high
    have on := bits_railOn high
    have zero : (bits c.vset 7 7 == 1) = false := by rw [off.2]; rfl
    have one : (bits (c.vset + 128) 7 7 == 1) = true := by rw [on.2]; rfl
    exact ⟨fun en idle => acts (State.writeRail_off off.1 rises low high idle zero en) rfl,
      fun en idle => acts (State.writeRail_on on.1 rises low high idle one en) rfl,
      fun busy => ⟨fun en => acts (State.writeRail_busy zero (by rw [en]; exact Bool.false_ne_true) busy) rfl,
        fun en => acts (State.writeRail_busy one (by rw [en]; exact Bool.false_ne_true.symm) busy) rfl⟩⟩

end Sys2Proof.PowerProofs

namespace Sys2Proof.Machine

/-! ## What the caches of a cluster's tiles leave at HANDOFF (R200, R245) -/

/-- A cluster without its estimator of way gating. -/
noncomputable def Cluster.withoutMisses (c : Cluster) : Cluster := { c with missWin := 0, missAcc := 0, misses := 0, lowSince := 0 }

theorem Cluster.withoutMisses_countMiss (c : Cluster) (now : Nat) (miss : Bool) : (c.countMiss now miss).withoutMisses = c.withoutMisses := by
  unfold Cluster.countMiss Cluster.roll
  split <;> rfl

theorem State.lineFor_clusters (s : State) (cl tile pa : Nat) : (s.lineFor cl tile pa).2.clusters = s.clusters := by
  obtain ⟨_, _, lined⟩ := s.lineFor_eq cl tile pa
  exact (congrArg State.clusters lined :)

/-- An access to a slice counts in the estimator of its cluster. -/
theorem State.sliceAccess_clusters (s : State) (tile pa : Nat) (w : Bool) : (s.sliceAccess tile pa w).clusters = s.clusters ∨
    ∃ miss, (s.sliceAccess tile pa w).clusters =
      (s.setCluster (clusterOfTile tile) ((s.cluster (clusterOfTile tile)).countMiss s.ticks miss)).clusters := by
  unfold State.sliceAccess
  split
  · exact .inl rfl
  · extract_lets cl n old hit s1 s2
    have counted : s2.clusters = s1.clusters := by cases w <;> rfl
    refine .inr ⟨!hit, Eq.trans ?_ ((s2.lineFor_clusters cl tile pa).trans counted)⟩
    generalize s2.lineFor cl tile pa = found
    obtain ⟨line, t⟩ := found
    cases line <;> rfl

/-- What the flush of a tile's ways leaves of the machine: the contexts, each cluster but for its estimator, and no sector of the ways that did not stand
there before. -/
abbrev State.flushed (s t : State) : Prop :=
  t.ctxs = s.ctxs ∧ Map.risesFrom 0 t.clusters = true ∧ (∀ n, (t.cluster n).withoutMisses = (s.cluster n).withoutMisses) ∧
    ∀ k ∈ t.tileCache.map Prod.fst, k ∈ s.tileCache.map Prod.fst

theorem State.flushed.refl {s : State} (rises : Map.risesFrom 0 s.clusters = true) : s.flushed s :=
  ⟨rfl, rises, fun _ => rfl, fun _ found => found⟩

theorem State.flushed.rises {s t : State} (flushed : s.flushed t) : Map.risesFrom 0 t.clusters = true := flushed.2.1

theorem State.flushed.trans {s t u : State} (first : s.flushed t) (second : t.flushed u) : s.flushed u := by
  obtain ⟨ctxs, _, cluster, sectors⟩ := first
  obtain ⟨ctxs', rises', cluster', sectors'⟩ := second
  exact ⟨ctxs'.trans ctxs, rises', fun n => (cluster' n).trans (cluster n), fun k found => sectors k (sectors' k found)⟩

theorem State.withoutMisses_countMiss {s : State} (rises : Map.risesFrom 0 s.clusters = true) (cl now : Nat) (miss : Bool) (n : Nat) :
    ((s.setCluster cl ((s.cluster cl).countMiss now miss)).cluster n).withoutMisses = (s.cluster n).withoutMisses := by
  by_cases here : n = cl
  · rw [here, State.cluster_setCluster rises]
    exact Cluster.withoutMisses_countMiss _ _ _
  · rw [State.cluster_setCluster_ne s _ here]

theorem State.flushed_sliceAccess {s : State} (rises : Map.risesFrom 0 s.clusters = true) (tile pa : Nat) (w : Bool) :
    s.flushed (s.sliceAccess tile pa w) ∧ (s.sliceAccess tile pa w).tileCache = s.tileCache := by
  have estimated : Map.risesFrom 0 (s.sliceAccess tile pa w).clusters = true ∧
      ∀ n, (Map.get {} (s.sliceAccess tile pa w).clusters n).withoutMisses = (s.cluster n).withoutMisses := by
    rcases s.sliceAccess_clusters tile pa w with same | ⟨miss, counted⟩
    · rw [same]
      exact ⟨rises, fun _ => rfl⟩
    · rw [counted]
      exact ⟨State.clusters_setCluster_rise rises _ _, State.withoutMisses_countMiss rises _ _ miss⟩
  obtain ⟨_, _, _, eq⟩ := s.sliceAccess_eq tile pa w
  have cache : (s.sliceAccess tile pa w).tileCache = s.tileCache := (congrArg State.tileCache eq :)
  exact ⟨⟨(congrArg State.ctxs eq :), estimated.1, estimated.2, fun k found => cache ▸ found⟩, cache⟩

theorem State.flushed_sendSector {s : State} (rises : Map.risesFrom 0 s.clusters = true) (tile pa : Nat) (x : Sector) :
    s.flushed (s.sendSector tile pa x) ∧ (s.sendSector tile pa x).tileCache = s.tileCache := by
  unfold State.sendSector
  exact State.flushed_sliceAccess (s := { s with
    mem := (List.range 32).foldl (fun m j => if x.own.getLsbD j then Memory.write m (pa + j) (x.byte j) else m) s.mem
    badSectors := if x.own = BitVec.allOnes 32 then s.badSectors.filter fun b => b != pa / 32 else s.badSectors }) rises tile pa true

theorem Sector.clean_of_stored_zero (x : Sector) : ({ x with stored := 0 } : Sector).dirty = false := by simp [Sector.dirty, Sector.own]

/-- Every sector of a tile meets an address. -/
theorem ofTile_all (tile : Nat) (e : Nat × Sector) : ofTile tile (fun _ => true) e = (sectorTile e.1 == tile) := by
  have all : ((List.range 32).any fun _ => true) = true := rfl
  rw [ofTile, all, Bool.and_true]

/-- A change of the sectors of a map leaves which there are. -/
theorem mem_fst_map {α : Type} {f : Nat × α → Nat × α} (same : ∀ e, (f e).1 = e.1) {l : List (Nat × α)} {k : Nat} :
    k ∈ (l.map f).map Prod.fst ↔ k ∈ l.map Prod.fst := by
  rw [List.map_map, show Prod.fst ∘ f = Prod.fst from funext same]

/-- An entry of a tile as a write-back leaves it. -/
theorem written_clean {tile : Nat} {e e' : Nat × Sector} (here : sectorTile e.1 = tile)
    (written : (if (e'.2.dirty && ofTile tile (fun _ => true) e') = true then (e'.1, { e'.2 with stored := 0 }) else e') = e) : e.2.dirty = false := by
  by_cases hit : (e'.2.dirty && ofTile tile (fun _ => true) e') = true
  · rw [← written, if_pos hit]
    exact Sector.clean_of_stored_zero _
  · rw [if_neg hit] at written
    rw [written, ofTile_all, beq_iff_eq.mpr here, Bool.and_true] at hit
    exact Bool.eq_false_iff.mpr hit

/-- A write-back of a whole tile leaves every sector of it clean. -/
theorem State.flushed_writeBack {s : State} (rises : Map.risesFrom 0 s.clusters = true) (tile : Nat) :
    s.flushed (s.writeBack tile fun _ => true) ∧ ∀ e ∈ (s.writeBack tile fun _ => true).tileCache, sectorTile e.1 = tile → e.2.dirty = false := by
  have sent : s.flushed ((s.tileCache.filter fun e => e.2.dirty && ofTile tile (fun _ => true) e).foldl
      (fun s e => s.sendSector tile (sectorPa e.1) e.2) s) := by
    refine foldl_keeps (fun t => s.flushed t) _ (fun t e flushed => ?_) _ s (.refl rises)
    exact flushed.trans (State.flushed_sendSector flushed.rises tile (sectorPa e.1) e.2).1
  refine ⟨sent.trans ⟨rfl, sent.rises, fun _ => rfl, fun k found => (mem_fst_map fun e => ?_).mp found⟩, fun e found here => ?_⟩
  · split <;> rfl
  · obtain ⟨e', _, written⟩ := List.mem_map.mp found
    exact written_clean here written

/-- A flush of a whole tile leaves none of its sectors in the ways. -/
theorem State.flushed_flushWays {s : State} (rises : Map.risesFrom 0 s.clusters = true) (tile : Nat) :
    s.flushed (s.flushWays tile fun _ => true) ∧ ∀ k ∈ (s.flushWays tile fun _ => true).tileCache.map Prod.fst, sectorTile k ≠ tile := by
  obtain ⟨flushed, clean⟩ := State.flushed_writeBack rises tile
  have kept {k : Nat} (found : k ∈ (s.flushWays tile fun _ => true).tileCache.map Prod.fst) :
      k ∈ ((s.writeBack tile fun _ => true).tileCache.filter fun e => e.2.dirty || !ofTile tile (fun _ => true) e).map Prod.fst :=
    (mem_fst_map fun e => by split <;> rfl).mp found
  refine ⟨flushed.trans ⟨rfl, flushed.rises, fun _ => rfl, fun k found => ?_⟩, fun k found here => ?_⟩
  · obtain ⟨e, there, rfl⟩ := List.mem_map.mp (kept found)
    exact List.mem_map_of_mem (List.mem_of_mem_filter there)
  · obtain ⟨e, there, rfl⟩ := List.mem_map.mp (kept found)
    obtain ⟨written, keep⟩ := List.mem_filter.mp there
    rw [clean e written here, ofTile_all, beq_iff_eq.mpr here] at keep
    exact Bool.false_ne_true keep

/-- The flush of many tiles leaves none of their sectors in the ways. -/
theorem State.flushed_foldl_flushWays (l : List Nat) {s : State} (rises : Map.risesFrom 0 s.clusters = true) :
    s.flushed (l.foldl (fun s t => s.flushWays t fun _ => true) s) ∧
    ∀ k ∈ (l.foldl (fun s t => s.flushWays t fun _ => true) s).tileCache.map Prod.fst, sectorTile k ∉ l := by
  induction l generalizing s with
  | nil => exact ⟨.refl rises, fun _ _ => List.not_mem_nil⟩
  | cons tile rest ih =>
    obtain ⟨flushed, none⟩ := State.flushed_flushWays rises tile
    obtain ⟨flushed', none'⟩ := ih flushed.rises
    exact ⟨flushed.trans flushed', fun k found => List.not_mem_cons_of_ne_of_not_mem (none k (flushed'.2.2.2 k found)) (none' k found)⟩

end Sys2Proof.Machine

namespace Sys2Proof.PowerProofs
open Sys2Proof Sys2Proof.Machine

section
variable {s : State} {cl : Nat} (rises : Map.risesFrom 0 s.clusters = true) (asleep : (s.cluster cl).waking = false)
  (silent : (s.cluster cl).ringPending = false)
include rises asleep silent

theorem quiesceEnd_acts (quiesces : (s.cluster cl).op = some .quiesce) (empty : s.clusterEmpty cl = true) (few : s.retiredWays cl ≤ 12) :
    Claims.clusterOnly s (.quiesceEnd cl) cl ((s.cluster cl).ended .quiesced) :=
  clusterOnly_of_setCluster rises ((next_of_ite rfl ⟨quiesces, empty⟩).trans
    (congrArg Host.Outcome.next ((if_neg (Nat.not_lt.mpr few)).trans (State.endOp_quiet rises cl _ asleep silent))))

omit rises asleep silent in
theorem quiesceEnd_waits (work : s.clusterEmpty cl = false) : exec (.quiesceEnd cl) s = .next s :=
  next_of_not_ite rfl fun h => Bool.eq_false_iff.mp work h.2

/-- A cluster that has handed its home role off, with the estimator of another. -/
noncomputable def handedOff (d c : Cluster) : Cluster :=
  { c with homeaway := true, op := none, state := .away, done := true,
           missWin := d.missWin, missAcc := d.missAcc, misses := d.misses, lowSince := d.lowSince }

omit rises in
/-- Once the ways are flushed the slice gives up its lines and the home role goes. -/
theorem handoff_of_flushed {u : State} (risen : Map.risesFrom 0 u.clusters = true) (same : (u.cluster cl).withoutMisses = (s.cluster cl).withoutMisses) :
    ((u.recall cl).modCluster cl fun c => { c with homeaway := true }).endOp cl .away = (u.recall cl).setCluster cl (handedOff (u.cluster cl) (s.cluster cl)) :=
  have ended := State.endOp_setCluster (s := u.recall cl) risen cl (c := { u.cluster cl with homeaway := true }) .away
    ((congrArg Cluster.waking same).trans asleep) ((congrArg Cluster.ringPending same).trans silent)
  have handed := congrArg (handedOff (u.cluster cl)) same
  ended.trans (congrArg (State.setCluster _ cl) handed)

omit rises in
theorem handoff_leaves {u : State} (flushed : s.flushed u) :
    let t := ((u.recall cl).modCluster cl fun c => { c with homeaway := true }).endOp cl .away
    t.ctxs = s.ctxs ∧ t.cluster cl = handedOff (u.cluster cl) (s.cluster cl) ∧ t.tileCache = u.tileCache := by
  obtain ⟨ctxs, risen, cluster, _⟩ := flushed
  intro t
  rw [show t = _ from handoff_of_flushed asleep silent risen (cluster cl)]
  exact ⟨ctxs, State.cluster_setCluster (s := u.recall cl) risen cl _, rfl⟩

theorem handoffEnd_acts (hands : (s.cluster cl).op = some .handoff) : ∃ t, exec (.handoffEnd cl) s = .next t ∧ t.ctxs = s.ctxs ∧
    (∃ w a m l, t.cluster cl = { s.cluster cl with
      homeaway := true, op := none, state := .away, done := true, missWin := w, missAcc := a, misses := m, lowSince := l }) ∧
    ∀ e ∈ t.tileCache, sectorTile e.1 ∉ clusterTiles cl := by
  obtain ⟨flushed, none⟩ := State.flushed_foldl_flushWays (clusterTiles cl) rises
  obtain ⟨ctxs, cluster, ways⟩ := handoff_leaves asleep silent flushed
  exact ⟨_, next_of_ite rfl hands, ctxs, ⟨_, _, _, _, cluster⟩, fun e found => none e.1 (List.mem_map_of_mem (ways ▸ found))⟩

omit rises asleep silent in
/-- The end of an operation of CLPM_REQ or EN that ends at no event of its own. -/
noncomputable def operationEnded (s : State) (cl : Nat) : Option ClpmOp → State
  | some .clkgate => (s.modCluster cl fun c => { c with current := 0, lock := false, droopSteps := 0, stretch := false }).endOp cl .clkoff
  | some .railOff => (((s.clearTiles cl).gateEngines cl).modCluster cl fun c => { c with railcyc := true, railCode := 0 }).endOp cl .railoff
  | some .resume => (((s.recall cl).modCluster cl fun c => { c with homeaway := false, retValid := false }).endOp cl .on).wakeAll
  | some .clkungate => if (s.cluster cl).lock then s.endOp cl .away else s
  | _ => s

omit rises asleep silent in
theorem operationEnd_eq {op : Option ClpmOp} (runs : (s.cluster cl).op = op) : exec (.clpmOperationEnd cl) s = .next (operationEnded s cl op) := by
  subst runs
  rfl

theorem operationEnd_clkgate (gates : (s.cluster cl).op = some .clkgate) : Claims.clusterOnly s (.clpmOperationEnd cl) cl
    (Cluster.ended { s.cluster cl with current := 0, lock := false, droopSteps := 0, stretch := false } .clkoff) :=
  clusterOnly_of_setCluster rises ((operationEnd_eq gates).trans (congrArg Host.Outcome.next (State.endOp_setCluster rises cl .clkoff asleep silent)))

theorem operationEnd_clkungate (ungates : (s.cluster cl).op = some .clkungate) :
    if (s.cluster cl).lock then Claims.clusterOnly s (.clpmOperationEnd cl) cl ((s.cluster cl).ended .away)
    else exec (.clpmOperationEnd cl) s = .next s := by
  split <;> rename_i locked
  · exact clusterOnly_of_setCluster rises (next_of_ite (operationEnd_eq ungates) locked |>.trans
      (congrArg Host.Outcome.next (State.endOp_quiet rises cl .away asleep silent)))
  · exact next_of_not_ite (operationEnd_eq ungates) locked

omit rises asleep silent in
/-- A gated engine keeps nothing but its serial. -/
theorem gateEngines_serial {e : Nat × Engine} (gated : e ∈ (s.gateEngines cl).engines) (here : engineCluster e.1 = cl) : ∃ n, e.2 = { serial := n } := by
  obtain ⟨e', _, rfl⟩ := List.mem_map.mp gated
  cases own : engineCluster e'.1 == cl with
  | true => exact ⟨e'.2.serial, by rw [if_pos rfl]⟩
  | false =>
    rw [own, if_neg Bool.false_ne_true] at here
    exact absurd here (beq_eq_false_iff_ne.mp own)

theorem operationEnd_railOff (off : (s.cluster cl).op = some .railOff) :
    ∃ t, exec (.clpmOperationEnd cl) s = .next t ∧ t.ctxs = s.ctxs ∧ t.mem = s.mem ∧
      t.cluster cl = Cluster.ended { s.cluster cl with railcyc := true, railCode := 0 } .railoff ∧
      (∀ e ∈ t.scratch, bankOfCluster cl (e.1 / 65536) = false) ∧ ∀ e ∈ t.engines, engineCluster e.1 = cl → ∃ n, e.2 = { serial := n } :=
  have ended := State.endOp_setCluster (s := (s.clearTiles cl).gateEngines cl) rises cl .railoff
    (c := { s.cluster cl with railcyc := true, railCode := 0 }) asleep silent
  ⟨_, (operationEnd_eq off).trans (congrArg Host.Outcome.next ended), rfl, rfl,
    State.cluster_setCluster (s := (s.clearTiles cl).gateEngines cl) rises cl _,
    fun _ kept => (Bool.not_eq_true' _).mp (List.mem_filter.mp kept).2, fun _ => gateEngines_serial (s := s.clearTiles cl)⟩

theorem operationEnd_resume (resumes : (s.cluster cl).op = some .resume) : ∃ t, exec (.clpmOperationEnd cl) s = .next t ∧ t.mem = s.mem ∧
    t.cluster cl = Cluster.ended { s.cluster cl with homeaway := false, retValid := false } .on :=
  have ended := State.endOp_setCluster (s := s.recall cl) rises cl .on (c := { s.cluster cl with homeaway := false, retValid := false }) asleep silent
  ⟨_, (operationEnd_eq resumes).trans (congrArg (fun t => Host.Outcome.next (State.wakeAll t)) ended), rfl,
    State.cluster_setCluster (s := s.recall cl) rises cl _⟩

theorem railPgood_acts (on : (s.cluster cl).op = some .railOn) (soon : s.ticks < (s.cluster cl).opSince + 5000) :
    Claims.clusterOnly s (.railPgood cl) cl (Cluster.ended { s.cluster cl with pgood := true, railCode := (s.cluster cl).vset } .clkoff) :=
  clusterOnly_of_setCluster rises ((next_of_ite rfl ⟨on, soon⟩).trans (congrArg Host.Outcome.next (State.endOp_setCluster rises cl .clkoff asleep silent)))

omit rises asleep silent in
theorem railPgood_late (past : (s.cluster cl).opSince + 5000 ≤ s.ticks) : exec (.railPgood cl) s = .next s :=
  next_of_not_ite rfl fun h => Nat.not_lt.mpr past h.2

theorem railPgoodTimeout_acts (on : (s.cluster cl).op = some .railOn) :
    if (s.cluster cl).opSince + 5000 ≤ s.ticks then
      Claims.clusterOnly s (.railPgoodTimeout cl) cl (Cluster.failed { s.cluster cl with en := false } 5)
    else exec (.railPgoodTimeout cl) s = .next s := by
  split <;> rename_i past
  · exact clusterOnly_of_setCluster rises ((next_of_ite rfl ⟨on, past⟩).trans
      (congrArg Host.Outcome.next (State.failOp_setCluster rises cl 5 asleep silent)))
  · exact next_of_not_ite rfl fun h => past h.2

theorem fllLockTimeout_acts (ungates : (s.cluster cl).op = some .clkungate) (unlocked : (s.cluster cl).lock = false) :
    if (s.cluster cl).opSince + 10000 ≤ s.ticks then Claims.clusterOnly s (.fllLockTimeout cl) cl ((s.cluster cl).failed 4)
    else exec (.fllLockTimeout cl) s = .next s := by
  split <;> rename_i past
  · exact clusterOnly_of_setCluster rises ((next_of_ite rfl ⟨ungates, unlocked, past⟩).trans
      (congrArg Host.Outcome.next (State.failOp_quiet cl 4 asleep silent)))
  · exact next_of_not_ite rfl fun h => past h.2.2

end

theorem clusterOperationEnds_hold : Claims.clusterOperationEnds := by
  intro s cl rises c becomes asleep silent
  exact ⟨fun quiesces => ⟨quiesceEnd_waits, quiesceEnd_acts rises asleep silent quiesces⟩, handoffEnd_acts rises asleep silent,
    operationEnd_clkgate rises asleep silent, operationEnd_clkungate rises asleep silent, operationEnd_railOff rises asleep silent,
    operationEnd_resume rises asleep silent,
    fun on => ⟨railPgood_acts rises asleep silent on, railPgood_late, railPgoodTimeout_acts rises asleep silent on⟩, fllLockTimeout_acts rises asleep silent⟩

end Sys2Proof.PowerProofs

namespace Sys2Proof.Machine

/-! ## The wake sequence (R200, R419) -/

/-- A cluster that wakes after the next step of its wake sequence, by its state. -/
noncomputable def Cluster.wakes (c : Cluster) (now : Nat) (cycled valid : Bool) : Clpm → Cluster
  | .railoff => { c with op := some .railOn, opSince := now, en := true }
  | .clkoff => { c.begun .clkungate now 4 with current := 0, lock := false, fllStep := now }
  | .away =>
    if cycled then
      if valid then { c with retBusy := some false } else { c with waking := false, ringPending := false, err := true, errcode := 3 }
    else c.begun .resume now 5
  | .quiesced => c.begun .resume now 5
  | .on => { c with waking := false, ringPending := false, done := true }

/-- The next step of the wake sequence, by what it looks at of the cluster. -/
noncomputable def State.wakeStep (s : State) (cl : Nat) (cycled valid : Bool) : Clpm → State
  | .railoff => (s.startOp cl .railOn none).modCluster cl fun c => { c with en := true }
  | .clkoff => (s.startOp cl .clkungate (some 4)).modCluster cl fun c => { c with current := 0, lock := false, fllStep := s.ticks }
  | .away =>
    if cycled then
      if valid then s.modCluster cl fun c => { c with retBusy := some false }
      else s.modCluster cl fun c => { c with waking := false, ringPending := false }.error 3
    else s.startOp cl .resume (some 5)
  | .quiesced => s.startOp cl .resume (some 5)
  | .on => s.modCluster cl fun c => { c with waking := false, ringPending := false, done := true }

theorem State.wakeNext_eq (s : State) (cl : Nat) :
    s.wakeNext cl = s.wakeStep cl (s.cluster cl).railcyc (s.cluster cl).retValid (s.cluster cl).state := rfl

section
variable {s : State} (rises : Map.risesFrom 0 s.clusters = true) {cl : Nat} {c : Cluster}
include rises

theorem State.wakeNext_setCluster {st : Clpm} (state : c.state = st) : (s.setCluster cl c).wakeNext cl = s.setCluster cl (c.wakes s.ticks c.railcyc c.retValid st) := by
  have change := State.modCluster_setCluster rises cl c
  have twice (f g : Cluster → Cluster) : ((s.setCluster cl c).modCluster cl f).modCluster cl g = s.setCluster cl (g (f c)) := by
    rw [change, State.modCluster_setCluster rises]
  rw [State.wakeNext_eq, State.cluster_setCluster rises, state]
  generalize c.railcyc = cycled, c.retValid = valid
  cases st with
  | railoff => exact twice (fun c => { c with op := some .railOn, opSince := s.ticks }) fun c => { c with en := true }
  | clkoff => exact twice (fun c => c.begun .clkungate s.ticks 4) fun c => { c with current := 0, lock := false, fllStep := s.ticks }
  | away =>
    cases cycled with
    | false => exact change fun c => c.begun .resume s.ticks 5
    | true =>
      cases valid with
      | false => exact change fun c => { c with waking := false, ringPending := false }.error 3
      | true => exact change fun c => { c with retBusy := some false }
  | quiesced => exact change fun c => c.begun .resume s.ticks 5
  | on => exact change fun c => { c with waking := false, ringPending := false, done := true }

theorem State.beginWake_setCluster {st : Clpm} (state : c.state = st) (off : st ≠ .on) :
    (s.setCluster cl c).beginWake cl = s.setCluster cl (Cluster.wakes { c with ringPending := true, waking := true } s.ticks c.railcyc c.retValid st) := by
  subst state
  rw [State.beginWake, State.cluster_setCluster rises, if_neg off, State.modCluster_setCluster rises]
  exact State.wakeNext_setCluster rises rfl

end

theorem calm_iff (c : Cluster) : (c.busy || c.retBusy.isSome) = true ↔ c.busy = true ∨ c.retBusy ≠ none := by
  rw [Bool.or_eq_true, Option.isSome_iff_ne_none]

theorem State.ring_busy {s : State} {cl src : Nat} (busy : (s.cluster cl).busy = true ∨ (s.cluster cl).retBusy ≠ none) :
    s.ring cl src = s.setCluster cl { s.cluster cl with ringPending := true, source := src % 4 } :=
  if_pos ((calm_iff _).mpr busy)

section
variable {s : State} {cl src : Nat} (idle : (s.cluster cl).busy = false) (still : (s.cluster cl).retBusy = none)
include idle still

theorem State.ring_idle : s.ring cl src = if (s.cluster cl).state = .on then s
    else (s.modCluster cl fun c => { c with source := src % 4 }).beginWake cl :=
  if_neg fun h => ((calm_iff _).mp h).elim (Bool.eq_false_iff.mp idle) fun some => some still

theorem State.ring_on (on : (s.cluster cl).state = .on) : s.ring cl src = s := (State.ring_idle idle still).trans (if_pos on)

/-- A RING of an idle cluster that is not ON begins the wake sequence. -/
theorem State.ring_off {st : Clpm} (rises : Map.risesFrom 0 s.clusters = true) (state : (s.cluster cl).state = st) (off : st ≠ .on) :
    s.ring cl src = s.setCluster cl (Cluster.wakes { s.cluster cl with source := src % 4, ringPending := true, waking := true }
      s.ticks (s.cluster cl).railcyc (s.cluster cl).retValid st) := by
  refine (State.ring_idle idle still).trans ((if_neg (state ▸ off)).trans ?_)
  exact State.beginWake_setCluster rises (c := { s.cluster cl with source := src % 4 }) state off

end

/-! ## Retention (R200, R418, R425) -/

theorem Cluster.save_eq (c : Cluster) : c.save =
    if c.state = .away ∧ c.busy = false ∧ c.retBusy = none then { c with retBusy := some true } else { c with retRefused := true } := by
  simp only [Cluster.save, Cluster.mayRetain, Bool.and_eq_true, beq_iff_eq, Bool.not_eq_true', Option.isNone_iff_eq_none, and_assoc]

theorem Cluster.restore_eq (c : Cluster) : c.restore =
    if c.state = .away ∧ c.busy = false ∧ c.retBusy = none ∧ c.railcyc = true ∧ c.retValid = true then { c with retBusy := some false }
    else { c with retRefused := true } := by
  simp only [Cluster.restore, Cluster.mayRetain, Bool.and_eq_true, beq_iff_eq, Bool.not_eq_true', Option.isNone_iff_eq_none, and_assoc]

end Sys2Proof.Machine

namespace Sys2Proof.PowerProofs
open Sys2Proof Sys2Proof.Machine

section
variable {s : State} {cl : Nat} (rises : Map.risesFrom 0 s.clusters = true)
include rises

theorem wakeRing_wakes {src : Nat} {st : Clpm} (idle : (s.cluster cl).busy = false) (still : (s.cluster cl).retBusy = none)
    (state : (s.cluster cl).state = st) (off : st ≠ .on) : Claims.clusterOnly s (.wakeRing cl src) cl
      (Cluster.wakes { s.cluster cl with state := st, source := src % 4, ringPending := true, waking := true }
      s.ticks (s.cluster cl).railcyc (s.cluster cl).retValid st) := by
  subst state
  exact clusterOnly_of_eq rises rfl (State.ring_off idle still rises rfl off)

/-- The end of a SAVE leaves the cluster with what it saved, and goes on with the wake sequence where a RING awaits. -/
noncomputable def saved (s : State) (cl : Nat) : Cluster := { s.cluster cl with retBusy := none, retValid := true, retention := s.retentionOf cl }

omit rises in
theorem retentionSaveEnd_eq (saves : (s.cluster cl).retBusy = some true) : exec (.retentionSaveEnd cl) s =
    .next (if ((s.setCluster cl (saved s cl)).cluster cl).ringPending then (s.setCluster cl (saved s cl)).beginWake cl else s.setCluster cl (saved s cl)) :=
  next_of_ite rfl saves

theorem retentionSaveEnd_silent (saves : (s.cluster cl).retBusy = some true) (silent : (s.cluster cl).ringPending = false) :
    Claims.clusterOnly s (.retentionSaveEnd cl) cl (saved s cl) := by
  refine clusterOnly_of_setCluster rises (next_of_not_ite (retentionSaveEnd_eq saves) ?_)
  rw [State.cluster_setCluster rises]
  exact Bool.eq_false_iff.mp silent

theorem retentionSaveEnd_rung (saves : (s.cluster cl).retBusy = some true) (rung : (s.cluster cl).ringPending = true) (away : (s.cluster cl).state = .away) :
    Claims.clusterOnly s (.retentionSaveEnd cl) cl (Cluster.wakes { saved s cl with ringPending := true, waking := true } s.ticks (s.cluster cl).railcyc true .away) := by
  refine clusterOnly_of_setCluster rises ((next_of_ite (retentionSaveEnd_eq saves) ?_).trans (congrArg Host.Outcome.next ?_))
  · rw [State.cluster_setCluster rises]
    exact rung
  · exact State.beginWake_setCluster rises (c := saved s cl) away (by decide)

omit rises in
/-- What a cluster that wakes with a valid retention state does next in AWAY. -/
theorem wakes_away {c : Cluster} (now : Nat) (valid : c.retValid = true) (free : c.retBusy = none) (rung : c.waking = true) :
    let c' := c.wakes now c.railcyc true .away
    c'.waking = true ∧ c'.retValid = true ∧ c'.retention = c.retention ∧ c'.retBusy = (if c.railcyc then some false else none) ∧
      c'.op = (if c.railcyc then c.op else some .resume) := by
  generalize c.railcyc = cycled
  cases cycled with
  | true => exact ⟨rung, valid, rfl, rfl, rfl⟩
  | false => exact ⟨rung, valid, rfl, free, rfl⟩

/-- A cluster of the state after a RESTORE. -/
noncomputable def restored (c : Cluster) : Cluster :=
  { c with wgEn := c.retention.wgEn, minWays := c.retention.minWays, missHi := c.retention.missHi, missLo := c.retention.missLo,
           waysOn := c.retention.waysOn, mxcad := c.retention.mxcad, target := c.retention.target, lock := false, retBusy := none, railcyc := false }

/-- A cluster as a RESTORE fills it, before its end. -/
noncomputable def filled (c : Cluster) : Cluster :=
  { c with wgEn := c.retention.wgEn, minWays := c.retention.minWays, missHi := c.retention.missHi, missLo := c.retention.missLo,
           waysOn := c.retention.waysOn, mxcad := c.retention.mxcad }.setTarget c.retention.target

omit rises in
theorem restored_of_filled {c : Cluster} (away : c.state = .away) : { filled c with retBusy := none, railcyc := false } = restored c := by
  have clocked : (if Cluster.clocked { c with op := c.op } = true then false else c.lock) = false := if_pos (by rw [Cluster.clocked, away])
  exact congrArg (fun l => { restored c with lock := l }) clocked

theorem retentionRestored_cluster (away : (s.cluster cl).state = .away) :
    ((s.restoreRetention cl).modCluster cl fun c => { c with retBusy := none, railcyc := false }).cluster cl = restored (s.cluster cl) := by
  have risen : Map.risesFrom 0 (s.restoreRetention cl).clusters = true := Map.risesFrom_set _ _ 0 _ _ (Nat.zero_le _) rises
  have now : (s.restoreRetention cl).cluster cl = filled (s.cluster cl) := Map.get_set_self _ _ 0 _ _ rises
  rw [State.modCluster, State.cluster_setCluster risen, now]
  exact restored_of_filled away

theorem retentionRestoreEnd_acts (restores : (s.cluster cl).retBusy = some false) (asleep : (s.cluster cl).waking = false)
    (silent : (s.cluster cl).ringPending = false) (away : (s.cluster cl).state = .away) :
    ∃ t, exec (.retentionRestoreEnd cl) s = .next t ∧ t.mem = s.mem ∧ t.ctxs = s.ctxs ∧ t.cluster cl = restored (s.cluster cl) ∧
      (∀ e ∈ t.tlb, inCluster cl e.tile = false) ∧ ∀ e ∈ t.scratch, bankOfCluster cl (e.1 / 65536) = false := by
  have now := retentionRestored_cluster rises away
  refine ⟨_, next_of_not_ite (next_of_not_ite (next_of_ite rfl restores) ?_) ?_, rfl, rfl, now, fun _ kept => ?_, fun _ kept => ?_⟩
  · exact Bool.eq_false_iff.mp ((congrArg Cluster.waking now).trans asleep)
  · exact Bool.eq_false_iff.mp ((congrArg Cluster.ringPending now).trans silent)
  · exact (Bool.not_eq_true' _).mp (List.mem_filter.mp kept).2
  · exact (Bool.not_eq_true' _).mp (List.mem_filter.mp kept).2

theorem retentionWrites_act :
    Claims.clusterOnly s (.retentionSave cl) cl
      (if (s.cluster cl).state = .away ∧ (s.cluster cl).busy = false ∧ (s.cluster cl).retBusy = none then { s.cluster cl with retBusy := some true }
       else { s.cluster cl with retRefused := true }) ∧
    Claims.clusterOnly s (.retentionRestore cl) cl
      (if (s.cluster cl).state = .away ∧ (s.cluster cl).busy = false ∧ (s.cluster cl).retBusy = none ∧ (s.cluster cl).railcyc = true ∧
          (s.cluster cl).retValid = true then { s.cluster cl with retBusy := some false }
       else { s.cluster cl with retRefused := true }) :=
  ⟨clusterOnly_of_eq rises rfl (congrArg (s.setCluster cl) (Cluster.save_eq _)),
    clusterOnly_of_eq rises rfl (congrArg (s.setCluster cl) (Cluster.restore_eq _))⟩

end

theorem wakeAndRetention_hold : Claims.wakeAndRetention := by
  intro s cl rises c becomes
  refine ⟨?_, (retentionWrites_act rises).1, (retentionWrites_act rises).2, fun saves => ⟨retentionSaveEnd_silent rises saves, fun rung away =>
    ⟨_, retentionSaveEnd_rung rises saves rung away, wakes_away (c := { saved s cl with ringPending := true, waking := true }) s.ticks rfl rfl rfl⟩⟩,
    retentionRestoreEnd_acts rises⟩
  intro src rung
  refine ⟨fun busy => clusterOnly_of_eq rises rfl (State.ring_busy busy), fun idle still => ?_⟩
  intro woken
  cases state : c.state with
  | on => exact congrArg Host.Outcome.next (State.ring_on idle still state)
  | railoff => exact wakeRing_wakes rises idle still state (by decide)
  | clkoff => exact wakeRing_wakes rises idle still state (by decide)
  | quiesced => exact wakeRing_wakes rises idle still state (by decide)
  | away => exact wakeRing_wakes rises idle still state (by decide)

end Sys2Proof.PowerProofs

open Sys2Proof Sys2Proof.Machine Sys2Proof.PowerProofs

/-- Settles O58: each request, end and step of the wake sequence is a change of one cluster, stated once for a cluster that stands as `c`. -/
theorem clusterPower : Obligations.ClusterPower := ⟨clusterOperations_hold, clusterOperationEnds_hold, wakeAndRetention_hold⟩

end

section

namespace Sys2Proof.Machine

theorem State.engine_of_engines {s t : State} (same : t.engines = s.engines) (e : Nat) : t.engine e = s.engine e := by
  simp only [State.engine, same]

/-! ## What the ends of instructions in flight leave of the engines and of the other instructions -/

@[simp] theorem State.modOwner_engines (s : State) (k : Nat) (f : Ctx → Ctx) : (s.modOwner k f).engines = s.engines := by
  unfold State.modOwner
  split
  · rfl
  · split <;> rfl

@[simp] theorem State.modOwner_ops (s : State) (k : Nat) (f : Ctx → Ctx) : (s.modOwner k f).ops = s.ops := by
  unfold State.modOwner
  split
  · rfl
  · split <;> rfl

@[simp] theorem State.modOwner_requests (s : State) (k : Nat) (f : Ctx → Ctx) : (s.modOwner k f).requests = s.requests := by
  unfold State.modOwner
  split
  · rfl
  · split <;> rfl

@[simp] theorem State.finishOp_engines (s : State) (o : Op) (g : Word) (v : List VWord) : (s.finishOp o g v).engines = s.engines :=
  (State.modCtx_engines _ _ _).trans (State.modOwner_engines _ _ _)

@[simp] theorem State.finishOp_ops (s : State) (o : Op) (g : Word) (v : List VWord) : (s.finishOp o g v).ops = s.ops.filter fun p => p.id != o.id :=
  (State.modCtx_ops _ _ _).trans (State.modOwner_ops _ _ _)

/-- Removing what matches the head of a list, and then what matches its rest, removes what matches any of it. -/
theorem filter_notAny_cons {α : Type} (same : α → α → Bool) (l rest : List α) (m : α) :
    (l.filter fun x => !same x m).filter (fun x => !rest.any (same x)) = l.filter fun x => !(m :: rest).any (same x) := by
  rw [List.filter_filter]
  refine congrFun (congrArg List.filter (funext fun x => ?_)) l
  rw [List.any_cons, Bool.not_or, Bool.and_comm]

/-- What stays of the instructions in flight when those of a list end. -/
theorem State.foldl_finishOp_ops (f : State → Op → State) (ends : ∀ s o, (f s o).ops = s.ops.filter fun p => p.id != o.id) (l : List Op) (s : State) :
    (l.foldl f s).ops = s.ops.filter fun p => !l.any fun o => p.id == o.id := by
  induction l generalizing s with
  | nil => simp
  | cons o rest ih =>
    rw [List.foldl_cons, ih, ends]
    exact filter_notAny_cons (fun p o : Op => p.id == o.id) s.ops rest o

@[simp] theorem State.absorbAll_engines (s : State) (k : Nat) : (s.absorbAll k).engines = s.engines :=
  foldl_same State.engines _ (fun _ _ => State.modOwner_engines _ _ _) _ _

@[simp] theorem State.absorbAll_ops (s : State) (k : Nat) : (s.absorbAll k).ops = s.ops := foldl_same State.ops _ (fun _ _ => State.modOwner_ops _ _ _) _ _

@[simp] theorem State.queueFault_engines (s : State) (k : Nat) (p : PendingFault) : (s.queueFault k p).engines = s.engines := by
  unfold State.queueFault
  split
  · rfl
  · split <;> simp

@[simp] theorem State.queueFault_ops (s : State) (k : Nat) (p : PendingFault) : (s.queueFault k p).ops = s.ops := by
  unfold State.queueFault
  split
  · rfl
  · split <;> simp

@[simp] theorem State.asyncFault_engines (s : State) (k : Nat) (t : Trap) (pc word : Word) : (s.asyncFault k t pc word).engines = s.engines := by
  unfold State.asyncFault
  dsimp only
  rw [State.queueFault_engines]
  split <;> rfl

@[simp] theorem State.asyncFault_ops (s : State) (k : Nat) (t : Trap) (pc word : Word) : (s.asyncFault k t pc word).ops = s.ops := by
  unfold State.asyncFault
  dsimp only
  rw [State.queueFault_ops]
  split <;> rfl

/-! ## What a store of BDST leaves of the engines (R345) -/

theorem State.bankWrite_engines (s : State) (tile bank off : Nat) (bs : List Byte) : (s.bankWrite tile bank off bs).engines = s.engines := by
  induction bs generalizing s off with
  | nil => rfl
  | cons b rest ih => rw [State.bankWrite, ih]

theorem homeWrite_engines {s t : State} {key va : Nat} {bs : List Byte} {p : Place} (h : homeWrite s key va bs p = .ok t) : t.engines = s.engines := by
  unfold homeWrite at h
  split at h
  · cases h
    rfl
  · split at h
    · cases h
    · cases h
      exact State.bankWrite_engines _ _ _ _ _

theorem agentWrite_engines {s t : State} {key : Nat} {c : Ctx} {va : Nat} {bs : List Byte} (h : agentWrite s key c va bs = .ok t) :
    t.engines = s.engines := by
  unfold agentWrite at h
  split at h
  · cases h
  · exact homeWrite_engines h

@[simp] theorem State.countWrite_engines (s : State) (key va n : Nat) : (s.countWrite key va n).engines = s.engines := by
  unfold State.countWrite State.countStore State.countEffect
  split
  · rfl
  · split
    · split <;> rfl
    · rfl

theorem State.storeBounds_engines (s : State) (e : Nat) (o : MacroOp) (c : Ctx) : (s.storeBounds e o c).1.engines = s.engines := by
  unfold State.storeBounds
  dsimp only
  have stores (l : List Nat) (f : State × Option Trap → Nat → State × Option Trap) (keeps : ∀ r i, (f r i).1.engines = r.1.engines) :
      (l.foldl f (s, none)).1.engines = s.engines :=
    foldl_same (fun r : State × Option Trap => r.1.engines) f keeps l (s, none)
  split
  case _ found =>
    rw [State.countWrite_engines]
    refine (congrArg (fun r : State × Option Trap => r.1.engines) found).symm.trans (stores _ _ fun r i => ?_)
    split
    · rfl
    · split
      · rfl
      · split
        · rfl
        case _ wrote => exact agentWrite_engines wrote
  · refine stores _ _ fun r i => ?_
    split
    · rfl
    · split
      · rfl
      · split
        · rfl
        case _ wrote => exact agentWrite_engines wrote

/-! ## The life of a lease up to its release (R183, R184) -/

theorem Engine.afterRelease_power_ne (g : Engine) (cls now : Nat) : (g.afterRelease cls now).power ≠ .lit := by
  unfold Engine.afterRelease
  dsimp only
  split
  · simp
  · split <;> simp

/-- The engine has no holder and no work, and nothing of its work is in flight. -/
abbrev State.released (s : State) (e : Nat) (serial : BitVec 16) : Prop :=
  (s.engine e).holder = none ∧ (s.engine e).cmds = [] ∧ (s.engine e).ops = [] ∧ (s.engine e).notice = none ∧ (s.engine e).serial = serial ∧
    (s.engine e).power ≠ .lit ∧ ∀ o ∈ s.ops, o.kind ≠ .engine e

theorem State.released.holder {s : State} {e : Nat} {serial : BitVec 16} (gone : s.released e serial) : (s.engine e).holder = none := by
  obtain ⟨holder, _⟩ := gone
  exact holder

theorem State.released.dark {s : State} {e : Nat} {serial : BitVec 16} (gone : s.released e serial) : (s.engine e).power ≠ .lit := by
  obtain ⟨_, _, _, _, _, dark, _⟩ := gone
  exact dark

/-- The state once a lease that context `k` holds has gone, before the instructions that wait for its end: the context has no record of it, its work in
flight is abandoned, and its engine is cleared (R183, R184). -/
noncomputable def State.leaseGone (s : State) (e k : Nat) : State :=
  let h := (((s.owner? k).bind fun c => c.recordOf e (s.engine e).serial).map (·.handle)).getD 0
  let s1 := s.modOwner k fun c => { c with leases := c.leases.filter fun r => !(handleEngine r.handle == some e && r.grantSerial == (s.engine e).serial) }
  (s1.abandonOps e h).setEngine e ((s.engine e).afterRelease (engineClass e) s.ticks)

/-- A release ends the EVACK .drain instructions that wait for it (R192). -/
theorem State.releaseLease_held {s : State} {e k : Nat} (held : (s.engine e).holder = some k) (drained : Nat) :
    s.releaseLease e drained =
      (((s.leaseGone e k).ops.filter fun o => o.kind == .evack e).foldl (fun s o => s.finishOp o (wd drained) []) (s.leaseGone e k)).wakeAll := by
  unfold State.releaseLease
  dsimp only
  rw [held]
  rfl

theorem State.releaseLease_free {s : State} {e : Nat} (free : (s.engine e).holder = none) (drained : Nat) : s.releaseLease e drained = s := by
  unfold State.releaseLease
  dsimp only
  rw [free]

section
variable {s : State} {e : Nat} (rises : Map.risesFrom 0 s.engines = true)
include rises

theorem State.engine_leaseGone (k : Nat) : (s.leaseGone e k).engine e = (s.engine e).afterRelease (engineClass e) s.ticks :=
  Map.get_set_self _ _ 0 _ _ (by
    show Map.risesFrom 0 (s.modOwner k _).engines = true
    rw [State.modOwner_engines]
    exact rises)

theorem State.engines_leaseGone_rise (k : Nat) : Map.risesFrom 0 (s.leaseGone e k).engines = true :=
  Map.risesFrom_set _ _ 0 _ _ (Nat.zero_le _) (by
    show Map.risesFrom 0 (s.modOwner k _).engines = true
    rw [State.modOwner_engines]
    exact rises)

omit rises in
theorem State.flight_leaseGone (k : Nat) : ∀ o ∈ (s.leaseGone e k).ops, o.kind ≠ .engine e := by
  intro o found
  obtain ⟨o', _, rfl⟩ := List.mem_map.mp found
  split
  · simp
  · assumption

/-- The release of a held lease clears its engine and takes its work out of flight. -/
theorem State.released_releaseLease {k : Nat} (held : (s.engine e).holder = some k) (drained : Nat) :
    (s.releaseLease e drained).released e (s.engine e).serial ∧ Map.risesFrom 0 (s.releaseLease e drained).engines = true := by
  rw [State.releaseLease_held held]
  generalize listed : (s.leaseGone e k).ops.filter (fun o => o.kind == .evack e) = done
  have engines : (done.foldl (fun s o => s.finishOp o (wd drained) []) (s.leaseGone e k)).engines = (s.leaseGone e k).engines :=
    foldl_same State.engines (fun s o => s.finishOp o (wd drained) []) (fun _ _ => State.finishOp_engines _ _ _ _) done _
  have ops : (done.foldl (fun s o => s.finishOp o (wd drained) []) (s.leaseGone e k)).ops =
      (s.leaseGone e k).ops.filter fun p => !done.any fun o => p.id == o.id :=
    State.foldl_finishOp_ops (fun s o => s.finishOp o (wd drained) []) (fun _ _ => State.finishOp_ops _ _ _ _) done _
  have engine : (done.foldl (fun s o => s.finishOp o (wd drained) []) (s.leaseGone e k)).wakeAll.engine e =
      (s.engine e).afterRelease (engineClass e) s.ticks :=
    (State.engine_of_engines engines e).trans (State.engine_leaseGone rises k)
  refine ⟨⟨by rw [engine]; rfl, by rw [engine]; rfl, by rw [engine]; rfl, by rw [engine]; rfl, by rw [engine]; rfl, ?_, fun o found => ?_⟩,
    engines ▸ State.engines_leaseGone_rise rises k⟩
  · rw [engine]
    exact (s.engine e).afterRelease_power_ne _ _
  · exact State.flight_leaseGone k o (List.mem_of_mem_filter (ops ▸ found : o ∈ List.filter _ _))

end

/-- The commands that stay when those whose last token has been pushed are credited (R184). -/
noncomputable def Engine.uncredited (g : Engine) : List EngineCmd :=
  g.cmds.filter fun m => !(g.cmds.filter fun m => decide (m.count ≤ m.done)).any fun d => m.id == d.id

/-- How the engine of a lease that is being credited stands: its holder has it still, with the uncredited commands, or it has been released, as no command
was left. -/
def State.crediting (s t : State) (e : Nat) : Prop :=
  Map.risesFrom 0 t.engines = true ∧
  (((t.engine e).holder = (s.engine e).holder ∧ (t.engine e).serial = (s.engine e).serial ∧ (t.engine e).power = (s.engine e).power ∧
      (t.engine e).cmds = (s.engine e).uncredited) ∨
    ((s.engine e).uncredited = [] ∧ t.released e (s.engine e).serial))

section
variable {s t : State} {e k : Nat} (runs : s.crediting t e)
include runs

/-- What keeps the engines and puts nothing in flight. -/
theorem State.crediting.of_same {u : State} (engines : u.engines = t.engines) (ops : u.ops = t.ops) : s.crediting u e := by
  obtain ⟨rises, stands⟩ := runs
  have engine := State.engine_of_engines engines e
  refine ⟨engines ▸ rises, ?_⟩
  rcases stands with held | ⟨none, holder, cmds, macros, notice, serial, dark, flight⟩
  · exact .inl (engine ▸ held)
  · exact .inr ⟨none, engine ▸ holder, engine ▸ cmds, engine ▸ macros, engine ▸ notice, engine ▸ serial, engine ▸ dark, ops ▸ flight⟩

theorem State.crediting.wakeAll : s.crediting t.wakeAll e := runs.of_same rfl rfl

theorem State.crediting.dropMacro (id : Nat) : s.crediting (t.setEngine e ((t.engine e).dropOp id)) e := by
  obtain ⟨rises, stands⟩ := runs
  have engine := State.engine_setEngine rises e ((t.engine e).dropOp id)
  refine ⟨State.engines_setEngine_rise rises e _, ?_⟩
  rcases stands with held | ⟨none, holder, cmds, macros, notice, serial, dark, flight⟩
  · exact .inl (by rw [engine]; exact held)
  · exact .inr ⟨none, by rw [engine]; exact holder, by rw [engine]; exact cmds, by rw [engine]; simp [Engine.dropOp, macros],
      by rw [engine]; exact notice, by rw [engine]; exact serial, by rw [engine]; exact dark, flight⟩

variable (held : (s.engine e).holder = some k)
include held

theorem State.crediting.release (drained : Nat) : (t.releaseLease e drained).released e (s.engine e).serial ∧
    Map.risesFrom 0 (t.releaseLease e drained).engines = true := by
  obtain ⟨rises, ⟨holder, serial, _, _⟩ | ⟨_, gone⟩⟩ := runs
  · exact serial ▸ State.released_releaseLease rises (holder.trans held) drained
  · rw [State.releaseLease_free gone.holder]
    exact ⟨gone, rises⟩

theorem State.crediting.settle : s.crediting (t.settleLease e) e := by
  unfold State.settleLease
  dsimp only
  obtain ⟨rises, stands⟩ := runs
  split
  · exact ⟨rises, stands⟩
  case isFalse idle =>
    rcases stands with ⟨holder, serial, power, cmds⟩ | ⟨none, gone⟩
    · rw [holder, held]
      simp only [Option.isSome_some, if_true, Option.getD_some]
      split
      · have empty : (s.engine e).uncredited = [] := by
          rw [← cmds, ← List.length_eq_zero_iff]
          simp only [Engine.inflight, ne_eq, Decidable.not_not] at idle
          omega
        have absorbed := State.engine_of_engines (State.absorbAll_engines t k) e
        obtain ⟨gone, rises'⟩ := State.released_releaseLease (s := t.absorbAll k) (e := e) (by rw [State.absorbAll_engines]; exact rises)
          (by rw [absorbed, holder, held]) 1
        exact ⟨rises', .inr ⟨empty, by rw [absorbed, serial] at gone; exact gone⟩⟩
      · exact ⟨rises, .inl ⟨holder, serial, power, cmds⟩⟩
    · rw [gone.holder, if_neg (by simp), if_neg gone.dark]
      exact ⟨rises, .inr ⟨none, gone⟩⟩

theorem State.crediting.endMacro (o : MacroOp) (fp warn : Word) : s.crediting (t.endMacro e o fp warn) e := by
  unfold State.endMacro
  dsimp only
  refine (State.crediting.settle ?_ held).wakeAll
  split
  · exact (runs.dropMacro o.id).of_same rfl rfl
  · exact (runs.dropMacro o.id).of_same (State.modOwner_engines _ _ _) (State.modOwner_ops _ _ _)

theorem State.crediting.failMacro (o : MacroOp) (x : Trap) : s.crediting (t.failMacro e o x) e :=
  (State.crediting.settle ((runs.dropMacro o.id).of_same (State.asyncFault_engines _ _ _ _ _) (State.asyncFault_ops _ _ _ _ _)) held).wakeAll

/-- The store that stands at the head of the engine runs while the lease is held alone: a released engine has no such operation. -/
theorem State.crediting.finishStore : s.crediting (t.finishStore e) e := by
  unfold State.finishStore
  split
  case _ o head =>
    split
    case _ c _ =>
      obtain ⟨rises, stands | ⟨_, gone⟩⟩ := runs
      · have stored (u : State) (engines : u.engines = t.engines) : s.crediting u e :=
          ⟨engines ▸ rises, .inl (by rw [State.engine_of_engines engines e]; exact stands)⟩
        have engines := t.storeBounds_engines e o (o.issuer c)
        split <;> rename_i found <;> rw [found] at engines
        · exact (stored _ engines).failMacro held o _
        · exact (stored _ engines).endMacro held o 0 0
      · obtain ⟨_, _, macros, _⟩ := gone
        simp [macros] at head
    · exact runs
  · exact runs

end

/-- The engine without the commands of one id. -/
noncomputable def Engine.dropCmd (g : Engine) (m : EngineCmd) : Engine := { g with cmds := g.cmds.filter fun x => x.id != m.id }

/-- The engine without the commands that have the id of one of a list. -/
noncomputable def Engine.dropCmds (g : Engine) (l : List EngineCmd) : Engine := { g with cmds := g.cmds.filter fun x => !l.any fun m => x.id == m.id }

theorem Engine.dropCmds_dropCmd (g : Engine) (m : EngineCmd) (rest : List EngineCmd) : (g.dropCmd m).dropCmds rest = g.dropCmds (m :: rest) :=
  congrArg (fun l => ({ g with cmds := l } : Engine)) (filter_notAny_cons (fun x m => x.id == m.id) g.cmds rest m)

/-- The credit of one finished command (R184). -/
noncomputable def State.creditCmd (e : Nat) (s : State) (m : EngineCmd) : State :=
  (s.setEngine e ((s.engine e).dropCmd m)).asyncComplete m.ctx (some m.ev) m.warn 0

theorem State.engine_creditCmd {s : State} {e : Nat} (rises : Map.risesFrom 0 s.engines = true) (m : EngineCmd) :
    (s.creditCmd e m).engine e = (s.engine e).dropCmd m :=
  State.engine_setEngine rises e _

/-- The credit of finished commands takes them from the engine and leaves the rest of it. -/
theorem State.credit_commands {s : State} {e : Nat} (rises : Map.risesFrom 0 s.engines = true) (l : List EngineCmd) :
    Map.risesFrom 0 (l.foldl (State.creditCmd e) s).engines = true ∧
      (l.foldl (State.creditCmd e) s).engine e = (s.engine e).dropCmds l := by
  induction l generalizing s with
  | nil => exact ⟨rises, congrArg (fun l => ({ s.engine e with cmds := l } : Engine)) (List.filter_true _).symm⟩
  | cons m rest ih =>
    obtain ⟨rises', engine⟩ := ih (s := s.creditCmd e m) (State.engines_setEngine_rise rises e ((s.engine e).dropCmd m))
    rw [State.engine_creditCmd rises, Engine.dropCmds_dropCmd] at engine
    exact ⟨rises', engine⟩

theorem State.crediting_creditDone {s : State} {e k : Nat} (rises : Map.risesFrom 0 s.engines = true) (held : (s.engine e).holder = some k) :
    s.crediting (s.creditDone e) e := by
  obtain ⟨rises1, engine1⟩ := State.credit_commands (e := e) rises ((s.engine e).cmds.filter fun m => decide (m.count ≤ m.done))
  have credited : s.crediting (((s.engine e).cmds.filter fun m => decide (m.count ≤ m.done)).foldl (State.creditCmd e) s) e :=
    ⟨rises1, .inl (by rw [engine1]; exact ⟨rfl, rfl, rfl, rfl⟩)⟩
  exact State.crediting.settle (foldl_keeps (fun t => s.crediting t e) _ (fun t o runs => runs.endMacro held o o.fpflags o.warn) _ _ credited) held

end Sys2Proof.Machine

namespace Sys2Proof.Machine

/-! ## Grants (R178) -/

noncomputable def State.withEngines (s : State) (en : Map Engine) : State := { s with engines := en }

noncomputable def Engine.powered (g : Engine) (w : Power) : Engine := { g with power := w }

theorem State.engine_gated {s : State} (rises : Map.risesFrom 0 s.engines = true) (e n : Nat) :
    ∃ w, (s.setEngine e ((s.engine e).powered .gated)).engine n = (s.engine n).powered w := by
  by_cases here : n = e
  · rw [here, State.engine_setEngine rises]
    exact ⟨_, rfl⟩
  · rw [State.engine_setEngine_ne s _ here]
    exact ⟨_, rfl⟩

/-- Dozing engines that are gated change their power alone. -/
theorem State.gateDozing_spec (p : Nat → Bool) (fuel : Nat) {s : State} (rises : Map.risesFrom 0 s.engines = true) (excess : Int) :
    ∃ en, s.gateDozing p fuel excess = s.withEngines en ∧ Map.risesFrom 0 en = true ∧ ∀ n, ∃ w, (s.withEngines en).engine n = (s.engine n).powered w := by
  induction fuel generalizing s excess with
  | zero => exact ⟨_, rfl, rises, fun n => ⟨_, rfl⟩⟩
  | succ fuel ih =>
    rw [State.gateDozing_succ]
    split
    · exact ⟨_, rfl, rises, fun n => ⟨_, rfl⟩⟩
    · cases s.oldestDozing p with
      | none => exact ⟨_, rfl, rises, fun n => ⟨_, rfl⟩⟩
      | some e =>
        obtain ⟨en, eq, rises', engines⟩ := ih (State.engines_setEngine_rise rises e ((s.engine e).powered .gated)) (excess - engineLu e)
        exact ⟨en, eq, rises', fun n => (engines n).elim fun w now => (State.engine_gated rises e n).elim fun w' was => by
          rw [was] at now
          exact ⟨w, now⟩⟩

theorem State.makeRoom_spec {s : State} (rises : Map.risesFrom 0 s.engines = true) (cls cl : Nat) :
    ∃ en, Map.risesFrom 0 en = true ∧ s.makeRoom cls cl = s.withEngines en := by
  unfold State.makeRoom
  extract_lets s1
  obtain ⟨en1, eq1, rises1, _⟩ := State.gateDozing_spec (fun x => engineCluster x == cl) 768 rises ((s.clusterLu cl true + classLu cls : Nat) - 60)
  have first : s1 = s.withEngines en1 := eq1
  obtain ⟨en2, eq2, rises2, _⟩ := State.gateDozing_spec (s := s1) (fun _ => true) 768 (by rw [first]; exact rises1)
    ((s1.packageLu true + classLu cls : Nat) - (s1.effBudget : Int))
  have same : s1.withEngines en2 = s.withEngines en2 := by
    rw [first]
    rfl
  exact ⟨en2, rises2, eq2.trans same⟩

/-- The sixteen engines of a cluster, by class and index (R15). -/
theorem engineClass_classBase : ∀ cls < 5, ∀ i < classCount cls, classBase cls + i < 16 ∧ engineClass (classBase cls + i) = cls := by decide

/-- The engines of a class in a cluster are of it. -/
theorem engine_of_enginesOf {cls cl e : Nat} (there : e ∈ enginesOf cls cl) : engineClass e = cls ∧ engineCluster e = cl := by
  obtain ⟨i, index, rfl⟩ := List.mem_map.mp there
  have count := List.mem_range.mp index
  have real : cls < 5 := by
    by_contra past
    obtain ⟨n, rfl⟩ := Nat.exists_eq_add_of_le (Nat.not_lt.mp past)
    simp [classCount, Nat.add_comm 5 n] at count
  obtain ⟨inside, own⟩ := engineClass_classBase cls real i count
  rw [engineKey, Nat.add_assoc]
  constructor
  · rwa [engineClass, Nat.mul_add_mod]
  · rw [engineCluster, Nat.mul_add_div (Nat.succ_pos 15), Nat.div_eq_of_lt inside, Nat.add_zero]

theorem Power.isFree_of_isDozing {p : Power} (dozes : p.isDozing = true) : p.isFree = true := by
  cases p with
  | dozing t => rfl
  | gated => rfl
  | waking t => simp [Power.isDozing] at dozes
  | lit => simp [Power.isDozing] at dozes

/-- A request that waits on nothing has an engine that a grant takes. -/
theorem State.pickEngine_of_fits {s : State} {r : LeaseReq} (fresh : r.only = none) (ready : s.reasonOf r = .none) :
    ∃ e ∈ enginesOf r.cls r.cluster, s.pickEngine r = some e ∧ (s.engine e).power.isFree = true := by
  have some : (enginesOf r.cls r.cluster).any (fun e => (s.engine e).power.isFree) = true := by
    unfold State.reasonOf State.waitsOn LeaseReq.engineOnly at ready
    rw [fresh] at ready
    by_contra none
    rw [Bool.not_eq_true] at none
    simp only [Option.map_none, none, Bool.not_false, if_true] at ready
    split at ready <;> cases ready
  unfold State.pickEngine LeaseReq.engineOnly
  rw [fresh]
  dsimp only [Option.map_none]
  split
  case _ e found =>
    exact ⟨e, List.mem_of_find?_eq_some found, rfl, Power.isFree_of_isDozing (by simpa using List.find?_some found)⟩
  · obtain ⟨e, there, free⟩ := List.any_eq_true.mp some
    have takes : ((enginesOf r.cls r.cluster).find? fun e => (s.engine e).power.isFree).isSome = true := List.find?_isSome.mpr ⟨e, there, free⟩
    obtain ⟨e', found⟩ := Option.isSome_iff_exists.mp takes
    exact ⟨e', List.mem_of_find?_eq_some found, found, by simpa using List.find?_some found⟩

/-- The engine that a grant of a request leaves, free before, for a context that has no saved state of it. -/
noncomputable def State.grantedEngine (s : State) (r : LeaseReq) (c : Ctx) (e : Nat) : Engine :=
  { power := .waking (s.ticks + (if (s.engine e).power.isDozing then 6 else wakeTicks r.cls)), serial := (s.engine e).serial + 1, holder := some r.ctx,
    ectr := r.ectr, prio := r.prio, hold := r.hold, holdEnd := s.ticks + Nat.min r.hold (s.holdCap c), holding := true, grantedAt := s.ticks,
    request := r.id, notice := none, closed := false }

/-- The handle of the lease that a request takes of an engine, under the serial after a given one. -/
noncomputable def LeaseReq.handleAt (r : LeaseReq) (e : Nat) (serial : BitVec 16) : Word :=
  handleOfLease r.cls r.cluster (engineIndex e) r.ectr (serial + 1).toNat

/-- The instruction of a request that is granted is on its way with the handle. -/
noncomputable def Op.granted (o : Op) (r : LeaseReq) (e : Nat) (serial : BitVec 16) : Op :=
  if o.kind = .lease r.id then { o with kind := .handle (r.handleAt e serial) e } else o

noncomputable def Ctx.leasing (c : Ctx) (r : LeaseReq) (e : Nat) (serial : BitVec 16) : Ctx :=
  { c with leases := c.leases ++ [{ handle := r.handleAt e serial, grantSerial := serial + 1 }] }

/-- The state that a grant leaves, from some engines: the engine under its next serial, the context with its lease, the request no longer waiting and its
instruction on its way with the handle (R172, R174, R178). -/
noncomputable def State.granting (s : State) (r : LeaseReq) (c : Ctx) (e : Nat) (en : Map Engine) : State :=
  State.setCtx { s with
    engines := Map.set {} en e (s.grantedEngine r c e), requests := s.requests.filter fun x => x.id != r.id,
    ops := s.ops.map fun o => o.granted r e (s.engine e).serial } r.ctx (c.leasing r e (s.engine e).serial)

theorem State.grant_spec {s : State} {r : LeaseReq} {c : Ctx} {e : Nat} (rises : Map.risesFrom 0 s.engines = true) (pick : s.pickEngine r = some e)
    (slot : s.ctx? r.ctx = some c) (fresh : r.only = none) : ∃ en, Map.risesFrom 0 en = true ∧ s.grant r = s.granting r c e en := by
  have owner := State.owner?_slot slot
  have owned (u : State) (same : u.ctxs = s.ctxs) (f : Ctx → Ctx) : u.modOwner r.ctx f = u.setCtx r.ctx (f c) :=
    State.modOwner_slot f (by rw [State.ctx?, same]; exact slot)
  have room : ∃ en, Map.risesFrom 0 en = true ∧ (if (s.engine e).power.isDozing = true then s else s.makeRoom r.cls r.cluster) = s.withEngines en := by
    split
    · exact ⟨s.engines, rises, rfl⟩
    · exact State.makeRoom_spec rises r.cls r.cluster
  obtain ⟨en, risen, made⟩ := room
  refine ⟨en, risen, ?_⟩
  unfold State.grant
  rw [pick, owner]
  dsimp only
  rw [fresh, made, owned]
  · rfl
  · rfl

/-- A firing whose wait for memory, an engine or a lease is over. -/
noncomputable def Firing.awake (f : Firing) : Firing :=
  match f.stall with
  | .memory => { f with stall := .none }
  | .engine => { f with stall := .none }
  | .lease => { f with stall := .none }
  | _ => f

noncomputable def Ctx.awake (c : Ctx) : Ctx := { c with firing := c.firing.map Firing.awake }

theorem State.ctx?_wakeAll (s : State) (k : Nat) : s.wakeAll.ctx? k = (s.ctx? k).map Ctx.awake :=
  Map.find?_mapVal (fun _ => Ctx.awake) s.ctxs k

/-- The notice of a lease whose context is in a slot (R182). -/
theorem State.noticeOf_slot {s : State} {e k : Nat} {c : Ctx} (held : (s.engine e).holder = some k) (unnoticed : (s.engine e).notice = none)
    (slot : s.ctx? k = some c) : s.noticeOf e =
      (s.setEngine e { s.engine e with notice := some (s.ticks + s.graceTicks c) }).setCtx k ((c.raiseFlag 7).countCompletion (s.engine e).ectr) := by
  have owner : (s.engine e).holder.bind s.owner? = some c := by rw [held]; exact State.owner?_slot slot
  unfold State.noticeOf
  rw [owner]
  dsimp only
  unfold State.sendNotice
  dsimp only
  split
  case _ k' held' _ =>
    obtain rfl : k' = k := Option.some.inj (held'.symm.trans held)
    exact State.modOwner_slot _ slot
  case _ other => exact (other k held unnoticed).elim

/-! ## The order of evictions (R180) -/

theorem mem_insertBy {α : Type} (before : α → α → Bool) (x y : α) (l : List α) : y ∈ insertBy before x l ↔ y = x ∨ y ∈ l := by
  induction l with
  | nil => simp [insertBy]
  | cons z rest ih =>
    unfold insertBy
    split
    · simp
    · simp only [List.mem_cons, ih]
      tauto

theorem mem_sortBy {α : Type} (before : α → α → Bool) (y : α) (l : List α) : y ∈ sortBy before l ↔ y ∈ l := by
  induction l with
  | nil => simp [sortBy]
  | cons x rest ih =>
    rw [show sortBy before (x :: rest) = insertBy before x (sortBy before rest) from rfl, mem_insertBy, ih, List.mem_cons]

/-- An entry of a table in its canonical order is what the table gives at its key. -/
theorem Map.get_of_mem {α : Type} (d : α) {m : Map α} {n k : Nat} {v : α} (rises : Map.risesFrom n m = true) (there : (k, v) ∈ m) : Map.get d m k = v := by
  have above (m : Map α) (n : Nat) (rises : Map.risesFrom n m = true) (x : Nat × α) (there : x ∈ m) : n ≤ x.1 := by
    induction m generalizing n with
    | nil => simp at there
    | cons p rest ih =>
      simp only [Map.risesFrom, Bool.and_eq_true, decide_eq_true_eq] at rises
      rcases List.mem_cons.mp there with rfl | there
      · exact rises.1
      · have := ih _ rises.2 there
        omega
  induction m generalizing n with
  | nil => simp at there
  | cons p rest ih =>
    obtain ⟨k', v'⟩ := p
    simp only [Map.risesFrom, Bool.and_eq_true, decide_eq_true_eq] at rises
    rcases List.mem_cons.mp there with same | there
    · cases same
      simp [Map.get]
    · have past := above rest _ rises.2 _ there
      rw [Map.get, if_neg (by dsimp only at past; omega)]
      exact ih rises.2 there

/-- A lease that a request evicts is held, without notice, of lower priority, and its hold has ended (R180). -/
theorem State.nextVictim_spec {s : State} {r : LeaseReq} {e : Nat} (rises : Map.risesFrom 0 s.engines = true) (next : s.nextVictim r = some e) :
    (s.engine e).notice = none ∧ (s.engine e).prio < r.prio ∧ (s.engine e).holding = false := by
  unfold State.nextVictim at next
  dsimp only at next
  split at next
  · cases next
  · have there := List.mem_of_mem_head? next
    unfold State.evictionOrder at there
    dsimp only at there
    obtain ⟨⟨e', g⟩, sorted, rfl⟩ := List.mem_map.mp there
    obtain ⟨entry, picked⟩ := List.mem_filter.mp ((mem_sortBy _ _ _).mp sorted)
    simp only [Bool.and_eq_true, Option.isNone_iff_eq_none, decide_eq_true_eq, Bool.not_eq_true'] at picked
    obtain ⟨⟨_, unnoticed⟩, ⟨_, lower⟩, ended⟩ := picked
    have engine : s.engine e' = g := Map.get_of_mem _ rises entry
    exact ⟨engine ▸ unnoticed, engine ▸ lower, engine ▸ ended⟩

end Sys2Proof.Machine

namespace Sys2Proof.LeaseProofs
open Sys2Proof Sys2Proof.Machine

theorem leaseGrant_acts {s : State} {r : LeaseReq} {c : Ctx} (rises : Claims.enginesRise s) (waits : (s.requests.find? fun q => q.id == r.id) = some r)
    (next : s.grantable r = true) (slot : s.ctx? r.ctx = some c) (fresh : r.only = none) :
    ∃ t e, exec (.leaseGrant r.id) s = .next t ∧ t.mem = s.mem ∧ (s.engine e).power.isFree = true ∧ engineClass e = r.cls ∧ engineCluster e = r.cluster ∧
      (t.engine e).holder = some r.ctx ∧ (t.engine e).serial = (s.engine e).serial + 1 ∧ (t.engine e).ectr = r.ectr ∧ (t.engine e).prio = r.prio ∧
      (t.engine e).holdEnd = s.ticks + Nat.min r.hold (s.holdCap c) ∧ (t.engine e).cmds = [] ∧
      (t.engine e).power = .waking (s.ticks + if (s.engine e).power.isDozing then 6 else wakeTicks r.cls) ∧ ∀ q ∈ t.requests, q.id ≠ r.id := by
  have ready : s.reasonOf r = .none := by
    exact eq_of_beq (Bool.and_eq_true_iff.mp (Bool.and_eq_true_iff.mp next).1).1
  obtain ⟨e, own, pick, free⟩ := State.pickEngine_of_fits fresh ready
  obtain ⟨cls, cluster⟩ := engine_of_enginesOf own
  obtain ⟨en, risen, granted⟩ := State.grant_spec rises pick slot fresh
  have engine : (s.grant r).engine e = s.grantedEngine r c e := by
    rw [granted]
    exact Map.get_set_self _ _ 0 _ _ risen
  have acts : exec (.leaseGrant r.id) s = .next (s.grant r) := by
    show execLeaseGrant r.id s = _
    rw [execLeaseGrant, runEvent, waits]
    exact congrArg Host.Outcome.next (if_pos next)
  refine ⟨_, e, acts, by rw [granted]; rfl, free, cls, cluster, by rw [engine]; rfl, by rw [engine]; rfl, by rw [engine]; rfl, by rw [engine]; rfl,
    by rw [engine]; rfl, by rw [engine]; rfl, by rw [engine]; rfl, fun q stays => ?_⟩
  rw [granted] at stays
  exact bne_iff_ne.mp (List.mem_filter.mp stays).2

/-- The instructions of LEASE whose handle an engine's wake makes full. -/
noncomputable def wakingOps (s : State) (e : Nat) : List Op := s.ops.filter fun o => match o.kind with | .handle _ i => i == e | _ => false

/-- What the end of a wake does with one of them. -/
noncomputable def handOver (s : State) (o : Op) : State :=
  match o.kind with
  | .handle h _ => s.finishOp o h []
  | _ => s

theorem engineWakeEnd_eq {s : State} {e n k : Nat} (rises : Claims.enginesRise s) (wakes : (s.engine e).power = .waking n) (due : n ≤ s.ticks)
    (held : (s.engine e).holder = some k) (kept : (s.engine e).closed = false) :
    exec (.engineWakeEnd e) s = .next ((wakingOps s e).foldl handOver (s.setEngine e { s.engine e with power := .lit })).wakeAll := by
  let s1 := s.setEngine e { s.engine e with power := .lit }
  let s2 := (wakingOps s e).foldl handOver s1
  have engines : s2.engines = s1.engines := foldl_same State.engines handOver (fun s o => by unfold handOver; split <;> simp) _ s1
  have engine : s2.engine e = { s.engine e with power := .lit } := (State.engine_of_engines engines e).trans (State.engine_setEngine rises e _)
  have settled : s2.settleLease e = s2 := by
    unfold State.settleLease
    dsimp only
    rw [engine]
    simp [held, kept]
  have acts : exec (.engineWakeEnd e) s = .next (s2.settleLease e).wakeAll := by
    show execEngineWakeEnd e s = _
    simp only [execEngineWakeEnd, runEvent, wakes, held, if_pos due]
    rw [← held]
    rfl
  rw [acts, settled]

theorem mem_wakingOps {s : State} {e : Nat} {o : Op} : o ∈ wakingOps s e ↔ o ∈ s.ops ∧ ∃ h, o.kind = .handle h e := by
  unfold wakingOps
  rw [List.mem_filter]
  refine and_congr_right fun _ => ?_
  cases o.kind <;> simp

/-- The instructions that stay in flight at the end of a wake. -/
theorem handOver_ops {s : State} {l : List Op} (all : ∀ o ∈ l, ∃ h e, o.kind = .handle h e) :
    (l.foldl handOver s).ops = s.ops.filter fun p => !l.any fun o => p.id == o.id := by
  induction l generalizing s with
  | nil => simp
  | cons o rest ih =>
    obtain ⟨h, e, kind⟩ := all o List.mem_cons_self
    have ended : (handOver s o).ops = s.ops.filter fun p => p.id != o.id := by
      unfold handOver
      rw [kind]
      exact State.finishOp_ops _ _ _ _
    rw [List.foldl_cons, ih fun p there => all p (List.mem_cons_of_mem _ there), ended]
    exact filter_notAny_cons (fun p o : Op => p.id == o.id) s.ops rest o

theorem engineWakeEnd_acts {s : State} {e n k : Nat} (rises : Claims.enginesRise s) (wakes : (s.engine e).power = .waking n) (due : n ≤ s.ticks)
    (held : (s.engine e).holder = some k) (kept : (s.engine e).closed = false) :
    ∃ t, exec (.engineWakeEnd e) s = .next t ∧ (t.engine e).power = .lit ∧ (t.engine e).holder = some k ∧ (∀ o ∈ t.ops, ∀ h, o.kind ≠ .handle h e) ∧
      (∀ o h d c, (s.ops.filter fun o => match o.kind with | .handle _ i => i == e | _ => false) = [o] → o.kind = .handle h e → o.dstG = [d] → o.dstV = [] →
        s.ctx? o.ctx = some c → ∃ c', t.ctx? o.ctx = some c' ∧ c'.emptyG d = false ∧ c'.g = (c.wg d h).g ∧ c'.v = c.v) ∧
      ∀ o ∈ s.ops, (∀ h, o.kind ≠ .handle h e) → (∀ p ∈ s.ops, p.id = o.id → p = o) → o ∈ t.ops := by
  let s1 := s.setEngine e { s.engine e with power := .lit }
  let s2 := (wakingOps s e).foldl handOver s1
  have engines : s2.engines = s1.engines := foldl_same State.engines handOver (fun s o => by unfold handOver; split <;> simp) _ s1
  have engine : s2.engine e = { s.engine e with power := .lit } := (State.engine_of_engines engines e).trans (State.engine_setEngine rises e _)
  have ops : s2.ops = s.ops.filter fun p => !(wakingOps s e).any fun o => p.id == o.id :=
    handOver_ops fun o there => (mem_wakingOps.mp there).2.imp fun h kind => ⟨e, kind⟩
  refine ⟨s2.wakeAll, engineWakeEnd_eq rises wakes due held kept, ?_, ?_, fun o there h kind => ?_, fun o h d c only kind dst none slot => ?_,
    fun o there other single => ?_⟩
  · exact congrArg Engine.power engine
  · exact (congrArg Engine.holder engine).trans held
  · obtain ⟨old, apart⟩ := List.mem_filter.mp (ops ▸ there : o ∈ List.filter _ _)
    have own : o ∈ wakingOps s e := mem_wakingOps.mpr ⟨old, h, kind⟩
    simp only [Bool.not_eq_true', List.any_eq_false] at apart
    exact apart o own (by simp)
  · have alone : wakingOps s e = [o] := only
    have done : s2 = s1.finishOp o h [] := by
      simp only [s2, alone, List.foldl_cons, List.foldl_nil, handOver, kind]
    obtain ⟨f, finished⟩ := State.finishOp_slot (s := s1) (c := c) slot h []
    have deliver : c.deliver [d] [] h [] = c.wg d h := rfl
    obtain ⟨g, gEmpty, v, _, _⟩ := c.complete_registers o h []
    rw [dst, none, deliver] at g gEmpty v
    have there := s2.ctx?_wakeAll o.ctx
    rw [done, finished, State.ctx?_setCtx, ← finished, ← done] at there
    refine ⟨_, there, ?_, g, v⟩
    show (c.complete o h []).gEmpty.getLsbD d = false
    rw [gEmpty]
    by_cases small : d < 64
    · exact Ctx.emptyG_wg c d h small
    · exact BitVec.getLsbD_of_ge _ _ (Nat.not_lt.mp small)
  · refine (ops ▸ List.mem_filter.mpr ⟨there, ?_⟩ : o ∈ s2.ops)
    simp only [Bool.not_eq_true', List.any_eq_false, beq_iff_eq]
    intro p own same
    obtain ⟨old, h, kind⟩ := mem_wakingOps.mp own
    exact other h (single p old same.symm ▸ kind)

theorem evictionNotice_acts {s : State} {e k : Nat} {r : LeaseReq} {c : Ctx} (rises : Claims.enginesRise s)
    (evicts : (s.requests.find? fun q => s.nextVictim q == some e) = some r) (held : (s.engine e).holder = some k) (slot : s.ctx? k = some c) :
    ∃ t, exec (.evictionNotice e) s = .next t ∧ t.mem = s.mem ∧ (t.engine e).notice = some (s.ticks + s.graceTicks c) ∧
      t.ctx? k = some ((c.raiseFlag 7).countCompletion (s.engine e).ectr) ∧ (s.engine e).prio < r.prio ∧ (s.engine e).holding = false := by
  have victim : s.nextVictim r = some e := by simpa using List.find?_some evicts
  obtain ⟨unnoticed, lower, ended⟩ := State.nextVictim_spec rises victim
  obtain ⟨en, eq, risen, engines⟩ := State.gateDozing_spec (bears r (s.reasonOf r)) 768 rises 100000
  obtain ⟨w, engine⟩ := engines e
  have noticed := State.noticeOf_slot (s := s.withEngines en) (by rw [engine]; exact held) (by rw [engine]; exact unnoticed) slot
  have acts : exec (.evictionNotice e) s = .next ((s.withEngines en).noticeOf e) := by
    show execEvictionNotice e s = _
    rw [execEvictionNotice, runEvent, evicts]
    exact congrArg (fun u => Host.Outcome.next (u.noticeOf e)) eq
  rw [noticed, engine] at acts
  exact ⟨_, acts, rfl, congrArg Engine.notice (State.engine_setEngine (s := s.withEngines en) risen e _), State.ctx?_setCtx _ _ _, lower, ended⟩

theorem holdEnd_acts {s : State} {e : Nat} (held : (s.engine e).holder ≠ none) (holds : (s.engine e).holding = true) (due : (s.engine e).holdEnd ≤ s.ticks) :
    exec (.holdEnd e) s = .next (s.setEngine e { s.engine e with holding := false }) := by
  show execHoldEnd e s = _
  rw [execHoldEnd, runEvent]
  dsimp only
  rw [if_pos (by simp [Option.isSome_iff_ne_none, held, holds, due])]

theorem dozeExpiry_acts {s : State} {e n : Nat} (dozes : (s.engine e).power = .dozing n) :
    (n + 2000 ≤ s.ticks → exec (.dozeExpiry e) s = .next (s.setEngine e { s.engine e with power := .gated })) ∧
    (s.ticks < n + 2000 → exec (.dozeExpiry e) s = .next s) := by
  have acts : exec (.dozeExpiry e) s = .next (if n + 2000 ≤ s.ticks then s.setEngine e { s.engine e with power := .gated } else s) := by
    show execDozeExpiry e s = _
    rw [execDozeExpiry, runEvent, dozes]
  exact ⟨fun due => by rw [acts, if_pos due], fun early => by rw [acts, if_neg (Nat.not_le.mpr early)]⟩

/-- The commands that a lost engine finishes: the one at its head, when it is at a record (R183). -/
noncomputable def atRecord (g : Engine) : List EngineCmd := (g.cmds.take 1).filter fun m => m.tokens.isSome

/-- An engine without a holder that finishes its record. -/
noncomputable def finishing (g : Engine) : Engine :=
  { power := .lit, serial := g.serial, request := g.request, notice := g.notice, closed := true, cmds := atRecord g }

/-- A command that is at a record stands first once the finished ones are credited. -/
theorem uncredited_of_unfinished {g : Engine} {m : EngineCmd} {rest : List EngineCmd} (cmds : g.cmds = m :: rest) (unfinished : m.done < m.count)
    (single : ∀ p ∈ rest, p.id ≠ m.id) : ∃ rest', g.uncredited = m :: rest' := by
  have kept : (!((m :: rest).filter fun m => decide (m.count ≤ m.done)).any fun d => m.id == d.id) = true := by
    simp only [Bool.not_eq_true', List.any_eq_false, beq_iff_eq]
    intro d there
    obtain ⟨old, done⟩ := List.mem_filter.mp there
    rcases List.mem_cons.mp old with rfl | later
    · exact absurd (of_decide_eq_true done) (Nat.not_le.mpr unfinished)
    · exact (single d later).symm
  unfold Engine.uncredited
  rw [cmds]
  exact ⟨_, List.filter_cons_of_pos kept⟩

theorem atRecord_of_begun {g : Engine} {m : EngineCmd} {rest : List EngineCmd} (cmds : g.cmds = m :: rest) (begun : m.tokens ≠ none) :
    atRecord g = [m] := by
  simp [atRecord, cmds, Option.isSome_iff_ne_none, begun]

/-- The state once the credited lease of an engine is lost. -/
noncomputable def lostTo (s1 : State) (e : Nat) : State :=
  let g := s1.engine e
  if (atRecord g).isEmpty || g.power ≠ .lit || g.holder.isNone then s1.releaseLease e 0 else (s1.releaseLease e 0).setEngine e (finishing g)

theorem loseLease_eq (s : State) (e : Nat) : s.loseLease e = lostTo ((s.creditDone e).finishStore e) e := rfl

/-- A lost engine has no holder and no matrix operation; it has a command only if it is at a record, and then that one. -/
theorem lostTo_spec {s s1 : State} {e k : Nat} (runs : s.crediting s1 e) (held : (s.engine e).holder = some k) :
    let g := s.engine e
    let t := lostTo s1 e
    (t.engine e).holder = none ∧ (t.engine e).ops = [] ∧ (t.engine e).serial = g.serial ∧ (∀ o ∈ t.ops, o.kind ≠ .engine e) ∧
      ((∀ m ∈ g.cmds, m.tokens = none) → (t.engine e).notice = none ∧ (t.engine e).cmds = []) ∧
      (∀ m rest, g.power = .lit → g.cmds = m :: rest → m.tokens ≠ none → m.done < m.count → (∀ p ∈ rest, p.id ≠ m.id) →
        (t.engine e).power = .lit ∧ (t.engine e).cmds = [m]) := by
  intro g t
  obtain ⟨⟨holder, cmds, macros, notice, serial, _, flight⟩, risen⟩ := runs.release held 0
  by_cases idle : ((atRecord (s1.engine e)).isEmpty || (s1.engine e).power ≠ .lit || (s1.engine e).holder.isNone) = true
  · have eq : t = s1.releaseLease e 0 := if_pos idle
    rw [eq]
    refine ⟨holder, macros, serial, flight, fun _ => ⟨notice, cmds⟩, fun m rest lit cmds begun unfinished single => ?_⟩
    obtain ⟨rest', left⟩ := uncredited_of_unfinished cmds unfinished single
    rcases runs.2 with ⟨holder, _, power, now⟩ | ⟨none, _⟩
    · rw [atRecord_of_begun (now.trans left) begun, power.trans lit, holder, held] at idle
      simp at idle
    · rw [left] at none
      cases none
  · have eq : t = (s1.releaseLease e 0).setEngine e (finishing (s1.engine e)) := if_neg idle
    have engine : t.engine e = finishing (s1.engine e) := by rw [eq]; exact State.engine_setEngine risen e _
    have ops : t.ops = (s1.releaseLease e 0).ops := by rw [eq]; rfl
    rw [engine, ops]
    rcases runs.2 with ⟨_, serial, _, now⟩ | ⟨_, free⟩
    · refine ⟨rfl, rfl, serial, flight, fun bare => ?_, fun m rest lit cmds begun unfinished single => ?_⟩
      · have none : atRecord (s1.engine e) = [] := by
          refine List.filter_eq_nil_iff.mpr fun m there => ?_
          have old : m ∈ g.cmds := List.mem_of_mem_filter (now ▸ List.mem_of_mem_take there : m ∈ g.uncredited)
          simp [bare m old]
        simp [none] at idle
      · obtain ⟨rest', left⟩ := uncredited_of_unfinished cmds unfinished single
        exact ⟨rfl, atRecord_of_begun (now.trans left) begun⟩
    · simp [free.holder] at idle

theorem gracePeriodExpiry_acts {s : State} {e n k : Nat} (rises : Claims.enginesRise s) (noticed : (s.engine e).notice = some n) (past : n ≤ s.ticks)
    (held : (s.engine e).holder = some k) (unfreed : (s.engine e).freed = false) :
    let g := s.engine e
    ∃ t, exec (.gracePeriodExpiry e) s = .next t ∧ (t.engine e).holder = none ∧ (t.engine e).ops = [] ∧ (t.engine e).serial = g.serial ∧
      (∀ o ∈ t.ops, o.kind ≠ .engine e) ∧
      ((∀ m ∈ g.cmds, m.tokens = none) → (t.engine e).notice = none ∧ (t.engine e).cmds = []) ∧
      (∀ m rest, g.power = .lit → g.cmds = m :: rest → m.tokens ≠ none → m.done < m.count → (∀ p ∈ rest, p.id ≠ m.id) →
        (t.engine e).power = .lit ∧ (t.engine e).cmds = [m]) := by
  have acts : exec (.gracePeriodExpiry e) s = .next (lostTo ((s.creditDone e).finishStore e) e) := by
    show execGracePeriodExpiry e s = _
    rw [execGracePeriodExpiry, runEvent]
    dsimp only
    rw [if_pos (by simp [Engine.lost, held, unfreed, noticed, past]), loseLease_eq]
  exact ⟨_, acts, lostTo_spec ((State.crediting_creditDone rises held).finishStore held) held⟩

end Sys2Proof.LeaseProofs

open Sys2Proof Sys2Proof.Machine Sys2Proof.LeaseProofs

/-- Settles O45: each event's case by its own lemma; a lost lease is credited while it is held, and released once. -/
theorem leaseEvents : Obligations.LeaseEvents :=
  ⟨fun _ _ _ => leaseGrant_acts, fun _ _ _ _ => engineWakeEnd_acts, fun _ _ _ _ _ => evictionNotice_acts,
    fun _ _ => ⟨holdEnd_acts, fun _ dozes => (dozeExpiry_acts dozes).1, fun _ dozes => (dozeExpiry_acts dozes).2, fun _ _ => gracePeriodExpiry_acts⟩⟩

end

section

namespace Sys2Proof.Machine

/-- The engines are those of the state that an instruction completes in. -/
@[simp] theorem State.engines_completed (s : State) (key : Nat) (c : Ctx) : (s.completed key c).engines = s.engines := by
  simp [State.completed]

@[simp] theorem State.engine_completed (s : State) (key : Nat) (c : Ctx) (e : Nat) : (s.completed key c).engine e = s.engine e :=
  State.engine_of_engines (s.engines_completed key c) e

/-- A write-back of the ways does not depend on what issues. -/
theorem State.writeBack_issues (s : State) (e : Option ReplayEntry) (tile : Nat) (p : Nat → Bool) :
    (s.issues e).writeBack tile p = (s.writeBack tile p).issues e := by
  have same : (s.writeBack tile p).ctxs = s.ctxs := s.writeBack_ctxs tile p
  refine (s.writeBack_wearing s.ctxs e tile p).trans ?_
  rw [← same]
  rfl

theorem agentRead_issues (s : State) (e : Option ReplayEntry) (key : Nat) (c : Ctx) (va n : Nat) :
    agentRead (s.issues e) key c va n = agentRead s key c va n := rfl

/-- An engine that takes a command away keeps the others, once its lease is settled. -/
theorem State.settleLease_cmds {s : State} {e : Nat} (rises : Map.risesFrom 0 s.engines = true) (kept : (s.engine e).closed = false) :
    ((s.settleLease e).engine e).cmds = (s.engine e).cmds ∧ (s.settleLease e).mem = s.mem ∧ (s.settleLease e).asyncDone = s.asyncDone := by
  unfold State.settleLease
  dsimp only
  split
  · exact ⟨rfl, rfl, rfl⟩
  case isFalse idle =>
    have empty : (s.engine e).cmds = [] := by
      rw [← List.length_eq_zero_iff]
      simp only [Engine.inflight, ne_eq, Decidable.not_not] at idle
      omega
    split
    · rw [if_neg (by simp [kept])]
      exact ⟨rfl, rfl, rfl⟩
    · split
      · refine ⟨?_, rfl, rfl⟩
        exact (congrArg Engine.cmds (State.engine_setEngine rises e _)).trans empty.symm
      · exact ⟨rfl, rfl, rfl⟩

@[simp] theorem State.countWrite_mem (s : State) (key va n : Nat) : (s.countWrite key va n).mem = s.mem := by
  unfold State.countWrite State.countStore State.countEffect
  split
  · rfl
  · split
    · split <;> rfl
    · rfl

/-- The end of a record is nothing to an engine that is held. -/
theorem State.endRecord_held {s : State} {e : Nat} (held : (s.engine e).holder ≠ none) : s.endRecord e = s :=
  if_neg fun ended => held (Option.isNone_iff_eq_none.mp ended.1)

end Sys2Proof.Machine

namespace Sys2Proof.EngineProofs
open Sys2Proof Sys2Proof.Machine

/-! ## The issue of a command (R193) -/

/-- The command that an instruction gives its engine. -/
noncomputable def commandOf (s : State) (key : Nat) (c : Ctx) (f : Firing) (x : SForm) (e : ReplayEntry) : EngineCmd :=
  { id := s.fresh, ctx := key, asid := c.asid, serial := f.serial, word := e.word, pc := e.pc, q := x.p.toNat, bind := c.rq x.p.toNat,
    block := (c.rg x.b.toNat).toNat, count := x.imm.toNat + 1, ev := x.cnd.toNat % 4, mode := x.cnd.toNat / 4 }

/-- The state with one more command at an engine. -/
noncomputable def queued (s : State) (e : Nat) (m : EngineCmd) : State :=
  { s with fresh := s.fresh + 1 }.setEngine e { s.engine e with cmds := (s.engine e).cmds ++ [m] }

section
variable {s : State} {key : Nat} {c : Ctx} {f : Firing} {x : SForm} {e cls : Nat} (h : Issuing s key c f) (quiet : s.noAccess key)
  (aligned : (c.rg x.b.toNat).toNat % 32 = 0) (out : (c.rq x.p.toNat).isOut = true)
  (live : engineFor s key c (c.rg x.a.toNat) cls = .ok e) (format : cmdFormat cls (s.outFormat key c x.p.toNat) = true)
  (texture : cls = 3 → ∀ bs, agentRead (s.writeBack (tileOf key) fun _ => true) key c (c.rg x.b.toNat).toNat 32 = .ok bs → (textureOf bs).isSome = true)
include h quiet aligned out live format texture

/-- A command whose checks pass goes into the queue of its engine, behind the write-back of its tile. -/
theorem run_submitCommand (i : Instr) :
    let r := captured i [sA x, sB .g x] x.kg.toNat c f
    (submitCommand x cls).run (s.issues (some r)) =
      .ok ((), queued ((s.writeBack (tileOf key) fun _ => true).issues (some r)) e (commandOf (s.writeBack (tileOf key) fun _ => true) key c f x r)) := by
  intro r
  let u := s.writeBack (tileOf key) fun _ => true
  have there := h.issues (some r)
  have back : (s.issues (some r)).writeBack (tileOf key) (fun _ => true) = u.issues (some r) := s.writeBack_issues _ _ _
  have uCur : (u.issues (some r)).cur = some key := by
    obtain ⟨_, _, _, _, _, _, eq⟩ := s.writeBack_eq (tileOf key) fun _ => true
    show (s.writeBack (tileOf key) fun _ => true).cur = some key
    rw [eq]
    exact h.cur
  have uCtx : (u.issues (some r)).ctx? key = some c := by
    show Map.find? (s.writeBack (tileOf key) fun _ => true).ctxs key = some c
    rw [State.writeBack_ctxs]
    exact h.ctx
  have live' : engineFor (s.issues (some r)) key c (c.rg x.a.toNat) cls = .ok e := live
  have format' : cmdFormat cls ((s.issues (some r)).outFormat key c (sP x)) = true := format
  unfold submitCommand
  rw [M.run_bind_ok (run_curKey there.cur), M.run_bind_ok (run_curCtx there.cur there.ctx)]
  refine (run_readTwoS s i c f x x.kg.toNat _).trans ?_
  show StateT.run _ (s.issues (some r)) = _
  rw [M.run_bind_ok (M.run_get _), live', M.run_bind_ok (run_orTrap_ok _ _), if_neg (by simp [aligned])]
  dsimp only
  rw [if_neg (by simp [sP, out]), M.run_bind_ok (M.run_get _), if_neg (by simp [format']), M.run_bind_ok (M.run_get _),
    State.accessing_issues_of_noAccess quiet, if_neg Bool.false_ne_true, M.run_bind_ok (M.run_modify _ _), back]
  by_cases three : cls = 3
  · rw [if_pos three, M.run_bind_ok (M.run_get _), agentRead_issues]
    cases read : agentRead u key c (c.rg x.b.toNat).toNat 32
    case error t =>
      exact (M.run_bind_ok (run_curFiring uCur uCtx h.firing)).trans ((M.run_bind_ok (run_issuing rfl)).trans (M.run_modify _ _))
    case ok bs =>
      dsimp only
      rw [if_neg (by rw [Option.isNone_iff_eq_none]; exact Option.isSome_iff_ne_none.mp (texture three bs read))]
      exact (M.run_bind_ok (run_curFiring uCur uCtx h.firing)).trans ((M.run_bind_ok (run_issuing rfl)).trans (M.run_modify _ _))
  · rw [if_neg three]
    exact (M.run_bind_ok (run_curFiring uCur uCtx h.firing)).trans ((M.run_bind_ok (run_issuing rfl)).trans (M.run_modify _ _))

theorem submit_acts (i : Instr) (acts : exec i s = runInstr i (sAsk x [sA x, sB .g x] []) (submitCommand x cls) s) (short : instrLen i = 8)
    (on : c.guardOn x.kg) (ops : Operands s key c [sA x, sB .g x] []) (rises : Claims.enginesRise s) :
    ∃ t c', exec i s = .next t ∧ Claims.movedOn t key c f 8 c' ∧ c'.g = c.g ∧ c'.v = c.v ∧ t.mem = (s.writeBack (tileOf key) fun _ => true).mem ∧
      ∃ m, (t.engine e).cmds = (s.engine e).cmds ++ [m] ∧ m.ctx = key ∧ m.asid = c.asid ∧ m.q = x.p.toNat ∧ m.bind = c.rq x.p.toNat ∧
        m.block = (c.rg x.b.toNat).toNat ∧ m.count = x.imm.toNat + 1 ∧ m.ev = x.cnd.toNat % 4 ∧ m.mode = x.cnd.toNat / 4 ∧ m.done = 0 ∧ m.tokens = none := by
  let r := captured i [sA x, sB .g x] x.kg.toNat c f
  let u := s.writeBack (tileOf key) fun _ => true
  let m := commandOf u key c f x r
  let w := queued (u.issues (some r)) e m
  have engines : u.engines = s.engines := by
    obtain ⟨_, _, _, _, _, _, eq⟩ := s.writeBack_eq (tileOf key) fun _ => true
    show (s.writeBack (tileOf key) fun _ => true).engines = s.engines
    rw [eq]
  have there : w.ctx? key = some c := by
    show Map.find? (s.writeBack (tileOf key) fun _ => true).ctxs key = some c
    rw [State.writeBack_ctxs]
    exact h.ctx
  have completed : exec i s = .next (w.completed key (c.advance 8)) := by
    rw [acts, ← short]
    exact runInstr_ready (a := sAsk x [sA x, sB .g x] []) h (Nat.not_lt_zero _) (fun _ => on) ops
      (run_submitCommand h quiet aligned out live format texture i) there rfl
  have stands : w.engine e = { u.engine e with cmds := (u.engine e).cmds ++ [m] } :=
    State.engine_setEngine (s := { u.issues (some r) with fresh := u.fresh + 1 }) (engines ▸ rises) e _
  obtain ⟨c', moved, left⟩ := movedOn_completed_self (s := w) (key := key) 8 h.firing c.sameSelf_refl
  refine ⟨_, c', completed, moved, (congrArg Ctx.g left :), (congrArg Ctx.v left :), State.mem_completed _ _ _, m, ?_, rfl, rfl, rfl, rfl, rfl, rfl, rfl,
    rfl, rfl, rfl⟩
  rw [State.engine_completed, stands, State.engine_of_engines engines]

end

/-! ## The events of commands (R193 to R197) -/

/-- A record without a fault begins with its tokens, and its bytes go to memory. -/
theorem beginRecord_ok {s s1 : State} {e : Nat} {m : EngineCmd} {rest : List EngineCmd} {cq : Ctx} {dst : Nat} {bs : List Byte} {ts : List Token}
    (rises : Claims.enginesRise s) (cmds : (s.engine e).cmds = m :: rest) (record : commandRecord s (engineClass e) m cq = .ok (dst, bs, ts))
    (inside : bs ≠ [] → s.strayStore m.ctx dst bs.length = none) (stored : agentStore { s with drawn := s.drawn + 4 } m.ctx cq dst bs = (s1, none))
    (engines : s1.engines = s.engines) : (s.beginRecord e m cq).mem = s1.mem ∧ ((s.beginRecord e m cq).engine e).cmds = m.left ts :: rest := by
  have none : (if bs.isEmpty then none else s.strayStore m.ctx dst bs.length) = none := by
    split
    · rfl
    case isFalse some => exact inside (by simpa using some)
  let s2 := s1.countWrite m.ctx dst bs.length
  have same : s2.engines = s.engines := (s1.countWrite_engines _ _ _).trans engines
  have eq : s.beginRecord e m cq = s2.setEngine e { s2.engine e with cmds := m.left ts :: (s2.engine e).cmds.tail } := by
    unfold State.beginRecord
    rw [record]
    dsimp only
    rw [none, stored]
  rw [eq, State.engine_setEngine (same ▸ rises), State.engine_of_engines same, cmds]
  exact ⟨s1.countWrite_mem _ _ _, rfl⟩

section
variable {s : State} {e : Nat} {m : EngineCmd} {rest : List EngineCmd} {c : Ctx} (rises : Claims.enginesRise s) (cmds : (s.engine e).cmds = m :: rest)
  (lit : (s.engine e).power = .lit) (due : m.done < m.count) (idle : s.storageBusy = false) (slot : s.ctx? m.ctx = some c)
include rises cmds lit due idle slot

theorem resultPush_begins {dst : Nat} {bs : List Byte} {ts : List Token} {s1 : State} (fresh : m.tokens = none) (alive : (s.engine e).lost s.ticks = false)
    (inside : bs ≠ [] → s.strayStore m.ctx dst bs.length = none) (record : commandRecord s (engineClass e) m (m.issuer c) = .ok (dst, bs, ts))
    (stored : agentStore { s with drawn := s.drawn + 4 } m.ctx (m.issuer c) dst bs = (s1, none)) (engines : s1.engines = s.engines) :
    ∃ t, exec (.engineResultPush e) s = .next t ∧ t.mem = s1.mem ∧ (t.engine e).cmds = m.left ts :: rest := by
  have acts : exec (.engineResultPush e) s = .next (s.beginRecord e m (m.issuer c)) := by
    show execEngineResultPush e s = _
    simp only [execEngineResultPush, runEvent, cmds, lit, idle, slot, fresh, alive, Nat.not_le.mpr due, ne_eq, not_true_eq_false, Bool.false_eq_true,
      or_self, if_false]
  exact ⟨_, acts, beginRecord_ok rises cmds record inside stored engines⟩

theorem resultPush_pushes {tok : Token} {ts : List Token} {p : OutPort} {o : Nat} {s1 : State} (held : (s.engine e).holder ≠ none)
    (record : m.tokens = some (tok :: ts)) (port : s.outPort m.ctx (m.issuer c) m.q = some p) (fits : slotsOf tok.words.length ≤ p.depth)
    (consumer : p.consumer = some o)
    (pushed : s.push m.ctx m.q (m.issuer c) p o false
      { tok with header := setFmt (setL (tok.header ||| (p.template &&& 0x0000E00000000000)) tok.words.length) p.fmt } = .done s1)
    (engines : s1.engines = s.engines) :
    ∃ t, exec (.engineResultPush e) s = .next t ∧ t.mem = s1.mem ∧ t.queues = s1.queues ∧
      (t.engine e).cmds = { m.left ts with warn := m.warn ||| s.spillWarn s1 } :: rest := by
  let m1 : EngineCmd := { m.left ts with warn := m.warn ||| s.spillWarn s1 }
  let s2 := s1.setEngine e { s1.engine e with cmds := m1 :: rest }
  have engine : s2.engine e = { s.engine e with cmds := m1 :: rest } :=
    (State.engine_setEngine (engines ▸ rises) e _).trans (by rw [State.engine_of_engines engines])
  have acts : exec (.engineResultPush e) s = .next (s2.endRecord e) := by
    show execEngineResultPush e s = _
    simp only [execEngineResultPush, runEvent, cmds, lit, idle, slot, record, port, consumer, pushed, Nat.not_le.mpr due, Nat.not_lt.mpr fits, ne_eq,
      not_true_eq_false, Bool.false_eq_true, or_self, if_false]
    rfl
  rw [State.endRecord_held (by rw [engine]; exact held)] at acts
  exact ⟨s2, acts, rfl, rfl, congrArg Engine.cmds engine⟩

end

theorem commandCompletion_acts {s : State} {e : Nat} {m : EngineCmd} {rest : List EngineCmd} (rises : Claims.enginesRise s)
    (cmds : (s.engine e).cmds = m :: rest) (done : m.count ≤ m.done) (kept : (s.engine e).closed = false) :
    ∃ t, exec (.engineCommandCompletion e) s = .next t ∧ t.mem = s.mem ∧ (t.engine e).cmds = rest ∧
      t.asyncDone = s.asyncDone ++ [{ id := s.fresh, ctx := m.ctx, ev := some m.ev, warn := m.warn }] := by
  let s1 := (s.setEngine e { s.engine e with cmds := rest }).asyncComplete m.ctx (some m.ev) m.warn 0
  have rises1 : Map.risesFrom 0 s1.engines = true := State.engines_setEngine_rise rises e _
  have engine : s1.engine e = { s.engine e with cmds := rest } := State.engine_setEngine rises e _
  obtain ⟨left, mem, sent⟩ := State.settleLease_cmds rises1 (e := e) (by rw [engine]; exact kept)
  have acts : exec (.engineCommandCompletion e) s = .next (s1.settleLease e).wakeAll := by
    show execEngineCommandCompletion e s = _
    simp only [execEngineCommandCompletion, runEvent, cmds, done, if_true]
    rfl
  exact ⟨_, acts, mem, left.trans (congrArg Engine.cmds engine), sent⟩

end Sys2Proof.EngineProofs

open Sys2Proof Sys2Proof.Machine Sys2Proof.EngineProofs

/-- Settles O46: one body submits the commands of the four classes, and each event has a lemma per outcome. -/
theorem engineCommands : Obligations.EngineCommands := by
  refine ⟨fun s key c f x h on rises ops quiet aligned out p class_ e live format texture => ?_, fun s e m rest c rises cmds lit held due idle slot =>
    ⟨fun dst bs ts s1 fresh alive inside record stored engines => resultPush_begins rises cmds lit due idle slot fresh alive inside record stored engines,
      fun tok ts p o s1 record port fits consumer pushed engines =>
        resultPush_pushes rises cmds lit due idle slot held record port fits consumer pushed engines⟩,
    fun s e m rest => commandCompletion_acts⟩
  simp only [List.mem_cons, List.not_mem_nil, or_false] at class_
  rcases class_ with rfl | rfl | rfl | rfl
  · exact submit_acts h quiet aligned out live format texture _ rfl rfl on ops rises
  · exact submit_acts h quiet aligned out live format texture _ rfl rfl on ops rises
  · exact submit_acts h quiet aligned out live format texture _ rfl rfl on ops rises
  · exact submit_acts h quiet aligned out live format texture _ rfl rfl on ops rises

end

section

namespace Sys2Proof.Machine

/-! ## The release of leases while an instruction issues (R183, R184, R192) -/

section
variable (s : State) (r : Option ReplayEntry)

theorem State.modOwner_issues (k : Nat) (f : Ctx → Ctx) : (s.issues r).modOwner k f = (s.modOwner k f).issues r := by
  unfold State.modOwner State.ctx?
  simp only [State.issues_ctxs]
  cases Map.find? s.ctxs k with
  | some x => rfl
  | none =>
    simp only [State.issues]
    cases s.images.find? fun i => i.key == k <;> rfl

theorem State.finishOp_issues (o : Op) (g : Word) (v : List VWord) : (s.issues r).finishOp o g v = (s.finishOp o g v).issues r := by
  have owner := (s.dropOp o.id).modOwner_issues r o.ctx fun c => c.complete o g v
  unfold State.finishOp State.wake State.modCtx
  rw [show (s.issues r).dropOp o.id = (s.dropOp o.id).issues r from rfl, owner]
  unfold State.ctx?
  rw [State.issues_ctxs]
  cases Map.find? ((s.dropOp o.id).modOwner o.ctx fun c => c.complete o g v).ctxs o.ctx <;> rfl

theorem State.releaseLease_issues (e drained : Nat) : (s.issues r).releaseLease e drained = (s.releaseLease e drained).issues r := by
  cases held : (s.engine e).holder with
  | none => rw [State.releaseLease_free held, State.releaseLease_free (s := s.issues r) held]
  | some k =>
    have gone : (s.issues r).leaseGone e k = (s.leaseGone e k).issues r := by
      unfold State.leaseGone
      dsimp only
      rw [State.modOwner_issues]
      rfl
    rw [State.releaseLease_held held, State.releaseLease_held (s := s.issues r) held, gone]
    exact congrArg State.wakeAll (List.foldl_hom (State.issues · r) fun u o => u.finishOp_issues r o (wd drained) [])

theorem State.absorbAll_issues (k : Nat) : (s.issues r).absorbAll k = (s.absorbAll k).issues r := by
  have absorbs (l : List AsyncDone) (u : State) : l.foldl (fun u d => u.modOwner k fun c => c.absorb d) (u.issues r) =
      (l.foldl (fun u d => u.modOwner k fun c => c.absorb d) u).issues r := List.foldl_hom (State.issues · r) fun u d => u.modOwner_issues r k _
  exact absorbs _ { s with asyncDone := s.asyncDone.filter fun d => d.ctx != k }

theorem State.settleLease_issues (e : Nat) : (s.issues r).settleLease e = (s.settleLease e).issues r := by
  have released := (s.absorbAll ((s.engine e).holder.getD 0)).releaseLease_issues r e 1
  rw [← State.absorbAll_issues] at released
  unfold State.settleLease
  dsimp only
  rw [apply_ite (State.issues · r), apply_ite (State.issues · r), apply_ite (State.issues · r), apply_ite (State.issues · r), ← released]
  rfl

theorem State.endMacro_issues (e : Nat) (o : MacroOp) (fp warn : Word) : (s.issues r).endMacro e o fp warn = (s.endMacro e o fp warn).issues r := by
  have owner := (s.setEngine e ((s.engine e).dropOp o.id)).modOwner_issues r o.ctx fun c => (c.flagsFp fp).warns warn
  have settled (u : State) : ((u.issues r).settleLease e).wakeAll = ((u.settleLease e).wakeAll).issues r := congrArg State.wakeAll (u.settleLease_issues r e)
  unfold State.endMacro
  dsimp only
  refine Eq.trans (congrArg (fun u => (State.settleLease u e).wakeAll) ?_) (settled _)
  cases o.counted with
  | true => rfl
  | false => exact owner

theorem State.creditDone_issues (e : Nat) : (s.issues r).creditDone e = (s.creditDone e).issues r := by
  unfold State.creditDone
  dsimp only
  rw [show (s.issues r).engine e = s.engine e from rfl, List.foldl_hom (State.issues · r) (g₁ := fun s m =>
      (s.setEngine e { s.engine e with cmds := (s.engine e).cmds.filter fun x => x.id != m.id }).asyncComplete m.ctx (some m.ev) m.warn 0) (fun _ _ => rfl),
    List.foldl_hom (State.issues · r) (fun u o => u.endMacro_issues r e o o.fpflags o.warn), State.settleLease_issues]

end
end Sys2Proof.Machine
end

section

namespace Sys2Proof.Machine

/-! ## What the end of a lease leaves of a context -/

/-- What no end of an instruction in flight and no end of a lease touches. -/
noncomputable def Ctx.standing (c : Ctx) := (c.k, c.frames, c.trapcause, c.trapinfo, c.trapvec, c.priv, c.asid, c.part, c.graph)

/-- A firing, whether or not it waits. -/
noncomputable def Firing.calm (f : Firing) : Firing := { f with stall := .none }

/-- The second context stands as the first, at the same instruction, with some of its leases. -/
def Ctx.undisturbed (c d : Ctx) : Prop :=
  d.standing = c.standing ∧ d.firing.map Firing.calm = c.firing.map Firing.calm ∧ ∀ r ∈ d.leases, r ∈ c.leases

theorem Ctx.undisturbed.refl (c : Ctx) : c.undisturbed c := ⟨rfl, rfl, fun _ => id⟩

theorem Ctx.undisturbed.trans {b c d : Ctx} (first : b.undisturbed c) (second : c.undisturbed d) : b.undisturbed d := by
  obtain ⟨standing, firing, leases⟩ := first
  obtain ⟨standing', firing', leases'⟩ := second
  exact ⟨standing'.trans standing, firing'.trans firing, fun r there => leases r (leases' r there)⟩

theorem Ctx.undisturbed_awake (c : Ctx) : c.undisturbed c.awake := by
  refine ⟨rfl, ?_, fun _ => id⟩
  show (c.firing.map Firing.awake).map Firing.calm = _
  rw [Option.map_map]
  congr 1
  funext f
  unfold Function.comp Firing.awake
  split <;> rfl

theorem Ctx.undisturbed_absorb (c : Ctx) (d : AsyncDone) : c.undisturbed (c.absorb d) := by
  unfold Ctx.absorb
  dsimp only
  split <;> exact ⟨rfl, rfl, fun _ => id⟩

theorem Ctx.undisturbed_complete (c : Ctx) (o : Op) (g : Word) (v : List VWord) : c.undisturbed (c.complete o g v) := by
  have delivered : c.undisturbed (c.deliver o.dstG o.dstV g v) := by
    refine foldl_keeps c.undisturbed _ (fun d p so => so.trans ?_) _ _
      (foldl_keeps c.undisturbed (fun d n => d.wg n g) (fun _ _ so => so) _ _ (.refl c))
    split <;> exact ⟨rfl, rfl, fun _ => id⟩
  unfold Ctx.complete
  dsimp only
  split
  · exact delivered
  · exact delivered

/-- A delivery that brings no vector writes its one g register alone. -/
theorem Ctx.deliver_bare (c : Ctx) (dstV : List Nat) (n : Nat) (x : Word) :
    (c.deliver [n] dstV x []).g = (c.wg n x).g ∧ (c.deliver [n] dstV x []).gEmpty = (c.wg n x).gEmpty :=
  ⟨foldl_same Ctx.g _ (fun _ p => by split <;> rfl) _ _, foldl_same Ctx.gEmpty _ (fun _ p => by split <;> rfl) _ _⟩

/-- A context without its record of a lease. -/
noncomputable def Ctx.without (c : Ctx) (e : Nat) (serial : BitVec 16) : Ctx :=
  { c with leases := c.leases.filter fun r => !(handleEngine r.handle == some e && r.grantSerial == serial) }

theorem Ctx.undisturbed.without {c d : Ctx} (same : c.undisturbed d) (e : Nat) (serial : BitVec 16) : (c.without e serial).undisturbed (d.without e serial) := by
  obtain ⟨standing, firing, leases⟩ := same
  refine ⟨standing, firing, fun r there => ?_⟩
  obtain ⟨held, other⟩ := List.mem_filter.mp there
  exact List.mem_filter.mpr ⟨leases r held, other⟩

theorem Ctx.undisturbed_without (c : Ctx) (e : Nat) (serial : BitVec 16) : c.undisturbed (c.without e serial) :=
  ⟨rfl, rfl, fun _ there => List.mem_of_mem_filter there⟩

theorem State.requests_completed (s : State) (key : Nat) (c : Ctx) : (s.completed key c).requests = s.requests := by simp [State.completed]

/-- An instruction in flight with one destination brings its answer there. -/
theorem State.finishOp_answers {s : State} {o : Op} {c : Ctx} {n : Nat} (slot : s.ctx? o.ctx = some c) (dst : o.dstG = [n]) (x : Word) :
    (s.finishOp o x []).op? o.id = none ∧ (s.finishOp o x []).mem = s.mem ∧ (s.finishOp o x []).requests = s.requests ∧
      ∃ d, (s.finishOp o x []).ctx? o.ctx = some d ∧ d.g = (c.wg n x).g ∧ d.gEmpty = (c.wg n x).gEmpty := by
  obtain ⟨gone, mem, -⟩ := State.finishOp_spec slot x []
  obtain ⟨_, finished⟩ := State.finishOp_slot slot x []
  obtain ⟨g, gEmpty, -⟩ := c.complete_registers o x []
  obtain ⟨g', gEmpty'⟩ := c.deliver_bare o.dstV n x
  rw [dst] at g gEmpty
  exact ⟨gone, mem, (congrArg State.requests finished :), _, (congrArg (State.ctx? · o.ctx) finished).trans (State.ctx?_setCtx _ _ _), g.trans g', gEmpty.trans gEmpty'⟩

/-- The state still issues for a context in a slot that stands as another. -/
def State.bears (s : State) (k : Nat) (c : Ctx) : Prop := s.cur = some k ∧ s.replayNow = false ∧ ∃ d, s.ctx? k = some d ∧ c.undisturbed d

section
variable {s : State} {k : Nat} {c : Ctx} (there : s.bears k c)
include there

theorem State.bears.undisturbed {d : Ctx} (slot : s.ctx? k = some d) : c.undisturbed d := by
  obtain ⟨_, _, d', slot', stands⟩ := there
  exact Option.some.inj (slot'.symm.trans slot) ▸ stands

theorem State.bears.of_undisturbed {b : Ctx} (same : b.undisturbed c) : s.bears k b := by
  obtain ⟨cur, first, d, slot, stands⟩ := there
  exact ⟨cur, first, d, slot, same.trans stands⟩

theorem State.bears.setCtx {j : Nat} {x : Ctx} (own : ∀ d, s.ctx? j = some d → d.undisturbed x) : (s.setCtx j x).bears k c := by
  obtain ⟨cur, first, d, slot, stands⟩ := there
  by_cases here : k = j
  · subst here
    exact ⟨cur, first, x, State.ctx?_setCtx s k x, stands.trans (own d slot)⟩
  · exact ⟨cur, first, d, (State.ctx?_setCtx_ne s x here).trans slot, stands⟩

theorem State.bears.modOwner (j : Nat) {f : Ctx → Ctx} (own : ∀ d : Ctx, d.undisturbed (f d)) : (s.modOwner j f).bears k c := by
  unfold State.modOwner
  split
  case _ x found => exact there.setCtx fun d slot => Option.some.inj (found.symm.trans slot) ▸ own x
  · split
    · exact there
    · exact there

theorem State.bears.wakeAll : s.wakeAll.bears k c := by
  obtain ⟨cur, first, d, slot, stands⟩ := there
  exact ⟨cur, first, d.awake, (s.ctx?_wakeAll k).trans (congrArg (Option.map Ctx.awake) slot), stands.trans d.undisturbed_awake⟩

theorem State.bears.finishOp (o : Op) (g : Word) (v : List VWord) : (s.finishOp o g v).bears k c := by
  have ended : ((s.dropOp o.id).modOwner o.ctx fun c => c.complete o g v).bears k c :=
    State.bears.modOwner (s := s.dropOp o.id) there o.ctx fun d => Ctx.undisturbed_complete d o g v
  unfold State.finishOp State.wake State.modCtx
  split
  · exact ended
  case _ x found => exact ended.setCtx fun d slot => Option.some.inj (found.symm.trans slot) ▸ x.undisturbed_awake

theorem State.bears.releaseLease (e drained : Nat) : (s.releaseLease e drained).bears k c := by
  cases held : (s.engine e).holder with
  | none => rwa [State.releaseLease_free held drained]
  | some j =>
    rw [State.releaseLease_held held]
    have gone : (s.leaseGone e j).bears k c := there.modOwner j fun d => Ctx.undisturbed_without d e (s.engine e).serial
    exact (foldl_keeps (fun t => State.bears t k c) _ (fun _ o so => so.finishOp o _ _) _ _ gone).wakeAll

/-- The context that held a lease has no record of it once it is released. -/
theorem State.bears.forgets {e : Nat} (held : (s.engine e).holder = some k) (drained : Nat) :
    (s.releaseLease e drained).bears k (c.without e (s.engine e).serial) := by
  rw [State.releaseLease_held held]
  obtain ⟨cur, first, d, slot, stands⟩ := there
  have gone : (s.leaseGone e k).bears k (c.without e (s.engine e).serial) := by
    have owner : s.modOwner k (fun c => c.without e (s.engine e).serial) = s.setCtx k (d.without e (s.engine e).serial) := State.modOwner_slot _ slot
    show (s.modOwner k fun c => c.without e (s.engine e).serial).bears k _
    rw [owner]
    exact ⟨cur, first, _, State.ctx?_setCtx s k _, stands.without e _⟩
  exact (foldl_keeps (fun t => State.bears t k _) _ (fun _ o so => so.finishOp o _ _) _ _ gone).wakeAll

theorem State.bears.absorbAll (j : Nat) : (s.absorbAll j).bears k c :=
  foldl_keeps (fun t => State.bears t k c) _ (fun _ a so => so.modOwner j fun d => d.undisturbed_absorb a) _ _ there

end

/-- The closed lease of an engine that has no work is released. -/
theorem State.settleLease_closed {s : State} {e k : Nat} (idle : (s.engine e).inflight = 0) (held : (s.engine e).holder = some k)
    (closed : (s.engine e).closed = true) : s.settleLease e = (s.absorbAll k).releaseLease e 1 := by
  unfold State.settleLease
  dsimp only
  rw [if_neg (not_not.mpr idle), held, if_pos (Option.isSome_some), if_pos closed, Option.getD_some]

/-- The context holds the lease of an engine, or it holds it no longer and has no record of it. -/
def State.lends (s : State) (k : Nat) (c : Ctx) (e : Nat) (serial : BitVec 16) : Prop :=
  Map.risesFrom 0 s.engines = true ∧ (((s.engine e).holder = some k ∧ (s.engine e).serial = serial ∧ s.bears k c) ∨
    ((s.engine e).holder = none ∧ s.bears k (c.without e serial)))

section
variable {s : State} {k : Nat} {c : Ctx} {e : Nat} {serial : BitVec 16} (lent : s.lends k c e serial)
include lent

theorem State.lends.setEngine {g : Engine} (holder : g.holder = (s.engine e).holder) (same : g.serial = (s.engine e).serial) :
    (s.setEngine e g).lends k c e serial := by
  obtain ⟨rises, stands⟩ := lent
  refine ⟨State.engines_setEngine_rise rises e _, ?_⟩
  rw [State.engine_setEngine rises, holder, same]
  exact stands

theorem State.lends.release (drained : Nat) : (s.releaseLease e drained).bears k (c.without e serial) := by
  obtain ⟨_, ⟨held, rfl, there⟩ | ⟨free, there⟩⟩ := lent
  · exact there.forgets held drained
  · exact there.releaseLease e drained

theorem State.lends.settle : (s.settleLease e).lends k c e serial := by
  obtain ⟨rises, ⟨held, rfl, there⟩ | ⟨free, there⟩⟩ := lent
  · by_cases ends : (s.engine e).inflight = 0 ∧ (s.engine e).closed = true
    · obtain ⟨idle, closed⟩ := ends
      have same := State.engine_of_engines (s.absorbAll_engines k) e
      obtain ⟨gone, rises'⟩ := State.released_releaseLease (s := s.absorbAll k) (by rw [State.absorbAll_engines]; exact rises) (same ▸ held) 1
      have forgets := (there.absorbAll k).forgets (same ▸ held) 1
      rw [State.settleLease_closed idle held closed]
      exact ⟨rises', .inr ⟨gone.holder, same ▸ forgets⟩⟩
    · have kept : s.settleLease e = s := by
        unfold State.settleLease
        dsimp only
        rw [held, if_pos (Option.isSome_some)]
        split
        · rfl
        case _ idle => exact if_neg fun closed => ends ⟨not_not.mp idle, closed⟩
      rw [kept]
      exact ⟨rises, .inl ⟨held, rfl, there⟩⟩
  · unfold State.settleLease
    dsimp only
    rw [free]
    split
    · exact ⟨rises, .inr ⟨free, there⟩⟩
    · rw [if_neg (by simp)]
      split
      · refine ⟨State.engines_setEngine_rise rises e _, .inr ⟨?_, State.bears.wakeAll there⟩⟩
        exact congrArg Engine.holder (State.engine_setEngine rises e _)
      · exact ⟨rises, .inr ⟨free, there⟩⟩

theorem State.lends.endMacro (o : MacroOp) (fp warn : Word) : (s.endMacro e o fp warn).lends k c e serial := by
  have wakes {t : State} (lent : t.lends k c e serial) : t.wakeAll.lends k c e serial := by
    obtain ⟨rises, ⟨held, same, there⟩ | ⟨free, there⟩⟩ := lent
    · exact ⟨rises, .inl ⟨held, same, there.wakeAll⟩⟩
    · exact ⟨rises, .inr ⟨free, there.wakeAll⟩⟩
  have drops := lent.setEngine (g := (s.engine e).dropOp o.id) rfl rfl
  unfold State.endMacro
  refine wakes (State.lends.settle ?_)
  split
  · exact drops
  · obtain ⟨rises, stands⟩ := drops
    rw [State.lends, State.modOwner_engines, State.engine_of_engines (State.modOwner_engines _ _ _)]
    refine ⟨rises, stands.imp ?_ ?_⟩
    · exact fun ⟨held, same, there⟩ => ⟨held, same, there.modOwner _ fun d => ⟨rfl, rfl, fun _ => id⟩⟩
    · exact fun ⟨free, there⟩ => ⟨free, there.modOwner _ fun d => ⟨rfl, rfl, fun _ => id⟩⟩

theorem State.lends.creditDone : (s.creditDone e).lends k c e serial := by
  refine State.lends.settle (foldl_keeps (fun t => State.lends t k c e serial) _ (fun _ o so => so.endMacro o _ _) _ _ ?_)
  refine foldl_keeps (fun t => State.lends t k c e serial) _ (fun t m so => ?_) _ _ lent
  exact so.setEngine (g := { t.engine e with cmds := (t.engine e).cmds.filter fun x => x.id != m.id }) rfl rfl

end

/-- An instruction that has left its context undisturbed has moved its firing on. -/
theorem movedOn_of_undisturbed {t : State} {key : Nat} {c d : Ctx} {f : Firing} (firing : c.firing = some f) (same : c.undisturbed d) :
    ∃ c', Claims.movedOn (t.completed key (d.advance 8)) key c f 8 c' ∧ c'.uncounted = (d.advance 8).uncounted := by
  obtain ⟨c', slot, left⟩ := t.ctx?_completed key (d.advance 8)
  obtain ⟨standing, at_, _⟩ := same
  have stands : c'.standing = c.standing := (congrArg Ctx.standing left :).trans standing
  simp only [Ctx.standing, Prod.mk.injEq] at stands
  obtain ⟨k, frames, cause, info, vec, priv, asid, part, _⟩ := stands
  refine ⟨c', ⟨slot, (congrArg Ctx.firing left :).trans ?_, k, frames, cause, info, vec, priv, asid, part⟩, left⟩
  have goes : (d.firing.map Firing.calm).map (fun g => { g with pc := nextPc g.pc 8, stall := .none, wait := none }) =
      some { f with pc := nextPc f.pc 8, stall := .none, wait := none } := by
    rw [at_, firing]
    rfl
  rw [Option.map_map] at goes
  exact goes

end Sys2Proof.Machine
end

section

namespace Sys2Proof.LeaseProofs
open Sys2Proof Sys2Proof.Machine

theorem graph_of_undisturbed {c d : Ctx} (same : c.undisturbed d) : d.graph = c.graph := by
  obtain ⟨standing, _, _⟩ := same
  exact (congrArg (fun p => p.2.2.2.2.2.2.2.2) standing :)

/-- An instruction that stands as another has its serial. -/
theorem serial_of_undisturbed {c d : Ctx} {f : Firing} (firing : c.firing = some f) (same : c.undisturbed d) : ∃ g, d.firing = some g ∧ g.serial = f.serial := by
  obtain ⟨_, at_, _⟩ := same
  rw [firing] at at_
  obtain ⟨g, there, calm⟩ := Option.map_eq_some_iff.mp at_
  exact ⟨g, there, (congrArg Firing.serial calm :)⟩

/-- No record of a lease stays in a context that stands without it. -/
theorem leases_of_without {c d c' : Ctx} {e : Nat} {n : BitVec 16} (stands : (c.without e n).undisturbed d) (left : c'.uncounted = (d.advance 8).uncounted) :
    ∀ r ∈ c'.leases, ¬ (handleEngine r.handle = some e ∧ r.grantSerial = n) := by
  obtain ⟨_, _, kept⟩ := stands
  intro r there
  rw [show c'.leases = d.leases from (congrArg Ctx.leases left :)] at there
  exact not_and_or.mpr (by simpa using (List.mem_filter.mp (kept r there)).2)

section
variable {s : State} {key : Nat} {c : Ctx} {f : Firing} {x : SForm} (h : Issuing s key c f) (on : c.guardOn x.kg)
include h on

/-- An instruction of the S form leaves the state that its body leaves. -/
theorem sForm_leaves {i : Instr} {body : M Unit} {srcs : List Src} {dsts : List Dst} {u : State} {d : Ctx}
    (acts : exec i s = runInstr i (sAsk x srcs dsts) body s) (short : instrLen i = 8) (ops : Operands s key c srcs dsts)
    (run : body.run (s.issues (some (captured i srcs x.kg.toNat c f))) = .ok ((), u.issues (some (captured i srcs x.kg.toNat c f))))
    (slot : u.ctx? key = some d) (graph : d.graph = c.graph) : exec i s = .next (u.completed key (d.advance 8)) := by
  rw [acts, ← short]
  exact (runInstr_ready (a := sAsk x srcs dsts) (t := u.issues _) h (Nat.not_lt_zero _) (fun _ => on) ops run slot graph).trans rfl

/-! ## LRENEW, LFREE and LQRY (R185, R189 to R191) -/

/-- An engine whose hold is extended, and one whose lease is closed by LFREE. -/
noncomputable def renewed (s : State) (c : Ctx) (e : Nat) (w : Word) : Engine :=
  { s.engine e with holdEnd := s.ticks + Nat.min (if w = 0 then (s.engine e).hold else w.toNat) (s.holdCap c), holding := true }
noncomputable def shut (s : State) (e : Nat) : Engine := { s.engine e with closed := true, freed := (s.engine e).freed || !(s.engine e).lost s.ticks }

theorem lrenew_acts {e : Nat} {u : State} (ops : Operands s key c [sA x, sB .g x] []) (live : leaseOf s key c (c.rg x.a.toNat) = .ok e)
    (alive : (s.engine e).closed = false) (renews : (if (s.engine e).notice.isNone = true then s.setEngine e (renewed s c e (c.rg x.b.toNat)) else s) = u)
    (slot : u.ctx? key = some c) : exec (.lrenew x) s = .next (u.completed key (c.advance 8)) := by
  let r := captured (.lrenew x) [sA x, sB .g x] x.kg.toNat c f
  have there := h.issues (some r)
  refine sForm_leaves h on rfl rfl ops ?_ slot rfl
  rw [M.run_bind_ok (run_curKey there.cur), M.run_bind_ok (run_curCtx there.cur there.ctx)]
  refine (run_readTwoS s (.lrenew x) c f x x.kg.toNat _).trans ?_
  show StateT.run _ (s.issues (some r)) = _
  rw [M.run_bind_ok (M.run_get _), show leaseOf (s.issues (some r)) key c (c.rg x.a.toNat) = .ok e from live, M.run_bind_ok (run_orTrap_ok _ _),
    M.run_bind_ok (M.run_get _), ← renews]
  refine (congrArg (fun m => StateT.run m (s.issues (some r))) (if_neg (Bool.eq_false_iff.mp alive))).trans ?_
  by_cases unnoticed : (s.engine e).notice.isNone = true
  · rw [if_pos unnoticed]
    exact congrArg (fun m => StateT.run m (s.issues (some r))) (if_pos unnoticed)
  · rw [if_neg unnoticed]
    exact congrArg (fun m => StateT.run m (s.issues (some r))) (if_neg unnoticed)

/-- LFREE .held of a live lease closes it, and settles it. -/
theorem lfreeHeld_live {e : Nat} {u : State} {d : Ctx} (ops : Operands s key c [sA x] []) (live : s.liveLease c (c.rg x.a.toNat) = some e)
    (settles : (s.setEngine e (shut s e)).settleLease e = u)
    (slot : u.ctx? key = some d) (graph : d.graph = c.graph) : exec (.lfreeHeld x) s = .next (u.completed key (d.advance 8)) := by
  let r := captured (.lfreeHeld x) [sA x] x.kg.toNat c f
  have there := h.issues (some r)
  refine sForm_leaves h on rfl rfl ops ?_ slot graph
  rw [M.run_bind_ok (run_curCtx there.cur there.ctx), M.run_bind_ok (M.run_get _)]
  refine (run_readS s (.lfreeHeld x) c f x x.kg.toNat _).trans ?_
  show StateT.run _ (s.issues (some r)) = _
  rw [show (s.issues (some r)).liveLease c (c.rg x.a.toNat) = some e from live, ← settles, ← State.settleLease_issues]
  rfl

theorem lfreeHeld_dead (ops : Operands s key c [sA x] []) (dead : s.liveLease c (c.rg x.a.toNat) = none) :
    exec (.lfreeHeld x) s = .next (s.completed key (c.advance 8)) := by
  let r := captured (.lfreeHeld x) [sA x] x.kg.toNat c f
  have there := h.issues (some r)
  refine sForm_leaves h on rfl rfl ops ?_ h.ctx rfl
  rw [M.run_bind_ok (run_curCtx there.cur there.ctx), M.run_bind_ok (M.run_get _)]
  refine (run_readS s (.lfreeHeld x) c f x x.kg.toNat _).trans ?_
  show StateT.run _ (s.issues (some r)) = _
  rw [show (s.issues (some r)).liveLease c (c.rg x.a.toNat) = none from dead]
  rfl

/-- LFREE .held of a lease that has work leaves it closed. -/
theorem lfreeHeld_busy {e : Nat} (rises : Claims.enginesRise s) (ops : Operands s key c [sA x] []) (live : s.liveLease c (c.rg x.a.toNat) = some e)
    (busy : (s.engine e).inflight ≠ 0) : exec (.lfreeHeld x) s = .next
      ((s.setEngine e (shut s e)).completed key (c.advance 8)) := by
  refine lfreeHeld_live h on ops live ?_ h.ctx rfl
  unfold State.settleLease
  dsimp only
  rw [State.engine_setEngine rises]
  exact if_pos busy

/-- LFREE .held of a lease that has no work releases it. -/
theorem lfreeHeld_idle {e : Nat} (rises : Claims.enginesRise s) (ops : Operands s key c [sA x] []) (live : s.liveLease c (c.rg x.a.toNat) = some e)
    (idle : (s.engine e).inflight = 0) (held : (s.engine e).holder = some key) : ∃ t c', exec (.lfreeHeld x) s = .next t ∧ Claims.movedOn t key c f 8 c' ∧
      (t.engine e).holder = none ∧ (t.engine e).cmds = [] ∧ (t.engine e).ops = [] ∧
      ∀ r ∈ c'.leases, ¬ (handleEngine r.handle = some e ∧ r.grantSerial = (s.engine e).serial) := by
  let g : Engine := shut s e
  let s1 := s.setEngine e g
  have rises1 : Map.risesFrom 0 s1.engines = true := State.engines_setEngine_rise rises e g
  have engine : s1.engine e = g := State.engine_setEngine rises e g
  have settles : s1.settleLease e = (s1.absorbAll key).releaseLease e 1 :=
    State.settleLease_closed (by rw [engine]; exact idle) (by rw [engine]; exact held) (by rw [engine]; rfl)
  have same : (s1.absorbAll key).engine e = g := (State.engine_of_engines (s1.absorbAll_engines key) e).trans engine
  have bears : s1.bears key c := ⟨h.cur, h.first, c, h.ctx, .refl c⟩
  obtain ⟨⟨holder, cmds, macros, _⟩, _⟩ := State.released_releaseLease (s := s1.absorbAll key) (e := e) (k := key)
    (by rw [State.absorbAll_engines]; exact rises1) (by rw [same]; exact held) 1
  obtain ⟨_, _, d, slot, stands⟩ := (bears.absorbAll key).forgets (e := e) (by rw [same]; exact held) 1
  obtain ⟨c', moved, left⟩ := movedOn_of_undisturbed (t := (s1.absorbAll key).releaseLease e 1) h.firing ((c.undisturbed_without _ _).trans stands)
  rw [same] at stands
  refine ⟨_, c', lfreeHeld_live h on ops live settles slot (graph_of_undisturbed ((c.undisturbed_without _ _).trans stands)), moved, ?_, ?_, ?_, ?_⟩
  · rwa [State.engine_completed]
  · rwa [State.engine_completed]
  · rwa [State.engine_completed]
  · exact leases_of_without stands left

omit h on in
/-- The LEASE in flight that LFREE .pend looks for. -/
noncomputable def awaits (key n : Nat) (o : Op) : Bool := o.ctx == key && o.dstG == [n] && (match o.kind with | .lease _ => true | _ => false)

omit h on in
theorem awaits_iff {n : Nat} {o : Op} : awaits key n o = true ↔ o.ctx = key ∧ o.dstG = [n] ∧ ∃ r, o.kind = .lease r := by
  unfold awaits
  rw [Bool.and_eq_true, Bool.and_eq_true, beq_iff_eq, beq_iff_eq, and_assoc]
  generalize o.kind = k
  refine and_congr_right fun _ => and_congr_right fun _ => ?_
  cases k with
  | lease r => exact ⟨fun _ => ⟨r, rfl⟩, fun _ => rfl⟩
  | _ => exact ⟨fun no => absurd no Bool.false_ne_true, fun ⟨_, no⟩ => nomatch no⟩

/-- LFREE .pend without a waiting request does nothing. -/
theorem lfreePend_none (ops : Operands s key c [] []) (none : ∀ o ∈ s.ops, o.ctx = key → o.dstG = [x.a.toNat] → ∀ r, o.kind ≠ .lease r) :
    exec (.lfreePend x) s = .next (s.completed key (c.advance 8)) := by
  have there := h.issues (some (captured (.lfreePend x) [] x.kg.toNat c f))
  have missing : s.ops.find? (awaits key x.a.toNat) = .none := List.find?_eq_none.mpr fun o found waits => by
    obtain ⟨own, dst, r, kind⟩ := awaits_iff.mp waits
    exact none o found own dst r kind
  refine sForm_leaves h on rfl rfl ops ?_ h.ctx rfl
  rw [M.run_bind_ok (run_curKey there.cur), M.run_bind_ok (M.run_get _)]
  generalize waits : List.find? _ _ = w
  cases waits.symm.trans missing
  rfl

/-- The state with a request withdrawn, and 3 at the destination of its LEASE. -/
noncomputable def withdrawn (s : State) (o : Op) (r : Nat) : State := State.finishOp { s with requests := s.requests.filter fun x => x.id != r } o 3 []

omit h on in
theorem withdrawn_issues (s : State) (w : Option ReplayEntry) (o : Op) (r : Nat) : withdrawn (s.issues w) o r = (withdrawn s o r).issues w :=
  State.finishOp_issues { s with requests := s.requests.filter fun x => x.id != r } w o 3 []

omit h on in
theorem withdrawn_spec {o : Op} {r n : Nat} (slot : s.ctx? o.ctx = some c) (dst : o.dstG = [n]) :
    (withdrawn s o r).op? o.id = none ∧ (withdrawn s o r).mem = s.mem ∧ (withdrawn s o r).requests = s.requests.filter (fun x => x.id != r) ∧
      ∃ d, (withdrawn s o r).ctx? o.ctx = some d ∧ d.g = (c.wg n 3).g ∧ d.gEmpty = (c.wg n 3).gEmpty :=
  State.finishOp_answers (s := { s with requests := s.requests.filter fun x => x.id != r }) slot dst 3

theorem lfreePend_withdraws {o : Op} {r : Nat} {d : Ctx} (ops : Operands s key c [] []) (found : s.ops.find? (awaits key x.a.toNat) = some o)
    (kind : o.kind = .lease r) (slot : (withdrawn s o r).ctx? key = some d) (graph : d.graph = c.graph) :
    exec (.lfreePend x) s = .next ((withdrawn s o r).completed key (d.advance 8)) := by
  have there := h.issues (some (captured (.lfreePend x) [] x.kg.toNat c f))
  refine sForm_leaves h on rfl rfl ops ?_ slot graph
  rw [M.run_bind_ok (run_curKey there.cur), M.run_bind_ok (M.run_get _), ← withdrawn_issues]
  generalize waits : List.find? _ _ = w
  cases waits.symm.trans found
  dsimp only
  rw [kind]
  rfl

/-- LFREE .pend takes a waiting request away, and 3 goes to its destination. -/
theorem lfreePend_some {o : Op} {r : Nat} (ops : Operands s key c [] []) (found : s.ops.find? (awaits key x.a.toNat) = some o)
    (kind : o.kind = .lease r) : ∃ t c', exec (.lfreePend x) s = .next t ∧ Claims.movedOn t key c f 8 c' ∧ t.mem = s.mem ∧
      c'.g = (c.wg x.a.toNat 3).g ∧ c'.emptyG x.a.toNat = false ∧ (∀ q ∈ t.requests, q.id ≠ r) ∧ t.op? o.id = none := by
  obtain ⟨own, dst, _⟩ := awaits_iff.mp (List.find?_some found)
  subst own
  obtain ⟨gone, mem, requests, d, slot, g, gEmpty⟩ := withdrawn_spec (r := r) h.ctx dst
  have there : (withdrawn s o r).bears o.ctx c := State.bears.finishOp (s := { s with requests := s.requests.filter fun x => x.id != r }) ⟨h.cur, h.first, c, h.ctx, .refl c⟩ o 3 []
  have stands := there.undisturbed slot
  obtain ⟨c', moved, uncounted⟩ := movedOn_of_undisturbed (t := withdrawn s o r) h.firing stands
  refine ⟨_, c', lfreePend_withdraws h on ops found kind slot (graph_of_undisturbed stands), moved, (State.mem_completed _ _ _).trans mem,
    (congrArg Ctx.g uncounted :).trans g, ?_, fun q stays => ?_, ?_⟩
  · rw [Ctx.emptyG, show c'.gEmpty = d.gEmpty from (congrArg Ctx.gEmpty uncounted :), gEmpty]
    exact c.emptyG_wg x.a.toNat 3 x.a.isLt
  · rw [State.requests_completed, requests] at stays
    exact bne_iff_ne.mp (List.mem_filter.mp stays).2
  · rwa [State.op?, State.ops_completed]

theorem lqryLease_acts (ops : Operands s key c [sA x] [gDst x.d.toNat]) :
    exec (.lqryLease x) s = .next (s.completed key ((c.wg x.d.toNat (s.leaseStatus c (c.rg x.a.toNat))).advance 8)) := by
  let r := captured (.lqryLease x) [sA x] x.kg.toNat c f
  have there := h.issues (some r)
  refine (sForm_leaves (u := s.setCtx key (c.wg x.d.toNat (s.leaseStatus c (c.rg x.a.toNat)))) h on rfl rfl ops ?_ (State.ctx?_setCtx _ _ _) rfl).trans
    (by rw [State.completed_setCtx])
  rw [M.run_bind_ok (run_curCtx there.cur there.ctx)]
  refine (run_readS s (.lqryLease x) c f x x.kg.toNat _).trans ?_
  exact (M.run_bind_ok (M.run_get _)).trans (run_writeG _ _ there.cur there.ctx)

theorem lqryCls_acts (ops : Operands s key c [] [gDst x.d.toNat]) :
    exec (.lqryCls x) s = .next (s.completed key ((c.wg x.d.toNat (s.classStatus key (x.imm.toNat % 8))).advance 8)) := by
  have there := h.issues (some (captured (.lqryCls x) [] x.kg.toNat c f))
  refine (sForm_leaves (u := s.setCtx key (c.wg x.d.toNat (s.classStatus key (x.imm.toNat % 8)))) h on rfl rfl ops ?_ (State.ctx?_setCtx _ _ _) rfl).trans
    (by rw [State.completed_setCtx])
  exact (M.run_bind_ok (run_curKey there.cur)).trans ((M.run_bind_ok (M.run_get _)).trans (run_writeG _ _ there.cur there.ctx))

/-! ## EVACK (R192) -/

omit on in
/-- What goes in flight with one destination leaves it empty. -/
theorem given_of_sent {v : State} {d : Ctx} {k : OpKind} (same : c.undisturbed d) (sent : ∃ o ∈ v.ops, o.ctx = key ∧ o.dstG = [x.d.toNat] ∧ o.kind = k) :
    let t := v.completed key ((d.markG x.d.toNat true).advance 8)
    ∃ c', Claims.movedOn t key c f 8 c' ∧ c'.uncounted = ((d.markG x.d.toNat true).advance 8).uncounted ∧ c'.emptyG x.d.toNat = true ∧
      ∃ o ∈ t.ops, o.ctx = key ∧ o.dstG = [x.d.toNat] ∧ o.kind = k := by
  obtain ⟨c', moved, left⟩ := movedOn_of_undisturbed (t := v) h.firing (same.trans (d := d.markG x.d.toNat true) ⟨rfl, rfl, fun _ => id⟩)
  refine ⟨c', moved, left, ?_, by rwa [State.ops_completed]⟩
  rw [Ctx.emptyG, show c'.gEmpty = (d.markG x.d.toNat true).gEmpty from (congrArg Ctx.gEmpty left :)]
  exact setBit_get _ _ true x.d.isLt

section
variable {e : Nat} (ops : Operands s key c [sA x] [gDst x.d.toNat]) (live : leaseOf s key c (c.rg x.a.toNat) = .ok e)
include ops live

/-- An EVACK does what its body does once it has its lease. -/
theorem evack_leaves {i : Instr} {rest : Nat → M Unit} {u : State} {d : Ctx} (short : instrLen i = 8)
    (acts : exec i s = runInstr i (sAsk x [sA x] [gDst x.d.toNat]) (do
      let key ← curKey
      let c ← curCtx
      let e ← orTrap (leaseOf (← get) key c (← opG .a))
      rest e) s)
    (run : (rest e).run (s.issues (some (captured i [sA x] x.kg.toNat c f))) = .ok ((), u.issues (some (captured i [sA x] x.kg.toNat c f))))
    (slot : u.ctx? key = some d) (graph : d.graph = c.graph) : exec i s = .next (u.completed key (d.advance 8)) := by
  let r := captured i [sA x] x.kg.toNat c f
  have there := h.issues (some r)
  refine sForm_leaves h on acts short ops ?_ slot graph
  rw [M.run_bind_ok (run_curKey there.cur), M.run_bind_ok (run_curCtx there.cur there.ctx), M.run_bind_ok (M.run_get _)]
  refine (run_readS s i c f x x.kg.toNat _).trans ?_
  show StateT.run _ (s.issues (some r)) = _
  rw [show leaseOf (s.issues (some r)) key c (c.rg x.a.toNat) = .ok e from live, M.run_bind_ok (run_orTrap_ok _ _)]
  exact run

/-- An EVACK goes in flight with its answer, and its lease may be closed. -/
def answers (s : State) (key : Nat) (c : Ctx) (f : Firing) (n e : Nat) (i : Instr) (k : OpKind) (closed : Bool) : Prop :=
  ∃ t c', exec i s = .next t ∧ Claims.movedOn t key c f 8 c' ∧ c'.emptyG n = true ∧ (∃ o ∈ t.ops, o.ctx = key ∧ o.dstG = [n] ∧ o.kind = k) ∧
    (closed = true → (t.engine e).closed = true)

/-- EVACK of a lease that is not under notice sends 2. -/
theorem evack_unnoticed {i : Instr} {noticed : Nat → M Unit} (short : instrLen i = 8)
    (acts : exec i s = runInstr i (sAsk x [sA x] [gDst x.d.toNat]) (do
      let key ← curKey
      let c ← curCtx
      let e ← orTrap (leaseOf (← get) key c (← opG .a))
      if ((← get).engine e).notice.isSome then noticed e else issueValue x.d.toNat 2) s)
    (room : s.issueRoom key f) (unnoticed : (s.engine e).notice = none) : answers s key c f x.d.toNat e i (.value 2 []) false := by
  let r := captured i [sA x] x.kg.toNat c f
  let o := s.opOf key f r (.value 2 []) [x.d.toNat] [] 0 0 0
  obtain ⟨c', moved, _, empty, sent⟩ := given_of_sent h (x := x) (v := (s.send o).setCtx key (c.markG x.d.toNat true)) (.refl c)
    ⟨o, List.mem_append_right _ (List.mem_singleton_self o), rfl, rfl, rfl⟩
  refine ⟨_, c', ?_, moved, empty, sent, fun closed => absurd closed Bool.false_ne_true⟩
  refine evack_leaves h on ops live short acts ?_ (State.ctx?_setCtx _ _ _) rfl
  rw [M.run_bind_ok (M.run_get _), show (s.issues (some r)).engine e = s.engine e from rfl, unnoticed]
  exact run_issueValue x.d.toNat 2 (h.issues (some r)) rfl room

/-- EVACK .now of a lease under notice sends 1 from the state that its release leaves. -/
theorem evackNow_sends {u : State} {n : BitVec 16} (becomes : ∀ r, ((s.issues r).creditDone e).releaseLease e 0 = u.issues r)
    (there : u.bears key (c.without e n)) (room : u.issueRoom key f) (noticed : (s.engine e).notice ≠ none) (holder : (u.engine e).holder = none)
    (cmds : (u.engine e).cmds = []) (macros : (u.engine e).ops = []) :
    ∃ t c', exec (.evackNow x) s = .next t ∧ Claims.movedOn t key c f 8 c' ∧ c'.emptyG x.d.toNat = true ∧
      (∃ o ∈ t.ops, o.ctx = key ∧ o.dstG = [x.d.toNat] ∧ o.kind = .value 1 []) ∧ (t.engine e).holder = none ∧ (t.engine e).cmds = [] ∧
      (t.engine e).ops = [] ∧ ∀ r ∈ c'.leases, ¬ (handleEngine r.handle = some e ∧ r.grantSerial = n) := by
  let r := captured (.evackNow x) [sA x] x.kg.toNat c f
  obtain ⟨cur, first, d, slot, stands⟩ := there
  have same : c.undisturbed d := (c.undisturbed_without e n).trans stands
  obtain ⟨g, firing, serial⟩ := serial_of_undisturbed h.firing same
  let o := u.opOf key g r (.value 1 []) [x.d.toNat] [] 0 0 0
  obtain ⟨c', moved, left, empty, sent⟩ := given_of_sent h (x := x) (v := (u.send o).setCtx key (d.markG x.d.toNat true)) same
    ⟨o, List.mem_append_right _ (List.mem_singleton_self o), rfl, rfl, rfl⟩
  have engine := State.engine_completed ((u.send o).setCtx key (d.markG x.d.toNat true)) key ((d.markG x.d.toNat true).advance 8) e
  refine ⟨_, c', ?_, moved, empty, sent, (congrArg Engine.holder engine).trans holder, (congrArg Engine.cmds engine).trans cmds,
    (congrArg Engine.ops engine).trans macros, leases_of_without (d := d.markG x.d.toNat true) stands left⟩
  refine evack_leaves h on ops live rfl rfl ?_ (State.ctx?_setCtx _ _ _) (graph_of_undisturbed same)
  rw [M.run_bind_ok (M.run_get _), show (s.issues (some r)).engine e = s.engine e from rfl, if_pos (Option.isSome_iff_ne_none.mpr noticed),
    M.run_bind_ok (M.run_modify _ _), becomes]
  have issuing : Issuing u key d g := ⟨cur, slot, firing, first⟩
  exact run_issueValue x.d.toNat 1 (issuing.issues (some r)) rfl (by rw [State.issueRoom, serial]; exact room)

/-- EVACK .now of a lease under notice releases it. -/
theorem evackNow_noticed (rises : Claims.enginesRise s) (room : ((s.creditDone e).releaseLease e 0).issueRoom key f)
    (noticed : (s.engine e).notice ≠ none) (held : (s.engine e).holder = some key) :
    ∃ t c', exec (.evackNow x) s = .next t ∧ Claims.movedOn t key c f 8 c' ∧ c'.emptyG x.d.toNat = true ∧
      (∃ o ∈ t.ops, o.ctx = key ∧ o.dstG = [x.d.toNat] ∧ o.kind = .value 1 []) ∧ (t.engine e).holder = none ∧ (t.engine e).cmds = [] ∧
      (t.engine e).ops = [] ∧ ∀ r ∈ c'.leases, ¬ (handleEngine r.handle = some e ∧ r.grantSerial = (s.engine e).serial) := by
  obtain ⟨holder, cmds, macros, _⟩ := ((State.crediting_creditDone rises held).release held 0).1
  have lent : s.lends key c e (s.engine e).serial := ⟨rises, .inl ⟨held, rfl, h.cur, h.first, c, h.ctx, .refl c⟩⟩
  exact evackNow_sends h on ops live (fun r => by rw [State.creditDone_issues, State.releaseLease_issues]) (lent.creditDone.release 0) room noticed holder
    cmds macros

/-- EVACK .drain of a lease under notice that has work closes it, and waits for its end. -/
theorem evackDrain_busy (rises : Claims.enginesRise s) (room : s.issueRoom key f) (noticed : (s.engine e).notice ≠ none)
    (busy : (s.engine e).inflight ≠ 0) : answers s key c f x.d.toNat e (.evackDrain x) (.evack e) true := by
  let r := captured (.evackDrain x) [sA x] x.kg.toNat c f
  let o := s.opOf key f r (.evack e) [x.d.toNat] [] 0 0 0
  let u := ((s.send o).setCtx key (c.markG x.d.toNat true)).setEngine e { s.engine e with closed := true }
  have engine : u.engine e = { s.engine e with closed := true } :=
    State.engine_setEngine (s := (s.send o).setCtx key (c.markG x.d.toNat true)) rises e _
  have settled : (u.issues (some r)).settleLease e = u.issues (some r) := by
    unfold State.settleLease
    dsimp only
    rw [show (u.issues (some r)).engine e = _ from engine]
    exact if_pos busy
  obtain ⟨c', moved, _, empty, sent⟩ := given_of_sent h (x := x) (v := u) (.refl c)
    ⟨o, List.mem_append_right _ (List.mem_singleton_self o), rfl, rfl, rfl⟩
  refine ⟨_, c', ?_, moved, empty, sent, ?_⟩
  · refine evack_leaves h on ops live rfl rfl ?_ (State.ctx?_setCtx _ key _) rfl
    rw [M.run_bind_ok (M.run_get _), show (s.issues (some r)).engine e = s.engine e from rfl, if_pos (Option.isSome_iff_ne_none.mpr noticed),
      M.run_bind_ok (run_issueOp (.evack e) [x.d.toNat] [] 0 0 0 (h.issues (some r)) rfl room)]
    exact congrArg (fun t => Except.ok ((), t)) settled
  · intro _
    rw [State.engine_completed, engine]

end

end

end Sys2Proof.LeaseProofs

open Sys2Proof Sys2Proof.Machine Sys2Proof.LeaseProofs

/-- Settles O44: a released lease leaves its context as it stands, without the record. -/
theorem leaseInstructions : Obligations.LeaseInstructions := by
  intro s key c f x h on rises hd becomes
  exact ⟨fun e ops live alive =>
      ⟨fun noticed => lrenew_acts h on ops live alive (if_neg fun unnoticed => noticed (Option.isNone_iff_eq_none.mp unnoticed)) h.ctx,
        fun unnoticed => lrenew_acts h on ops live alive (if_pos (Option.isNone_iff_eq_none.mpr unnoticed)) h.ctx⟩,
    fun ops => ⟨lfreeHeld_dead h on ops, fun e => lfreeHeld_busy h on rises ops, fun e => lfreeHeld_idle h on rises ops⟩,
    fun ops => ⟨lfreePend_none h on ops, fun o r => lfreePend_some h on ops⟩,
    fun ops => ⟨lqryLease_acts h on ops, fun e live => ⟨fun room unnoticed => ⟨evack_unnoticed h on ops live rfl rfl room unnoticed,
        evack_unnoticed h on ops live rfl rfl room unnoticed⟩, evackNow_noticed h on ops live rises,
      fun room noticed busy => evackDrain_busy h on ops live rises room noticed busy⟩⟩, lqryCls_acts h on⟩

end

section

namespace Sys2Proof.LeaseProofs
open Sys2Proof Sys2Proof.Machine

/-! ## A request that a LEASE of CND 1 finds waiting, of a context that is written out -/

/-- A context that has been written out, with a 1 in e0. -/
noncomputable def outCtx : Ctx := { priv := .u, asid := 1, part := 1, e := [(0, 1)] }
noncomputable def outImage : CtxImage := { addr := 0x100000, key := 40000, part := 1, ctx := outCtx }

/-- It waits for an engine of class 1. -/
noncomputable def waitingRequest : LeaseReq := { id := 50, ctx := 40000, cls := 1, cluster := 0, prio := 1, hold := 5, ectr := 0, tick := 0 }

/-- A context that asks for an engine of class 0 in its own cluster. -/
noncomputable def askingFiring : Firing := { pc := 0, serial := 0, entry := 16 }
noncomputable def askingCtx : Ctx := { priv := .u, asid := 1, part := 1, firing := some askingFiring, g := [(21, 0x50020)] }
noncomputable def tryForm : SForm := { SForm.ofWord 0 with d := 9, a := 21, cnd := 1 }
noncomputable def tryRequest : LeaseReq := { id := 0, ctx := 0, cls := 0, cluster := 0, prio := 1, hold := 5, ectr := 0, tick := 0 }

/-- The machine after reset with cluster 0 on and those. -/
noncomputable def imageSt : State :=
  { State.reset with
    cur := some 0, ctxs := [(0, askingCtx)], clusters := [(0, { state := .on, en := true, pgood := true, homeaway := false })],
    parts := [(1, { isOpen := true })], images := [outImage], requests := [waitingRequest] }

/-- A request joins the queue. -/
noncomputable def asking (s : State) (r : LeaseReq) : State := { s with fresh := s.fresh + 1, requests := s.requests ++ [r] }

/-- The state once the cycle has granted what it owes, and then the LEASE is granted: memory is as the earlier grants left it. -/
theorem lease_tries {s due : State} {key e : Nat} {c : Ctx} {f : Firing} {x : SForm} {r : LeaseReq} {served : List (Nat × Nat)} {w : ReplayEntry} (h : Issuing s key c f)
    (on : c.guardOn x.kg) (ops : Operands s key c [sA x] [gDst x.d.toNat]) (tries : x.cnd = 1)
    (made : s.leaseRequest key c (c.rg x.a.toNat) (x.imm.toNat % 4) = .ok r) (own : r.ctx = key) (only : r.only = none)
    (captures : w = captured (.lease x) [sA x] x.kg.toNat c f)
    (owed : (s.issues (some w)).grantDue s.requests.length [] = (due, served)) (issues : due.issuing = some w) (still : Issuing due key c f) (room : due.issueRoom key f)
    (rises : Map.risesFrom 0 due.engines = true) (next : due.grantable r = true) (free : served.contains (r.cls, r.cluster) = false)
    (pick : due.pickEngine r = some e) : ∃ t, exec (.lease x) s = .next t ∧ t.mem = due.mem := by
  subst captures own
  let w := captured (.lease x) [sA x] x.kg.toNat c f
  let v := asking due r
  let u := (v.send (v.opOf r.ctx f w (.lease r.id) [x.d.toNat] [] 0 0 0)).setCtx r.ctx (c.markG x.d.toNat true)
  have there := h.issues (some w)
  obtain ⟨en, _, granted⟩ := State.grant_spec (s := u) (r := r) (e := e) rises pick
    (State.ctx?_setCtx _ _ _) only
  have slot : (u.grant r).ctx? r.ctx = some ((c.markG x.d.toNat true).leasing r e (due.engine e).serial) := by
    rw [granted]
    exact State.ctx?_setCtx _ _ _
  refine ⟨_, runInstr_ready (a := sAsk x [sA x] [gDst x.d.toNat]) h (Nat.not_lt_zero _) (fun _ => on) ops ?_ slot rfl, ?_⟩
  · show StateT.run _ (s.issues (some w)) = _
    rw [M.run_bind_ok (run_curKey there.cur), M.run_bind_ok (run_curCtx there.cur there.ctx), M.run_bind_ok (M.run_get _)]
    refine (run_readS s (.lease x) c f x x.kg.toNat _).trans ?_
    show StateT.run _ (s.issues (some w)) = _
    rw [show (s.issues (some w)).leaseRequest r.ctx c (c.rg x.a.toNat) (sImm x % 4) = .ok r from made]
    dsimp only
    have granting : (decide (x.cnd = 1) && (!due.grantable r || served.contains (r.cls, r.cluster))) = false := by
      rw [show due.grantable r = true from next, free]
      exact Bool.and_false _
    rw [M.run_bind_ok (M.run_get _), if_pos tries, show (s.issues (some w)).requests = s.requests from rfl, owed]
    dsimp only
    rw [M.run_bind_ok (M.run_set _ _), if_neg (Bool.eq_false_iff.mp granting), M.run_bind_ok (M.run_set _ _)]
    have issuing : Issuing v r.ctx c f := ⟨still.cur, still.ctx, still.firing, still.first⟩
    refine (M.run_bind_ok (run_issueOp (.lease r.id) [x.d.toNat] [] 0 0 0 issuing issues room)).trans ?_
    rw [if_pos tries]
    rfl
  · rw [State.mem_completed, granted]
    rfl

/-- A change of a context that is written out puts its e0 into the image. -/
theorem modOwner_saves {s : State} {k : Nat} {i : CtxImage} {f : Ctx → Ctx} (out : s.ctx? k = none)
    (image : (s.images.find? fun i => i.key == k) = some i) (low : i.addr < 2 ^ 38) (wf : s.memWf) :
    Memory.read (s.modOwner k f).mem (i.addr + 9104) = BitVec.ofNat 8 (Map.get 0 (f (i.read s.mem)).e 0).toNat := by
  unfold State.modOwner
  rw [out, image]
  dsimp only [State.modImage, CtxImage.store]
  rw [if_neg (Nat.not_le.mpr low)]
  refine (Memory.read_writeBytes_inside _ _ (i.addr + 9104) 0 (Memory.wf_writeBytes _ _ _ wf) ?_).trans ?_
  · exact Nat.lt_of_sub_eq_succ rfl
  · rfl

/-- So does a grant for such a context, whose new lease leaves its e registers. -/
theorem grant_saves {s : State} {r : LeaseReq} {e : Nat} {i : CtxImage} (rises : Map.risesFrom 0 s.engines = true) (pick : s.pickEngine r = some e)
    (out : s.ctx? r.ctx = none) (image : (s.images.find? fun i => i.key == r.ctx) = some i) (low : i.addr < 2 ^ 38) (wf : s.memWf) :
    Memory.read (s.grant r).mem (i.addr + 9104) = BitVec.ofNat 8 (Map.get 0 (i.read s.mem).e 0).toNat := by
  have owner : s.owner? r.ctx = some (i.read s.mem) := by
    unfold State.owner?
    rw [out, image]
    rfl
  have room : ∃ en, (if (s.engine e).power.isDozing = true then s else s.makeRoom r.cls r.cluster) = s.withEngines en := by
    split
    · exact ⟨s.engines, rfl⟩
    · obtain ⟨en, -, made⟩ := State.makeRoom_spec rises r.cls r.cluster
      exact ⟨en, made⟩
  obtain ⟨en, made⟩ := room
  unfold State.grant
  rw [pick, owner]
  dsimp only
  rw [made]
  exact modOwner_saves (s := (s.withEngines en).setEngine e _) (f := fun c => { c with leases := c.leases ++ [_] }) out image low wf

/-- The state as the LEASE of `imageSt` issues. -/
noncomputable def issuingSt : State := imageSt.issues (some (captured (.lease tryForm) [sA tryForm] 0 askingCtx askingFiring))

theorem issuingSt_grant_writes : Memory.read (issuingSt.grant waitingRequest).mem (0x100000 + 9104) = 1 :=
  grant_saves (i := outImage) rfl rfl rfl rfl (by decide) rfl

theorem issuingSt_grantDue : issuingSt.grantDue 1 [] = (issuingSt.grant waitingRequest, [(1, 0)]) := by rfl

end Sys2Proof.LeaseProofs

open Sys2Proof Sys2Proof.Machine Sys2Proof.LeaseProofs

/-- Refutes O43: a LEASE of CND 1 that is granted is to leave memory as it is, but an earlier request that the cycle grants first may be one of a context
that is written out, whose image takes its lease. In `imageSt` that writes the 1 of the image's e0, where memory held 0. -/
theorem not_leaseRequests : ¬ Obligations.LeaseRequests := by
  rintro ⟨requests, -⟩
  have h : Issuing imageSt 0 askingCtx askingFiring := ⟨rfl, rfl, rfl, rfl⟩
  have on : askingCtx.guardOn tryForm.kg := by unfold Ctx.guardOn; decide
  have ops : Operands imageSt 0 askingCtx [sA tryForm] [gDst tryForm.d.toNat] := ⟨by decide, by decide, by decide⟩
  have made : imageSt.leaseRequest 0 askingCtx (askingCtx.rg tryForm.a.toNat) (tryForm.imm.toNat % 4) = .ok tryRequest := rfl
  have room : imageSt.issueRoom 0 askingFiring := by unfold State.issueRoom; decide
  have still : Issuing (issuingSt.grant waitingRequest) 0 askingCtx askingFiring := ⟨rfl, rfl, rfl, rfl⟩
  obtain ⟨-, grants⟩ := requests _ _ _ _ _ h on ops
  obtain ⟨-, tries⟩ := grants _ made
  obtain ⟨-, granted⟩ := tries rfl askingCtx still.ctx
  obtain ⟨t, _, run, -, mem, -⟩ := granted rfl rfl room
  obtain ⟨t', run', mem'⟩ := lease_tries (e := 0) h on ops rfl made rfl rfl rfl issuingSt_grantDue rfl still room rfl rfl rfl rfl
  cases run.symm.trans run'
  have saved := issuingSt_grant_writes
  rw [← mem', mem] at saved
  exact absurd saved (by decide)

end
